-- ==== Sys2Proof/Word.lean ====
section
/-!
DEFINITION. The word types of the block and the shape of sparse storage.
The spec numbers registers in 32-bit words (rule R10) and kernel instructions in 64-bit words (rule R162).
-/
namespace Sys2Proof

/-- One byte of any memory. -/
abbrev Byte := BitVec 8
/-- A register of the register space (rule R10), a lane of the generator (rule R103). -/
abbrev Word := BitVec 32
/-- A kernel instruction word (rule R162). -/
abbrev DWord := BitVec 64

/-- Sparse storage of like things by number: pairs with strictly rising keys. -/
abbrev SMap (α : Type) := List (Nat × α)

/-- A sequence of bytes, lowest address first. -/
abbrev Bytes := List Byte

end Sys2Proof
end

