-- ==== Sys2Proof/Syntax.lean ====
section
/-!
DEFINITION. The commands of the block: one constructor per row of spec/opcode_table.json. The table gives no fields; a
constructor's operands are what the row's rule needs to say what happened: which unit, and what the event reports.
-/
namespace Sys2Proof

/-- The three kernel streams of a tile (rule R109). -/
inductive KStream where
  | f | b | u
deriving DecidableEq, Repr

/-- Where a command packet came from: the ring of a function (rule R371) or a Spire port (rule R298). -/
inductive Src where
  | ring (fn : Nat)
  | link (port : Nat)
deriving DecidableEq, Repr

/-- Where an error-correcting code found something in a tile (rules R112, R165, R189): a 64-bit word of the tile store by its
byte address, an entry of a bank, a word of the instruction buffer or of a table. -/
inductive EccSite where
  | store (addr : Nat)
  | bank (bank entry : Nat)
  | program
deriving DecidableEq, Repr

/-- One finding of a tile's SECDED code: corrected, or a double-bit error (rule R112). -/
structure EccHit where
  site : EccSite
  double : Bool
deriving DecidableEq, Repr

/-- What a checker of the vector engine or the conversion unit observed (rules R159, R160, R211): nothing amiss, a reduction or
comparator mismatch, or a lane or element whose two result words differ. -/
inductive CheckObs where
  | agree
  | reduction
  | lane (value check : Nat)
deriving DecidableEq, Repr

/-- What the memory system observed on one access (rules R239, R240, R242, R250): the byte address within its pseudo-channel. -/
inductive MemObs where
  | corrected (pc addr : Nat)
  | uncorrectable (pc addr : Nat)
  | cacheCorrected (wing : Nat)
  | cacheCleanUe (wing line : Nat)
  | cacheDirtyUe (wing line way offset : Nat)
deriving DecidableEq, Repr

/-- A link of the on-chip network (rule R265): a tile's port, a wing link from wing w to w + 1, a bridge segment from wing w to w + 4, a
wing's memory port, a Spire port's link. -/
inductive NetLink where
  | tile (t : Nat)
  | wing (w : Nat)
  | bridge (w : Nat)
  | memory (w : Nat)
  | spire (p : Nat)
deriving DecidableEq, Repr

/-- What the network observed of one transaction (rule R270): a slot of a link that carried a route id, forwards or back; or a
pseudo-channel that an access fell on at a memory port. -/
inductive NetObs where
  | slot (link : NetLink) (back : Bool) (slot route : Nat)
  | access (pc : Nat)
deriving DecidableEq, Repr

/-- What the forward error correction found in the codewords that a flit overlaps (rule R289). -/
inductive FecObs where
  | clean
  | corrected (codewords : Nat)
  | uncorrectable (codewords : Nat)
deriving DecidableEq, Repr

/-- How a fast retrain ended (rule R285): with its lanes qualified, without a result, or with another far end found. -/
inductive FastResult where
  | done
  | failed
  | newFar
deriving DecidableEq, Repr

/-- A clock-domain crossing by the unit whose clock stopped (rules R360, R365, R482). -/
inductive CrossingId where
  | tile (t : Nat)
  | wing (w : Nat)
  | spire (p : Nat)
  | network
  | hall
  | cupola
deriving DecidableEq, Repr

/-- What every meter and sensor shows when the telemetry is latched (rules R506, R507). -/
structure Telemetry where
  inputMv : Nat := 0
  lowMv : Nat := 0xFFFF
  inputMa : Nat := 0
  temps : List Int := []
  rails : List Nat := []
  tileUj : List Nat := []
  wingUj : List Nat := []
  portUj : List Nat := []
  commonUj : Nat := 0
  totalUj : Nat := 0
deriving DecidableEq, Repr

/-- The commands, in the order of spec/opcode_table.json. -/
inductive Instr where
  | nop (tile : Nat) (s : KStream)  -- NOP, R163
  | qin (tile : Nat) (s : KStream)  -- QIN, R171
  | qout (tile : Nat) (s : KStream)  -- QOUT, R171
  | wait (tile : Nat) (s : KStream)  -- WAIT, R173
  | waitSatisfied (tile : Nat) (s : KStream)  -- WAIT_SATISFIED, R173
  | take (tile : Nat) (s : KStream)  -- TAKE, R126
  | takeComplete (tile : Nat) (s : KStream)  -- TAKE_COMPLETE, R126
  | pass (tile : Nat) (s : KStream)  -- PASS, R126
  | mm (tile : Nat) (s : KStream) (ecc : List EccHit)  -- MM, R196
  | cellSpill (tile cell : Nat) (dup : Int) (ecc : List EccHit)  -- CELL_SPILL, R121
  | mmPassComplete (tile : Nat)  -- MM_PASS_COMPLETE, R196
  | passCheckVerdict (tile : Nat) (err : Int)  -- PASS_CHECK_VERDICT, R122
  | vop (tile : Nat) (s : KStream) (ecc : List EccHit)  -- VOP, R201
  | vred (tile : Nat) (s : KStream) (ecc : List EccHit)  -- VRED, R204
  | veCheckVerdict (tile : Nat) (obs : CheckObs)  -- VE_CHECK_VERDICT, R161
  | cvt (tile : Nat) (s : KStream) (ecc : List EccHit)  -- CVT, R210
  | cvtCheckVerdict (tile : Nat) (obs : CheckObs)  -- CVT_CHECK_VERDICT, R211
  | dig (tile : Nat) (s : KStream) (ecc : List EccHit)  -- DIG, R213
  | mark (tile : Nat) (s : KStream)  -- MARK, R178
  | markDrainComplete (tile : Nat) (s : KStream)  -- MARK_DRAIN_COMPLETE, R178
  | bellwait (tile : Nat) (s : KStream)  -- BELLWAIT, R182
  | bellwaitComplete (tile : Nat) (s : KStream)  -- BELLWAIT_COMPLETE, R182
  | loop (tile : Nat) (s : KStream)  -- LOOP, R183
  | instructionFetch (tile : Nat) (s : KStream) (words : Nat) (ecc : List EccHit) (obs : List MemObs)  -- INSTRUCTION_FETCH, R165
  | kernelOverrun (tile : Nat) (s : KStream)  -- KERNEL_OVERRUN, R181
  | stepGateOpen (tile : Nat) (s : KStream)  -- STEP_GATE_OPEN, R179
  | scaleRecordsWrite (suite tensor step : Nat)  -- SCALE_RECORDS_WRITE, R97
  | scaleDecision (suite tensor step : Nat)  -- SCALE_DECISION, R98
  | landingTransactionStart (tile landing : Nat) (ecc : List EccHit) (net : List NetObs)  -- LANDING_TRANSACTION_START, R253
  | transactionComplete (entry tag : Nat) (obs : List MemObs) (dup : Int) (ecc : List EccHit)  -- TRANSACTION_COMPLETE, R172
  | patrolScrub (pc addr : Nat) (obs : List MemObs)  -- PATROL_SCRUB, R241
  | onlineRowRepair (pc row : Nat)  -- ONLINE_ROW_REPAIR, R243
  | rowRepairComplete (pc row : Nat) (obs : List MemObs)  -- ROW_REPAIR_COMPLETE, R243
  | hbmTempReading (wing : Nat) (temp : Int) (onDie : Nat)  -- HBM_TEMP_READING, R245
  | refreshRateChange (wing : Nat)  -- REFRESH_RATE_CHANGE, R245
  | perBankRefresh (wing bank : Nat)  -- PER_BANK_REFRESH, R245
  | refreshManagement (wing bank : Nat)  -- REFRESH_MANAGEMENT, R236
  | cacheEviction (wing line : Nat) (obs : List MemObs)  -- CACHE_EVICTION, R251
  | streamTimeout (entry tag : Nat)  -- STREAM_TIMEOUT, R273
  | inputTimeout (entry tag : Nat)  -- INPUT_TIMEOUT, R272
  | disableDrainExpiry (entry : Nat)  -- DISABLE_DRAIN_EXPIRY, R276
  | flitReceive (port : Nat) (flit : Bytes) (fec : FecObs)  -- FLIT_RECEIVE, R288
  | nak (port ackSeq : Nat)  -- NAK, R290
  | retryBudgetSpent (port : Nat)  -- RETRY_BUDGET_SPENT, R290
  | dataFlit (port : Nat) (body : Bytes) (ecc : List EccHit)  -- DATA_FLIT, R293
  | mgmtPacket (port : Nat) (packet : Bytes)  -- MGMT_PACKET, R298
  | credit (port : Nat) (rec : Bytes)  -- CREDIT, R294
  | ack (port : Nat) (rec : Bytes)  -- ACK, R294
  | timeoutNotice (port : Nat) (rec : Bytes)  -- TIMEOUT_NOTICE, R274
  | disableNotice (port : Nat) (rec : Bytes)  -- DISABLE_NOTICE, R276
  | linkCredit (port : Nat) (rec : Bytes)  -- LINK_CREDIT, R296
  | sync (port : Nat) (rec : Bytes) (edge : Int) (residence : Nat)  -- SYNC, R349
  | delayReq (port : Nat) (rec : Bytes) (residence : Nat)  -- DELAY_REQ, R348
  | delayResp (port : Nat) (rec : Bytes) (trip : Nat)  -- DELAY_RESP, R348
  | syncSend (port offset : Nat)  -- SYNC_SEND, R348
  | delayReqSend (port : Nat)  -- DELAY_REQ_SEND, R348
  | syncLoss  -- SYNC_LOSS, R351
  | bellRefLoss (present : Bool)  -- BELL_REF_LOSS, R344
  | bellRefReturn  -- BELL_REF_RETURN, R351
  | bellSlotValue (event : Nat)  -- BELL_SLOT_VALUE, R356
  | cdcTimeout (crossing : CrossingId)  -- CDC_TIMEOUT, R360
  | crossingResync (crossing : CrossingId)  -- CROSSING_RESYNC, R362
  | laneFailed (port lane : Nat) (tx : Bool)  -- LANE_FAILED, R285
  | fastRetrainComplete (port : Nat) (txOk rxOk : Nat) (result : FastResult)  -- FAST_RETRAIN_COMPLETE, R285
  | fullRetrainComplete (port : Nat) (txOk rxOk : Nat) (far : Bytes)  -- FULL_RETRAIN_COMPLETE, R285
  | bringupTrainingComplete (port : Nat) (txOk rxOk : Nat) (far : Bytes)  -- BRINGUP_TRAINING_COMPLETE, R283
  | downPortRetry (port : Nat)  -- DOWN_PORT_RETRY, R283
  | capacityTable (port : Nat) (table : Bytes)  -- CAPACITY_TABLE, R286
  | plannedSwitchover (port : Nat)  -- PLANNED_SWITCHOVER, R303
  | switchoverComplete (port : Nat)  -- SWITCHOVER_COMPLETE, R303
  | unplannedSwitchover (port : Nat)  -- UNPLANNED_SWITCHOVER, R304
  | lanternInserted (lantern serial model hours : Nat) (first : List Int)  -- LANTERN_INSERTED, R306
  | lanternRemoved (lantern : Nat)  -- LANTERN_REMOVED, R310
  | lanternAuthentication (lantern : Nat) (proof : Bytes)  -- LANTERN_AUTHENTICATION, R305
  | lanternWarmupComplete (lantern : Nat) (levels : List Int) (offGrid : Bool) (rose : List Nat)  -- LANTERN_WARMUP_COMPLETE, R306
  | lanternHealthCheck (lantern : Nat) (levels : List Int) (hours : Nat)  -- LANTERN_HEALTH_CHECK, R307
  | heartbeat (worker : Nat)  -- HEARTBEAT, R319
  | managerLost  -- MANAGER_LOST, R319
  | workerLost (worker : Nat)  -- WORKER_LOST, R319
  | voteBell (suite : Nat)  -- VOTE_BELL, R329
  | voteTimeout (job : Nat)  -- VOTE_TIMEOUT, R329
  | haltBell (suite : Nat)  -- HALT_BELL, R335
  | takeoverTransferComplete (suite : Nat) (ok : Bool) (data : List (Nat × Bytes)) (scale : Bytes)  -- TAKEOVER_TRANSFER_COMPLETE, R331
  | jobRestoreComplete (suite : Nat) (obs : List MemObs)  -- JOB_RESTORE_COMPLETE, R337
  | broadcastReplyTimeout (tag : Nat)  -- BROADCAST_REPLY_TIMEOUT, R378
  | evalWindowBell (event : Nat)  -- EVAL_WINDOW_BELL, R232
  | evalWindowStart (suite : Nat)  -- EVAL_WINDOW_START, R232
  | evalProgramsComplete (suite : Nat)  -- EVAL_PROGRAMS_COMPLETE, R232
  | checkpointBell (event : Nat)  -- CHECKPOINT_BELL, R441
  | checkpointCopyComplete (suite : Nat) (obs : List MemObs)  -- CHECKPOINT_COPY_COMPLETE, R441
  | sliceBoundary (suite : Nat)  -- SLICE_BOUNDARY, R429
  | gangBell (event : Nat)  -- GANG_BELL, R439
  | streamRelease (tile : Nat) (s : KStream)  -- STREAM_RELEASE, R434
  | tileSaveComplete (tile : Nat)  -- TILE_SAVE_COMPLETE, R436
  | resumeRestoreComplete (suite : Nat) (obs : List MemObs)  -- RESUME_RESTORE_COMPLETE, R437
  | foldSwap (tile next : Nat) (obs : List MemObs)  -- FOLD_SWAP, R416
  | checkRepeatComplete (tile value check : Nat)  -- CHECK_REPEAT_COMPLETE, R453
  | thirdRunComplete (tile value check : Nat)  -- THIRD_RUN_COMPLETE, R453
  | resolutionTimeout (tile : Nat)  -- RESOLUTION_TIMEOUT, R453
  | atticWrite (faultEvent : Bool)  -- ATTIC_WRITE, R512
  | powerOn (mv : Nat)  -- POWER_ON, R470
  | powerLoss  -- POWER_LOSS, R513
  | wakePin (held : Nat)  -- WAKE_PIN, R504
  | railsInRegulation (fusesOk : Bool)  -- RAILS_IN_REGULATION, R471
  | railRegulationTimeout  -- RAIL_REGULATION_TIMEOUT, R476
  | firmwareVerified (okA okB : Bool)  -- FIRMWARE_VERIFIED, R486
  | stackTrainingComplete (wing : Nat) (passed : Bool)  -- STACK_TRAINING_COMPLETE, R474
  | memoryTestComplete (wing : Nat) (rows : List (Nat × Nat))  -- MEMORY_TEST_COMPLETE, R474
  | knownAnswerRunComplete (tile : Nat) (result : Bytes) (disagreed : Bool)  -- KNOWN_ANSWER_RUN_COMPLETE, R475
  | deviceDrainComplete  -- DEVICE_DRAIN_COMPLETE, R482
  | tileResetComplete (tile : Nat)  -- TILE_RESET_COMPLETE, R479
  | wingDrainExpiry (wing : Nat)  -- WING_DRAIN_EXPIRY, R480
  | wingResetComplete (wing : Nat)  -- WING_RESET_COMPLETE, R480
  | suiteDrainComplete (suite : Nat)  -- SUITE_DRAIN_COMPLETE, R481
  | hallWatchdog  -- HALL_WATCHDOG, R482
  | fwActivation  -- FW_ACTIVATION, R488
  | fwActivationTimeout  -- FW_ACTIVATION_TIMEOUT, R488
  | fwConfirmation  -- FW_CONFIRMATION, R486
  | supplyWarn (mv low : Nat)  -- SUPPLY_WARN, R498; filtered, and the lowest unfiltered sample
  | supplyWarnClear (durUs low : Nat)  -- SUPPLY_WARN_CLEAR, R498; the lowest unfiltered sample of the episode
  | dip (mv durUs : Nat)  -- DIP, R498
  | brownOut (mv : Nat)  -- BROWN_OUT, R499; the lowest unfiltered sample in mV
  | brownoutRecoveryWake  -- BROWNOUT_RECOVERY_WAKE, R500
  | overvolt (mv : Nat)  -- OVERVOLT, R498
  | overvoltClear (mv : Nat)  -- OVERVOLT_CLEAR, R498
  | throttle (sensor : Nat) (temp : Int)  -- THROTTLE, R502
  | throttleClear  -- THROTTLE_CLEAR, R502
  | coolantHot (temp : Int)  -- COOLANT_HOT, R502
  | coolantHotClear (temp : Int)  -- COOLANT_HOT_CLEAR, R502
  | thermalShutdown (sensor : Nat) (temp : Int)  -- THERMAL_SHUTDOWN, R502
  | thermalRecoveryWake  -- THERMAL_RECOVERY_WAKE, R502
  | tileDroop (tile : Nat)  -- TILE_DROOP, R496
  | tileCurrentLimit (tile : Nat)  -- TILE_CURRENT_LIMIT, R496
  | tileTempStepDown (tile : Nat) (temp : Int)  -- TILE_TEMP_STEP_DOWN, R496
  | tileTempStepUp (tile : Nat) (temp : Int)  -- TILE_TEMP_STEP_UP, R496
  | tileIssuePause (tile : Nat) (temp : Int)  -- TILE_ISSUE_PAUSE, R496
  | telemetrySample (sample : Telemetry)  -- TELEMETRY_SAMPLE, R507
  | sqTailDoorbell (fn value : Nat)  -- SQ_TAIL_DOORBELL, R373
  | cqHeadDoorbell (fn value : Nat)  -- CQ_HEAD_DOORBELL, R374
  | ringEnable (fn value : Nat)  -- RING_ENABLE, R371
  | ringDisable (fn value : Nat)  -- RING_DISABLE, R385
  | eventPost (fn : Nat)  -- EVENT_POST, R375
  | relayedPacket (src : Src) (tag : Nat)  -- RELAYED_PACKET, R377
  | readyStepWrite (fn suite value : Nat)  -- READY_STEP_WRITE, R272
  | restart (mv : Nat)  -- RESTART, R515
  | rcRead (fn addr size : Nat)  -- RC_READ, R9
  | loReadLatch (fn addr size : Nat)  -- LO_READ_LATCH, R522
  | registerWrite (fn addr value size : Nat)  -- REGISTER_WRITE, R530
  | hello (src : Src) (tag : Nat)  -- HELLO, R379
  | getInfo (src : Src) (tag : Nat)  -- GET_INFO, R387
  | wake (src : Src) (tag : Nat)  -- WAKE, R393
  | sleep (src : Src) (tag : Nat)  -- SLEEP, R393
  | reset (src : Src) (tag : Nat)  -- RESET, R393
  | disableUnit (src : Src) (tag : Nat)  -- DISABLE_UNIT, R393
  | enableUnit (src : Src) (tag : Nat)  -- ENABLE_UNIT, R393
  | createSuite (src : Src) (tag : Nat)  -- CREATE_SUITE, R394
  | deleteSuite (src : Src) (tag : Nat) (obs : List MemObs)  -- DELETE_SUITE, R394
  | loadImage (src : Src) (tag : Nat)  -- LOAD_IMAGE, R421
  | bindInputs (src : Src) (tag : Nat)  -- BIND_INPUTS, R394
  | inputWrite (src : Src) (tag : Nat)  -- INPUT_WRITE, R394
  | start (src : Src) (tag : Nat)  -- START, R321
  | preempt (src : Src) (tag : Nat)  -- PREEMPT, R433
  | resume (src : Src) (tag : Nat)  -- RESUME, R395
  | stop (src : Src) (tag : Nat)  -- STOP, R395
  | jobRanks (src : Src) (tag : Nat)  -- JOB_RANKS, R395
  | evalAt (src : Src) (tag : Nat)  -- EVAL_AT, R395
  | sliceSet (src : Src) (tag : Nat)  -- SLICE_SET, R395
  | checkpointAt (src : Src) (tag : Nat)  -- CHECKPOINT_AT, R396
  | checkpointList (src : Src) (tag : Nat)  -- CHECKPOINT_LIST, R396
  | checkpointRead (src : Src) (tag : Nat)  -- CHECKPOINT_READ, R396
  | checkpointWrite (src : Src) (tag : Nat)  -- CHECKPOINT_WRITE, R396
  | digestRead (src : Src) (tag : Nat)  -- DIGEST_READ, R397
  | runRecordRead (src : Src) (tag : Nat)  -- RUN_RECORD_READ, R463
  | managerRole (src : Src) (tag : Nat)  -- MANAGER_ROLE, R314
  | workerAttach (src : Src) (tag : Nat)  -- WORKER_ATTACH, R317
  | workerDetach (src : Src) (tag : Nat)  -- WORKER_DETACH, R398
  | spareAssign (src : Src) (tag : Nat)  -- SPARE_ASSIGN, R398
  | expel (src : Src) (tag : Nat)  -- EXPEL, R331
  | takeover (src : Src) (tag : Nat)  -- TAKEOVER, R331
  | gangAtBell (src : Src) (tag : Nat)  -- GANG_AT_BELL, R439
  | haltAtBell (src : Src) (tag : Nat)  -- HALT_AT_BELL, R335
  | poisonNotice (src : Src) (tag : Nat)  -- POISON_NOTICE, R334
  | voteRecord (src : Src) (tag : Nat)  -- VOTE_RECORD, R329
  | verdict (src : Src) (tag : Nat)  -- VERDICT, R330
  | jobMap (src : Src) (tag : Nat)  -- JOB_MAP, R321
  | records (src : Src) (tag : Nat)  -- RECORDS, R327
  | faultList (src : Src) (tag : Nat)  -- FAULT_LIST, R449
  | faultRead (src : Src) (tag : Nat)  -- FAULT_READ, R449
  | signatureRead (src : Src) (tag : Nat)  -- SIGNATURE_READ, R462
  | signatureCollect (src : Src) (tag : Nat)  -- SIGNATURE_COLLECT, R399
  | faultAck (src : Src) (tag : Nat)  -- FAULT_ACK, R449
  | fwStage (src : Src) (tag : Nat)  -- FW_STAGE, R487
  | fwBlock (src : Src) (tag : Nat)  -- FW_BLOCK, R487
  | fwMissing (src : Src) (tag : Nat)  -- FW_MISSING, R399
  | fwActivate (src : Src) (tag : Nat)  -- FW_ACTIVATE, R399
  | fwStatus (src : Src) (tag : Nat)  -- FW_STATUS, R399
  | bellGet (src : Src) (tag : Nat)  -- BELL_GET, R364
  | eventList (src : Src) (tag : Nat)  -- EVENT_LIST, R354
  | bellSlotSet (src : Src) (tag : Nat)  -- BELL_SLOT_SET, R356
  | eventCancel (src : Src) (tag : Nat)  -- EVENT_CANCEL, R399
  | powerInfo (src : Src) (tag : Nat)  -- POWER_INFO, R399
  | tileClockCap (src : Src) (tag : Nat)  -- TILE_CLOCK_CAP, R495
  | supplyPolicy (src : Src) (tag : Nat)  -- SUPPLY_POLICY, R495
  | lanternInfo (src : Src) (tag : Nat)  -- LANTERN_INFO, R399
  | lanternRelease (src : Src) (tag : Nat)  -- LANTERN_RELEASE, R310
  | lanternCheck (src : Src) (tag : Nat)  -- LANTERN_CHECK, R399
  | tensorRead (src : Src) (tag : Nat)  -- TENSOR_READ, R400
  | streamRead (src : Src) (tag : Nat)  -- STREAM_READ, R261
  | portRetrain (src : Src) (tag : Nat)  -- PORT_RETRAIN, R400
  | knownAnswer (src : Src) (tag : Nat)  -- KNOWN_ANSWER, R400
  | perstAssert  -- PERST_ASSERT, R543
  | linkDown  -- LINK_DOWN, R543
  | d3hot (fn : Nat)  -- D3HOT, R548
  | bypass  -- BYPASS, R547
  | samplePreload (pins : List Nat)  -- SAMPLE_PRELOAD, R547
  | extest  -- EXTEST, R547
  | mctpControl (msg : Bytes)  -- MCTP_CONTROL, R546
  | pldmSensorRead (sensor : Nat)  -- PLDM_SENSOR_READ, R546
  | pldmFirmwareInventory  -- PLDM_FIRMWARE_INVENTORY, R490
  | pldmFirmwareUpdate (offset : Nat) (data : Bytes) (last : Bool)  -- PLDM_FIRMWARE_UPDATE, R490
  | activateFirmware  -- ACTIVATE_FIRMWARE, R477
  | pollForPlatformEventMessage (ackTo : Nat)  -- POLL_FOR_PLATFORM_EVENT_MESSAGE, R462
  | getVersion (msg : Bytes)  -- GET_VERSION, R490
  | getCapabilities (msg : Bytes)  -- GET_CAPABILITIES, R490
  | negotiateAlgorithms (msg : Bytes)  -- NEGOTIATE_ALGORITHMS, R490
  | getDigests (msg : Bytes)  -- GET_DIGESTS, R490
  | getCertificate (msg : Bytes)  -- GET_CERTIFICATE, R490
  | challenge (msg : Bytes)  -- CHALLENGE, R490
  | getMeasurements (msg : Bytes)  -- GET_MEASUREMENTS, R490
  | bellEdge  -- BELL_EDGE, R343
  | perstDeassert  -- PERST_DEASSERT, R543
  | d0 (fn : Nat)  -- D0, R548
  | hallServesAgain  -- HALL_SERVES_AGAIN, R488
  | bulkCommandComplete (src : Src) (tag : Nat) (obs : List MemObs)  -- BULK_COMMAND_COMPLETE, R390
  | droopRecovery (tile : Nat)  -- DROOP_RECOVERY, R496
  | issuePauseEnd (tile : Nat) (temp : Int)  -- ISSUE_PAUSE_END, R496
  | atticWriteComplete  -- ATTIC_WRITE_COMPLETE, R510
  | cupolaMirrorCopy  -- CUPOLA_MIRROR_COPY, R505
  | lanternMirrorRefresh  -- LANTERN_MIRROR_REFRESH, R535
deriving DecidableEq, Repr

end Sys2Proof
end

