-- ==== Sys2Proof/Decode.lean ====
section
/-!
DEFINITION. The command that a word spells. The rows of the table of commands give no bits, so no word spells a command.
-/
namespace Sys2Proof

/-- No row of the table of commands gives bits: every word is turned away. -/
def decodeTableWord (_nbits _w : Nat) : Option Instr := none

end Sys2Proof
end

