-- ==== Sys2Proof/Config.lean ====
section
/-!
DEFINITION. What the spec leaves open: free values, constants without a body. No proof can see one, so a claim that
mentions one holds whatever it is. notes/assumptions/2.md names each.
-/
namespace Sys2Proof.Config

/-- The local cycle counter of the detecting domain at a fault (rules R358, R446): draw `n`. -/
opaque localCycle (n : Nat) : Nat
/-- Which of the 64 sensors is nearest to a unit (rule R446): unit class and index. -/
opaque nearestSensor (unitClass unitIndex : Nat) : Nat
/-- Which rail is a unit's local rail (rule R446). -/
opaque localRail (unitClass unitIndex : Nat) : Nat
/-- A nonce of a challenge (rules R305, R490): draw `n`. -/
opaque nonce (n : Nat) : List (BitVec 8)
/-- Whether a certificate chain or signature verifies (rules R305, R485, R490): key material and message. -/
opaque verifies (key message : List (BitVec 8)) : Bool
/-- The signature the module's key makes of a message (rule R490). -/
opaque signs (message : List (BitVec 8)) : List (BitVec 8)
/-- The SHA-384 of the image that a flash slot holds from the factory (rules R484, R490). -/
opaque factoryDigest (slot : Nat) : List (BitVec 8)
/-- The certificate chain of the module (rule R490). -/
opaque certificate : List (BitVec 8)
/-- The golden result of the known-answer kernel (rule R475). -/
opaque karGolden : List (BitVec 8)
/-- Answers whose bytes the spec does not give: which request, draw `n`. -/
opaque answer (request n : Nat) : List (BitVec 8)
/-- A value the spec leaves open: which kind of value, draw `n`. -/
opaque freeNat (kind n : Nat) : Nat
/-- Field `field` of a stream declaration of 32 bytes, whose layout rule R411 does not give. -/
opaque declField (field : Nat) (declaration : List (BitVec 8)) : Nat
/-- A field of the collective plan, whose layout rule R412 does not give: which field, of which element. -/
opaque planField (field element : Nat) (section9 : List (BitVec 8)) : Nat
/-- Whether load check `check` (rule R421) finds in an image a breach that this model does not work out. -/
opaque loadProof (check : Nat) (image : List (BitVec 8)) : Bool
/-- What a load refusal reports (rule R421): 0 the virtual tile, where no tile's own items are in error, 1 the byte offset, 2 the index of the
first item in error. -/
opaque loadPlace (which check : Nat) (image : List (BitVec 8)) : Nat

end Sys2Proof.Config
end

