-- ==== Sys2Proof/Machine/Maps.lean ====
section
/-!
DEFINITION. Sparse maps and byte memories, and the little-endian access to bytes (rule R12).
A byte memory lists only bytes that are not zero, in rising address order: an unlisted byte reads as zero (rule R32).
-/
namespace Sys2Proof

/-- The value stored under key `k`, or `d` where none is stored. -/
def SMap.get {α : Type} (d : α) : SMap α → Nat → α
  | [], _ => d
  | (j, v) :: m, k => if j = k then v else SMap.get d m k

/-- Whether something is stored under key `k`. -/
def SMap.has {α : Type} : SMap α → Nat → Bool
  | [], _ => false
  | (j, _) :: m, k => if j = k then true else SMap.has m k

/-- Store `v` under key `k`, keeping the keys rising. -/
def SMap.set {α : Type} : SMap α → Nat → α → SMap α
  | [], k, v => [(k, v)]
  | (j, w) :: m, k, v =>
    if k < j then (k, v) :: (j, w) :: m
    else if j = k then (k, v) :: m
    else (j, w) :: SMap.set m k v

/-- Remove everything stored under key `k`. -/
def SMap.erase {α : Type} : SMap α → Nat → SMap α
  | [], _ => []
  | (j, w) :: m, k => if j = k then SMap.erase m k else (j, w) :: SMap.erase m k

/-- Apply `f` to the value under `k` (the default `d` where none is stored). -/
def SMap.modify {α : Type} (d : α) (m : SMap α) (k : Nat) (f : α → α) : SMap α :=
  SMap.set m k (f (SMap.get d m k))

/-- Apply `f` to every stored value. -/
def SMap.mapVals {α : Type} (m : SMap α) (f : Nat → α → α) : SMap α :=
  List.map (fun p => (p.1, f p.1 p.2)) m

/-- The keys rise strictly. -/
def SMap.sorted {α : Type} : SMap α → Bool
  | [] => true
  | [_] => true
  | (i, _) :: (j, w) :: m => decide (i < j) && SMap.sorted ((j, w) :: m)

/-- A memory of bytes: the listed cells, all others zero. -/
abbrev Memory := List Host.Cell

/-- The canonical form: rising addresses and no listed zero. -/
def Memory.wf (m : Memory) : Bool :=
  SMap.sorted m && m.all (fun c => c.2 != 0#8)

/-- What the byte at `a` reads as. -/
def Memory.read (m : Memory) (a : Nat) : Byte := SMap.get (0#8) m a

/-- Write the byte at `a`; writing zero unlists the cell. -/
def Memory.write (m : Memory) (a : Nat) (b : Byte) : Memory :=
  if b = 0#8 then SMap.erase m a else SMap.set m a b

/-- `n` bytes from `a` upward. -/
def Memory.readN (m : Memory) (a : Nat) : Nat → Bytes
  | 0 => []
  | n + 1 => Memory.read m a :: Memory.readN m (a + 1) n

/-- Write bytes from `a` upward. -/
def Memory.writeN (m : Memory) (a : Nat) : Bytes → Memory
  | [] => m
  | b :: bs => Memory.writeN (Memory.write m a b) (a + 1) bs

/-- Forget every byte of [a, a + n). -/
def Memory.clear (m : Memory) (a n : Nat) : Memory :=
  m.filter (fun c => ! (decide (a ≤ c.1) && decide (c.1 < a + n)))

/-- The unsigned number in little-endian bytes (rule R12). -/
def leNat : Bytes → Nat
  | [] => 0
  | b :: bs => b.toNat + 256 * leNat bs

/-- `n` little-endian bytes of `v`. -/
def natLE (v : Nat) : Nat → Bytes
  | 0 => []
  | n + 1 => BitVec.ofNat 8 v :: natLE (v / 256) n

/-- Bytes [o, o + n) of a byte string, zero past its end. -/
def bytesAt (bs : Bytes) (o n : Nat) : Bytes :=
  let t := (bs.drop o).take n
  t ++ List.replicate (n - t.length) (0#8)

/-- The `n`-byte little-endian field at offset `o` of a byte string. -/
def fieldAt (bs : Bytes) (o n : Nat) : Nat := leNat (bytesAt bs o n)

/-- Bits [lo, lo + w) of a number. -/
def bits (v lo w : Nat) : Nat := (v >>> lo) % 2 ^ w

/-- Bit `i` of a number. -/
def bit (v i : Nat) : Bool := (v >>> i) % 2 == 1

/-- The two's-complement number in the low `w` bits of `v`. -/
def signedOf (w v : Nat) : Int :=
  let u := v % 2 ^ w
  if u < 2 ^ (w - 1) then (u : Int) else (u : Int) - (2 ^ w : Nat)

/-- The low `w` bits of a two's-complement number. -/
def unsignedOf (w : Nat) (i : Int) : Nat := (i % ((2 ^ w : Nat) : Int)).toNat

/-- A bit as a number. -/
def bnat (b : Bool) : Nat := if b then 1 else 0

/-- Count one more, staying at the field's largest value (rule R9). -/
def satInc (w v : Nat) : Nat := min (v + 1) (2 ^ w - 1)

/-- Add to a count that stays at its field's largest value. -/
def satAdd (w v n : Nat) : Nat := min (v + n) (2 ^ w - 1)

/-- The list with its first element satisfying `p` taken out. -/
def dropFirst {α : Type} (p : α → Bool) : List α → List α
  | [] => []
  | x :: xs => if p x then xs else x :: dropFirst p xs

/-- Apply `f` to the element at position `i`. -/
def updAt {α : Type} (f : α → α) : List α → Nat → List α
  | [], _ => []
  | x :: xs, 0 => f x :: xs
  | x :: xs, i + 1 => x :: updAt f xs i

end Sys2Proof
end

