-- ==== Sys2Proof/Machine/Digest.lean ====
section
/-!
DEFINITION. The generator G and the block hash (rules R45, R103, R104), SHA-384 (rule R36, FIPS 180-4) and the CRC-32 of
rule R288.
-/
namespace Sys2Proof

/-- Four 32-bit lanes of the generator (rule R103). -/
structure Lanes where
  c0 : Word
  c1 : Word
  c2 : Word
  c3 : Word
deriving DecidableEq, Repr

/-- The exact 64-bit product's high and low words (rule R45). -/
def mulhilo (a b : Word) : Word × Word :=
  let p := a.toNat * b.toNat
  (BitVec.ofNat 32 (p / 2 ^ 32), BitVec.ofNat 32 p)

/-- One round of the generator (rule R45). -/
def gRound (c : Lanes) (k0 k1 : Word) : Lanes :=
  let h0 := mulhilo 0xA94F3C1B#32 c.c0
  let h1 := mulhilo 0xE5D20B67#32 c.c2
  ⟨h1.1 ^^^ c.c1 ^^^ k0, h1.2, h0.1 ^^^ c.c3 ^^^ k1, h0.2⟩

/-- `n` rounds with the key advanced after each (rule R45: round i uses the key plus i - 1 increments). -/
def gRounds : Nat → Lanes → Word → Word → Lanes × Word × Word
  | 0, c, k0, k1 => (c, k0, k1)
  | n + 1, c, k0, k1 => gRounds n (gRound c k0 k1) (k0 + 0x8B51F2C5#32) (k1 + 0xD3A61E79#32)

/-- The generator of rule R104. -/
def generator (seed element tensor step purpose : Nat) : Lanes :=
  let c : Lanes := ⟨BitVec.ofNat 32 element,
    BitVec.ofNat 32 (bits element 32 8 + 256 * bits tensor 0 24),
    BitVec.ofNat 32 step, BitVec.ofNat 32 (bits purpose 0 8)⟩
  (gRounds 10 c (BitVec.ofNat 32 seed) (BitVec.ofNat 32 (seed / 2 ^ 32))).1

/-- Output word `w` of the generator (rule R104). -/
def Lanes.word (l : Lanes) (w : Nat) : Nat :=
  match w with
  | 0 => l.c0.toNat
  | 1 => l.c1.toNat
  | 2 => l.c2.toNat
  | _ => l.c3.toNat

/-- Absorb the 16 bytes of one word of a block (rules R43, R45). -/
def absorb (c : Lanes) (bs : Bytes) (j : Nat) : Lanes :=
  let w := fun l => BitVec.ofNat 32 (fieldAt bs (16 * j + 4 * l) 4)
  ⟨c.c0 ^^^ w 0, c.c1 ^^^ w 1, c.c2 ^^^ w 2, c.c3 ^^^ w 3⟩

/-- The block hash of 64 bytes (rule R45), a number below two to the 128. -/
def blockHash (block : Bytes) (tensor index : Nat) : Nat :=
  let k0 := BitVec.ofNat 32 (bits tensor 0 24 + 2 ^ 24 * bits index 32 8)
  let k1 := BitVec.ofNat 32 index
  let s0 := gRounds 2 (absorb ⟨0, 0, 0, 0⟩ block 0) k0 k1
  let s1 := gRounds 2 (absorb s0.1 block 1) s0.2.1 s0.2.2
  let s2 := gRounds 2 (absorb s1.1 block 2) s1.2.1 s1.2.2
  let s3 := gRounds 2 (absorb s2.1 block 3) s2.2.1 s2.2.2
  let c := (gRounds 2 s3.1 s3.2.1 s3.2.2).1
  c.c0.toNat + 2 ^ 32 * c.c1.toNat + 2 ^ 64 * c.c2.toNat + 2 ^ 96 * c.c3.toNat

/-- Sum of block hashes modulo two to the 128 (rules R42, R45). -/
def digestAdd (a b : Nat) : Nat := (a + b) % 2 ^ 128

/-- One bit of the reflected CRC-32 (rule R288). -/
def crcBit (c : Nat) : Nat := if c % 2 = 1 then (c / 2) ^^^ 0xEDB88320 else c / 2

def crcByte (c : Nat) (b : Byte) : Nat :=
  let x := c ^^^ b.toNat
  crcBit (crcBit (crcBit (crcBit (crcBit (crcBit (crcBit (crcBit x)))))))

/-- The CRC-32 of a message (rules R288, R367). -/
def crc32 (bs : Bytes) : Nat := (bs.foldl crcByte 0xFFFFFFFF) ^^^ 0xFFFFFFFF

/-- Whether a number is prime. -/
def isPrime (n : Nat) : Bool := decide (2 ≤ n) && (List.range n).all (fun d => decide (d < 2) || decide (n % d ≠ 0))

/-- The greatest `r` with `r ^ k ≤ m`, found bit by bit from the highest. -/
def rootBits (k m : Nat) : Nat → Nat → Nat
  | 0, r => r
  | b + 1, r => rootBits k m b (if (r + 2 ^ b) ^ k ≤ m then r + 2 ^ b else r)

/-- The first 64 bits of the fraction of the `k`-th root of `p`. -/
def rootFraction (k p : Nat) : Nat := rootBits k (p * 2 ^ (64 * k)) 68 0 % 2 ^ 64

/-- The round constants of SHA-384 (FIPS 180-4): from the cube roots of the first 80 primes. -/
@[irreducible] def shaConstants : List Nat := ((List.range 410).filter isPrime).map (rootFraction 3)

/-- The initial value of SHA-384: from the square roots of the ninth to sixteenth prime. -/
@[irreducible] def sha384Init : List Nat := (((List.range 54).filter isPrime).drop 8).map (rootFraction 2)

/-- Addition and rotation of 64-bit words. -/
def add64 (a b : Nat) : Nat := (a + b) % 2 ^ 64
def rotr64 (x n : Nat) : Nat := (x / 2 ^ n) ||| ((x * 2 ^ (64 - n)) % 2 ^ 64)

/-- The eight working words. -/
structure ShaState where
  a : Nat
  b : Nat
  c : Nat
  d : Nat
  e : Nat
  f : Nat
  g : Nat
  h : Nat
deriving DecidableEq, Repr

/-- The message schedule, kept as the sixteen latest words. -/
def shaNext (w : List Nat) : Nat :=
  let w0 := w.getD 0 0
  let w1 := w.getD 1 0
  let w9 := w.getD 9 0
  let w14 := w.getD 14 0
  let s0 := rotr64 w1 1 ^^^ rotr64 w1 8 ^^^ (w1 / 2 ^ 7)
  let s1 := rotr64 w14 19 ^^^ rotr64 w14 61 ^^^ (w14 / 2 ^ 6)
  (w0 + s0 + w9 + s1) % 2 ^ 64

def shaRound (s : ShaState) (k w : Nat) : ShaState :=
  let s1 := rotr64 s.e 14 ^^^ rotr64 s.e 18 ^^^ rotr64 s.e 41
  let ch := (s.e &&& s.f) ^^^ ((2 ^ 64 - 1 - s.e) &&& s.g)
  let t1 := (s.h + s1 + ch + k + w) % 2 ^ 64
  let s0 := rotr64 s.a 28 ^^^ rotr64 s.a 34 ^^^ rotr64 s.a 39
  let maj := (s.a &&& s.b) ^^^ (s.a &&& s.c) ^^^ (s.b &&& s.c)
  ⟨add64 t1 (add64 s0 maj), s.a, s.b, s.c, add64 s.d t1, s.e, s.f, s.g⟩

/-- The 80 rounds: the schedule advances with each. -/
def shaRounds : List Nat → List Nat → ShaState → ShaState
  | [], _, s => s
  | k :: ks, w, s => shaRounds ks (w.tail ++ [shaNext w]) (shaRound s k (w.getD 0 0))

def beNat : Bytes → Nat := fun bs => bs.foldl (fun v b => 256 * v + b.toNat) 0

/-- `n` big-endian bytes. -/
def natBE (v n : Nat) : Bytes := (natLE v n).reverse

def shaBlock (s : ShaState) (bs : Bytes) : ShaState :=
  let w := (List.range 16).map (fun i => beNat (bytesAt bs (8 * i) 8))
  let r := shaRounds shaConstants w s
  ⟨add64 s.a r.a, add64 s.b r.b, add64 s.c r.c, add64 s.d r.d,
   add64 s.e r.e, add64 s.f r.f, add64 s.g r.g, add64 s.h r.h⟩

/-- All blocks of a padded message; the first argument bounds their number. -/
def shaBlocks : Nat → Bytes → ShaState → ShaState
  | 0, _, s => s
  | n + 1, bs, s => shaBlocks n (bs.drop 128) (shaBlock s (bs.take 128))

/-- Padding of FIPS 180-4 to a multiple of 128 bytes. -/
def shaPad (bs : Bytes) : Bytes :=
  let n := bs.length
  let zeros := (239 - n % 128) % 128
  bs ++ [0x80#8] ++ List.replicate zeros (0#8) ++ natBE (8 * n) 16

/-- The 48-byte SHA-384 digest of a message (rule R36). -/
def sha384 (bs : Bytes) : Bytes :=
  let p := shaPad bs
  let i := fun j => sha384Init.getD j 0
  let s := shaBlocks (p.length / 128) p ⟨i 0, i 1, i 2, i 3, i 4, i 5, i 6, i 7⟩
  natBE s.a 8 ++ natBE s.b 8 ++ natBE s.c 8 ++ natBE s.d 8 ++ natBE s.e 8 ++ natBE s.f 8

/-- ASCII bytes of a text. -/
def asciiBytes (s : String) : Bytes := s.toList.map (fun c => BitVec.ofNat 8 c.toNat)

/-- The lineage id of rule R36. -/
def lineageId (imageDigest jobManifest : Bytes) (seed nRanks : Nat) (levels : List Nat) : Bytes :=
  (sha384 (asciiBytes "AZLN" ++ bytesAt imageDigest 0 48 ++ bytesAt jobManifest 0 48
    ++ natLE seed 8 ++ natLE nRanks 4 ++ [BitVec.ofNat 8 levels.length]
    ++ natLE (levels.getD 0 0) 2 ++ natLE (levels.getD 1 0) 2 ++ natLE (levels.getD 2 0) 2)).take 16

end Sys2Proof
end

