-- ==== Sys2Proof/Machine/Numeric.lean ====
section
/-!
DEFINITION. Number formats, rounding and readout: 03_number_formats.md (rules R54 to R74) and the readout of
04_exact_accumulation.md (rule R86). Exact values are an integer times a power of two.
-/
namespace Sys2Proof

/-- An exact value: `man` times two to the `exp` (rule R72: every source value has a power-of-two denominator). -/
structure Dyadic where
  man : Int
  exp : Int
deriving DecidableEq, Repr

/-- The storage formats of a tensor (rule R54). -/
inductive Fmt where
  | q4w | q4a | q8w | q8a | h16 | b32
deriving DecidableEq, Repr

/-- A source value of a conversion: POISON, or an exact number and whether its code was a negative zero (rule R72). -/
inductive Value where
  | poison
  | num (d : Dyadic) (negZero : Bool)
deriving DecidableEq, Repr

/-- Rounding mode of a conversion (rule R72): to nearest even, or stochastic with a 32-bit word. -/
inductive Rounding where
  | rne
  | sr (r : Nat)
deriving DecidableEq, Repr

/-- What a conversion gives: the code, whether it saturated (rule R73), whether it was POISON (rule R69). -/
structure Conv where
  code : Nat
  sat : Bool
  poison : Bool
deriving DecidableEq, Repr

/-- The mantissa of a value at a smaller exponent. -/
def Dyadic.manAt (d : Dyadic) (e : Int) : Int := d.man * ((2 ^ (d.exp - e).toNat : Nat) : Int)

def Dyadic.neg (a : Dyadic) : Dyadic := ⟨-a.man, a.exp⟩
def Dyadic.add (a b : Dyadic) : Dyadic :=
  let e := min a.exp b.exp
  ⟨a.manAt e + b.manAt e, e⟩
def Dyadic.sub (a b : Dyadic) : Dyadic := a.add b.neg
def Dyadic.mul (a b : Dyadic) : Dyadic := ⟨a.man * b.man, a.exp + b.exp⟩
def Dyadic.scale (a : Dyadic) (s : Int) : Dyadic := ⟨a.man, a.exp + s⟩
def Dyadic.le (a b : Dyadic) : Bool :=
  let e := min a.exp b.exp
  decide (a.manAt e ≤ b.manAt e)
def Dyadic.lt (a b : Dyadic) : Bool := !(b.le a)
def Dyadic.abs (a : Dyadic) : Dyadic := ⟨a.man.natAbs, a.exp⟩
def Dyadic.zero : Dyadic := ⟨0, 0⟩
def Dyadic.ofInt (n : Int) : Dyadic := ⟨n, 0⟩

/-- Whether a format's codes are integers of one quantum (rule R72). -/
def Fmt.isQ : Fmt → Bool
  | .q4w | .q4a | .q8w | .q8a => true
  | .h16 | .b32 => false

/-- Whether a format is an activation's, the only ones with a zero point (rule R54, Note 1). -/
def Fmt.isAct : Fmt → Bool
  | .q4a | .q8a => true
  | _ => false

/-- Width of an element in bits (rule R54). -/
def Fmt.bits : Fmt → Nat
  | .q4w | .q4a => 4
  | .q8w | .q8a => 8
  | .h16 => 16
  | .b32 => 32

/-- Largest code of an activation (rule R73). -/
def Fmt.top : Fmt → Nat
  | .q4a => 15
  | .q8a => 255
  | _ => 0

/-- The value of an E12 code (rule R62). -/
def e12Value (c : Nat) : Dyadic :=
  let f := bits c 0 7
  let e := bits c 7 4
  let m : Int := if e = 0 then f else ((128 + f : Nat) : Int)
  let x : Int := if e = 0 then -13 else (e : Int) - 14
  ⟨if bit c 11 then -m else m, x⟩

/-- The E12 code of an integer from -510 to 510 with at most eight significant bits (rule R63). -/
def e12OfInt (n : Int) : Nat :=
  if n = 0 then 0
  else
    let a := n.natAbs
    let p := Nat.log2 a
    (if n < 0 then 2048 else 0) + 128 * (p + 7) + (a * 2 ^ (7 - p) - 128)

/-- Entry c of the default Q4 weight table (rule R57). -/
def defaultQ4Entry (c : Nat) : Nat :=
  (if bit c 3 then 2048 else 0) + (e12OfInt ((bits c 0 3 : Nat) : Int))

/-- Value of an H16 code (rules R64, R65). -/
def h16Value (c : Nat) : Value :=
  if c = 0x7FFF then .poison
  else
    let f := bits c 0 9
    let e := bits c 9 6
    let m : Int := if e = 0 then f else ((512 + f : Nat) : Int)
    let x : Int := if e = 0 then -39 else (e : Int) - 40
    .num ⟨if bit c 15 then -m else m, x⟩ (bit c 15 && m = 0)

/-- Value of a binary32 code; every non-finite code is POISON (rules R67, R68). -/
def b32Value (c : Nat) : Value :=
  let f := bits c 0 23
  let e := bits c 23 8
  if e = 255 then .poison
  else
    let m : Int := if e = 0 then f else ((2 ^ 23 + f : Nat) : Int)
    let x : Int := if e = 0 then -149 else (e : Int) - 150
    .num ⟨if bit c 31 then -m else m, x⟩ (bit c 31 && m = 0)

/-- The value of a stored code before its scale, and whether reading it sets SAT (code 0x80 of a Q8 weight, rule R60).
`tab` is the Q4 code table (rule R57), `z` the zero point. -/
def codeValue (f : Fmt) (tab : List Nat) (z : Int) (c : Nat) : Value × Bool :=
  match f with
  | .q4w => (.num (e12Value (tab.getD c 0)) false, false)
  | .q4a => (.num ⟨(c : Int) - z, 0⟩ false, false)
  | .q8w => if c = 0x80 then (.num ⟨-127, 0⟩ false, true) else (.num ⟨signedOf 8 c, 0⟩ false, false)
  | .q8a => (.num ⟨(c : Int) - z, 0⟩ false, false)
  | .h16 => (h16Value c, false)
  | .b32 => (b32Value c, false)

/-- The default Q4 code table (rule R57). -/
def defaultQ4Table : List Nat := (List.range 16).map defaultQ4Entry

/-- Code of POISON in a target (rule R69). -/
def poisonCode (f : Fmt) (z : Int) : Nat :=
  match f with
  | .h16 => 0x7FFF
  | .b32 => 0x7FC00000
  | .q4w | .q8w => 0
  | .q4a | .q8a => z.toNat

/-- Largest magnitude of a weight, H16 or binary32 result (rule R73). -/
def magnitudeLimit (f : Fmt) (neg : Bool) : Dyadic :=
  match f with
  | .q4w => ⟨7, 0⟩
  | .q8w => ⟨127, 0⟩
  | .h16 => if neg then ⟨1023, 23⟩ else ⟨1022, 23⟩
  | .b32 => ⟨(2 ^ 24 - 1 : Nat), 104⟩
  | .q4a | .q8a => ⟨0, 0⟩

/-- Encode a magnitude of `k` quanta of two to the `qe` as H16 or binary32 with `fb` fraction bits, bias `bias` and smallest
quantum two to the `lo` (rules R64, R67). The magnitude is representable. -/
def encodeFloat (fb bias signBit : Nat) (lo : Int) (neg : Bool) (k : Nat) (qe : Int) : Nat :=
  let s := if neg then 2 ^ signBit else 0
  if k = 0 then s
  else
    let p : Int := (Nat.log2 k : Int) + qe
    if p < lo + fb then s + k * 2 ^ (qe - lo).toNat
    else
      let sh := (p - fb) - qe
      let m := if sh ≤ 0 then k * 2 ^ (-sh).toNat else k / 2 ^ sh.toNat
      s + ((p + bias).toNat) * 2 ^ fb + (m - 2 ^ fb)

/-- `clamp_and_encode` of rule R72 for a magnitude of `k` quanta of two to the `qe`. -/
def clampAndEncode (f : Fmt) (neg : Bool) (k : Nat) (qe : Int) (z : Int) : Conv :=
  if f.isAct then
    let n : Int := if neg then -(k : Int) else k
    let code := n + z
    let c := min (max code 0) f.top
    ⟨c.toNat, decide (code ≠ c), false⟩
  else
    let lim := magnitudeLimit f neg
    let sat := lim.lt ⟨k, qe⟩
    let k' := if sat then lim.man.toNat else k
    let e' := if sat then lim.exp else qe
    let code :=
      match f with
      | .q8w => unsignedOf 8 (if neg then -(k' : Int) else k')
      | .q4w => if neg && k' != 0 then 8 + k' else k'
      | .h16 => encodeFloat 9 31 15 (-39) neg k' e'
      | _ => encodeFloat 23 127 31 (-149) neg k' e'
    ⟨code, sat, false⟩

/-- The quantum's exponent for a magnitude `m` times two to the `e` (rules R72, R86). -/
def quantumExp (f : Fmt) (m : Nat) (e : Int) : Int :=
  let p : Int := Nat.log2 m
  match f with
  | .h16 => max (p + e - 9) (-39)
  | .b32 => max (p + e - 23) (-149)
  | _ => 0

/-- Round a magnitude `m` times two to the `e` to quanta of two to the `qe` (rules R72, R86). -/
def roundQuanta (mode : Rounding) (m : Nat) (e qe : Int) : Nat :=
  let sh := qe - e
  if sh ≤ 0 then m * 2 ^ (-sh).toNat
  else
    let w := sh.toNat
    let k := m / 2 ^ w
    let rem := m % 2 ^ w
    let up := match mode with
      | .rne => decide (2 ^ (w - 1) < rem) || (decide (rem = 2 ^ (w - 1)) && k % 2 == 1)
      | .sr r => decide (2 ^ 32 ≤ 2 ^ 32 * rem / 2 ^ w + r)
    if up then k + 1 else k

/-- Conversion of a source value to a target with scale `s` and zero point `z` (rules R72 and R86). -/
def convert (x : Value) (f : Fmt) (mode : Rounding) (s z : Int) : Conv :=
  match x with
  | .poison => ⟨poisonCode f z, false, true⟩
  | .num d nz =>
    let m := d.man.natAbs
    let neg := decide (d.man < 0) || (nz && !f.isQ && m = 0)
    if m = 0 then clampAndEncode f neg 0 0 z
    else
      let e := d.exp - s
      let qe := quantumExp f m e
      clampAndEncode f neg (roundQuanta mode m e qe) qe z

/-- A value with a scale exponent applied (rule R55). -/
def Value.scale (v : Value) (s : Int) : Value :=
  match v with
  | .poison => .poison
  | .num d nz => .num (d.scale s) nz

/-- The exact value, zero for POISON. -/
def Value.dy (v : Value) : Dyadic :=
  match v with
  | .poison => Dyadic.zero
  | .num d _ => d

def Value.isPoison (v : Value) : Bool :=
  match v with
  | .poison => true
  | .num _ _ => false

/-- A number as a source value without a signed zero. -/
def Value.ofDy (d : Dyadic) : Value := .num d false

/-- The forms of accumulator (rule R75). -/
inductive AccForm where
  | a192 | a320 | square
deriving DecidableEq, Repr

/-- Least-significant-bit exponent of a form (rule R75). -/
def AccForm.lsb : AccForm → Int
  | .a192 => -78
  | .a320 => -149
  | .square => -194

/-- Poisoned pattern of a form (rule R82). -/
def AccForm.poisoned : AccForm → Int
  | .a192 => -(2 ^ 191 : Nat)
  | .a320 => -(2 ^ 319 : Nat)
  | .square => (2 ^ 640 - 1 : Nat)

/-- Raw size in bytes (rule R75). -/
def AccForm.size : AccForm → Nat
  | .a192 => 24
  | .a320 => 40
  | .square => 80

/-- The raw form of an accumulator value: limbs little-endian, least significant first (rule R75, Note 3). -/
def rawAcc (f : AccForm) (n : Int) : Bytes := natLE (unsignedOf (8 * f.size) n) f.size

/-- The accumulator value of raw bytes (rule R85). -/
def accOfRaw (f : AccForm) (bs : Bytes) : Int :=
  match f with
  | .square => (leNat bs : Int)
  | _ => signedOf (8 * f.size) (leNat bs)

/-- Adding to an accumulator value; a poisoned value stays poisoned (rule R82). -/
def accAdd (f : AccForm) (a b : Int) : Int :=
  if a = f.poisoned ∨ b = f.poisoned then f.poisoned else a + b

/-- The source value an accumulator value reads out as (rules R82, R83, R86). -/
def accValue (f : AccForm) (n b : Int) : Value :=
  if n = f.poisoned then .poison else .num ⟨n, f.lsb + b⟩ false

/-- Reading an accumulator value out to a target (rule R86). -/
def readout (f : AccForm) (n b : Int) (t : Fmt) (mode : Rounding) (s z : Int) : Conv :=
  convert (accValue f n b) t mode s z

/-- The aligned addend of a term in A192 for δ = σ − b, and whether it was altered (rule R79). -/
def alignAddend (d : Dyadic) (delta : Int) : Int × Bool :=
  let e := d.exp + delta + 78
  let m := d.man.natAbs
  let q := if 0 ≤ e then m * 2 ^ e.toNat else m / 2 ^ (-e).toNat
  let cut := decide (e < 0) && (m % 2 ^ (-e).toNat != 0)
  let big := decide (2 ^ 144 - 1 < q)
  let q' : Nat := if big then 2 ^ 144 - 1 else q
  (if d.man < 0 then -(q' : Int) else q', cut || big)

/-- The addend of one binary32 element of a sum of squares, in units of two to the -194, and RANGE (rule R84). -/
def squareAddend (d : Dyadic) : Int × Bool :=
  let a := d.abs
  if a.man = 0 then (0, false)
  else if a.lt ⟨1, -74⟩ then (0, true)
  else if a.lt ⟨1, 63⟩ then ((a.mul a).manAt (-194), false)
  else ((2 ^ 320 : Nat), true)

end Sys2Proof
end

