-- ==== Sys2Proof/Machine/Scale.lean ====
section
/-!
DEFINITION. Extent records and the decision of scales: 05_scaling_and_stochastic_rounding.md, rules R89 to R101.
-/
namespace Sys2Proof

/-- Magnitude `m` times two to the `e` in 18 significant bits, rounded up when `up`: the low 31 bits of an extent word
(rules R93, R94). One beyond the word's range, which only an H16 function can give, takes the word nearest to it (DESIGN CHOICE, assumption 56). -/
def extentMagnitude (m : Nat) (e : Int) (up : Bool) : Nat :=
  if m = 0 then 0
  else
    let p := Nat.log2 m
    let k := if p ≤ 17 then m * 2 ^ (17 - p) else m / 2 ^ (p - 17)
    let lost := decide (17 < p) && (m % 2 ^ (p - 17) != 0)
    let k' := if up && lost then k + 1 else k
    let q := if k' = 2 ^ 18 then p + 1 else p
    let f := if k' = 2 ^ 18 then 0 else k' - 2 ^ 17
    let b := (q : Int) + e + 8191
    if 16383 < b then 2 ^ 31 - 1
    else if b < 1 then (if up then 2 ^ 17 else 0)
    else 2 ^ 17 * b.toNat + f

/-- Extent word of an amax record: the magnitude rounded toward plus infinity (rule R94). -/
def amaxWord (d : Dyadic) : Nat := extentMagnitude d.man.natAbs d.exp true

/-- Extent word of a min record: the value rounded toward minus infinity (rule R94). -/
def minWord (d : Dyadic) : Nat :=
  if d.man < 0 then 2 ^ 31 + extentMagnitude d.man.natAbs d.exp true
  else extentMagnitude d.man.natAbs d.exp false

/-- Exact value of an extent word (rule R93). -/
def extentValue (w : Nat) : Dyadic :=
  let e := bits w 17 14
  if e = 0 then Dyadic.zero
  else
    let m : Int := ((2 ^ 17 + bits w 0 17 : Nat) : Int)
    ⟨if bit w 31 then -m else m, (e : Int) - 8208⟩

/-- The lesser of two min records by value (rule R90). -/
def extentMin (a b : Nat) : Nat := if (extentValue a).le (extentValue b) then a else b

/-- The merged record of a tensor in one step (rules R92 to R95); absent when the tensor was not written. -/
structure ScaleRecord where
  step : Nat
  amax : Nat
  min : Nat
  sat : Nat
  channels : List Nat
deriving DecidableEq, Repr

/-- Merge of two records of one tensor and step (rule R90). -/
def ScaleRecord.merge (a b : ScaleRecord) : ScaleRecord :=
  { step := a.step
    amax := max a.amax b.amax
    min := extentMin a.min b.min
    sat := satAdd 32 a.sat b.sat
    channels := List.zipWith max a.channels b.channels }

/-- The scale exponent, zero point and per-channel exponents of one generation (rule R91). -/
structure GenScale where
  s : Int := 0
  z : Nat := 0
  ch : List Int := []
deriving DecidableEq, Repr

/-- An entry of the scale table (rule R96), fields as named there; the last two are what references of step DECIDED_STEP − 1
still read once the next step is decided (rules R91, R98, R221). -/
structure ScaleEntry where
  tensor : Nat
  kind : Fmt
  managed : Bool
  adapt : Bool
  perChannel : Bool
  histDepth : Nat
  margin : Nat
  sCur : Int
  zCur : Nat
  adaptThreshold : Nat
  channels : Nat
  decidedStep : Nat
  sEarlier : Int
  zEarlier : Nat
  lastWriteStep : Nat
  chCur : List Int
  chEarlier : List Int
  ring : SMap ScaleRecord
  prevWrite : GenScale := {}
  prevEarlier : GenScale := {}
deriving DecidableEq, Repr

/-- The record of step `t`, where the ring's slot t mod 33 holds it (rules R96, R97). -/
def ScaleEntry.record (e : ScaleEntry) (t : Nat) : Option ScaleRecord :=
  let r := SMap.get ⟨0, 0, 0, 0, []⟩ e.ring (t % 33)
  if r.step = t ∧ t ≠ 0 then some r else none

/-- The scale of the step that S_CUR holds. -/
def ScaleEntry.cur (e : ScaleEntry) : GenScale := ⟨e.sCur, e.zCur, e.chCur⟩

/-- The scale that EARLIER references read. -/
def ScaleEntry.earlier (e : ScaleEntry) : GenScale := ⟨e.sEarlier, e.zEarlier, e.chEarlier⟩

/-- Write the records of step `t` into slot t mod 33 (rule R97). Where the next step is decided already, the EARLIER values
take the write scale of step `t` now (rule R98). -/
def ScaleEntry.writeRecord (e : ScaleEntry) (t : Nat) (r : Option ScaleRecord) : ScaleEntry :=
  match r with
  | some r =>
    let e1 := { e with ring := SMap.set e.ring (t % 33) { r with step := t }, lastWriteStep := t }
    if e.managed && decide (e.decidedStep = t + 1) then
      { e1 with sEarlier := e.prevWrite.s, zEarlier := e.prevWrite.z, chEarlier := e.prevWrite.ch }
    else e1
  | none => { e with ring := SMap.erase e.ring (t % 33) }

/-- The write scale of step `u`, which CURRENT references of that step read; none while it is undecided (rules R91, R98). -/
def ScaleEntry.writeScale (e : ScaleEntry) (u : Nat) : Option GenScale :=
  if !e.managed then some e.cur
  else if e.decidedStep = u then some e.cur
  else if e.decidedStep = u + 1 then some e.prevWrite
  else none

/-- The scale that EARLIER references of step `u` read; `wrote` tells that the tensor was written in step u − 1 (rule R91). -/
def ScaleEntry.earlierScale (e : ScaleEntry) (u : Nat) (wrote : Bool) : GenScale :=
  if !e.managed then e.cur
  else if e.decidedStep = u + 1 then e.prevEarlier
  else if e.decidedStep = u then
    if wrote && decide (e.lastWriteStep + 1 < u) then e.prevWrite else e.earlier
  else if wrote then e.cur else e.earlier

/-- Search of `least_exponent` from `s` upward over `fuel` exponents (rule R99). -/
def leastExponentFrom (need limit : Dyadic) : Nat → Int → Int
  | 0, s => s
  | n + 1, s => if need.le (limit.scale s) then s else leastExponentFrom need limit n (s + 1)

/-- Smallest s from -128 to 127 with need at most limit times two to the s (rule R99). -/
def leastExponent (need limit : Dyadic) : Int := leastExponentFrom need limit 255 (-128)

/-- Whether a decision is clamped (rule R99). -/
def clampedDecision (need limit : Dyadic) (s : Int) : Bool :=
  decide (s = -128) || (decide (s = 127) && (limit.scale 127).lt need)

/-- `positive_limit` of rule R99. -/
def positiveLimit (k : Fmt) : Dyadic := magnitudeLimit k false

/-- Ceiling of a dyadic value. -/
def Dyadic.ceil (d : Dyadic) : Int :=
  if 0 ≤ d.exp then d.man * ((2 ^ d.exp.toNat : Nat) : Int)
  else -((-d.man) / ((2 ^ (-d.exp).toNat : Nat) : Int))

/-- A decision: exponent, zero point, whether clamped. -/
structure ScaleChoice where
  s : Int
  z : Nat
  clamped : Bool
deriving DecidableEq, Repr

/-- Whether the adapt rule applies to the decision for step `u` (rule R101). -/
def ScaleEntry.adapts (e : ScaleEntry) (u : Nat) : Bool :=
  e.adapt && (match e.record (u - 1) with
    | some r => decide (e.adaptThreshold < r.sat)
    | none => false)

/-- The records in the window of the decision for step `u` (rule R99): steps u-N-1 to u-2, and u-1 when the adapt rule applies. -/
def ScaleEntry.window (e : ScaleEntry) (u : Nat) : List ScaleRecord :=
  let lo := max 1 (u - e.histDepth - 1)
  let base := ((List.range (u - 1 - lo)).map (fun i => e.record (lo + i))).filterMap id
  let extra := if e.adapts u then (e.record (u - 1)).toList else []
  base ++ extra

/-- The choice from a largest amax word and a least min word (rule R99). -/
def scaleFrom (kind : Fmt) (margin a mn : Nat) : ScaleChoice :=
  let av := extentValue a
  if kind.isAct then
    let top : Int := kind.top
    let mv := extentValue mn
    if 0 ≤ mv.man then
      let need := av.scale margin
      let s := leastExponent need ⟨top, 0⟩
      ⟨s, 0, clampedDecision need ⟨top, 0⟩ s⟩
    else
      let need := (av.sub mv).scale margin
      let s := leastExponent need ⟨top - 1, 0⟩
      ⟨s, (min (max ((mv.neg.scale (-s)).ceil) 0) top).toNat, clampedDecision need ⟨top - 1, 0⟩ s⟩
  else
    let need := av.scale margin
    let s := leastExponent need (positiveLimit kind)
    ⟨s, 0, clampedDecision need (positiveLimit kind) s⟩

/-- The tensor-level decision for step `u`, or none where no record counts (rule R99). -/
def ScaleEntry.choose (e : ScaleEntry) (u : Nat) : Option ScaleChoice :=
  let w := (e.window u).filter (fun r => decide (0 < r.amax))
  match w with
  | [] => none
  | r :: rs =>
    let a := rs.foldl (fun m x => max m x.amax) r.amax
    let mn := rs.foldl (fun m x => extentMin m x.min) r.min
    some (scaleFrom e.kind e.margin a mn)

/-- The decision of channel `j` for step `u` (rule R100). -/
def ScaleEntry.chooseChannel (e : ScaleEntry) (u j : Nat) : Option ScaleChoice :=
  let w := ((e.window u).map (fun r => r.channels.getD j 0)).filter (fun a => decide (0 < a))
  match w with
  | [] => none
  | a :: rest => some (scaleFrom e.kind e.margin (rest.foldl max a) 0)

/-- What a decision for step `u` changes (rules R98 to R101): the entry, how many choices were clamped or raised, and
whether the adapt rule applied. DESIGN CHOICE, assumption 56: a decision left unchanged by an empty window is not counted as clamped (rule R99),
and of a per-channel tensor each channel's clamp counts, but the adapt rule once (rule R102). -/
def ScaleEntry.decideStep (e : ScaleEntry) (u : Nat) : ScaleEntry × Nat × Bool :=
  let moved := decide (e.lastWriteStep + 1 = u)
  let sE := if moved then e.sCur else e.sEarlier
  let zE := if moved then e.zCur else e.zEarlier
  let chE := if moved then e.chCur else e.chEarlier
  let e : ScaleEntry := { e with prevWrite := e.cur, prevEarlier := e.earlier }
  if e.perChannel then
    let raw : List (Int × Nat) := (List.range e.channels).map (fun j =>
      match e.chooseChannel u j with
      | some c => (c.s, bnat c.clamped)
      | none => (e.chCur.getD j e.sCur, 0))
    let smax := raw.foldl (fun m p => max m p.1) (-128)
    let fixed := raw.map (fun p => max p.1 (smax - 24))
    let raised := (raw.filter (fun p => decide (p.1 < smax - 24))).length
    let clamps := raw.foldl (fun n p => n + p.2) 0
    ({ e with chCur := fixed, sCur := smax, decidedStep := u, sEarlier := sE, zEarlier := zE, chEarlier := chE },
      clamps + raised, e.adapts u)
  else
    match e.choose u with
    | some c =>
      ({ e with sCur := c.s, zCur := c.z, decidedStep := u, sEarlier := sE, zEarlier := zE, chEarlier := chE },
        bnat c.clamped, e.adapts u)
    | none =>
      ({ e with decidedStep := u, sEarlier := sE, zEarlier := zE, chEarlier := chE }, 0, e.adapts u)

/-- The entry as it stood once the decision for step `u` was made (rule R440), where the next decision has been made since. -/
def ScaleEntry.atDecision (e : ScaleEntry) (u : Nat) : ScaleEntry :=
  if e.managed ∧ e.decidedStep = u + 1 then
    { e with sCur := e.prevWrite.s, zCur := e.prevWrite.z, chCur := e.prevWrite.ch, decidedStep := u
             sEarlier := e.prevEarlier.s, zEarlier := e.prevEarlier.z, chEarlier := e.prevEarlier.ch }
  else e

/-- Two's-complement bytes of per-channel exponents, padded to a multiple of 16 (rule R96). -/
def exponentBytes (xs : List Int) : Bytes :=
  let bs := xs.map (fun i => BitVec.ofInt 8 i)
  bs ++ List.replicate ((16 - bs.length % 16) % 16) (0#8)

/-- The entry as bytes (rule R96). -/
def ScaleEntry.toBytes (e : ScaleEntry) : Bytes :=
  let act := e.kind.isAct
  let head := natLE e.tensor 3
    ++ [BitVec.ofNat 8 (bnat e.managed + 2 * bnat e.adapt + 4 * bnat e.perChannel + 8 * bnat act)]
    ++ natLE e.histDepth 1 ++ natLE e.margin 1 ++ natLE (unsignedOf 8 e.sCur) 1 ++ natLE e.zCur 1
    ++ natLE e.adaptThreshold 4 ++ natLE e.channels 4 ++ natLE e.decidedStep 4
    ++ natLE (unsignedOf 8 e.sEarlier) 1 ++ natLE e.zEarlier 1 ++ natLE 0 2 ++ natLE e.lastWriteStep 4 ++ natLE 0 4
  let ch := if e.perChannel then exponentBytes e.chCur ++ exponentBytes e.chEarlier else []
  let rec1 := fun i =>
    let r := SMap.get ⟨0, 0, 0, 0, []⟩ e.ring i
    natLE r.step 4 ++ natLE r.amax 4 ++ natLE (if act then r.min else 0) 4 ++ natLE r.sat 4
  let ring := ((List.range 33).map rec1).flatten
  let chRing := if e.perChannel then
      ((List.range 33).map (fun i =>
        let r := SMap.get ⟨0, 0, 0, 0, []⟩ e.ring i
        ((List.range e.channels).map (fun j => natLE (r.channels.getD j 0) 4)).flatten)).flatten
    else []
  head ++ ch ++ ring ++ chRing

/-- Size in bytes of an entry with `c` channels (rule R96), before padding to the next 64-byte boundary. -/
def scaleEntrySize (perChannel : Bool) (c : Nat) : Nat :=
  32 + (if perChannel then 2 * ((c + 15) / 16 * 16) else 0) + 528 + (if perChannel then 132 * c else 0)

/-- Read an entry from bytes (rule R96); `kind` is the tensor's format. -/
def scaleEntryOfBytes (kind : Fmt) (bs : Bytes) : ScaleEntry :=
  let fl := fieldAt bs 3 1
  let pc := bit fl 2
  let c := fieldAt bs 12 4
  let pad := (c + 15) / 16 * 16
  let exps := fun o => (List.range c).map (fun j => signedOf 8 (fieldAt bs (o + j) 1))
  let ringAt := 32 + (if pc then 2 * pad else 0)
  let recAt := fun i =>
    let o := ringAt + 16 * i
    let chs := if pc then (List.range c).map (fun j => fieldAt bs (ringAt + 528 + 4 * (c * i + j)) 4) else []
    (⟨fieldAt bs o 4, fieldAt bs (o + 4) 4, fieldAt bs (o + 8) 4, fieldAt bs (o + 12) 4, chs⟩ : ScaleRecord)
  { tensor := fieldAt bs 0 3, kind := kind, managed := bit fl 0, adapt := bit fl 1, perChannel := pc
    histDepth := fieldAt bs 4 1, margin := fieldAt bs 5 1, sCur := signedOf 8 (fieldAt bs 6 1), zCur := fieldAt bs 7 1
    adaptThreshold := fieldAt bs 8 4, channels := c, decidedStep := fieldAt bs 16 4
    sEarlier := signedOf 8 (fieldAt bs 20 1), zEarlier := fieldAt bs 21 1, lastWriteStep := fieldAt bs 24 4
    chCur := if pc then exps 32 else [], chEarlier := if pc then exps (32 + pad) else []
    ring := (List.range 33).filterMap (fun i => if (recAt i).step = 0 then none else some (i, recAt i)) }

end Sys2Proof
end

