-- ==== Sys2Proof/Machine/TileState.lean ====
section
/-!
DEFINITION. What a tile and the image it runs hold: 06_tile_and_matrix_engine.md, 07_vector_engine.md,
08_instruction_encoding_and_control.md, 09_compute_instructions.md, 12_streams_and_routes.md,
18_images_and_the_loader.md. Field defaults are the values after reset.
-/
namespace Sys2Proof

/-- Code of a stream in a `pass` word and in the holder register (rules R130, R175). -/
def KStream.idx : KStream → Nat
  | .f => 0
  | .b => 1
  | .u => 2

/-- Who holds a token (rules R125, R126): nobody before a load, a stream, or in transit to a stream. -/
inductive TokenState where
  | none
  | held (s : KStream)
  | transit (s : KStream)
deriving DecidableEq, Repr

/-- A descriptor (rule R166). -/
structure Desc where
  base : Nat := 0
  kind : Nat := 0
  strides : List Int := []
  tensor : Nat := 0
deriving DecidableEq, Repr

/-- A pass record (rule R192). -/
structure PassRec where
  k : Nat := 1
  m : Nat := 1
  n : Nat := 1
  ch : Nat := 0
  ch0 : Nat := 0
  sStrideA : Nat := 0
  gStrideA : Nat := 0
  sStrideB : Nat := 0
  gStrideB : Nat := 0
  chStrides : List Int := []
deriving DecidableEq, Repr

/-- A vector record (rule R199). -/
structure VecRec where
  xsKind : Nat := 0
  xsGen : Nat := 0
  xsSel : Nat := 0
  xsStride : Int := 0
  xdKind : Nat := 0
  xdSel : Nat := 0
  xdStride : Int := 0
  dscale : Nat := 2
  imm : Int := 0
  scaleTensor : Nat := 0
  aux : Nat := 0
  unit : Nat := 0
  purpose : Nat := 0
  cdesc : Nat := 0x3FF
deriving DecidableEq, Repr

/-- A coordinate record (rule R190). -/
structure CoordRec where
  e0 : Nat := 0
  tensor : Nat := 0
  w : Nat := 1
  pitch : Nat := 0
  strides : List Int := []
deriving DecidableEq, Repr

/-- The program and the four tables of one stream (rules R166, R189, R407). -/
structure StreamProg where
  instrs : List Nat := []
  descs : List Desc := []
  passes : List PassRec := []
  vecs : List VecRec := []
  coords : List CoordRec := []
deriving DecidableEq, Repr

/-- A virtual tile of an image (rule R407). -/
structure VTileImage where
  holders : Nat := 0
  f : StreamProg := {}
  b : StreamProg := {}
  u : StreamProg := {}
  cuts : List (Nat × Nat × Nat) := []
deriving DecidableEq, Repr

def VTileImage.prog (v : VTileImage) : KStream → StreamProg
  | .f => v.f
  | .b => v.b
  | .u => v.u

/-- An entry of the tensor table (rule R408), with the suite-relative base of its storage (rule R414). -/
structure Tensor where
  fmt : Fmt := .q8a
  role : Nat := 6
  weight : Bool := false
  managed : Bool := false
  perChannel : Bool := false
  defaultTable : Bool := false
  sequence : Bool := false
  scaleSource : Bool := false
  shape : List Nat := []
  chAxis : Nat := 0
  seqAxis : Nat := 0
  seqLen : Nat := 1
  codeTable : List Nat := []
  source : Nat := 0
  channels : Nat := 1
  initial : Nat := 0
  base : Nat := 0
deriving DecidableEq, Repr

/-- A declared stream (rule R411). -/
structure StreamDecl where
  type : Nat := 0
  policyStream : Bool := false
  vtile : Nat := 0
  landing : Nat := 0
  outbound : Bool := false
  tensor : Nat := 0
  peerVtile : Nat := 0
  peerStream : Nat := 0
  imagePort : Nat := 0
  family : Nat := 0
  offset : Int := 0
  trainCount : Nat := 0
  evalCount : Nat := 0
deriving DecidableEq, Repr

/-- A count of the collective plan: a fixed value, or N divided by a stated divisor (rule R412). -/
inductive CountSpec where
  | fixed (n : Nat)
  | perN (d : Nat)
deriving DecidableEq, Repr

/-- A member family (rule R412). -/
structure Family where
  stride : Nat
  count : CountSpec
deriving DecidableEq, Repr

/-- A SUM collective (rules R323, R412). -/
structure SumPlan where
  family : Nat
  contribution : Nat
  intermediates : List Nat
  output : Nat
deriving DecidableEq, Repr

/-- The collective plan (rules R412, R413). -/
structure CollectivePlan where
  nMin : Nat := 1
  nMax : Nat := 65535
  families : List Family := []
  levels : List CountSpec := []
  sums : List SumPlan := []
  voteFamily : Option Nat := none
  recordsFamily : Option Nat := none
  distributes : List (Nat × Nat) := []
  raws : List Nat := []
deriving DecidableEq, Repr

/-- The digest plan (rule R410). -/
structure DigestPlan where
  ringDepth : Nat := 16
  k : Nat := 64
  inPassing : Bool := false
  order : List Nat := []
  weights : List Nat := []
deriving DecidableEq, Repr

/-- An accepted image (rules R404 to R412). -/
structure Image where
  digest : Bytes := []
  formatVersion : Nat := 2
  minCmdVersion : Nat := 3
  stateConfig : Nat := 0
  checkpoints : Nat := 1
  snapshot : Bool := false
  imagePorts : Nat := 0
  v : Nat := 1
  minWays : Nat := 0
  tsBytes : Nat := 0
  streams : Nat := 1
  maxDuration : Nat := 0
  maxSeq : Nat := 0
  tensorBytes : Nat := 0
  vtiles : SMap VTileImage := []
  evalTiles : SMap VTileImage := []
  decls : List StreamDecl := []
  tensors : SMap Tensor := []
  digestPlan : DigestPlan := {}
  plan : CollectivePlan := {}
  initialAt : Nat := 0
deriving DecidableEq, Repr

/-- An accumulator bank: entries of A192 as integers of two to the -78, and the base exponents of the columns that are set
(rules R75, R78, R195). An unlisted entry is zero and an unlisted column is unset. -/
structure Bank where
  entries : SMap Int := []
  bases : SMap Int := []
deriving DecidableEq, Repr

/-- Types of a vector register (rule R133). -/
inductive VType where
  | h16 | b32 | i32
deriving DecidableEq, Repr

/-- A vector register: type, scale tag, lanes; an unlisted lane is zero (rule R133). -/
structure VReg where
  type : VType := .b32
  tag : Int := 0
  lanes : SMap Nat := []
deriving DecidableEq, Repr

/-- A reduction unit (rules R132, R151): its kind code, type, base exponent, sum, count of elements, held element and position, the same
as the second comparator set has them, and the shadow residue (rule R159). -/
structure RedUnit where
  kind : Nat := 7
  type : VType := .b32
  base : Int := 0
  sum : Int := 0
  count : Nat := 0
  held : Option Value := none
  pos : Nat := 0
  held2 : Option Value := none
  pos2 : Nat := 0
  shadow : Nat := 0
  range : Bool := false
deriving DecidableEq, Repr

/-- The instruction that a transfer, a pass or a verdict belongs to (rule R446, Note 1). -/
structure OpPlace where
  suite : Nat := 0xFF
  step : Nat := 0
  eval : Bool := false
  word : Nat := 0
  kernel : Nat := 0xFFFF
  occurrence : Nat := 0
  instr : Nat := 0
deriving DecidableEq, Repr

/-- A landing transfer (rules R168, R171). -/
structure Transfer where
  id : Nat := 0
  issuer : KStream := .f
  entry : Nat := 0
  layout : Nat := 0
  tsBase : Nat := 0
  tsTensor : Nat := 0
  sBase : Nat := 0
  count : Nat := 1
  started : Nat := 0
  done : Nat := 0
  firstTag : Nat := 0
  step : Nat := 0
  place : OpPlace := {}
  staging : Memory := []
deriving DecidableEq, Repr

/-- A landing: its transfer queue and the credits it has taken (rule R168). -/
structure Landing where
  queue : List Transfer := []
  creditsUsed : Nat := 0
deriving DecidableEq, Repr

/-- What one cell of a pass holds before its spill (rule R196): the sum of its aligned addends in two to the -78, and its
unaligned residue for the checker (rule R120). -/
structure Cell where
  sum : Int := 0
  poison : Bool := false
deriving DecidableEq, Repr

/-- A pass in the matrix engine (rules R113, R196). -/
structure MePass where
  id : Nat := 0
  issuer : KStream := .f
  bank : Nat := 0
  m : Nat := 0
  n : Nat := 0
  cells : SMap Cell := []
  sat : Bool := false
  poison : Bool := false
  range : Bool := false
  lhs : Nat := 0
  rhs : Nat := 0
  spillMismatch : Bool := false
  start : Bool := false
  begun : Bool := false
  setBases : SMap Int := []
  place : OpPlace := {}
deriving DecidableEq, Repr

/-- The checkers of a tile (rules R120, R159, R160, R211). -/
inductive Checker where
  | me | ve | cu
deriving DecidableEq, Repr

/-- A verdict that is still to come (rules R122, R161, R211). -/
structure Verdict where
  id : Nat := 0
  checker : Checker := .me
  issuer : KStream := .f
  lhs : Nat := 0
  rhs : Nat := 0
  mismatch : Bool := false
  place : OpPlace := {}
deriving DecidableEq, Repr

/-- The data flags of the kernel status word (rule R184). -/
structure Flags where
  sat : Bool := false
  range : Bool := false
  poison : Bool := false
  empty : Bool := false
deriving DecidableEq, Repr

/-- An open static loop (rule R183). -/
structure LoopFrame where
  first : Nat := 0
  last : Nat := 0
  trip : Nat := 1
  idx : Nat := 0
deriving DecidableEq, Repr

/-- Where a stream stands between the issue and the completion of an instruction. -/
inductive Phase where
  | ready                                    -- the next word may issue
  | taking (t : Nat)                         -- a `take` waits (rule R126)
  | waiting (sel n : Nat)                    -- a `wait` waits (rule R173)
  | draining                                 -- a `mark` drains (rule R178)
  | bellWaiting (slot : Option Nat) (target : Nat) -- a `bellwait` waits (rule R182)
  | atGate                                   -- the step gate (rule R179)
  | finished                                 -- an evaluation program has ended (rule R230)
deriving DecidableEq, Repr

/-- A kernel stream (rules R123, R178, R183, R184). -/
structure KState where
  pc : Nat := 0
  bufLo : Nat := 0
  bufHi : Nat := 0
  blank : List (Nat × Nat) := []
  phase : Phase := .ready
  stall : Nat := 0
  fault : Nat := 0
  halted : Bool := false
  haltPending : Bool := false
  loops : List LoopFrame := []
  kernel : Option Nat := none
  occurrence : Nat := 0
  seen : SMap Nat := []
  duration : Nat := 0
  grace : Nat := 250000
  openBell : Nat := 0
  waitedBells : Nat := 0
  waitFrom : Nat := 0
  step : Nat := 0
  flags : Flags := {}
  cutWait : Bool := false
  leading : Bool := false
  stopped : Bool := false
deriving DecidableEq, Repr

/-- The kernel state of a tile that a save slot holds (rules R129, R414, R436). -/
structure TileCore where
  store : Memory := []
  banks : SMap Bank := []
  tokens : List TokenState := List.replicate 11 .none
  f : KState := {}
  b : KState := {}
  u : KState := {}
deriving DecidableEq, Repr

/-- Power and governor state of a tile (rules R495, R496, R532). -/
structure Governor where
  ceilingMhz : Nat := 0
  droop : Bool := false
  droopBell : Option Nat := none
  currentSteps : Nat := 0
  tempSteps : Nat := 0
  paused : Bool := false
  downSteps : Nat := 0
  energyUj : Nat := 0
deriving DecidableEq, Repr

/-- Health of a tile position (rules R457, R460, R469, R532). -/
structure TileHealth where
  retired : Bool := false
  pendingRetire : Bool := false
  karFail : Bool := false
  karDue : Bool := false
  disabled : Bool := false
  inReset : Bool := false
  inService : Bool := false
  blank : Bool := false
deriving DecidableEq, Repr

/-- Counters of a tile that a read clears (rules R365, R532). -/
structure TileCounts where
  tsCorrected : Nat := 0
  ibufCorrected : Nat := 0
  disagreements : Nat := 0
  thirdRuns : Nat := 0
  cdcOverrun : Nat := 0
  cdcTimeouts : Nat := 0
  cdcResyncs : Nat := 0
deriving DecidableEq, Repr

/-- A physical tile (rule R109). -/
structure Tile where
  core : TileCore := {}
  vregs : SMap VReg := []
  masks : SMap Nat := []
  units : SMap RedUnit := []
  landings : SMap Landing := []
  passes : List MePass := []
  verdicts : List Verdict := []
  nextOp : Nat := 0
  nextTransfer : Nat := 0
  suite : Option Nat := none
  vtile : Nat := 0x7FF
  fold : Nat := 0
  saved : Bool := false
  evalMode : Bool := false
  gov : Governor := {}
  health : TileHealth := {}
  counts : TileCounts := {}
  cdcHeld : Bool := false
  cdcPending : Nat := 0
deriving DecidableEq, Repr

def TileCore.stream (t : TileCore) : KStream → KState
  | .f => t.f
  | .b => t.b
  | .u => t.u

def TileCore.setStream (t : TileCore) (k : KStream) (x : KState) : TileCore :=
  match k with
  | .f => { t with f := x }
  | .b => { t with b := x }
  | .u => { t with u := x }

/-- Stream-table entry states (rule R262). -/
inductive EntryState where
  | free | unbound | bound | timedOut | disabled
deriving DecidableEq, Repr

/-- A transaction started and not complete (rules R252, R264). -/
structure Txn where
  tag : Nat := 0
  tile : Nat := 0
  landing : Nat := 0
  transfer : Nat := 0
  index : Nat := 0
  data : Bytes := []
  step : Nat := 0
  lost : Option Nat := none
  marks : List Nat := []
deriving DecidableEq, Repr

/-- A stream-table entry (rules R261, R262). -/
structure StreamEntry where
  state : EntryState := .free
  type : Nat := 0
  tclassInput : Bool := false
  landing : Nat := 0
  outbound : Bool := false
  policyStream : Bool := false
  suite : Nat := 0
  vtile : Nat := 0
  ptile : Nat := 0
  port : Nat := 0xFF
  route : Nat := 0xFFFF
  regionBase : Nat := 0
  regionLen : Nat := 0
  peerRank : Nat := 0
  peerEntry : Nat := 0
  seqNext : Nat := 0
  seqOldest : Nat := 0
  absorbed : Nat := 0
  late : Nat := 0
  tensor : Nat := 0
  posted : Nat := 0
  retired : List Nat := []
  inFlight : List Txn := []
  draining : Bool := false
  foldBuffer : SMap Bytes := []
  foldBase : Nat := 0
  foldGot : Nat := 0
deriving DecidableEq, Repr

end Sys2Proof
end

