-- ==== Sys2Proof/Machine/SuiteState.lean ====
section
/-!
DEFINITION. What a suite, its job and the fault log hold: 14_managers_replicas_and_collectives.md,
18_images_and_the_loader.md, 19_suites_and_preemption.md, 20_faults_checkers_and_signatures.md.
Field defaults are the values after reset.
-/
namespace Sys2Proof

/-- Suite states (rule R17); `absent` is a suite that does not exist. -/
inductive SuiteState where
  | absent | empty | loaded | running | preempted | draining | faulted
deriving DecidableEq, Repr

/-- What CREATE_SUITE gave a suite (rules R258, R268, R394, R425). -/
structure SuiteRes where
  pcs : List Nat := []
  ways : SMap Nat := []
  tiles : List Nat := []
  baseBlock : Nat := 0
  blocks : Nat := 0
  ports : List (Nat × Nat) := []
  granted : List Nat := []
deriving DecidableEq, Repr

/-- A bound input region (rules R394, R409). -/
structure Binding where
  tensor : Nat := 0
  kind : Nat := 0
  base : Nat := 0
  len : Nat := 0
deriving DecidableEq, Repr

/-- What a rank gathers about one step until it is recorded (rules R42, R48, R90, R92, R180, R185, R339). -/
structure StepAcc where
  recs : SMap ScaleRecord := []
  sats : SMap Nat := []
  digests : SMap Nat := []
  content : SMap Nat := []
  satKernels : Nat := 0
  rangeKernels : Nat := 0
  poisonKernels : Nat := 0
  emptyKernels : Nat := 0
  inputDigest : Bytes := []
  complete : Bool := false
  recorded : Bool := false
  merged : SMap ScaleRecord := []
  written : List Nat := []
deriving DecidableEq, Repr

/-- A step's slot of the digest ring (rules R48, R556): the step and its records by tensor id; the evaluation flag record is
kept under 0x1FFFFFE. -/
structure DigestSlot where
  step : Nat := 0
  recs : SMap Bytes := []
  evalStep : Nat := 0
deriving DecidableEq, Repr

/-- A commanded bell event (rules R354, R355). -/
structure BellEvent where
  id : Nat := 0
  bell : Nat := 0
  opcode : Nat := 0
  suite : Nat := 0xFF
  step : Nat := 0
  arg : Nat := 0
  value : Nat := 0
deriving DecidableEq, Repr

/-- A checkpoint of the suite (rules R333, R441). -/
structure Checkpoint where
  step : Nat := 0
  id : Nat := 0
  complete : Bool := false
  vouched : Bool := false
  slot : Nat := 0
  lineage : Bytes := []
  header : Bytes := []
  state : Memory := []
  scale : SMap ScaleEntry := []
deriving DecidableEq, Repr

/-- A snapshot slot (rule R336). -/
structure Snapshot where
  step : Nat := 0
  state : Memory := []
  scale : SMap ScaleEntry := []
deriving DecidableEq, Repr

/-- Progress of an evaluation window (rules R232, R233). -/
structure EvalWindow where
  step : Nat := 0
  eventId : Nat := 0
  started : Bool := false
  saves : SMap TileCore := []
  flagCounts : List Nat := [0, 0, 0, 0]
  digests : SMap Nat := []
  resident : SMap Nat := []
  programsDone : List Nat := []
  entries : SMap StreamEntry := []
deriving DecidableEq, Repr

/-- The job a suite's rank belongs to (rules R321, R329, R342). -/
structure JobState where
  rank : Option Nat := none
  nRanks : Nat := 0
  levels : List Nat := []
  seed : Nat := 0
  lineage : Bytes := []
  manifest : Bytes := []
  rankManifest : Bytes := []
  map : SMap Nat := []
  routes : SMap Bytes := []
  voted : Nat := 0
  restore : Nat := 0
  expels : Nat := 0
  takeovers : Nat := 0
  rollbacks : Nat := 0
  disagree : Nat := 0
  snapshot : Bool := false
  votePending : Option Nat := none
  voteBell : Nat := 0
  poisonedStep : Option Nat := none
  owner : Nat × Nat := (0xFFFFFFFF, 0xFFFFFFFF)
  haltBell : Option Nat := none
  haltStep : Nat := 0
  haltEvent : Nat := 0
  started : Bool := false
  mapReceived : Bool := false
  committedMap : Bool := false
  rollback : Bool := false
  inPlace : Bool := false
  toCheckpoint : Bool := false
  anyCheckpoint : Option Nat := none
  stopHalt : Bool := false
  takeover : Option Bytes := none
  broken : Option (Bytes × Nat × Nat) := none
  keptRing : SMap DigestSlot := []
deriving DecidableEq, Repr

/-- Latest load status (rule R424). -/
structure LoadReg where
  status : Nat := 0
  detail : Nat := 0
  location : Nat := 0xFFFFFFFFFFFFFFFF
  saveBase : Nat := 0
  ptiles : Nat := 0
deriving DecidableEq, Repr

/-- Counters of a suite that a read clears, and its live counts (rules R102, R278, R445). -/
structure SuiteCounts where
  clamp : Nat := 0
  adapt : Nat := 0
  satTotal : Nat := 0
  satStep : Nat := 0
  notices : Nat := 0
  timeouts : Nat := 0
  absorbed : Nat := 0
  absorbedRead : Nat := 0
  late : Nat := 0
  preempts : Nat := 0
  releases : Nat := 0
  saveBells : Nat := 0
  restoreBells : Nat := 0
  energyUj : Nat := 0
  cyclesNow : Nat := 0
  cycles : Nat := 0
  epo : Nat := 0xFFFFFFFF
deriving DecidableEq, Repr

/-- Pre-emption and slices of a suite (rules R429 to R439, R445). -/
structure SliceState where
  slice : Nat := 0
  nextSlice : Option Nat := none
  grace : Nat := 250000
  carry : Nat := 0
  stopping : Bool := false
  waitingSlice : Bool := false
  sliceStart : Nat := 0
  charged : Nat := 0
  boundary : Nat := 0
  resumeBell : Nat := 0
  preemptBell : Nat := 0
  stopAfter : Option Nat := none
  rotation : Bool := false
  resumeAsked : Bool := false
deriving DecidableEq, Repr

/-- What uses a route of the on-chip network (rules R267, R295): a tile's traffic to a wing's memory port, a TILE or REMOTE stream by its image
number, or what a port forwards to another. -/
inductive RouteUse where
  | memory (tile wing : Nat)
  | stream (i : Nat)
  | transit (p q : Nat)
deriving DecidableEq, Repr

/-- A route (rules R266, R267): its id, its use, and on each link of its path the slot it owns in each direction: from a tile towards its
wing's region, from wing w towards w + 1 or w + 4, and out of a region to memory or a Spire, and back. -/
structure Route where
  id : Nat := 0
  use : RouteUse := .stream 0
  slots : List (NetLink × Nat × Nat) := []
deriving DecidableEq, Repr

/-- A suite (rules R394, R425). -/
structure Suite where
  state : SuiteState := .absent
  res : SuiteRes := {}
  image : Option Image := none
  vmap : SMap Nat := []
  fold : Nat := 0
  bindings : List Binding := []
  evalNext : Option (List Binding) := none
  readyStep : Nat := 0
  timeoutMs : Nat := 1
  inputTimeoutS : Nat := 10
  firstStep : Nat := 1
  startAt : Nat := 1
  scale : SMap ScaleEntry := []
  steps : SMap StepAcc := []
  ring : SMap DigestSlot := []
  evals : List Nat := []
  runRecord : Bytes := []
  checkpoints : List Checkpoint := []
  receiving : SMap Memory := []
  snapshots : SMap Snapshot := []
  saves : SMap TileCore := []
  window : Option EvalWindow := none
  closedGate : Option Nat := none
  holdU : Option Nat := none
  job : JobState := {}
  load : LoadReg := {}
  counts : SuiteCounts := {}
  slice : SliceState := {}
  slots : SMap Nat := []
  laterWindows : List EvalWindow := []
  ckptEvent : Option BellEvent := none
  laterCkpts : List BellEvent := []
  heldStep : Nat := 0
  areas : SMap Nat := []
  excluded : List Nat := []
  draining : Bool := false
  foldStep : Nat := 0
  routes : List Route := []
deriving DecidableEq, Repr

/-- The operation fields of an error record (rule R446, Note 1). -/
structure FaultOp where
  stream : Nat := 3
  operation : Nat := 0
  kernelId : Nat := 0xFFFF
  occurrence : Nat := 0
  instrIndex : Nat := 0
  isOpcode : Bool := false
deriving DecidableEq, Repr

/-- An error record (rule R446); the conditions at detection are in `FaultCond`. -/
structure FaultRec where
  index : Nat := 0
  unitClass : Nat := 9
  cls : Nat := 0
  unitIndex : Nat := 0xFFFF
  subIndex : Nat := 0xFFFFFFFF
  cause : Nat := 0
  suite : Nat := 0xFF
  op : FaultOp := {}
  bell : Nat := 0
  localCycle : Nat := 0
  domain : Nat := 4
  poisoned : Bool := false
  owner : Bool := true
  attic : Bool := false
  temp : Int := 0
  railMv : Nat := 0
  inputMv : Nat := 0
  causeIndex : Nat := 0xFFFFFFFF
  lineage : Bytes := []
  rank : Nat := 0xFFFFFFFF
  step : Nat := 0
  location : Nat := 0
  retries : Nat := 0
  replays : Nat := 0
  fecCorrected : Nat := 0
  absorbed : Nat := 0
  values : List Nat := []
  third : Option Nat := none
  divergence : Option (Nat × Nat × Nat) := none
  acked : Bool := false
deriving DecidableEq, Repr

/-- A checker disagreement under resolution (rules R452, R453). -/
structure Resolution where
  tile : Nat := 0
  cause : Nat := 0
  value : Nat := 0
  check : Nat := 0
  third : Option Nat := none
  suite : Nat := 0
  step : Nat := 0
  eval : Bool := false
  record : Nat := 0
  kept : Option FaultRec := none
  folded : Bool := false
deriving DecidableEq, Repr

/-- The fault log of the module (rules R449, R461, R462, R468). -/
structure FaultLog where
  next : Nat := 0
  held : List FaultRec := []
  lost : Nat := 0
  poisons : Nat := 0
  transient : Nat := 0
  permanent : Nat := 0
  checker : Nat := 0
  unresolved : Nat := 0
  signatures : List (Nat × Bytes) := []
  announced : List (Nat × Bytes) := []
  collected : List Bytes := []
  resolutions : List Resolution := []
  last : FaultRec := {}
deriving DecidableEq, Repr

/-- One entry of an Attic history (rule R457). -/
structure HistEntry where
  cause : Nat := 0
  cls : Nat := 0
  clock : Nat := 0
  record : Nat := 0
deriving DecidableEq, Repr

end Sys2Proof
end

