-- ==== Sys2Proof/Machine/DeviceState.lean ====
section
/-!
DEFINITION. What the parts of the device other than tiles and suites hold: 11_memory_and_landings.md,
13_spires_lanterns_and_fabric_links.md, 14_managers_replicas_and_collectives.md, 15_bell_clocks_and_crossings.md,
16_command_packets.md, 21_bringup_reset_and_firmware.md, 22_power_cupola_and_attic.md, 24_module_electrical_and_mechanical.md.
Field defaults are the values after reset; where the spec gives none, notes/assumptions/4.md and 5.md name them.
-/
namespace Sys2Proof

/-- Device states (rule R16). -/
inductive DevState where
  | off | standby | waking | testing | ready | running | draining | faulted
deriving DecidableEq, Repr

/-- Fuses of the module (rules R3, R485, R529): never written by any command. -/
structure Fuses where
  serial : Nat := 1
  grade : Nat := 0
  stepping : Nat := 0
  wings : List Nat := [0, 1, 2, 3, 4, 5, 6, 7]
  gradeTiles : Nat := 9
  tiles : List Nat := (List.range 80).filter (fun t => t % 10 < 9)
  stackGib : Nat := 96
  minSvn : Nat := 0
  strap : Bool := false
deriving DecidableEq, Repr

/-- A line of the wing cache (rule R247): whether it is dirty, and when it was last used. -/
structure CacheLine where
  dirty : Bool := false
  used : Nat := 0
deriving DecidableEq, Repr

/-- A wing's memory controller, cache and network counters (rules R245 to R257, R279, R365, R516, R533). -/
structure Wing where
  trained : Bool := false
  tested : Bool := false
  onDieEcc : Nat := 0
  repairActive : Option Nat := none
  throttle : Bool := false
  temp : Int := 0
  refreshMult : Nat := 0
  pendingMult : Option (Nat × Bool) := none
  onlineRepairs : Nat := 0
  spares : SMap Nat := []
  ce : SMap Nat := []
  ue : SMap Nat := []
  ceHistory : List (Nat × Nat × Nat) := []
  needRepair : List (Nat × Nat) := []
  refreshes : Nat := 0
  rfms : Nat := 0
  scrubPasses : Nat := 0
  scrubProgress : Nat := 0
  scrubAt : Nat := 0
  wayOwner : SMap Nat := []
  lines : SMap CacheLine := []
  uses : Nat := 0
  hits : Nat := 0
  misses : Nat := 0
  cacheCorrected : Nat := 0
  cacheDirtyUe : Nat := 0
  slotViol : Nat := 0
  tagViol : Nat := 0
  inReset : Bool := false
  cdcOverrun : Nat := 0
  cdcTimeouts : Nat := 0
  cdcResyncs : Nat := 0
  energyUj : Nat := 0
  cdcHeld : Bool := false
  cdcPending : Nat := 0
  drained : Bool := false
deriving DecidableEq, Repr

/-- A management packet under assembly from segments (rule R298). -/
structure Assembly where
  expected : Nat := 0
  bytes : Bytes := []
deriving DecidableEq, Repr

/-- A flit's content that waits for its turn on a port (rules R290, R291, R296): its type and buffer class, and for one that is forwarded the
port and the class of the buffer in which it waits. -/
structure TxFlit where
  type : Nat := 0
  cls : Nat := 0
  content : Bytes := []
  back : Option (Nat × Nat) := none
deriving DecidableEq, Repr

/-- A Spire port (rules R283 to R303, R312, R534). The link counts are those of the retries, replayed flits and corrected codewords that no read
clears (rule R275). -/
structure Port where
  state : Nat := 1
  feed : Nat := 2
  txWidth : Nat := 0
  rxWidth : Nat := 0
  laneTx : Nat := 0
  laneRx : Nat := 0
  failTx : Nat := 0
  failRx : Nat := 0
  farModule : Nat := 0xFFFFFFFF
  farPort : Nat := 0
  linkVersion : Nat := 0
  txSeq : Nat := 0
  rxSeq : Nat := 0
  acked : Nat := 0
  replay : List (Nat × Bytes) := []
  retries : Nat := 0
  crcErr : Nat := 0
  replays : Nat := 0
  fecCorr : Nat := 0
  fecUncorr : Nat := 0
  fastRetrains : Nat := 0
  fullRetrains : Nat := 0
  notOwned : Nat := 0
  otherDiscard : Nat := 0
  planned : Nat := 0
  unplanned : Nat := 0
  switching : Option Nat := none
  feedPower : SMap Int := []
  miswired : List Nat := []
  peak : Nat := 0
  credits : SMap Nat := []
  assembly : Option Assembly := none
  disabled : Bool := false
  retrainKind : Nat := 0
  retrainWanted : Bool := false
  mayWiden : Bool := false
  waitTx : List TxFlit := []
  mgmtCount : Nat := 0
  dataRun : Nat := 99
  lastModule : Nat := 0xFFFFFFFF
  lastPort : Nat := 16
  linkRetries : Nat := 0
  linkReplays : Nat := 0
  linkFec : Nat := 0
deriving DecidableEq, Repr

/-- Counters of a port's crossing and meter, and its bell servo (rules R348, R365, R516). -/
structure PortExtra where
  cdcOverrun : Nat := 0
  cdcTimeouts : Nat := 0
  cdcResyncs : Nat := 0
  energyUj : Nat := 0
  cdcHeld : Bool := false
  cdcPending : Nat := 0
deriving DecidableEq, Repr

/-- The mirror registers of a Lantern, as last refreshed (rules R313, R535). -/
structure LanternMirror where
  state : Nat := 0
  serial : Nat := 0
  model : Nat := 0
  hours : Nat := 0
  decline : Int := 0
  remaining : Nat := 0xFFFF
  fed : Nat := 0
  active : Nat := 0
  ageMin : Nat := 0xFFFF
  installs : Nat := 0
  switchovers : Nat := 0
  waves : SMap Int := []
deriving DecidableEq, Repr

/-- A Lantern slot (rules R305 to R310): the state, what its own memory holds, and what the checks have found. -/
structure Lantern where
  state : Nat := 0
  serial : Nat := 0
  model : Nat := 0
  hours : Nat := 0
  first : List Int := []
  decline : Int := 0
  remaining : Nat := 0xFFFF
  waves : SMap Int := []
  levels : SMap Int := []
  authBell : Option Nat := none
  authFails : Nat := 0
  mirror : LanternMirror := {}
deriving DecidableEq, Repr

/-- Belfry states (rule R351). -/
inductive BellState where
  | off | acquiring | locked | holdover
deriving DecidableEq, Repr

/-- The delay exchanges on the link by which a relayed path comes in (rules R348, R350). -/
structure InLink where
  delays : List Int := []
  reqSent : Option Nat := none
  delay : Int := 0
deriving DecidableEq, Repr

/-- The Belfry (rules R343 to R356, R364). -/
structure Belfry where
  count : Nat := 0
  state : BellState := .off
  source : Nat := 0
  port : Nat := 0
  refPresent : Bool := false
  refValid : Bool := false
  outEn : Bool := true
  offset : Int := 0
  pathDelay : Int := 0
  freqAdj : Int := 0
  delays : List Int := []
  good : Nat := 0
  lastSync : Nat := 0
  reqSeq : Nat := 0
  reqSent : Option Nat := none
  refFlag : Bool := false
  stepsSince : Nat := 0
  steps : Nat := 0
  holdovers : Nat := 0
  telemetry : Nat := 100000
  events : List BellEvent := []
  nextEvent : Nat := 1
  inLinks : SMap InLink := []
deriving DecidableEq, Repr

/-- A direct worker of a manager (rules R317, R319). -/
structure WorkerInfo where
  module : Nat := 0
  path : Bytes := []
  port : Nat := 0
  lost : Bool := false
  lastSeen : Nat := 0
deriving DecidableEq, Repr

/-- A broadcast or a job command whose replies are gathered (rules R378, R391): the command that it answers, the tags that have
not replied, and what has come in. -/
structure Broadcast where
  src : Src := .ring 0
  tag : Nat := 0
  waiting : List Nat := []
  okCount : Nat := 0
  failed : List (Nat × Nat × Nat) := []
  silent : Nat := 0
  head : Bytes := []
  failCount : Nat := 0
  since : Nat := 0
deriving DecidableEq, Repr

/-- A job that the top manager holds (rules R321, R329 to R338, R391). -/
structure Job where
  ranks : SMap (Nat × Nat) := []
  spares : List (Nat × Nat) := []
  nRanks : Nat := 0
  levels : List Nat := []
  seed : Nat := 0
  snapshot : Bool := false
  started : Bool := false
  lineage : Bytes := []
  manifests : SMap Bytes := []
  haltBell : Option Nat := none
  haltStep : Nat := 0
  voteStep : Nat := 0
  votedStep : Nat := 0
  voteBell : Option Nat := none
  votes : SMap Bytes := []
  disagreeStep : Nat := 0
  disagreeGroups : List Nat := []
  taking : SMap (Nat × Nat) := []
  poisonedBy : SMap Nat := []
  lost : List Nat := []
  expelled : List Nat := []
  runRecord : Bytes := []
  startAt : Nat := 1
  cause : Nat := 0
  old : Bytes := []
  image : Bytes := []
deriving DecidableEq, Repr

/-- The management hierarchy (rules R314 to R319, R341). -/
structure Manager where
  role : Nat := 0
  depth : Nat := 0
  moduleId : Nat := 0xFFFFFFFF
  parent : Nat := 0xFFFFFFFF
  parentPort : Nat := 0
  workers : List WorkerInfo := []
  haltLead : Nat := 1000
  voteTimeout : Nat := 10000000
  relayed : Nat := 0
  lost : Nat := 0
  lateReplies : Nat := 0
  unanswered : Nat := 0
  heartbeats : Nat := 0
  nextModule : Nat := 1
  broadcasts : List Broadcast := []
  jobs : SMap Job := []
  reported : SMap (List (Nat × Nat)) := []
  merged : SMap (SMap ScaleRecord) := []
  strapGiven : Bool := false
  nextTag : Nat := 0
  tables : SMap Bytes := []
  asked : SMap (List Nat) := []
  relays : List (Nat × Nat) := []
  placed : SMap Nat := []
  heard : Option Nat := none
deriving DecidableEq, Repr

/-- A command packet (rules R366, R372, R376). -/
structure Packet where
  opcode : Nat := 0
  version : Nat := 3
  flags : Nat := 0
  suite : Nat := 0xFF
  tag : Nat := 0
  payload : Bytes := []
deriving DecidableEq, Repr

/-- A command accepted and not yet answered (rules R381, R386). -/
structure Waiting where
  pkt : Packet := {}
  urgent : Bool := false
  executing : Bool := false
  note : List Nat := []
  reply : Option Bytes := none
  relayed : Bool := false
deriving DecidableEq, Repr

/-- A command ring (rules R371 to R375, R379, R386), or the command session of a management link (rule R379). -/
structure Ring where
  enable : Bool := false
  irqEn : Bool := false
  vector : Nat := 0
  stopped : Bool := false
  session : Bool := false
  error : Nat := 0
  eventsLost : Nat := 0
  sqBase : Nat := 0
  cqBase : Nat := 0
  shadow : Nat := 0
  sqLog2 : Nat := 4
  cqLog2 : Nat := 4
  sqTail : Nat := 0
  sqHead : Nat := 0
  cqHead : Nat := 0
  cqTail : Nat := 0
  queue : List Waiting := []
  held : List Packet := []
  eventTag : Nat := 0
  cmdVersion : Nat := 0
  imageVersions : List Nat := []
  digestVersions : List Nat := []
  features : Nat := 0
  sessions : Nat := 0
  peer : Nat := 0
  irqPending : List Nat := []
deriving DecidableEq, Repr

/-- The usage record of a Lantern in the Attic (rules R309, R457, R299). -/
structure LanternUse where
  serial : Nat := 0
  first : List Int := []
  hours : Nat := 0
  decline : Int := 0
  remaining : Nat := 0xFFFF
  installs : Nat := 0
  switchovers : Nat := 0
  authFails : Nat := 0
  rejects : Nat := 0
  failed : Nat := 0
  unreleased : Nat := 0
  authOk : Bool := false
  checks : List (Nat × Int) := []
  history : List HistEntry := []
deriving DecidableEq, Repr

/-- What the Attic records (rules R309, R457, R470 to R492, R500, R502, R511): the working copy that the next bank write stores. -/
structure Attic where
  tileHist : SMap (List HistEntry) := []
  pcHist : SMap (List HistEntry) := []
  tileLifetime : SMap Nat := []
  tilesRetired : List Nat := []
  pcsRetired : List Nat := []
  pcsMarked : List Nat := []
  serialsBanned : List Nat := []
  repairMap : List (Nat × Nat) := []
  repairVersion : Nat := 0
  lanterns : SMap LanternUse := []
  lanternsGone : List LanternUse := []
  lifetimeS : Nat := 0
  measuredUs : Nat := 0
  downUs : Nat := 0
  brownouts : Nat := 0
  shutdowns : Nat := 0
  bringupCode : Nat := 0
  bringupKind : Nat := 0
  bringupMs : Nat := 0
  resetCause : Nat := 0
  resetLevel : Nat := 0
  warmResets : Nat := 0
  coldResets : Nat := 0
  fullAt : Option Nat := none
  fwActive : Nat := 0
  fwConfirmed : Bool := true
  fwReverted : Bool := false
  fullSlot : Nat := 0
  stackSettings : List Nat := []
  lastEntry : Option (Nat × Nat × Nat × Nat) := none
  maxTemp : Int := 0
  inputJ : Nat := 0
deriving DecidableEq, Repr

/-- A stored Attic bank (rules R509, R510). -/
structure AtticBank where
  seq : Nat := 0
  data : Attic := {}
deriving DecidableEq, Repr

/-- The two banks of the Attic and the write in progress (rules R509 to R513): `pendingFault` and `pendingOther` say that the
working copy holds something the taken bank does not; `lastWrite` and `lastFault` are the lifetime clock at the last write and at the
last for a fault event since power-up; `lostResult` says that power went while a bring-up result was written. -/
structure AtticStore where
  bank0 : Option AtticBank := some {}
  bank1 : Option AtticBank := none
  taken : Nat := 0
  seq : Nat := 0
  writes0 : Nat := 0
  writes1 : Nat := 0
  wear : Bool := false
  writing : Bool := false
  pendingFault : Bool := false
  pendingOther : Bool := false
  lastWrite : Option Nat := none
  lastFault : Option Nat := none
  lostResult : Bool := false
  image : Attic := {}
deriving DecidableEq, Repr

/-- A firmware slot (rules R485 to R488). -/
structure FwSlot where
  valid : Bool := false
  version : Nat := 0
  svn : Nat := 0
  image : Bytes := []
deriving DecidableEq, Repr

/-- The Hall's firmware (rules R484 to R492). -/
structure Firmware where
  slotA : FwSlot := { valid := true, version := 0x00010000, svn := 0 }
  slotB : FwSlot := {}
  active : Nat := 0
  confirmed : Bool := false
  reverted : Bool := false
  actPending : Bool := false
  actBell : Nat := 0xFFFFFFFFFFFFFFFF
  stage : Nat := 0
  stagedVersion : Nat := 0
  stagedSvn : Nat := 0
  stagedLength : Nat := 0
  stagedDigest : Bytes := []
  blocks : SMap Bytes := []
  halves : SMap Bytes := []
  serving : Bool := false
  inActivation : Bool := false
  fellBack : Bool := false
  servedBell : Nat := 0
  heldPackets : List (Nat × Bytes) := []
  fwMinSvn : Nat := 0
  keptWrites : List (Nat × Nat × Nat) := []
  heldRegs : SMap Nat := []
deriving DecidableEq, Repr

/-- Bring-up and reset progress (rules R470 to R483, R492): 0 none, 1 full, 2 quick. -/
structure Bringup where
  kind : Nat := 0
  asked : Nat := 1
  forcedFull : Bool := false
  code : Nat := 0
  fusesRead : Bool := false
  warm : Bool := false
  fresh : Bool := false
  fromBell : Nat := 0
  stackRetries : List Nat := []
  stacksTrained : List Nat := []
  memTested : List Nat := []
  karDone : List Nat := []
  drainTo : DevState := .waking
  sleeping : Bool := false
  wakeHeld : Bool := false
  resetLevel : Nat := 0
  tileResets : Nat := 0
  wingResets : Nat := 0
  suiteResets : Nat := 0
deriving DecidableEq, Repr

/-- What the CUPOLA mirror block holds since the latest copy (rules R505, R515). -/
structure CupMirror where
  wear : Bool := false
  bank : Nat := 0
  overvolt : Bool := false
  coolantHot : Bool := false
  throttle : Bool := false
  warn : Bool := false
  inputMv : Nat := 0
  inputMa : Nat := 0
  minMv : Nat := 0xFFFF
  supplyLast : Nat := 0
  supplyDur : Nat := 0
  maxSensor : Nat := 0
  maxTemp : Int := 0
  lifetime : Nat := 0
  brownouts : Nat := 0
  shutdowns : Nat := 0
  seq : Nat := 0
  writes0 : Nat := 0
  writes1 : Nat := 0
  energyUj : Nat := 0
  commonUj : Nat := 0
  present : Nat := 0
  temps : SMap Int := []
  rails : SMap Nat := []
deriving DecidableEq, Repr

/-- The Cupola: supply, thermal, telemetry (rules R493 to R508, R515 to R517). -/
structure Cupola where
  warn : Bool := false
  throttle : Bool := false
  coolantHot : Bool := false
  overvolt : Bool := false
  inputMv : Nat := 0
  inputMa : Nat := 0
  rawMv : Nat := 0
  minMv : Nat := 0xFFFF
  readMin : Nat := 0xFFFF
  warnMin : Nat := 0xFFFF
  supplyLast : Nat := 0
  supplyDur : Nat := 0
  warns : Nat := 0
  dips : Nat := 0
  throttles : Nat := 0
  maxTemp : Int := 0
  maxSensor : Nat := 0
  temps : SMap Int := []
  rails : SMap Nat := []
  energyUj : Nat := 0
  commonUj : Nat := 0
  warnClampMhz : Nat := 1200
  down : Option Nat := none
  downFrom : DevState := .off
  thermalWakes : List Nat := []
  railsUp : Bool := false
  lifeUs : Nat := 0
  mirror : CupMirror := {}
deriving DecidableEq, Repr

/-- The module's boundary (rules R490, R543, R546 to R548). -/
structure Boundary where
  perst : Bool := true
  d3hot : List Nat := []
  jtagInstr : Nat := 0
  bypassBit : Bool := false
  bsr : SMap Nat := []
  extest : Bool := false
  mctpEid : Nat := 0
  spdmState : Nat := 0
  transcript : Bytes := []
  pldmUpdate : Nat := 0
  pldmBytes : Nat := 0
  latches : SMap Nat := []
  msix : SMap Nat := []
deriving DecidableEq, Repr

/-- Where a packet or record that the module sends goes. -/
inductive OutTo where
  | port (p : Nat)          -- a flit, control record or management packet on a Spire port (rules R293, R294, R298)
  | sideband                -- an MCTP message (rule R546)
  | interrupt (f v : Nat)   -- an MSI-X message on a vector of a PCIe function (rule R374)
  | pins                    -- a connector pin
  | completion (f : Nat)    -- the completion of a register read by a PCIe function (rule R9)
deriving DecidableEq, Repr

/-- What kind of thing the module has sent. -/
inductive SentKind where
  | data | control | mgmt | bell | nak | mctp | msix | pin | down | read | idle | capability
deriving DecidableEq, Repr

/-- One thing the module has sent. -/
structure Sent where
  dest : OutTo
  kind : SentKind
  bytes : Bytes
deriving DecidableEq, Repr

/-- The host's memory as the module sees it by DMA (rule R371): its bytes, and ranges whose access fails. -/
structure HostMem where
  mem : Memory := []
  failing : List (Nat × Nat) := []
deriving DecidableEq, Repr

end Sys2Proof
end

