-- ==== Sys2Proof/Machine/State.lean ====
section
/-!
DEFINITION. The whole state of the block, the reasons a command can stop, and the state at reset. Every structure's field
defaults are the values at reset; a command sent at reset finds the module OFF (rule R470).
-/
namespace Sys2Proof.Machine

/-- Reasons a command faults. No command of this block faults: every fault of the spec is a state the block goes on in.
The constructor is never raised; a model that raised it would be safe. -/
inductive Fault where
  | none
deriving DecidableEq, Repr

/-- Reasons a command is refused: raised only by an arm of `exec` that has no meaning yet (safe). -/
inductive Refusal where
  | notModelled (mnemonic : String)
deriving DecidableEq, Repr

/-- The state of the block (plain data). -/
structure State where
  /-- Commands waiting, first in first out (the model's own). -/
  pending : List Instr := []
  /-- Free values drawn so far (the model's own). -/
  free : Nat := 0
  /-- What the module has sent (the model's own record), latest last. -/
  outbox : List Sent := []
  /-- The host's memory (the model's own). -/
  host : HostMem := {}
  /-- Fuses. -/
  fuse : Fuses := {}
  /-- Device state (rule R16). -/
  dev : DevState := .off
  bringup : Bringup := {}
  bell : Belfry := {}
  tiles : SMap Tile := []
  wings : SMap Wing := []
  ports : SMap Port := []
  portExtra : SMap PortExtra := []
  lanterns : SMap Lantern := []
  suites : SMap Suite := []
  streams : SMap StreamEntry := []
  /-- HBM by physical pseudo-channel × 2^31 + local address (rule R237). -/
  hbm : Memory := []
  /-- Rings by function, and management link sessions by 16 + port (rules R371, R379). -/
  rings : SMap Ring := []
  /-- Landings (class 1, tile × 4 + landing), stream entries (2) and pseudo-channels (3) disabled by command (rule R393). -/
  offUnits : List (Nat × Nat) := []
  mgr : Manager := {}
  faults : FaultLog := {}
  attic : Attic := {}
  atticStore : AtticStore := {}
  fw : Firmware := {}
  cup : Cupola := {}
  bnd : Boundary := {}
deriving DecidableEq, Repr

/-- The machine right after reset: every field at its default. -/
def State.reset : State := {}

end Sys2Proof.Machine
end

