-- ==== Sys2Proof/Machine/Operands.lean ====
section
/-!
DEFINITION. The fields of kernel instruction words and of the records they name: rules R162 to R183 of
08_instruction_encoding_and_control.md and R189 to R212 of 09_compute_instructions.md.
-/
namespace Sys2Proof.Machine

/-- Fields of a `qin` or `qout` (rule R169). -/
structure QOp where
  out : Bool
  layout : Nat
  landing : Nat
  stream : Nat
  tsDesc : Nat
  sDesc : Nat
  count : Nat
deriving DecidableEq, Repr

/-- Fields of an `mm` (rule R191). -/
structure MmOp where
  fmtA : Nat
  fmtB : Nat
  ta : Bool
  tb : Bool
  genA : Nat
  genB : Nat
  acc : Bool
  bank : Nat
  aDesc : Nat
  bDesc : Nat
  pass : Nat
deriving DecidableEq, Repr

/-- Fields of a `vop` (rule R197). -/
structure VopOp where
  op : Nat
  dst : Nat
  sa : Nat
  sb : Nat
  sc : Nat
  mask : Nat
  keep : Bool
  sr : Bool
  dtype : Nat
  c : Nat
  vrec : Nat
deriving DecidableEq, Repr

/-- Fields of a `vred` (rule R203). -/
structure VredOp where
  vmode : Nat
  kind : Nat
  unit : Nat
  src : Nat
  dst : Nat
  mask : Nat
  keep : Bool
  sr : Bool
  dtype : Nat
  c : Nat
  vrec : Nat
deriving DecidableEq, Repr

/-- Fields of a `cvt` (rule R205). -/
structure CvtOp where
  src : Nat
  sr : Bool
  stripe : Bool
  gen : Nat
  track : Bool
  rows : Nat
  cols : Nat
  sDesc : Nat
  dDesc : Nat
  cDesc : Nat
  clr : Bool
deriving DecidableEq, Repr

/-- A kernel instruction (rule R163). -/
inductive KInst where
  | nop
  | q (o : QOp)
  | wait (sel n : Nat)
  | take (token : Nat)
  | pass (target token : Nat)
  | mm (o : MmOp)
  | vop (o : VopOp)
  | vred (o : VredOp)
  | cvt (o : CvtOp)
  | dig (count sDesc cDesc : Nat)
  | mark (last : Bool) (duration kernel : Nat)
  | bellwait (useSlot : Bool) (slot offset : Nat)
  | loop (trip body : Nat)
  | illegal
deriving DecidableEq, Repr

/-- How many sources an operation takes (rule R200), or none for a reserved code. -/
def vopArity (op : Nat) : Option Nat :=
  if op = 0x01 ∨ (0x07 ≤ op ∧ op ≤ 0x09) ∨ (0x0C ≤ op ∧ op ≤ 0x14) ∨ op = 0x24 ∨ op = 0x2C then some 1
  else if (0x02 ≤ op ∧ op ≤ 0x04) ∨ op = 0x06 ∨ op = 0x0A ∨ op = 0x0B ∨ (0x18 ≤ op ∧ op ≤ 0x1D)
      ∨ (0x20 ≤ op ∧ op ≤ 0x23) then some 2
  else if op = 0x05 then some 3
  else if op = 0x28 ∨ op = 0x29 then some 0
  else none

/-- Whether an operation writes a mask register (rule R141). -/
def vopToMask (op : Nat) : Bool := decide (0x20 ≤ op) && decide (op ≤ 0x24)

/-- Whether an operation reads mask registers (rule R198). -/
def vopFromMask (op : Nat) : Bool := decide (0x22 ≤ op) && decide (op ≤ 0x24)

/-- Whether a DTYPE is one that the operation's row admits (rule R200). -/
def vopDtypeOk (op dtype : Nat) : Bool :=
  if op = 0x01 then decide (dtype ≤ 2)
  else if op = 0x06 then dtype == 1
  else if (0x02 ≤ op ∧ op ≤ 0x05) ∨ (0x07 ≤ op ∧ op ≤ 0x0D) ∨ op = 0x2C then decide (dtype ≤ 1)
  else if 0x0E ≤ op ∧ op ≤ 0x1D then dtype == 0
  else if vopToMask op then dtype == 0
  else dtype == 2

/-- Whether a source specifier may stand for an operand of the operation (rule R198). -/
def srcSpecOk (op spec : Nat) : Bool :=
  if vopFromMask op then decide (spec ≤ 7) else decide (spec ≤ 32)

/-- Whether the specifiers, DTYPE and modes of a `vop` are admitted together (rules R197 to R200). -/
def vopLegal (o : VopOp) : Bool :=
  match vopArity o.op with
  | none => false
  | some n =>
    let slot := fun (i spec : Nat) => if i < n then srcSpecOk o.op spec else spec == 63
    let recordless := decide (o.vrec = 0x3FF)
    slot 0 o.sa && slot 1 o.sb && slot 2 o.sc
      && (if vopToMask o.op then decide (o.dst ≤ 7) else decide (o.dst ≤ 32))
      && vopDtypeOk o.op o.dtype
      && decide (o.c ≤ 256)
      && !(recordless && (o.sr || o.dst == 32 && !vopToMask o.op || o.sa == 32 || o.sb == 32 || o.sc == 32
        || o.op == 0x28 || o.op == 0x29 || o.op == 0x2C || o.op == 0x20 || o.op == 0x21 || o.op == 0x19))
      && !(decide (0x18 ≤ o.op) && decide (o.op ≤ 0x1D) && !o.sr)

/-- Whether the fields of a `vred` are admitted together (rule R203). -/
def vredLegal (o : VredOp) : Bool :=
  let read := o.vmode == 2
  let recordless := decide (o.vrec = 0x3FF)
  decide (o.vmode ≤ 2) && decide (o.kind ≤ 6) && decide (o.c ≤ 256) && decide (o.dtype ≤ 2)
    && (if read then o.src == 63 else decide (o.src ≤ 32))
    && (if read then decide (o.dst ≤ 32) else if o.kind == 6 then decide (o.dst ≤ 31) || o.dst == 63 else o.dst == 63)
    && !(recordless && (o.kind == 4 || o.kind == 5 || o.kind == 6 || o.sr || o.src == 32 || o.dst == 32))

/-- The kernel instruction that a 64-bit word spells; a reserved opcode, field value or non-zero reserved field is illegal
(rules R162 to R164). -/
def decodeKernel (w : Nat) : KInst :=
  let f := fun lo n => bits w lo n
  match f 56 8 with
  | 0x01 => if f 0 56 = 0 then .nop else .illegal
  | 0x10 =>
    if f 55 1 = 0 ∧ f 53 2 ≠ 3 then .q ⟨false, f 53 2, f 52 1, f 36 16, f 26 10, f 16 10, f 0 16 + 1⟩ else .illegal
  | 0x11 =>
    if f 55 1 = 0 ∧ f 53 2 ≠ 3 ∧ f 53 2 ≠ 1 then .q ⟨true, f 53 2, f 52 1, f 36 16, f 26 10, f 16 10, f 0 16 + 1⟩
    else .illegal
  | 0x12 =>
    if f 4 49 = 0 ∧ f 53 3 ≠ 7 ∧ (f 53 3 ≤ 3 ∨ f 0 4 = 0) then .wait (f 53 3) (f 0 4) else .illegal
  | 0x18 => if f 4 52 = 0 ∧ f 0 4 ≤ 10 then .take (f 0 4) else .illegal
  | 0x19 => if f 6 50 = 0 ∧ f 4 2 ≠ 3 ∧ f 0 4 ≤ 10 then .pass (f 4 2) (f 0 4) else .illegal
  | 0x20 =>
    if f 0 15 = 0 ∧ f 54 2 ≠ 3 ∧ f 52 2 ≠ 3 then
      .mm ⟨f 54 2, f 52 2, bit w 51, bit w 50, f 49 1, f 48 1, bit w 47, f 45 2, f 35 10, f 25 10, f 15 10⟩
    else .illegal
  | 0x30 =>
    let o : VopOp := ⟨f 50 6, f 44 6, f 38 6, f 32 6, f 26 6, f 23 3, bit w 22, bit w 21, f 19 2, f 10 9, f 0 10⟩
    if vopLegal o then .vop o else .illegal
  | 0x31 =>
    let o : VredOp := ⟨f 54 2, f 51 3, f 47 4, f 41 6, f 35 6, f 32 3, bit w 31, bit w 30, f 28 2, f 19 9, f 0 10⟩
    if f 10 9 = 0 ∧ vredLegal o then .vred o else .illegal
  | 0x38 =>
    let o : CvtOp := ⟨f 54 2, bit w 53, bit w 52, f 51 1, bit w 50, f 43 7 + 1, f 36 7 + 1, f 26 10, f 16 10, f 6 10, bit w 5⟩
    if f 0 5 = 0 ∧ o.src ≠ 3 ∧ (o.clr = false ∨ o.src = 0) ∧ (o.sr = false ∨ o.cDesc ≠ 0x3FF) then .cvt o else .illegal
  | 0x3C => if f 42 14 = 0 ∧ f 0 8 = 0 then .dig (f 28 14 + 1) (f 18 10) (f 8 10) else .illegal
  | 0x40 =>
    if f 48 7 = 0 ∧ f 16 8 = 0 then
      if bit w 55 then (if f 24 24 = 0 ∧ f 0 16 = 0 then .mark true 0 0 else .illegal)
      else if f 24 24 ≠ 0 ∧ f 0 16 ≠ 0xFFFF then .mark false (f 24 24) (f 0 16) else .illegal
    else .illegal
  | 0x48 =>
    if f 36 19 = 0 ∧ (if bit w 55 then f 0 32 = 0 else f 32 4 = 0) then .bellwait (bit w 55) (f 32 4) (f 0 32)
    else .illegal
  | 0x50 =>
    if f 13 19 = 0 ∧ 1 ≤ f 0 13 ∧ f 0 13 ≤ 4096 then .loop (f 32 24 + 1) (f 0 13) else .illegal
  | _ => .illegal

/-- Sum of loop indices times strides over depths 0 to 3; a depth with no loop contributes zero (rule R167). -/
def strideSum (loops : List LoopFrame) (strides : List Int) : Int :=
  (List.zipWith (fun (l : LoopFrame) s => (l.idx : Int) * s) loops strides).foldl (· + ·) 0

/-- Effective base of a descriptor (rule R167). -/
def descEff (d : Desc) (loops : List LoopFrame) : Int := (d.base : Int) + strideSum loops d.strides

/-- STREAM and BANK descriptors lie on multiples of 64 with every stride (rule R167). -/
def descAligned (d : Desc) : Bool := d.kind == 0 || (d.base % 64 == 0 && d.strides.all (fun i => i % 64 == 0))

/-- Effective element base of a coordinate record (rule R190). -/
def coordEff (c : CoordRec) (loops : List LoopFrame) : Int := (c.e0 : Int) + strideSum loops c.strides

/-- Logical element index of linear position `l` under a coordinate record (rule R190, Note 1). -/
def coordIndex (c : CoordRec) (loops : List LoopFrame) (l : Nat) : Nat :=
  ((coordEff c loops) + ((l / c.w * c.pitch + l % c.w : Nat) : Int)).toNat

/-- Record `i` of a table; 0x3FF and records past its end are absent (rule R189). -/
def tableGet {α : Type} (t : List α) (i : Nat) : Option α := if i = 0x3FF then none else t[i]?

/-- Stripe group of a format (rule R116). -/
def stripeGroup (f : Fmt) : Nat :=
  match f with
  | .q4w | .q4a => 8
  | _ => 4

/-- Stripe size of a format in bytes (rule R116). -/
def stripeSize (f : Fmt) : Nat :=
  match f with
  | .h16 => 1024
  | _ => 512

/-- Bytes of one row slot in a stripe (rule R116). -/
def stripeRow (f : Fmt) : Nat := stripeSize f / 128

/-- Fault codes of the kernel status word (rule R186). -/
inductive KFault where
  | illegal | ownership | tokenNotHeld | tokenHeld | tokenSelf | tokenLeak | tsRange | vtype | descRange
  | streamBind | streamTimeout | unitDisabled | ifetchEcc | kernelOverrun
deriving DecidableEq, Repr

/-- Code of a fault (rule R186). -/
def KFault.code : KFault → Nat
  | .illegal => 0x01
  | .ownership => 0x02
  | .tokenNotHeld => 0x03
  | .tokenHeld => 0x04
  | .tokenSelf => 0x05
  | .tokenLeak => 0x06
  | .tsRange => 0x07
  | .vtype => 0x08
  | .descRange => 0x09
  | .streamBind => 0x0A
  | .streamTimeout => 0x0B
  | .unitDisabled => 0x0C
  | .ifetchEcc => 0x0D
  | .kernelOverrun => 0x0E

/-- Whether a fault is a permanent-class event of its tile (rule R457): IFETCH_ECC, ILLEGAL, VTYPE and the ownership class. -/
def KFault.tileEvent : KFault → Bool
  | .illegal | .ownership | .tokenNotHeld | .tokenHeld | .tokenSelf | .tokenLeak | .vtype | .ifetchEcc => true
  | _ => false

/-- Token numbers (rule R175). -/
def tokME : Nat := 0
def tokVE : Nat := 1
def tokCU : Nat := 2
def tokIN (l : Nat) : Nat := 3 + l
def tokOUT (l : Nat) : Nat := 5 + l
def tokBK (b : Nat) : Nat := 7 + b

/-- Highest tile-store address (rule R110). -/
def tsLast : Nat := 0x7FFFFF

end Sys2Proof.Machine
end

