-- ==== Sys2Proof/Machine/Flags.lean ====
section
/-!
DEFINITION. The flags of the kernel status word: what sets each, how they join, and the word they stand in
(rules R184, R185 of 08_instruction_encoding_and_control.md).
-/
namespace Sys2Proof.Machine

/-- Flags are sticky: joining keeps every flag that either side has (rule R185). -/
def orFlags (a b : Flags) : Flags :=
  ⟨a.sat || b.sat, a.range || b.range, a.poison || b.poison, a.empty || b.empty⟩

/-- The flags that one conversion sets: SAT when it saturates, POISON when its source is POISON (rules R69, R73). -/
def convFlags (c : Conv) : Flags := { sat := c.sat, poison := c.poison }

/-- The flags that reading an operand sets: SAT for code 0x80 of a Q8 weight, POISON for a POISON operand (rules R60, R68). -/
def readFlags (v : Value × Bool) : Flags := { sat := v.2, poison := v.1.isPoison }

/-- The flags of a list, joined. -/
def joinFlags (fs : List Flags) : Flags := fs.foldl orFlags {}

/-- The four flag bits of the word: EMPTY, POISON, RANGE, SAT (rule R184). -/
def flagBits (f : Flags) : Nat := bnat f.sat + 2 * bnat f.range + 4 * bnat f.poison + 8 * bnat f.empty

/-- The kernel status word (rule R184). -/
def kswWord (x : KState) : Nat :=
  2 ^ 24 * x.fault + 2 ^ 23 * (bnat x.halted) + 2 ^ 20 * x.stall + 2 ^ 17 * x.loops.length + flagBits x.flags

/-- Holder code of a token in TILE_TOKEN_HOLDER (rule R130). -/
def holderCode : TokenState → Nat
  | .held k => k.idx
  | .transit _ => 3
  | .none => 3

/-- The holder register (rule R130): two bits a token, ME lowest. -/
def holderWord (ts : List TokenState) : Nat := ts.foldr (fun t acc => holderCode t + 4 * acc) 0

end Sys2Proof.Machine
end

