-- ==== Sys2Proof/Machine/Signature.lean ====
section
/-!
DEFINITION. CBOR in the core deterministic encoding, fault signatures and run-record maps, and the bytes of an error record
(rules R446, R461, R463 of 20_faults_checkers_and_signatures.md).
-/
namespace Sys2Proof.Machine

/-- Head of a CBOR item: major type and argument, in the shortest form (RFC 8949, rule R461). -/
def cborHead (major v : Nat) : Bytes :=
  if v < 24 then [BitVec.ofNat 8 (major * 32 + v)]
  else if v < 2 ^ 8 then BitVec.ofNat 8 (major * 32 + 24) :: (natLE v 1).reverse
  else if v < 2 ^ 16 then BitVec.ofNat 8 (major * 32 + 25) :: (natLE v 2).reverse
  else if v < 2 ^ 32 then BitVec.ofNat 8 (major * 32 + 26) :: (natLE v 4).reverse
  else BitVec.ofNat 8 (major * 32 + 27) :: (natLE v 8).reverse

def cborUint (v : Nat) : Bytes := cborHead 0 v
def cborInt (v : Int) : Bytes := if 0 ≤ v then cborHead 0 v.toNat else cborHead 1 (-v - 1).toNat
def cborBytes (bs : Bytes) : Bytes := cborHead 2 bs.length ++ bs
def cborArray (items : List Bytes) : Bytes := cborHead 4 items.length ++ items.flatten

/-- A map with rising unsigned keys; absent items are left out. -/
def cborMap (items : List (Nat × Option Bytes)) : Bytes :=
  let present := items.filterMap (fun p => p.2.map (fun b => cborUint p.1 ++ b))
  cborHead 5 present.length ++ present.flatten

/-- Version of the active firmware slot (rules R461, R485). -/
def fwVersion (f : Firmware) : Nat := if f.active = 0 then f.slotA.version else f.slotB.version

/-- The 30 days of a history and its lifetime count (rule R461, key 17); none for a unit without history. -/
def unitHistory (s : State) (r : FaultRec) : Option (Nat × Nat) :=
  let recent := fun (h : List HistEntry) => (h.filter (fun e => decide (s.attic.lifetimeS ≤ e.clock + 2592000))).length
  match r.unitClass with
  | 0 => some (recent (SMap.get [] s.attic.tileHist r.unitIndex), SMap.get 0 s.attic.tileLifetime r.unitIndex)
  | 3 => let h := SMap.get [] s.attic.pcHist r.unitIndex; some (recent h, h.length)
  | 7 =>
    let h := (SMap.get {} s.attic.lanterns r.unitIndex).history
    some (recent h, h.length)
  | _ => none

/-- The signature of a record, format version 2 (rule R461). -/
def signature (s : State) (r : FaultRec) (action : Nat) : Bytes :=
  let hasJob := decide (r.rank ≠ 0xFFFFFFFF) || r.lineage.any (fun b => b != 0#8)
  let o := r.op
  let consequent := (s.faults.held.filter (fun x => decide (x.cls = 6) && decide (x.causeIndex = r.index))).length
  cborMap
    [(0, some (cborUint 2)),
     (1, some (cborBytes (natLE s.fuse.serial 8))),
     (2, some (cborArray [cborUint s.fuse.grade, cborUint s.fuse.stepping])),
     (3, some (cborUint (fwVersion s.fw))),
     (4, if s.mgr.moduleId = 0xFFFFFFFF then none else some (cborUint s.mgr.moduleId)),
     (5, some (cborUint r.index)),
     (6, some (cborArray [cborUint r.unitClass, cborUint r.unitIndex, cborUint r.subIndex])),
     (7, some (cborUint r.cause)),
     (8, some (cborUint r.cls)),
     (9, some (cborArray [cborUint r.bell, cborUint r.domain, cborUint r.localCycle])),
     (10, some (cborInt r.temp)),
     (11, some (cborArray [cborUint r.inputMv, cborUint r.railMv])),
     (12, some (cborMap [(0, some (cborUint o.operation)), (1, some (cborUint o.kernelId)), (2, some (cborUint o.occurrence)),
                         (3, some (cborUint o.instrIndex)), (4, some (cborUint o.stream))])),
     (13, if hasJob then some (cborArray [cborBytes (bytesAt r.lineage 0 16), cborUint r.rank, cborUint r.step]) else none),
     (14, some (cborArray [cborUint r.retries, cborUint r.replays, cborUint r.fecCorrected, cborUint r.absorbed])),
     (15, some (cborArray (r.values.map cborUint))),
     (16, r.third.map cborUint),
     (17, (unitHistory s r).map (fun h => cborArray [cborUint h.1, cborUint h.2])),
     (18, some (cborUint action)),
     (19, r.divergence.map (fun d => cborArray [cborUint d.1, cborUint d.2.1, cborUint d.2.2])),
     (20, some (cborUint consequent))]

/-- Action that key 18 names: the largest code that applies (rule R461). -/
def signatureAction (s : State) (r : FaultRec) (stopped : Bool) : Nat :=
  let h := (SMap.get {} s.tiles r.unitIndex).health
  if stopped then 4
  else if r.unitClass = 0 ∧ h.retired then 3
  else if r.unitClass = 3 ∧ s.attic.pcsRetired.contains r.unitIndex then 3
  else if r.unitClass = 0 ∧ h.pendingRetire then 2
  else if r.poisoned then 1
  else 0

/-- Keep the last 1,024 signatures, and announce the signature over MCTP (rules R461, R462); a record signed again replaces its
signature. -/
def signRecord (s : State) (idx : Nat) (stopped : Bool) : State :=
  let r := (s.faults.held.find? (fun x => decide (x.index = idx))).getD s.faults.last
  let a := signatureAction s r stopped
  if decide (r.index = idx) && r.owner && (decide (r.cls ≠ 0) || decide (a ≠ 0)) then
    let sg := signature s r a
    let put := fun (l : List (Nat × Bytes)) =>
      let x := (l.filter (fun p => decide (p.1 ≠ idx))) ++ [(idx, sg)]
      x.drop (x.length - 1024)
    { s with faults := { s.faults with signatures := put s.faults.signatures, announced := put s.faults.announced } }
  else s

/-- Bytes of an error record (rule R446). -/
def recordBytes (r : FaultRec) : Bytes :=
  natLE r.index 4 ++ natLE r.unitClass 1 ++ natLE r.cls 1 ++ natLE r.unitIndex 2 ++ natLE r.subIndex 4 ++ natLE r.cause 2
    ++ natLE r.suite 1 ++ natLE r.op.stream 1 ++ natLE r.op.operation 8 ++ natLE r.op.kernelId 2 ++ natLE r.op.occurrence 2
    ++ natLE r.op.instrIndex 4 ++ natLE r.bell 8 ++ natLE r.localCycle 2 ++ natLE r.domain 1
    ++ natLE (bnat r.op.isOpcode + 2 * bnat r.poisoned + 4 * bnat r.owner + 8 * bnat r.attic) 1
    ++ natLE (unsignedOf 16 r.temp) 2 ++ natLE r.railMv 2 ++ natLE r.inputMv 4 ++ natLE r.causeIndex 4
    ++ bytesAt r.lineage 0 16 ++ natLE r.rank 4 ++ natLE r.step 4 ++ natLE r.location 8 ++ natLE r.retries 2
    ++ natLE r.replays 2 ++ natLE r.fecCorrected 4 ++ natLE r.absorbed 4 ++ natLE (r.op.occurrence / 2 ^ 16) 2 ++ natLE 0 2
    ++ natLE (r.values.getD 0 0) 8 ++ natLE (r.values.getD 1 0) 8 ++ natLE (r.values.getD 2 0) 8 ++ natLE (r.values.getD 3 0) 8
    ++ natLE 0 8

end Sys2Proof.Machine
end

