-- ==== Sys2Proof/Machine/Base.lean ====
section
/-!
DEFINITION. The shared operations over the state: outcomes, units by number, suite memory (rule R237), free values, and the
record of what the module sends.
-/
namespace Sys2Proof.Machine

/-- The next state, as an outcome. -/
abbrev ok (s : State) : Host.Outcome State Fault Refusal := .next s

/-- The effect where the command's condition holds, and no effect where it does not (notes/assumptions/1.md). -/
def whenDo (c : Bool) (s t : State) : Host.Outcome State Fault Refusal := .next (if c then t else s)

def getTile (s : State) (t : Nat) : Tile := SMap.get {} s.tiles t
def setTile (s : State) (t : Nat) (x : Tile) : State := { s with tiles := SMap.set s.tiles t x }
def updTile (s : State) (t : Nat) (f : Tile → Tile) : State := setTile s t (f (getTile s t))
def getSuite (s : State) (n : Nat) : Suite := SMap.get {} s.suites n
def setSuite (s : State) (n : Nat) (x : Suite) : State := { s with suites := SMap.set s.suites n x }
def updSuite (s : State) (n : Nat) (f : Suite → Suite) : State := setSuite s n (f (getSuite s n))
def getEntry (s : State) (e : Nat) : StreamEntry := SMap.get {} s.streams e
def setEntry (s : State) (e : Nat) (x : StreamEntry) : State := { s with streams := SMap.set s.streams e x }
def updEntry (s : State) (e : Nat) (f : StreamEntry → StreamEntry) : State := setEntry s e (f (getEntry s e))
def getWing (s : State) (w : Nat) : Wing := SMap.get {} s.wings w
def setWing (s : State) (w : Nat) (x : Wing) : State := { s with wings := SMap.set s.wings w x }
def updWing (s : State) (w : Nat) (f : Wing → Wing) : State := setWing s w (f (getWing s w))
def getPort (s : State) (p : Nat) : Port := SMap.get {} s.ports p
def setPort (s : State) (p : Nat) (x : Port) : State := { s with ports := SMap.set s.ports p x }
def updPort (s : State) (p : Nat) (f : Port → Port) : State := setPort s p (f (getPort s p))
def getLantern (s : State) (l : Nat) : Lantern := SMap.get {} s.lanterns l
def setLantern (s : State) (l : Nat) (x : Lantern) : State := { s with lanterns := SMap.set s.lanterns l x }
def updLantern (s : State) (l : Nat) (f : Lantern → Lantern) : State := setLantern s l (f (getLantern s l))
def getRing (s : State) (f : Nat) : Ring := SMap.get {} s.rings f
def setRing (s : State) (f : Nat) (x : Ring) : State := { s with rings := SMap.set s.rings f x }
def updRing (s : State) (n : Nat) (f : Ring → Ring) : State := setRing s n (f (getRing s n))

/-- Wing of a physical tile (rule R13). -/
def wingOfTile (t : Nat) : Nat := t / 10

/-- Whether a wing is enabled in fuses (rule R3). -/
def wingPresent (s : State) (w : Nat) : Bool := s.fuse.wings.contains w

/-- Whether a tile is usable (rule R460): neither retired nor disabled, spares included. -/
def usableTile (s : State) (t : Nat) : Bool :=
  let h := (getTile s t).health
  decide (t < 80) && wingPresent s (t / 10) && !h.retired && !h.disabled

/-- Whether a tile is in service (rule R460): usable, and a grade tile or a spare in a retired tile's place. -/
def inService (s : State) (t : Nat) : Bool :=
  usableTile s t && (s.fuse.tiles.contains t || (getTile s t).health.inService)

/-- Whether a landing, stream entry or pseudo-channel is disabled by command (rule R393). -/
def unitOff (s : State) (cls i : Nat) : Bool := s.offUnits.contains (cls, i)

/-- Capacity of a pseudo-channel in bytes (rules R235, R238). -/
def pcCapacity (s : State) : Nat := 2 ^ 24 * s.fuse.stackGib

/-- Physical place of a suite-relative address: pseudo-channel and local address (rule R237). -/
def place (a : Nat) (pcs : List Nat) (c : Nat) : Option (Nat × Nat) :=
  if pcs.length * c ≤ a then none
  else
    let g := a / 512
    some (pcs.getD (g % pcs.length) 0, 512 * (g / pcs.length) + a % 512)

/-- Key of a local address of a pseudo-channel in the memory of the module. -/
def hbmKey (pc loc : Nat) : Nat := 2 ^ 31 * pc + loc

/-- The suite-relative address that a key stands for in a suite with pseudo-channels `pcs`. -/
def suiteAddr (pcs : List Nat) (key : Nat) : Option Nat :=
  match pcs.idxOf? (key / 2 ^ 31) with
  | none => none
  | some i =>
    let loc := key % 2 ^ 31
    some (512 * (loc / 512 * pcs.length + i) + loc % 512)

/-- Read a byte of a suite's memory; outside it, zero. -/
def suiteByte (s : State) (n a : Nat) : Byte :=
  match place a (getSuite s n).res.pcs (pcCapacity s) with
  | none => 0#8
  | some (pc, l) => Memory.read s.hbm (hbmKey pc l)

/-- Write a byte of a suite's memory; outside it, nothing. -/
def suiteSetByte (s : State) (n a : Nat) (b : Byte) : State :=
  match place a (getSuite s n).res.pcs (pcCapacity s) with
  | none => s
  | some (pc, l) => { s with hbm := Memory.write s.hbm (hbmKey pc l) b }

/-- `len` bytes of a suite's memory. -/
def suiteBytes (s : State) (n a : Nat) : Nat → Bytes
  | 0 => []
  | k + 1 => suiteByte s n a :: suiteBytes s n (a + 1) k

/-- Write bytes into a suite's memory. -/
def suiteSetBytes (s : State) (n a : Nat) : Bytes → State
  | [] => s
  | b :: bs => suiteSetBytes (suiteSetByte s n a b) n (a + 1) bs

/-- Zero `len` bytes of a suite's memory from `a`. -/
def suiteClear (s : State) (n a len : Nat) : State :=
  let pcs := (getSuite s n).res.pcs
  { s with hbm := s.hbm.filter (fun c =>
      match suiteAddr pcs c.1 with
      | none => true
      | some x => !(decide (a ≤ x) && decide (x < a + len))) }

/-- The cells of [a, a + len) of a suite's memory as a memory of its own, from offset `at`. -/
def suiteCells (s : State) (n a len off : Nat) (m : Memory) : Memory :=
  let pcs := (getSuite s n).res.pcs
  s.hbm.foldl (fun acc c =>
    match suiteAddr pcs c.1 with
    | none => acc
    | some x => if a ≤ x ∧ x < a + len then Memory.write acc (x - a + off) c.2 else acc) m

/-- Write the cells [off, off + len) of a memory to a suite's memory at `a`, zeros included. -/
def suiteRestore (s : State) (n a len off : Nat) (m : Memory) : State :=
  m.foldl (fun st c => if off ≤ c.1 ∧ c.1 < off + len then suiteSetByte st n (a + (c.1 - off)) c.2 else st)
    (suiteClear s n a len)

/-- Draw a free value: the counter before the draw, and the state after it. -/
def draw (s : State) : Nat × State := (s.free, { s with free := s.free + 1 })

/-- Record that the module has sent something. -/
def send (s : State) (dest : OutTo) (kind : SentKind) (bs : Bytes) : State :=
  { s with outbox := s.outbox ++ [⟨dest, kind, bs⟩] }

/-- Monitoring events at an event-count crossing (rules R359, R361): those that it carries, those that then pend, and those that it drops, for at
most 15 pend behind a crossing that is held. -/
def crossEvents (held : Bool) (pending n : Nat) : Nat × Nat × Nat :=
  if held then (0, min 15 (pending + n), pending + n - 15) else (n, 0, 0)

/-- Count monitoring events of a tile over its crossing (rules R361, R365). -/
def tileEvents (x : Tile) (n : Nat) (f : TileCounts → Nat → TileCounts) : Tile :=
  let r := crossEvents x.cdcHeld x.cdcPending n
  { x with cdcPending := r.2.1, counts := f { x.counts with cdcOverrun := satAdd 16 x.counts.cdcOverrun r.2.2 } r.1 }

/-- Count monitoring events of a wing over its crossing (rules R361, R365). -/
def wingEvents (x : Wing) (n : Nat) (f : Wing → Nat → Wing) : Wing :=
  let r := crossEvents x.cdcHeld x.cdcPending n
  f { x with cdcPending := r.2.1, cdcOverrun := satAdd 16 x.cdcOverrun r.2.2 } r.1

/-- Count monitoring events of a port over its crossing (rules R361, R365). -/
def portEvents (s : State) (p n : Nat) (f : Port → Nat → Port) : State :=
  let e := SMap.get {} s.portExtra p
  let r := crossEvents e.cdcHeld e.cdcPending n
  updPort { s with portExtra := SMap.set s.portExtra p { e with cdcPending := r.2.1, cdcOverrun := satAdd 16 e.cdcOverrun r.2.2 } } p (fun x => f x r.1)

end Sys2Proof.Machine
end

