-- ==== Sys2Proof/Machine/Flit.lean ====
section
/-!
DEFINITION. Flits and the transmitter of a Spire port (rules R287 to R298 of 13_spires_lanterns_and_fabric_links.md).
-/
namespace Sys2Proof.Machine

def isPort (p : Nat) : Bool := decide (p < 16)

/-- Whether a port's wing is enabled in fuses (rules R13, R534). -/
def portPresent (s : State) (p : Nat) : Bool := isPort p && wingPresent s (p / 2)

/-- Port states (rule R312). -/
def portDisabled : Nat := 0
def portDown : Nat := 1
def portTraining : Nat := 2
def portUp : Nat := 3
def portMgmtOnly : Nat := 4
def portRetraining : Nat := 5

/-- A flit: type, LINK_SEQ, ACK_SEQ, LFLAGS, 524 bytes of header and body, CRC (rules R287, R288). -/
def flitBytes (type seq ack lflags : Nat) (content : Bytes) : Bytes :=
  let f := natLE (type * 16) 1 ++ natLE seq 3 ++ natLE ack 3 ++ natLE lflags 1 ++ bytesAt content 0 524
  f ++ natLE (crc32 f) 4

/-- Credits a direction starts with: 512 for each class, 32 for management, kept as class 4 (rule R296). -/
def startCredits : SMap Nat := [(0, 512), (1, 512), (2, 512), (3, 512), (4, 32)]

/-- Class that marks a flit without a buffer class: CONTROL flits take no LINK_CREDIT (rule R296). -/
def noClass : Nat := 5

/-- Whether a port may send a flit of a class now (rules R285, R290, R296, R299). -/
def maySend (x : Port) (cls : Nat) : Bool :=
  (x.state == portUp || (x.state == portMgmtOnly && decide (4 ≤ cls))) && (cls == noClass || decide (0 < SMap.get 0 x.credits cls)) && decide (x.replay.length < 2048)

/-- Remove the first element that a test accepts, and give it. -/
def takeFirst {α : Type} (f : α → Bool) : List α → Option (α × List α)
  | [] => none
  | x :: xs => if f x then some (x, xs) else (takeFirst f xs).map (fun q => (q.1, x :: q.2))

/-- The flit that a port sends next, and those that go on waiting (rules R291, R296): while a DATA flit may go, at most one CONTROL or MGMT flit
in 100 slots; CONTROL before MGMT; within a type, the first whose class has a credit. -/
def nextTx (x : Port) : Option (TxFlit × List TxFlit) :=
  let first := fun (type : Nat) => takeFirst (fun (f : TxFlit) => f.type == type && maySend x f.cls) x.waitTx
  let other := (first 2).orElse (fun _ => first 3)
  match first 1 with
  | none => other
  | some d => if 99 ≤ x.dataRun then some (other.getD d) else some d

/-- How a sent flit is listed. -/
def flitKind (type : Nat) : SentKind := if type = 1 then .data else if type = 2 then .control else .mgmt

/-- Put a flit on a port's link: it takes the next LINK_SEQ, its class's credit and a place in the replay buffer (rules R290, R296). -/
def emitFlit (s : State) (p : Nat) (f : TxFlit) (rest : List TxFlit) : State :=
  let x := getPort s p
  let bs := flitBytes f.type x.txSeq x.rxSeq 1 f.content
  send (setPort s p { x with
    waitTx := rest, txSeq := (x.txSeq + 1) % 2 ^ 24, replay := x.replay ++ [(x.txSeq, bs)]
    credits := if f.cls = noClass then x.credits else SMap.modify 0 x.credits f.cls (· - 1)
    dataRun := if f.type = 1 then min 99 (x.dataRun + 1) else 0 }) (.port p) (flitKind f.type) bs

/-- Let a flit wait on a port. -/
def queueTx (s : State) (p : Nat) (f : TxFlit) : State := updPort s p (fun x => { x with waitTx := x.waitTx ++ [f] })

/-- One control record (rule R294). -/
def controlRec (kind count entry module tag : Nat) : Bytes :=
  natLE kind 1 ++ natLE (count - 1) 1 ++ natLE entry 2 ++ natLE module 4 ++ natLE tag 4

/-- A control record as a flit of its own, which takes no LINK_CREDIT. -/
def controlFlit (record : Bytes) : TxFlit := { type := 2, cls := noClass, content := record }

/-- Send what waits on the ports listed, as far as credits and the replay buffers allow (rules R290, R291, R296). A forwarded flit that is sent
frees its buffer: the port on which it came returns the LINK_CREDIT. The first argument bounds the steps. -/
def pumpTx : Nat → List Nat → State → State
  | 0, _, s => s
  | _ + 1, [], s => s
  | k + 1, p :: ps, s =>
    match nextTx (getPort s p) with
    | none => pumpTx k ps s
    | some (f, rest) =>
      match f.back with
      | none => pumpTx k (p :: ps) (emitFlit s p f rest)
      | some (q, cls) => pumpTx k (p :: q :: ps) (queueTx (emitFlit s p f rest) q (controlFlit (controlRec 5 1 cls 0 0)))

/-- Send what waits on a port: each step of the pump sends a flit or is done with a port. -/
def drainTx (s : State) (p : Nat) : State :=
  pumpTx (4 * (s.ports.foldl (fun n q => n + q.2.waitTx.length) 0) + 2) [p] s

/-- Hand a flit to a port's transmitter (rules R290, R291, R296). -/
def sendFlit (s : State) (p type cls : Nat) (content : Bytes) : State :=
  drainTx (queueTx s p { type := type, cls := cls, content := content }) p

/-- Hand a forwarded flit to a port's transmitter: it waits in the buffer in which it came. -/
def forwardFlit (s : State) (p cls : Nat) (content : Bytes) (back : Nat × Nat) : State :=
  drainTx (queueTx s p { type := 1, cls := cls, content := content, back := some back }) p

/-- Send one control record in a flit of its own. -/
def sendControl (s : State) (p : Nat) (record : Bytes) : State := sendFlit s p 2 noClass record

/-- Send a management packet in up to eight segments (rules R293, R298). -/
def sendMgmt (s : State) (p : Nat) (packet : Bytes) : State :=
  let n := max 1 ((packet.length + 511) / 512)
  let no := (getPort s p).mgmtCount
  let s1 := (List.range n).foldl (fun st i =>
    let last := if i + 1 = n then 128 else 0
    sendFlit st p 3 4 (natLE 0xFFFFFFFF 4 ++ natLE 0xFFFF 2 ++ natLE (last + i) 1 ++ natLE 0 1 ++ natLE no 4
      ++ bytesAt packet (512 * i) 512)) s
  updPort s1 p (fun x => { x with mgmtCount := no + 1 })

end Sys2Proof.Machine
end

