-- ==== Sys2Proof/Machine/Reply.lean ====
section
/-!
DEFINITION. Packets and replies: the bytes of a packet (rules R366 to R368), host memory (rule R371), completion slots (rule R374) and
the reply to a command that executes (rules R377, R381, R385).
-/
namespace Sys2Proof.Machine

/-- Bytes of a command packet (rules R366, R367). -/
def packetBytes (p : Packet) : Bytes :=
  let head := natLE p.version 1 ++ natLE p.flags 1 ++ natLE p.opcode 2 ++ natLE p.tag 4 ++ natLE p.suite 1
    ++ [0#8] ++ natLE p.payload.length 2
  head ++ natLE (crc32 (head ++ p.payload)) 4 ++ p.payload

/-- Whether an access to host memory fails (rule R385). -/
def hostFails (s : State) (a n : Nat) : Bool := s.host.failing.any (fun r => decide (r.1 < a + n) && decide (a < r.1 + r.2))

def hostBytes (s : State) (a n : Nat) : Bytes := Memory.readN s.host.mem a n

def hostWrite (s : State) (a : Nat) (bs : Bytes) : State := { s with host := { s.host with mem := Memory.writeN s.host.mem a bs } }

/-- Stop a ring (rules R373, R385). -/
def stopRing (s : State) (f code : Nat) : State := updRing s f (fun r => { r with stopped := true, error := code })

/-- Entries of a function's MSI-X table (rule R527). -/
def msixEntries (f : Nat) : Nat := if f = 0 then 64 else 16

/-- The word of a function's MSI-X table at an offset (rule R518, Note 2): the vector control of an entry starts masked (PRESUMED, log entry 5). -/
def msixWord (s : State) (f o : Nat) : Nat := SMap.get (if o % 16 = 12 then 1 else 0) s.bnd.msix (2 ^ 16 * f + o)

/-- An MSI-X message on a vector (rules R374, R518): while the vector is masked its pending bit is set in place of it. -/
def raiseMsix (s : State) (f v : Nat) : State :=
  if bit (msixWord s f (16 * v + 12)) 0 then updRing s f (fun r => { r with irqPending := if r.irqPending.contains v then r.irqPending else r.irqPending ++ [v] })
  else send s (.interrupt f v) .msix []

/-- A write into a function's MSI-X table (rule R518, Note 2): a vector whose mask ends and whose pending bit is set sends its message. -/
def writeMsix (s : State) (f o value : Nat) : State :=
  let v := o / 16
  let word := if o % 16 = 12 then value % 2 else if o % 16 = 0 then value % 2 ^ 32 / 4 * 4 else value % 2 ^ 32
  let s1 : State := { s with bnd := { s.bnd with msix := SMap.set s.bnd.msix (2 ^ 16 * f + o) word } }
  if msixEntries f ≤ v then s
  else if o % 16 = 12 ∧ value % 2 = 0 ∧ (getRing s f).irqPending.contains v = true then
    send (updRing s1 f (fun r => { r with irqPending := r.irqPending.filter (fun x => x != v) })) (.interrupt f v) .msix []
  else s1

/-- Post a packet into the completion slot at CQ_TAIL, then the new tail to the shadow address, then an interrupt (rule R374). -/
def postSlot (s : State) (f : Nat) (p : Bytes) : State :=
  let r := getRing s f
  let a := r.cqBase + 4096 * r.cqTail
  if hostFails s a p.length || hostFails s r.shadow 4 then stopRing s f 2
  else
    let t := (r.cqTail + 1) % 2 ^ r.cqLog2
    let s1 := updRing (hostWrite (hostWrite s a p) r.shadow (natLE t 4)) f (fun x => { x with cqTail := t })
    if r.irqEn then raiseMsix s1 f r.vector else s1

/-- Key of the ring or link session that a packet came by. -/
def ringKey : Src → Nat
  | .ring f => f
  | .link p => 16 + p

def keySrc (k : Nat) : Src := if k < 16 then .ring k else .link (k - 16)

/-- The suite that a packet names: a virtual function names its own as suite 0 (rule R372). -/
def targetOf (src : Src) (p : Packet) : Nat :=
  match src with
  | .ring 0 => p.suite
  | .ring (f + 1) => if p.suite = 0 then f else p.suite
  | .link _ => p.suite

/-- Whether a packet carries a relay envelope (rule R376). -/
def isRelayed (p : Packet) : Bool := bit p.flags 3

/-- The envelope of a reply: destination and source exchanged (rule R377). -/
def swapEnvelope (e : Bytes) : Bytes := bytesAt e 4 4 ++ bytesAt e 0 4 ++ bytesAt e 8 4 ++ natLE 0 4

/-- The reply to a packet (rules R368, R377). -/
def replyBytes (p : Packet) (version status detail : Nat) (body : Bytes) : Bytes :=
  let env := if isRelayed p then swapEnvelope (bytesAt p.payload 0 16) else []
  packetBytes { opcode := p.opcode, version := version, flags := p.flags % 16 / 2 * 2 + 1, suite := p.suite, tag := p.tag,
                payload := env ++ natLE status 2 ++ natLE detail 2 ++ body }

/-- Post the bytes of a reply where its command came from (rules R374, R377, R385): on a disabled ring it is discarded and counted. -/
def postBytes (s : State) (src : Src) (bs : Bytes) : State :=
  match src with
  | .ring f =>
    let r := getRing s f
    if r.enable then (if r.stopped then s else postSlot s f bs)
    else updRing s f (fun x => { x with eventsLost := satInc 16 x.eventsLost })
  | .link q => sendMgmt s q bs

/-- Whether a packet is a broadcast (rule R378). -/
def isBroadcast (p : Packet) : Bool := bit p.flags 2

/-- Insert a failed entry, lowest module id first, keeping 500 (rule R378). -/
def insertFailed (x : Nat × Nat × Nat) : List (Nat × Nat × Nat) → List (Nat × Nat × Nat)
  | [] => [x]
  | y :: ys => if x.1 < y.1 then x :: y :: ys else y :: insertFailed x ys

/-- Enter one module's result into what is gathered (rule R378, Note 1). -/
def gatherAdd (b : Broadcast) (module status detail : Nat) : Broadcast :=
  if status = 0 then { b with okCount := b.okCount + 1 }
  else { b with failCount := b.failCount + 1, failed := (insertFailed (module, status, detail) b.failed).take 500 }

/-- OK_COUNT, FAILED_COUNT, SILENT_COUNT and FAILED of an aggregated reply (rules R378, R391). -/
def gatherBody (b : Broadcast) : Bytes :=
  natLE b.okCount 4 ++ natLE b.failCount 4 ++ natLE b.silent 4
    ++ (b.failed.map (fun f => natLE f.1 4 ++ natLE f.2.1 2 ++ natLE f.2.2 2)).flatten

/-- STATUS and DETAIL of an aggregated reply (rule R378). -/
def gatherStatus (b : Broadcast) : Nat × Nat := (b.failed.head?.map (fun f => f.2)).getD (0, 0)

/-- The tag under which the own result of a broadcast is awaited: no packet carries it. -/
def ownTag : Nat := 2 ^ 32

/-- Whether the ring of a function is processed: not in D3hot (rule R548). -/
def processed (s : State) (src : Src) : Bool := match src with
  | .ring f => !(s.bnd.d3hot.contains f)
  | .link _ => true

/-- Take an executing command out of its queue and post its reply (rules R381, R382); in D3hot the reply waits. -/
def finishBytes (s : State) (src : Src) (w : Waiting) (bs : Bytes) : State :=
  let mine := fun (q : Waiting) => q.executing && q.pkt.tag == w.pkt.tag
  if processed s src then postBytes (updRing s (ringKey src) (fun r => { r with queue := dropFirst mine r.queue })) src bs
  else updRing s (ringKey src) (fun r => { r with queue := r.queue.map (fun q => if mine q then { q with executing := false, reply := some bs } else q) })

def finishPlain (s : State) (src : Src) (w : Waiting) (status detail : Nat) (body : Bytes) : State :=
  finishBytes s src w (replyBytes w.pkt w.pkt.version status detail body)

/-- Close a gathering whose answers are all in, or whose wait has ended (rules R378, R391): a broadcast's reply is the aggregate; a
job command's is its own fields up to offset 32 and the aggregate behind them. -/
def closeGather (s : State) (b : Broadcast) : State :=
  let s1 : State := { s with mgr := { s.mgr with broadcasts := s.mgr.broadcasts.filter (fun x => decide (x.src ≠ b.src ∨ x.tag ≠ b.tag)) } }
  match (getRing s (ringKey b.src)).queue.find? (fun w => w.executing && w.pkt.tag == b.tag) with
  | none => s1
  | some w =>
    if isBroadcast w.pkt then finishPlain s1 b.src w (gatherStatus b).1 (gatherStatus b).2 (gatherBody b)
    else if w.pkt.opcode = 0x0603 then finishPlain s1 b.src w (gatherStatus b).1 (gatherStatus b).2 []
    else finishPlain s1 b.src w 0 0 (bytesAt b.head 0 32 ++ gatherBody b)

/-- Enter a result that a gathering awaits under `t`, and close it with the last (rule R378). -/
def gatherResult (s : State) (src : Src) (tag t : Nat) (f : Broadcast → Broadcast) : State :=
  match s.mgr.broadcasts.find? (fun b => decide (b.src = src) && b.tag == tag && b.waiting.contains t) with
  | none => s
  | some b =>
    let b1 := f { b with waiting := b.waiting.filter (fun x => x != t) }
    if b1.waiting = [] then closeGather s b1
    else { s with mgr := { s.mgr with broadcasts := s.mgr.broadcasts.map (fun x => if x.src = src ∧ x.tag = tag then b1 else x) } }

/-- Finish an executing command: its reply is posted and it is no longer outstanding (rules R381, R382). The own result of a
broadcast goes into its aggregate (rule R378). -/
def finish (s : State) (src : Src) (tag status detail : Nat) (body : Bytes) : State :=
  match (getRing s (ringKey src)).queue.find? (fun w => w.executing && w.pkt.tag == tag) with
  | none => s
  | some w =>
    if isBroadcast w.pkt then
      let me := if s.mgr.moduleId = 0xFFFFFFFF then 0 else s.mgr.moduleId
      if s.mgr.broadcasts.any (fun b => decide (b.src = src) && b.tag == tag) then
        gatherResult s src tag ownTag (fun b => gatherAdd b me status detail)
      else
        let b := gatherAdd {} me status detail
        finishPlain s src w (gatherStatus b).1 (gatherStatus b).2 (gatherBody b)
    else finishPlain s src w status detail body

end Sys2Proof.Machine
end

