-- ==== Sys2Proof/Machine/Ops.lean ====
section
/-!
DEFINITION. The shared operations over the state: packets and events (rules R366, R375), error records (rules R446 to R451),
Attic histories (rules R457, R458), halts of a tile (rule R124) and the poisoning of a step (rules R334, R451).
-/
namespace Sys2Proof.Machine

/-- Hold an event for a ring whose session has EVENTS (rules R375, R380): at most 64, the oldest discarded and counted. -/
def holdEvent (s : State) (f opcode suite : Nat) (body : Bytes) : State :=
  updRing s f (fun r =>
    if r.session && bit r.features 5 then
      let e : Packet := { opcode := opcode, version := 3, flags := 0, suite := suite, tag := r.eventTag, payload := body }
      let full := decide (64 ≤ r.held.length)
      { r with
        held := (if full then r.held.drop 1 else r.held) ++ [e]
        eventTag := (r.eventTag + 1) % 2 ^ 32
        eventsLost := if full then satInc 16 r.eventsLost else r.eventsLost }
    else r)

/-- A device event: the physical function only (rule R375). -/
def deviceEvent (s : State) (opcode : Nat) (body : Bytes) : State := holdEvent s 0 opcode 0xFF body

/-- An event of a suite: its virtual function, which names its own suite 0, and the physical function (rules R372, R375). -/
def suiteEvent (s : State) (n opcode : Nat) (body : Bytes) : State :=
  holdEvent (holdEvent s (n + 1) opcode 0 body) 0 opcode n body

/-- Codes of the suite states (rule R17). -/
def suiteStateCode : SuiteState → Nat
  | .absent => 0xFF
  | .empty => 0
  | .loaded => 1
  | .running => 2
  | .preempted => 3
  | .draining => 4
  | .faulted => 5

/-- Codes of the device states (rule R16). -/
def devStateCode : DevState → Nat
  | .off => 0
  | .standby => 1
  | .waking => 2
  | .testing => 3
  | .ready => 4
  | .running => 5
  | .draining => 6
  | .faulted => 7

/-- The lowest step counter of a suite's streams (rule R433). -/
def lowestStep (s : State) (n : Nat) : Nat :=
  let su := getSuite s n
  let low := fun (c : TileCore) => min c.f.step (min c.b.step c.u.step)
  let seated := s.tiles.filter (fun q => decide (q.2.suite = some n) && !q.2.evalMode)
  let away := su.saves.filter (fun p => !(seated.any (fun q => q.2.vtile == p.1)))
  match seated.map (fun q => low q.2.core) ++ away.map (fun p => low p.2) with
  | [] => 0
  | x :: xs => xs.foldl min x

/-- Set the device state, posting DEVICE_STATE where it changes (rules R16, R401). -/
def setDev (s : State) (d : DevState) : State :=
  if s.dev = d then s
  else
    deviceEvent { s with dev := d } 0x0180
      (natLE (devStateCode s.dev) 1 ++ natLE (devStateCode d) 1 ++ natLE 0 2
        ++ natLE (if d = .faulted then s.bringup.code else 0) 4)

/-- Whether any suite runs or drains. -/
def anySuiteBusy (s : State) : Bool :=
  s.suites.any (fun p => decide (p.2.state = .running) || decide (p.2.state = .draining))

/-- READY and RUNNING follow whether a suite is RUNNING (rule R16). -/
def settleDev (s : State) : State :=
  match s.dev with
  | .ready => if s.suites.any (fun p => decide (p.2.state = .running)) then setDev s .running else s
  | .running => if s.suites.any (fun p => decide (p.2.state = .running)) then s else setDev s .ready
  | _ => s

/-- The last step that a suite has completed (rule R395). -/
def lastStep (s : State) (n : Nat) : Nat := lowestStep s n - 1

/-- DETAIL of 0x0301 STATE (rule R389): device state and suite state. -/
def stateDetail (s : State) (n : Nat) : Nat := 256 * (devStateCode s.dev) + suiteStateCode (getSuite s n).state

/-- Answer a command that waits for its suite to reach a state (rules R393, R395, R432, R433, R444). -/
def answerOne (s : State) (src : Src) (w : Waiting) (n : Nat) (x : SuiteState) : State :=
  match w.pkt.opcode with
  | 0x0301 =>
    if x = .preempted then finish s src w.pkt.tag 0 0 (natLE (lowestStep s n) 4)
    else if x = .running then s
    else finish s src w.pkt.tag 0x0401 0 []
  | 0x0302 => if x = .running then finish s src w.pkt.tag 0 0 (bytesAt (getSuite s n).job.lineage 0 16) else s
  | 0x0506 =>
    if (x = .preempted ∧ w.note.getD 0 0 = 0) ∨ (x = .running ∧ w.note.getD 0 0 = 1) then
      finish s src w.pkt.tag 0 0 (natLE (w.note.getD 1 0) 8 ++ natLE (w.note.getD 2 0) 4)
    else if x = .faulted then finish s src w.pkt.tag 0x0401 0 [] else s
  | 0x0507 =>
    if (getSuite s n).job.haltBell.isNone ∧ x ≠ .preempted then
      finish s src w.pkt.tag 0 0 (natLE ((getSuite s n).counts.absorbed - w.note.getD 0 0) 4)
    else s
  | 0x0505 => if x = .faulted then finish s src w.pkt.tag 0x0401 0 [] else s
  | 0x0303 => if x = .loaded then finish s src w.pkt.tag 0 0 (natLE (w.note.getD 0 0) 4)
    else if x = .faulted then finish s src w.pkt.tag 0x0401 0 [] else s
  | 0x0102 =>
    if x = .loaded then
      let absorbed := (getSuite s n).counts.absorbed - w.note.getD 0 0
      finish s src w.pkt.tag 0 0 (natLE (w.note.getD 1 0 - absorbed) 4 ++ natLE absorbed 4)
    else if x = .faulted then finish s src w.pkt.tag 0x0406 0 [] else s
  | _ => s

/-- This module's id as a sender: an unattached module that acts as top manager is 0 (rule R341). -/
def ownId (s : State) : Nat := if s.mgr.moduleId = 0xFFFFFFFF then 0 else s.mgr.moduleId

/-- The tag under which a job command awaits a suite of this module. -/
def suiteTag (n : Nat) : Nat := ownTag + 1 + n

/-- What a job command takes from a suite's new state (rules R391, R395, R439): done, failed with SUITE_FAULTED, or not yet. -/
def gatherOutcome (w : Waiting) (x : SuiteState) : Option Nat :=
  if x = .faulted then some 0x0401
  else if w.pkt.opcode = 0x0303 ∧ x = .loaded then some 0
  else if w.pkt.opcode = 0x0506 ∧ ((x = .preempted ∧ w.note.getD 0 0 = 0) ∨ (x = .running ∧ w.note.getD 0 0 = 1)) then some 0
  else none

/-- Enter a suite's new state into the job commands that await it. -/
def answerJobs (s : State) (n : Nat) (x : SuiteState) : State :=
  s.mgr.broadcasts.foldl (fun st b =>
    match (getRing st (ringKey b.src)).queue.find? (fun w => w.executing && w.pkt.tag == b.tag) with
    | none => st
    | some w =>
      match (if b.waiting.contains (suiteTag n) then gatherOutcome w x else none) with
      | none => st
      | some c => gatherResult st b.src b.tag (suiteTag n) (fun g => gatherAdd g (ownId st) c 0)) s

/-- Answer every executing command of every ring and link that names suite `n`, now in state `x`. -/
def answerSuite (s0 : State) (n : Nat) (x : SuiteState) : State :=
  let s := answerJobs s0 n x
  s.rings.foldl (fun st p =>
    let src := keySrc p.1
    (p.2.queue.filter (fun w => w.executing && targetOf src w.pkt == n)).foldl (fun q w => answerOne q src w n x) st) s

/-- Whether a suite of this module has nothing of a job under way (rule R428). -/
def suiteStopped (s : State) (n : Nat) : Bool :=
  match (getSuite s n).state with
  | .absent => true
  | .empty => true
  | .loaded => true
  | _ => false

/-- A job has stopped once every suite that holds a rank of it has (rules R395, R403); what other modules' suites do is not told. -/
def settleJobs (s : State) (n : Nat) : State :=
  let ended := fun (j : Job) => j.ranks.any (fun r => r.2 == (ownId s, n)) && j.ranks.all (fun r => r.2.1 == ownId s && suiteStopped s r.2.2)
  { s with mgr := { s.mgr with jobs := s.mgr.jobs.map (fun p => (p.1, if p.2.started && ended p.2 then { p.2 with started := false } else p.2)) } }

/-- Move a suite to a state, posting SUITE_STATE (rule R428, Note 1; rule R401). -/
def setSuiteState (s : State) (n : Nat) (x : SuiteState) : State :=
  let old := (getSuite s n).state
  if old = x then s
  else
    let s1 := settleJobs (updSuite s n (fun su => { su with state := x })) n
    answerSuite (settleDev (suiteEvent s1 n 0x0380
      (natLE n 1 ++ natLE (suiteStateCode old) 1 ++ natLE (suiteStateCode x) 1 ++ natLE 0 1 ++ natLE (lowestStep s n) 4))) n x

/-- The conditions at detection, filled into a record (rule R446): bell, local cycle, temperature, rail, input. -/
def withConditions (s : State) (r : FaultRec) : FaultRec :=
  { r with
    index := s.faults.next
    bell := s.bell.count
    localCycle := Config.localCycle s.free % 2 ^ 16
    temp := SMap.get (-512) s.cup.temps (Config.nearestSensor r.unitClass r.unitIndex)
    railMv := SMap.get 0 s.cup.rails (Config.localRail r.unitClass r.unitIndex)
    inputMv := s.cup.inputMv }

/-- Make room in the record ring: the oldest acknowledged record goes when all 4,096 are held (rule R449). -/
def makeRoom (h : List FaultRec) : List FaultRec :=
  if h.length < 4096 then h else dropFirst (fun r => r.acked) h

/-- Count an owner record's class (rules R451, R468). -/
def countClass (l : FaultLog) (r : FaultRec) : FaultLog :=
  if r.owner then
    match r.cls with
    | 1 => { l with transient := satInc 8 l.transient }
    | 2 => { l with permanent := satInc 8 l.permanent }
    | 3 => { l with permanent := satInc 8 l.permanent }
    | 4 => { l with checker := satInc 8 l.checker }
    | 5 => { l with unresolved := satInc 8 l.unresolved }
    | _ => l
  else l

/-- Write an error record (rules R446, R449) and post FAULT (rule R401). The record's INDEX is the log's next before the call. -/
def recordFault (s : State) (r0 : FaultRec) : State :=
  let r := withConditions s r0
  let room := makeRoom s.faults.held
  let stored := decide (room.length < 4096)
  let l := countClass s.faults r
  let l1 : FaultLog := { l with
    next := (l.next + 1) % 2 ^ 32
    last := r
    held := if stored then room ++ [r] else s.faults.held
    lost := if stored then l.lost else satInc 16 l.lost }
  let body := natLE r.index 4 ++ natLE r.unitClass 1 ++ natLE 0 1 ++ natLE r.unitIndex 2
  let s1 : State := { s with faults := l1, free := s.free + 1 }
  if r.suite < 8 then suiteEvent s1 r.suite 0x0680 body else deviceEvent s1 0x0680 body

/-- Update a held record by INDEX (rule R453: the record of a resolution is completed when it ends). -/
def updateFault (s : State) (idx : Nat) (f : FaultRec → FaultRec) : State :=
  { s with faults := { s.faults with
      held := s.faults.held.map (fun r => if r.index = idx then f r else r)
      last := if s.faults.last.index = idx then f s.faults.last else s.faults.last } }

/-- Events of a history within the last 30 days of the lifetime clock (rule R457). -/
def eventsIn30 (a : Attic) (h : List HistEntry) : Nat :=
  (h.filter (fun e => decide (a.lifetimeS ≤ e.clock + 2592000))).length

/-- Enter an event into a history of at most `cap` entries (rule R457). -/
def enterHistory (h : List HistEntry) (cap : Nat) (e : HistEntry) : List HistEntry :=
  let x := h ++ [e]
  x.drop (x.length - cap)

/-- Take a tile from its suite. -/
def unseat (x : Tile) : Tile :=
  { x with core := {}, suite := none, vtile := 0x7FF, fold := 0, saved := false, evalMode := false, vregs := [], masks := [], units := [],
           landings := [], passes := [], verdicts := [] }

/-- Whether a suite holds a tile. -/
def tileHeld (s : State) (t : Nat) : Bool := s.suites.any (fun q => q.2.res.tiles.contains t)

/-- Whether a suite that is neither PREEMPTED nor LOADED holds a tile (rules R444, R458). -/
def tileBusy (s : State) (t : Nat) : Bool :=
  s.suites.any (fun p => p.2.res.tiles.contains t && (match p.2.state with
    | .running => true
    | .draining => true
    | .faulted => true
    | _ => false))

/-- Retire a tile: at once, or when its suite is PREEMPTED or LOADED (rule R458). -/
def retireTile (s : State) (t : Nat) : State :=
  if tileBusy s t then updTile s t (fun x => { x with health := { x.health with pendingRetire := true } })
  else
    let s1 := updTile s t (fun x => { unseat x with health := { x.health with retired := true, pendingRetire := false, inService := false } })
    { s1 with attic := { s1.attic with tilesRetired := if s1.attic.tilesRetired.contains t then s1.attic.tilesRetired else s1.attic.tilesRetired ++ [t] } }

/-- A permanent-class event of a tile (rule R457): entered, written as a fault event, and retiring at the third in 30 days. -/
def tileEvent (s : State) (t : Nat) (cause cls idx : Nat) : State :=
  let h := enterHistory (SMap.get [] s.attic.tileHist t) 32 ⟨cause, cls, s.attic.lifetimeS, idx⟩
  let a : Attic := { s.attic with
    tileHist := SMap.set s.attic.tileHist t h
    tileLifetime := SMap.modify 0 s.attic.tileLifetime t (· + 1) }
  let s1 : State := { s with attic := a, atticStore := { s.atticStore with pendingFault := true } }
  if 3 ≤ eventsIn30 a h then retireTile s1 t else s1

/-- A permanent-class event of a pseudo-channel (rules R244, R457): eight in 30 days, or ROW_EXHAUSTED, mark it for retirement
at its suite's next load or resume; one that no suite holds retires at once (rule R458). -/
def pcEvent (s : State) (pc cause idx : Nat) : State :=
  let h := enterHistory (SMap.get [] s.attic.pcHist pc) 32 ⟨cause, 0, s.attic.lifetimeS, idx⟩
  let a : Attic := { s.attic with pcHist := SMap.set s.attic.pcHist pc h }
  let gone := decide (8 ≤ eventsIn30 a h) || cause == 0x0202
  let owned := s.suites.any (fun q => decide (q.2.state ≠ .absent) && q.2.res.granted.contains pc)
  let a1 : Attic := if !gone || a.pcsRetired.contains pc || a.pcsMarked.contains pc then a
    else if owned then { a with pcsMarked := a.pcsMarked ++ [pc] } else { a with pcsRetired := a.pcsRetired ++ [pc] }
  { s with attic := a1, atticStore := { s.atticStore with pendingFault := true } }

/-- The relay envelope (rule R376). -/
def envelope (dest src tag hops : Nat) : Bytes :=
  natLE dest 4 ++ natLE src 4 ++ natLE tag 4 ++ natLE hops 1 ++ natLE 0 3

/-- Whether this module is the top of its hierarchy: manager, or unattached (rules R314, R341). -/
def isTop (s : State) : Bool := s.mgr.role == 2 || s.mgr.role == 0

/-- Command protocol version of the session on a link (rules R379, R380): the highest before HELLO has opened one. -/
def linkCommandVersion (s : State) (port : Nat) : Nat :=
  let r := getRing s (16 + port)
  if r.session then r.cmdVersion else 3

/-- Send a command packet on a port with the next tag of this module's own commands (rules R376, R377). -/
def sendCommand (s : State) (port dest opcode suite flags : Nat) (body : Bytes) : State :=
  let s1 := sendMgmt s port
    (packetBytes { opcode := opcode, version := linkCommandVersion s port, flags := flags, suite := suite, tag := s.mgr.nextTag,
                   payload := envelope dest (ownId s) s.mgr.nextTag 0 ++ body })
  { s1 with mgr := { s1.mgr with nextTag := (s.mgr.nextTag + 1) % 2 ^ 32 } }

/-- Send a command packet towards this module's manager over its management path (rules R318, R377). -/
def sendToManager (s : State) (opcode suite : Nat) (urgent : Bool) (body : Bytes) : State :=
  sendCommand s s.mgr.parentPort s.mgr.parent opcode suite (8 + 2 * bnat urgent) body

/-- Send a command packet to every direct worker that is not lost (rules R319, R378). -/
def sendToWorkers (s : State) (opcode suite : Nat) (flags : Nat) (body : Bytes) : State :=
  (s.mgr.workers.filter (fun w => !w.lost)).foldl (fun st w => sendCommand st w.port w.module opcode suite flags body) s

/-- Send a command packet to a module of the hierarchy (rules R318, R377): to a direct worker over its path, else by way of the
first worker from the top and by way of the manager from below. -/
def sendToModule (s : State) (dest opcode suite flags : Nat) (body : Bytes) : State :=
  let port := match s.mgr.workers.find? (fun w => w.module == dest) with
    | some w => w.port
    | none => if SMap.has s.mgr.placed dest then SMap.get 0 s.mgr.placed dest
      else if isTop s then ((s.mgr.workers.head?).map (fun w => w.port)).getD 0 else s.mgr.parentPort
  sendCommand s port dest opcode suite flags body

/-- The job that this top manager holds for a lineage. -/
def jobOf (s : State) (lineage : Bytes) : Option (Nat × Job) :=
  s.mgr.jobs.find? (fun p => p.2.started && decide (bytesAt p.2.lineage 0 16 = bytesAt lineage 0 16))

/-- Suites of this module that hold a rank of a lineage. -/
def suitesOf (s : State) (lineage : Bytes) : List Nat :=
  (s.suites.filter (fun p => p.2.job.rank.isSome && decide (p.2.state ≠ .absent) && decide (bytesAt p.2.job.lineage 0 16 = bytesAt lineage 0 16))).map
    (fun p => p.1)

/-- Whether a halt of a suite is chosen, or has come and its restore has not completed (rule R340). -/
def haltNamed (j : JobState) : Bool := j.haltBell.isSome || (j.rollback && !j.stopHalt)

/-- Name the halt in a suite: a halt already chosen, or whose restore has not completed, takes the lower step (rule R340). -/
def nameHalt (s : State) (n h step : Nat) : State :=
  let named := fun (j : JobState) => if haltNamed j then { j with haltStep := min j.haltStep step }
    else { j with haltBell := some h, haltStep := step, haltEvent := s.bell.nextEvent }
  let s1 := updSuite s n (fun x => { x with job := named x.job })
  if haltNamed (getSuite s n).job then s1
  else { s1 with bell := { s1.bell with nextEvent := (s.bell.nextEvent + 1) % 2 ^ 32 } }

/-- Forget what a manager has merged of a job's scale records of step `step` and later (rules R97, R327, R335). -/
def dropMerges (m : Manager) (no step : Nat) : Manager :=
  let keep := fun (k : Nat) => decide (k / 2 ^ 32 ≠ no) || decide (k % 2 ^ 32 < step)
  { m with merged := m.merged.filter (fun p => keep p.1), reported := m.reported.filter (fun p => keep p.1) }

/-- The top manager chooses halt bell H for step `step` of a job and announces it to every rank (rules R335, R340). A suite that
holds no rank of a multi-rank job halts at once (rule R431). -/
def chooseHalt (s : State) (n step : Nat) : State :=
  let su := getSuite s n
  if su.job.nRanks ≤ 1 then nameHalt s n s.bell.count step
  else
    let h := su.job.haltBell.getD (s.bell.count + s.mgr.haltLead)
    let s1 := (suitesOf s su.job.lineage).foldl (fun st m => nameHalt st m h step) (nameHalt s n h step)
    match jobOf s su.job.lineage with
    | none => s1
    | some (no, j) =>
      let s2 : State := { s1 with mgr := { (dropMerges s1.mgr no step) with jobs := SMap.set s1.mgr.jobs no { j with votes := [], voteBell := none, votedStep := 0, haltBell := some h, haltStep := step } } }
      (j.ranks.filter (fun r => r.2.1 != ownId s)).foldl (fun st r =>
        sendToModule st r.2.1 0x0507 r.2.2 0x0A (bytesAt su.job.lineage 0 16 ++ natLE step 4 ++ natLE 0 4 ++ natLE h 8)) s2

/-- A poisoned step reaches the top manager (rules R334, R338): a rank that poisons one step on two consecutive runs has failed. -/
def noticeAtTop (s : State) (lineage : Bytes) (rank step : Nat) : State :=
  match jobOf s lineage with
  | none => s
  | some (no, j) =>
    let again := SMap.has j.poisonedBy rank && SMap.get 0 j.poisonedBy rank == step
    let j1 : Job := { j with poisonedBy := SMap.set j.poisonedBy rank step,
                             lost := if again && !(j.lost.contains rank) then j.lost ++ [rank] else j.lost }
    { s with mgr := { s.mgr with jobs := SMap.set s.mgr.jobs no j1 } }

/-- The owner record behind the coming halt of a lineage's suites of this module: module id and INDEX (rules R451, R463). -/
def blame (s : State) (lineage : Bytes) (o : Nat × Nat) : State :=
  (suitesOf s lineage).foldl (fun st n => updSuite st n (fun su => { su with job := { su.job with owner := o } })) s

/-- Whether a suite has a step that a fault can poison: it executes, is saved, or drains. -/
def poisonable (su : Suite) : Bool := decide (su.state = .running) || decide (su.state = .preempted) || decide (su.state = .draining)

/-- A confirmed fault poisons step `step` of suite `n`, at most once; a later step than one that is poisoned already falls with it (rules R334,
R340, R451). `idx` is the record. -/
def poisonStep (s : State) (n step idx : Nat) : State :=
  let su := getSuite s n
  if !(poisonable su) || (su.job.poisonedStep.map (fun p => decide (p ≤ step))).getD false then s
  else
    let s1 := updSuite s n (fun x => { x with job := { x.job with poisonedStep := some step, owner := (ownId s, idx) } })
    let s2 : State := { s1 with faults := { s1.faults with poisons := satInc 16 s1.faults.poisons } }
    let s3 := signRecord (updateFault s2 idx (fun r => { r with poisoned := true })) idx false
    if isTop s then chooseHalt (noticeAtTop s3 su.job.lineage (su.job.rank.getD 0) step) n step
    else sendToManager s3 0x0508 0xFF true
      (bytesAt su.job.lineage 0 16 ++ natLE (su.job.rank.getD 0) 4 ++ natLE step 4 ++ natLE (ownId s) 4 ++ natLE idx 4)

/-- A stream halts at its next instruction boundary (rules R124, R187): at once unless a `mark` drains. -/
def haltStream (k : KState) : KState :=
  match k.phase with
  | .draining => { k with haltPending := true }
  | _ => { k with halted := true }

/-- All three streams of a tile halt at their next boundaries (rules R124, R452). -/
def haltCore (c : TileCore) : TileCore :=
  { c with f := haltStream c.f, b := haltStream c.b, u := haltStream c.u }

def haltTile (s : State) (t : Nat) : State := updTile s t (fun x => { x with core := haltCore x.core })

/-- The operation fields of a record for what a stream stands at (rule R446, Note 1). -/
def opOf (k : KStream) (x : KState) (word : Nat) : FaultOp :=
  { stream := k.idx, operation := word, kernelId := x.kernel.getD 0xFFFF, occurrence := x.occurrence, instrIndex := x.pc }

/-- Suite, lineage, rank and step fields of a record for a suite's work. -/
def forSuite (s : State) (n step : Nat) (r : FaultRec) : FaultRec :=
  let j := (getSuite s n).job
  { r with suite := n, lineage := j.lineage, rank := j.rank.getD 0xFFFFFFFF, step := step }

/-- Give every tile of a window back what it held before the evaluation programs ran (rule R232). -/
def restoreWindow (s : State) (n : Nat) : State :=
  match (getSuite s n).window with
  | none => s
  | some w =>
    if w.started then
      w.resident.foldl (fun st p =>
        let su := getSuite st n
        updTile (setSuite st n { su with saves := SMap.erase su.saves p.2 }) p.1 (fun x =>
          { x with core := SMap.get {} su.saves p.2, vtile := p.2, evalMode := false, vregs := [], masks := [], units := [] })) s
    else s

/-- The evaluation windows of a suite that are open or wait, the next first, and its checkpoints that wait. -/
def windowsOf (su : Suite) : List EvalWindow := su.window.toList ++ su.laterWindows
def ckptsOf (su : Suite) : List BellEvent := su.ckptEvent.toList ++ su.laterCkpts

/-- The lowest gate into a step after one of a list. -/
def lowestGate : List Nat → Option Nat
  | [] => none
  | x :: xs => some (xs.foldl min x + 1)

/-- Set the windows of a suite; each closes its gates (rules R31, R232). -/
def setWindows (su : Suite) (l : List EvalWindow) : Suite :=
  { su with window := l.head?, laterWindows := l.drop 1, closedGate := lowestGate (l.map (fun w => w.step)) }

/-- Set the checkpoints that wait for a suite; each holds stream U (rules R31, R441). -/
def setCkpts (su : Suite) (l : List BellEvent) : Suite :=
  { su with ckptEvent := l.head?, laterCkpts := l.drop 1, holdU := lowestGate (l.map (fun e => e.step)) }

/-- A window enters in the order of steps, behind one that has started (rule R31). -/
def enterWindow (w : EvalWindow) : List EvalWindow → List EvalWindow
  | [] => [w]
  | x :: xs => if x.started || decide (x.step ≤ w.step) then x :: enterWindow w xs else w :: x :: xs

/-- A checkpoint enters in the order of steps (rule R31). -/
def enterCkpt (e : BellEvent) : List BellEvent → List BellEvent
  | [] => [e]
  | x :: xs => if x.step ≤ e.step then x :: enterCkpt e xs else e :: x :: xs

/-- The outcome of an evaluation window (rule R401). -/
def windowEvent (s : State) (n : Nat) (w : EvalWindow) (status : Nat) : State :=
  suiteEvent s n 0x0381 (natLE w.step 4 ++ natLE status 2 ++ natLE 0 2 ++ natLE w.eventId 4)

/-- The outcome of a checkpoint that is not performed (rule R401). -/
def ckptEvent (s : State) (n : Nat) (e : BellEvent) (status : Nat) : State :=
  suiteEvent s n 0x0480 (natLE e.step 4 ++ natLE status 2 ++ natLE 0 2 ++ natLE e.id 4)

/-- A tile on which nothing is under way any more: what its engines, checkers and landings held is gone. -/
def quiet (x : Tile) : Tile := { x with landings := [], passes := [], verdicts := [], vregs := [], masks := [], units := [] }

/-- An entry when a fault ends an evaluation window (rules R234, R270): what is in flight is absorbed and its tags retired; between tiles and
ranks the entry is again as it was when the window opened. -/
def entryAfterWindow (old x : StreamEntry) : StreamEntry :=
  let y := if x.type = 0 ∨ x.type = 1 then { x with seqOldest := x.seqNext } else { old with state := x.state, late := x.late }
  { y with inFlight := [], retired := x.retired ++ x.inFlight.map (fun t => t.tag), absorbed := satAdd 32 x.absorbed x.inFlight.length
           draining := false }

/-- Absorb what the evaluation programs of a window have in flight, and clear their tiles (rule R234). -/
def absorbWindow (s : State) (n : Nat) (w : EvalWindow) : State :=
  let mine := fun (x : StreamEntry) => decide (x.state ≠ .free) && x.suite == n
  let lost := (s.streams.filter (fun q => mine q.2)).foldl (fun c q => c + q.2.inFlight.length) 0
  updSuite { s with
    tiles := s.tiles.map (fun p => if p.2.suite = some n then (p.1, quiet p.2) else p)
    streams := s.streams.map (fun q => if mine q.2 then (q.1, entryAfterWindow (SMap.get q.2 w.entries q.1) q.2) else q) } n
    (fun su => { su with counts := { su.counts with absorbed := su.counts.absorbed + lost } })

/-- End an evaluation window with a status (rules R232 to R234, R401): the gates open again, but those that a later window closes. -/
def endWindow (s : State) (n status : Nat) : State :=
  match (getSuite s n).window with
  | none => s
  | some w =>
    let s0 := restoreWindow s n
    let s1 := if status ≠ 0 ∧ w.started = true then absorbWindow s0 n w else s0
    windowEvent (updSuite s1 n (fun su => { (setWindows su su.laterWindows) with
      bindings := su.evalNext.getD su.bindings, evalNext := none })) n w status

/-- Whether an effect on a tile has ended the evaluation window in which it ran: a confirmed fault of it (rule R234). -/
def evalEnded (s s1 : State) (t : Nat) : Bool :=
  (getTile s t).evalMode && !(getTile s1 t).evalMode && decide ((getTile s1 t).suite = (getTile s t).suite)

/-- An effect on a tile that has ended its evaluation window leaves the restored training state as it is (rule R234). -/
def keepRestored (s s1 : State) (t : Nat) : State :=
  match (getTile s t).suite with
  | none => s1
  | some n => if evalEnded s s1 t then updTile s1 t (fun x => quiet { x with core := SMap.get {} (getSuite s n).saves x.vtile }) else s1

/-- A confirmed fault of a suite's step: it poisons the step, or ends an evaluation window (rules R234, R334). -/
def confirmFault (s : State) (n step idx : Nat) (eval : Bool) : State :=
  if eval then endWindow s n 0x0406 else poisonStep s n step idx

/-- The owner record of a suite's latest disabled or reset unit (rules R393, R451). -/
def unitOwner (s : State) (n : Nat) : Option Nat :=
  (s.faults.held.reverse.find? (fun r => r.suite == n && (r.cause == 0x0800 || r.cause == 0x0801))).map (fun r => r.index)

/-- The record of a stream that faults with UNIT_DISABLED, consequent to the unit's owner record (rules R393, R451, R483). -/
def consequentRecord (s : State) (t : Nat) (k : KStream) (word : Nat) : State :=
  let tile := getTile s t
  match tile.suite with
  | none => s
  | some n =>
    let x := tile.core.stream k
    recordFault s (forSuite s n x.step
      { unitClass := 0, unitIndex := t, cls := 6, cause := 0x0C, op := opOf k x word, domain := 0, owner := false,
        causeIndex := (unitOwner s n).getD 0xFFFFFFFF })

/-- A stream faults (rules R124, R186): it halts at the instruction with the code, the tile's other streams halt, a record is
written with the code as cause, the step is poisoned, and a tile fault enters the tile's history (rule R457). -/
def faultStream (s : State) (t : Nat) (k : KStream) (f : KFault) (word : Nat) : State :=
  let tile := getTile s t
  let x := tile.core.stream k
  let c := haltCore tile.core
  let c1 := c.setStream k { x with fault := f.code, halted := true }
  let s1 := setTile s t { tile with core := c1 }
  match tile.suite with
  | none => s1
  | some n =>
    if f.code = 0x0C ∧ (unitOwner s n).isSome then consequentRecord s1 t k word
    else
    let idx := s.faults.next
    let r : FaultRec := forSuite s n x.step
      { unitClass := 0, unitIndex := t, cause := f.code, op := opOf k x word, domain := 0, attic := f.tileEvent }
    let s2 := confirmFault (recordFault s1 r) n x.step idx tile.evalMode
    if f.tileEvent then signRecord (tileEvent s2 t f.code 0 idx) idx false else s2

/-- Set data flags of a stream's kernel status word; they stay until the kernel's mark (rule R185). -/
def raiseFlags (s : State) (t : Nat) (k : KStream) (f : Flags) : State :=
  updTile s t (fun x => { x with core := x.core.setStream k { x.core.stream k with flags := orFlags (x.core.stream k).flags f } })

/-- The program a tile's streams run: the training program, or the evaluation program in a window (rule R230). -/
def tileProgram (s : State) (t : Nat) (k : KStream) : StreamProg :=
  let tile := getTile s t
  match tile.suite with
  | none => {}
  | some n =>
    match (getSuite s n).image with
    | none => {}
    | some im =>
      let v := SMap.get {} (if tile.evalMode then im.evalTiles else im.vtiles) tile.vtile
      v.prog k

end Sys2Proof.Machine
end

