-- ==== Sys2Proof/Machine/Link.lean ====
section
/-!
DEFINITION. The link layer of a Spire port: flits, acknowledgement, replay, credits, retraining and the capacity table
(rules R282 to R298 and R300 of 13_spires_lanterns_and_fabric_links.md).
-/
namespace Sys2Proof.Machine

/-- Whether a flit's reserved fields are zero and its type known (rules R287, R288). -/
def flitFormOk (f : Bytes) : Bool :=
  let type := fieldAt f 0 1 / 16
  decide (type ≤ 3) && fieldAt f 0 1 % 16 == 0 && decide (fieldAt f 7 1 ≤ 3)
    && (if type = 1 then decide (fieldAt f 14 1 ≤ 3) && fieldAt f 15 1 == 0
        else if type = 2 then fieldAt f 524 8 == 0
        else if type = 3 then fieldAt f 14 1 % 128 / 8 == 0 && fieldAt f 15 1 == 0
        else true)

/-- Flits the far end has not acknowledged once its ACK_SEQ is `a` (rule R290). -/
def unacked (l : List (Nat × Bytes)) (a : Nat) : List (Nat × Bytes) :=
  l.filter (fun q => decide ((q.1 + 2 ^ 24 - a) % 2 ^ 24 < 2 ^ 23))

/-- Start a retrain: no flit moves until it completes (rules R285, R300). Links of version 1 retrain fully only. -/
def startRetrain (s : State) (p kind : Nat) : State :=
  let k := if kind = 0 ∧ (getPort s p).linkVersion = 1 then 1 else kind
  updPort s p (fun x => { x with
    state := if k = 2 then portTraining else portRetraining, retrainKind := k, retrainWanted := false
    fastRetrains := if k = 0 then satInc 16 x.fastRetrains else x.fastRetrains
    fullRetrains := if k = 0 then x.fullRetrains else satInc 16 x.fullRetrains })

/-- The receiver discards a flit by CRC or error correction and asks for it again (rules R288 to R290). -/
def rejectFlit (s : State) (p : Nat) : State :=
  let x := getPort s p
  send (setPort s p { x with crcErr := satInc 16 x.crcErr, replays := satInc 16 x.replays, linkRetries := x.linkRetries + 1 }) (.port p) .nak
    (flitBytes 0 x.txSeq x.rxSeq 3 [])

/-- Count what the error correction found in the codewords of a flit (rules R289, R290, R361); the port keeps its own count of the corrected
for a timeout's record (rule R275). -/
def countFec (s : State) (p : Nat) (fec : FecObs) : State :=
  match fec with
  | .clean => s
  | .corrected n => portEvents (updPort s p (fun x => { x with linkFec := x.linkFec + n })) p n (fun x k => { x with fecCorr := satAdd 32 x.fecCorr k })
  | .uncorrectable n => portEvents s p n (fun x k => { x with fecUncorr := satAdd 32 x.fecUncorr k })

/-- What a good flit tells the port (rule R290): the far end's acknowledgement frees the replay buffer; a flit in sequence is taken. -/
def acceptFlit (x : Port) (flit : Bytes) : Port :=
  let left := unacked x.replay (fieldAt flit 4 3)
  let y := if bit (fieldAt flit 7 1) 0 then
      { x with replay := left, acked := fieldAt flit 4 3, retries := if left.length < x.replay.length then 0 else x.retries }
    else x
  if fieldAt flit 0 1 / 16 ≠ 0 ∧ fieldAt flit 1 3 = x.rxSeq then { y with rxSeq := (x.rxSeq + 1) % 2 ^ 24 } else y

/-- A transmitter that has nothing to send sends IDLE, which carries what it acknowledges (rule R291). -/
def idleAfter (s0 s : State) (p : Nat) : State :=
  if (getPort s p).txSeq = (getPort s0 p).txSeq then send s (.port p) .idle (flitBytes 0 (getPort s p).txSeq (getPort s p).rxSeq 1 []) else s

/-- FLIT_RECEIVE (rules R288 to R291): the error correction decides first, then the CRC, then the form, then the sequence number. A flit that
is not IDLE is acknowledged, on an IDLE flit where nothing else goes out. -/
def execFlitReceive (port : Nat) (flit : Bytes) (fec : FecObs) (s : State) : Host.Outcome State Fault Refusal :=
  let ready := portPresent s port && ((getPort s port).state == portUp || (getPort s port).state == portMgmtOnly) && decide (flit.length = 536)
  let s0 := countFec s port fec
  let x := getPort s0 port
  let idle := decide (fieldAt flit 0 1 / 16 = 0)
  let lost := match fec with
    | .uncorrectable _ => true
    | _ => false
  let bad := lost || decide (fieldAt flit 532 4 ≠ crc32 (flit.take 532))
  whenDo ready s
    (if bad then rejectFlit s0 port
     else if !(flitFormOk flit) then
      let s1 := setPort s0 port { x with otherDiscard := satInc 16 x.otherDiscard,
                                         rxSeq := if !idle && fieldAt flit 1 3 == x.rxSeq then (x.rxSeq + 1) % 2 ^ 24 else x.rxSeq }
      if idle then s1 else idleAfter s1 s1 port
     else
      let s1 := setPort s0 port (acceptFlit x flit)
      let s2 := drainTx s1 port
      if idle then s2 else idleAfter s1 s2 port)

/-- NAK (rule R290): every flit from ACK_SEQ onward is resent in order; the ninth retry spends the budget. -/
def execNak (port ackSeq : Nat) (s : State) : Host.Outcome State Fault Refusal :=
  let x := getPort s port
  let keep := unacked x.replay ackSeq
  let spent := decide (9 ≤ x.retries + 1)
  let s1 := setPort s port { x with
    replay := keep, acked := ackSeq, replays := satInc 16 x.replays, retries := x.retries + 1, linkRetries := x.linkRetries + 1
    linkReplays := if spent && x.state == portUp then x.linkReplays else x.linkReplays + keep.length }
  let s2 := keep.foldl (fun st q => send st (.port port) .data q.2) s1
  whenDo (portPresent s port && (x.state == portUp || x.state == portMgmtOnly) && decide (0 < keep.length)) s
    (if spent && x.state == portUp then startRetrain s1 port 0 else s2)

/-- RETRY_BUDGET_SPENT (rule R290): a fast retrain starts. -/
def execRetryBudgetSpent (port : Nat) (s : State) : Host.Outcome State Fault Refusal :=
  whenDo (portPresent s port && (getPort s port).state == portUp) s (startRetrain s port 0)

/-- LINK_CREDIT (rules R294, R296): COUNT buffers of a class are free again. -/
def execLinkCredit (port : Nat) (rec : Bytes) (s : State) : Host.Outcome State Fault Refusal :=
  let cls := fieldAt rec 2 2
  let n := fieldAt rec 1 1 + 1
  let cap := if cls = 4 then 32 else 512
  let s1 := updPort s port (fun x => { x with credits := SMap.modify 0 x.credits cls (fun c => min cap (c + n)) })
  whenDo (portPresent s port && fieldAt rec 0 1 == 5 && decide (cls ≤ 4)) s (drainTx s1 port)

/-- Qualified lanes in a mask of 18. -/
def lanesOf (mask : Nat) : List Nat := (List.range 18).filter (bit mask)

/-- Lanes a direction runs at with `h` qualified (rule R284). -/
def lanesFor (h : Nat) : Nat := if 16 ≤ h then 16 else if 12 ≤ h then 12 else if 8 ≤ h then 8 else 0

/-- Lanes a width code stands for, and back (rule R312). -/
def lanesOfWidth (w : Nat) : Nat := if w = 1 then 8 else if w = 2 then 12 else if w = 3 then 16 else 0
def widthOfLanes (n : Nat) : Nat := if n = 8 then 1 else if n = 12 then 2 else if n = 16 then 3 else 0

/-- The mask of the `n` lowest-numbered qualified lanes (rule R284). -/
def activeMask (mask n : Nat) : Nat := ((lanesOf mask).take n).foldl (fun m i => m + 2 ^ i) 0

/-- A port's state (rules R280, R312): a port that is fused off is DISABLED. -/
def portStateOf (s : State) (p : Nat) : Nat := if portPresent s p then (getPort s p).state else portDisabled

/-- The capacity table of this module (rule R286): its module id and a row for each port. -/
def capacityBytes (s : State) : Bytes :=
  natLE s.mgr.moduleId 4 ++ ((List.range 16).map (fun p =>
    let x := getPort s p
    natLE (portStateOf s p) 1 ++ natLE x.txWidth 1 ++ natLE x.rxWidth 1 ++ natLE x.linkVersion 1 ++ natLE x.farModule 4 ++ natLE x.farPort 4)).flatten

/-- A port goes DOWN (rules R285, R448): its widths and version go, and a record is written. -/
def downPort (s : State) (p : Nat) (record : Bool) : State :=
  let s1 := updPort s p (fun x => { x with state := portDown, txWidth := 0, rxWidth := 0, laneTx := 0, laneRx := 0, linkVersion := 0,
                                           farModule := 0xFFFFFFFF, farPort := 0, retrainWanted := false })
  if record then
    let idx := s1.faults.next
    signRecord (recordFault s1 { unitClass := 4, unitIndex := p, cause := 0x0400, domain := 3 }) idx false
  else s1

/-- Highest link protocol version common to a far end's bitmask and versions 1 and 2 (rule R300); 0 for none. -/
def commonVersion (mask : Nat) : Nat := if bit mask 2 then 2 else if bit mask 1 then 1 else 0

/-- Fix the widths of a trained port from its qualified lanes; one that may not widen keeps at most its width (rules R284, R285). -/
def trainedPort (x : Port) (txOk rxOk : Nat) (widen : Bool) : Option Port :=
  let cap := fun (w h : Nat) => if widen || w == 0 then lanesFor h else min (lanesOfWidth w) (lanesFor h)
  let t := cap x.txWidth (lanesOf txOk).length
  let r := cap x.rxWidth (lanesOf rxOk).length
  if t = 0 ∨ r = 0 then none
  else some { x with state := portUp, txWidth := widthOfLanes t, rxWidth := widthOfLanes r, laneTx := activeMask txOk t,
                     laneRx := activeMask rxOk r, failTx := 2 ^ 18 - 1 - txOk % 2 ^ 18, failRx := 2 ^ 18 - 1 - rxOk % 2 ^ 18,
                     retries := 0, mayWiden := false }

/-- A far end's capability record: module id, port, bitmask of link versions, bitmask of digest versions (rules R283, R300). -/
def withFar (x : Port) (far : Bytes) : Port :=
  { x with farModule := fieldAt far 0 4, farPort := fieldAt far 4 1 % 16, linkVersion := commonVersion (fieldAt far 5 4)
           lastModule := fieldAt far 0 4, lastPort := fieldAt far 4 1 % 16 }

/-- This end's capability record goes to the far end (rules R283, R300). -/
def sendCapability (s : State) (p : Nat) : State :=
  send s (.port p) .capability (natLE s.mgr.moduleId 4 ++ natLE p 1 ++ natLE 6 4 ++ natLE 2 4)

/-- A flit of the replay buffer as one that waits. -/
def unsent (f : Bytes) : TxFlit :=
  let type := fieldAt f 0 1 / 16
  { type := type, cls := if type = 1 then fieldAt f 14 1 % 4 else if type = 2 then noClass else 4, content := bytesAt f 8 524 }

/-- A link to another far end than before starts afresh (rules R285, R290, R296): its numbers and credits; what was not acknowledged waits to be
sent again, so that nothing is dropped. -/
def restartLink (x : Port) : Port :=
  { x with txSeq := 0, rxSeq := 0, acked := 0, replay := [], waitTx := x.replay.map (fun q => unsent q.2) ++ x.waitTx, credits := startCredits }

/-- Whether a capability record is of the far end that the port last had. -/
def sameFar (x : Port) (far : Bytes) : Bool :=
  x.lastModule == fieldAt far 0 4 && x.lastPort == fieldAt far 4 1 % 16

/-- A port with the far end that its training found. -/
def joinFar (x : Port) (far : Bytes) : Port := withFar (if sameFar x far then x else restartLink x) far

/-- Flits that waited during a retrain go on: what was not acknowledged is resent, then what waits (rules R285, R290). -/
def resumeTx (s : State) (p : Nat) : State :=
  let s1 := (getPort s p).replay.foldl (fun st q => send st (.port p) .data q.2) s
  drainTx (updPort s1 p (fun x => { x with linkReplays := x.linkReplays + x.replay.length })) p

/-- Answer the PORT_RETRAIN commands of a port whose training has ended (rule R400): the widths it has. -/
def answerPort (s : State) (p : Nat) : State :=
  let x := getPort s p
  if x.state = portTraining ∨ x.state = portRetraining then s
  else
    s.rings.foldl (fun st q =>
      (q.2.queue.filter (fun w => w.executing && w.pkt.opcode == 0x0F02 && w.note == [p])).foldl (fun y w =>
        finish y (keySrc q.1) w.pkt.tag 0 0 (natLE x.txWidth 1 ++ natLE x.rxWidth 1)) st) s

/-- A far end in management-only mode exchanges no capability record: this one trains in the same mode (rule R299; the empty record that stands
for it is DEDUCED, assumption 44). -/
def joinManagement (s : State) (p : Nat) : State :=
  updPort s p (fun x => { x with state := portMgmtOnly, txWidth := 0, rxWidth := 0, laneTx := 0, laneRx := 0, linkVersion := 0, retrainWanted := false
                                 farModule := 0xFFFFFFFF, farPort := 0, txSeq := 0, rxSeq := 0, acked := 0, replay := [], credits := startCredits })

/-- LANE_FAILED (rules R285, R311): the lane is marked and a fast retrain starts, after a switch-over in progress. -/
def execLaneFailed (port lane : Nat) (tx : Bool) (s : State) : Host.Outcome State Fault Refusal :=
  let s1 := updPort s port (fun x =>
    if tx then { x with failTx := x.failTx ||| 2 ^ lane } else { x with failRx := x.failRx ||| 2 ^ lane })
  whenDo (portPresent s port && (getPort s port).state == portUp && decide (lane < 18)) s
    (if (getPort s port).switching.isSome then updPort s1 port (fun x => { x with retrainWanted := true }) else startRetrain s1 port 0)

/-- FAST_RETRAIN_COMPLETE (rule R285): spares are substituted or the width narrows; with fewer than eight lanes the port is DOWN. One that
failed, or found a new far end, is followed by a full one. -/
def execFastRetrainComplete (port txOk rxOk : Nat) (result : FastResult) (s : State) : Host.Outcome State Fault Refusal :=
  let x := getPort s port
  whenDo (portPresent s port && x.state == portRetraining && x.retrainKind == 0) s
    (match result with
     | .done =>
       (match trainedPort x txOk rxOk x.mayWiden with
        | some y => answerPort (resumeTx (setPort s port y) port) port
        | none => answerPort (downPort s port true) port)
     | .failed => startRetrain s port 1
     | .newFar => startRetrain s port 1)

/-- FULL_RETRAIN_COMPLETE (rules R283, R285, R299, R300): with fewer than eight lanes or no common version the port is DOWN. -/
def execFullRetrainComplete (port txOk rxOk : Nat) (far : Bytes) (s : State) : Host.Outcome State Fault Refusal :=
  let x := getPort s port
  let s1 := sendCapability s port
  whenDo (portPresent s port && x.state == portRetraining && x.retrainKind == 1) s
    (if far = [] then answerPort (joinManagement s port) port
     else match trainedPort (joinFar x far) txOk rxOk x.mayWiden with
     | some y => answerPort (if y.linkVersion = 0 then downPort s1 port true else resumeTx (setPort s1 port y) port) port
     | none => answerPort (downPort s1 port true) port)

/-- Keep a module's capacity table, and pass it on to the manager above (rule R286). -/
def takeTable (s : State) (table : Bytes) : State :=
  let s1 : State := { s with mgr := { s.mgr with tables := SMap.set s.mgr.tables (fieldAt table 0 4) (bytesAt table 4 192) } }
  if s.mgr.role = 3 then sendMgmt s1 s.mgr.parentPort table else s1

/-- An attached module sends its capacity table to its manager (rule R286). -/
def sendTable (s : State) : State :=
  if s.mgr.role = 1 ∨ s.mgr.role = 3 then sendMgmt s s.mgr.parentPort (capacityBytes s) else s

/-- CAPACITY_TABLE (rule R286): a manager keeps the table that comes from a worker's port; any other attached module sends its own. -/
def execCapacityTable (port : Nat) (table : Bytes) (s : State) : Host.Outcome State Fault Refusal :=
  ok (if s.mgr.workers.any (fun w => w.port == port) then takeTable s table else sendTable s)

end Sys2Proof.Machine
end

