-- ==== Sys2Proof/Machine/Lanterns.lean ====
section
/-!
DEFINITION. Lanterns and the feeds of the Spire ports (rules R301 to R311, R313, R457, R535).
Lantern states (rule R306): 0 ABSENT, 1 PRESENT, 2 WARMING, 3 ACTIVE, 4 RELEASED, 5 REJECTED, 6 FAILED, 7 EOL. Feed 2p is feed A
of port p and 2p + 1 its feed B; outputs 0 to 7 of a Lantern serve its ports in ascending order, and its levels are listed by
output, nine wavelengths each, in 0.01 dBm.
-/
namespace Sys2Proof.Machine

def isLantern (l : Nat) : Bool := decide (l < 4)

/-- The feed map (rule R301): the Lantern of a port's feed A and of its feed B. -/
def feedLantern (p feed : Nat) : Nat :=
  if feed = 0 then p / 4 else if p % 2 = 0 then (p / 4 + 1) % 4 else (p / 4 + 3) % 4

/-- The ports a Lantern feeds, ascending: output i serves the i-th (rule R301). -/
def lanternPorts (l : Nat) : List Nat := (List.range 16).filter (fun p => feedLantern p 0 == l || feedLantern p 1 == l)

/-- Which feed of a port comes from a Lantern that feeds it. -/
def feedFrom (p l : Nat) : Nat := if feedLantern p 0 = l then 0 else 1

/-- The feeds that the map names for a Lantern (rule R302). -/
def namedFeeds (l : Nat) : List Nat := (lanternPorts l).map (fun p => 2 * p + feedFrom p l)

/-- Whether a Lantern is lit (rule R306). -/
def isLit (s : State) (l : Nat) : Bool :=
  let x := (getLantern s l).state
  x == 2 || x == 3 || x == 7

/-- Whether a port's feed has light. -/
def feedLit (s : State) (p feed : Nat) : Bool := isLit s (feedLantern p feed)

/-- Whether a feed may be selected with its Lantern in state `x` (rules R302, R303). -/
def feedIn (s : State) (p feed x : Nat) : Bool :=
  (getLantern s (feedLantern p feed)).state == x && !((getPort s p).miswired.contains feed)

/-- The feed that the order of rule R303 selects; 2 for none. -/
def selectFeed (s : State) (p : Nat) : Nat :=
  if feedIn s p 0 3 then 0 else if feedIn s p 1 3 then 1 else if feedIn s p 0 7 then 0 else if feedIn s p 1 7 then 1 else 2

/-- Refresh a Lantern's mirror registers (rules R313, R535). -/
def refreshMirror (s : State) (l : Nat) : State :=
  let x := getLantern s l
  let u := SMap.get {} s.attic.lanterns l
  let mask := fun (f : Nat → Bool) => (lanternPorts l).foldl (fun m p => if f p then m + 2 ^ p else m) 0
  updLantern s l (fun y => { y with mirror :=
    if x.state = 0 then {}
    else { state := x.state, serial := x.serial, model := x.model, hours := x.hours, decline := x.decline, remaining := x.remaining,
           fed := mask (fun p => !((getPort s p).miswired.contains (feedFrom p l))),
           active := mask (fun p => (getPort s p).feed == feedFrom p l),
           ageMin := match x.authBell with | none => 0xFFFF | some b => min 0xFFFE ((s.bell.count - b) / 60000000),
           installs := u.installs, switchovers := u.switchovers, waves := x.waves } })

/-- Change the Attic usage record of the Lantern in a slot. -/
def updUse (s : State) (l : Nat) (f : LanternUse → LanternUse) : State :=
  { s with attic := { s.attic with lanterns := SMap.modify {} s.attic.lanterns l f } }

/-- A Lantern changes state (rules R306, R309, R401, R535): event, Attic record, mirror; a dark Lantern's feeds read dark. -/
def setLanternState (s : State) (l st : Nat) : State :=
  let old := (getLantern s l).state
  if old = st then refreshMirror s l
  else
    let s1 := updLantern s l (fun x => { x with state := st })
    let dark := st ≠ 2 ∧ st ≠ 3 ∧ st ≠ 7
    let s2 := if dark then
        (lanternPorts l).foldl (fun q p => updPort q p (fun x =>
          { x with feedPower := (List.range 9).foldl (fun m w => SMap.erase m (9 * feedFrom p l + w)) x.feedPower })) s1
      else s1
    let s3 := refreshMirror { s2 with atticStore := { s2.atticStore with pendingOther := true } } l
    deviceEvent s3 0x0981 (natLE l 1 ++ natLE old 1 ++ natLE st 1 ++ natLE 0 1)

/-- Count a switch-over of a port between its Lanterns in their usage records (rule R309). -/
def countSwitch (s : State) (p : Nat) : State :=
  let inc := fun (u : LanternUse) => { u with switchovers := satInc 16 u.switchovers }
  updUse (updUse s (feedLantern p 0) inc) (feedLantern p 1) inc

/-- A port loses its active feed (rules R304, R311): it switches without ramping to the other feed if that is lit, else it is DOWN.
A planned switch-over whose target is lost returns to the feed it left. -/
def loseFeed (s : State) (p : Nat) : State :=
  let x := getPort s p
  let down := fun (q : State) => downPort (updPort q p (fun y => { y with feed := 2, switching := none })) p (x.state != portDown)
  match x.switching with
  | some target =>
    if feedLit s p x.feed then updPort s p (fun y => { y with switching := none })
    else if feedLit s p target then
      countSwitch (updPort s p (fun y => { y with feed := target, switching := none, unplanned := satInc 16 y.unplanned })) p
    else down s
  | none =>
    let other := 1 - x.feed
    if feedLit s p other && !(x.miswired.contains other) then
      countSwitch (updPort s p (fun y => { y with feed := other, unplanned := satInc 16 y.unplanned })) p
    else down s

/-- A lit Lantern goes dark: the ports that use it lose their feed (rules R304, R310, R311). -/
def darken (s : State) (l st : Nat) : State :=
  let was := isLit s l
  let s1 := setLanternState s l st
  if was then
    (lanternPorts l).foldl (fun q p =>
      let x := getPort q p
      if x.feed = feedFrom p l ∨ x.switching = some (feedFrom p l) then loseFeed q p else q) s1
  else s1

/-- Whether the Spires' data lanes are on (rule R21). -/
def lanesOn (s : State) : Bool :=
  match s.dev with
  | .off => false
  | .standby => false
  | .waking => false
  | _ => true

/-- Ports without a feed, and port 0 in its management-only mode, take the one the order selects, and train where they were down
(rules R283, R299, R303, R473). -/
def takeFeeds (s : State) : State :=
  (List.range 16).foldl (fun q p =>
    let x := getPort q p
    let sel := selectFeed q p
    if lanesOn q && portPresent q p && !x.disabled && (x.feed == 2 || (x.state == portMgmtOnly && decide (s.dev = .testing))) && sel != 2 then
      let q1 := updPort q p (fun y => { y with feed := sel })
      if x.state = portDown ∨ x.state = portMgmtOnly then startRetrain q1 p 2 else q1
    else q) s

/-- DOWN_PORT_RETRY (rule R283): a DOWN port whose active feed is lit tries bring-up training again. -/
def execDownPortRetry (port : Nat) (s : State) : Host.Outcome State Fault Refusal :=
  let x := getPort s port
  let late := decide (s.dev = .ready) || decide (s.dev = .running) || decide (s.dev = .draining) || decide (s.dev = .faulted)
  whenDo (portPresent s port && x.state == portDown && !x.disabled && x.feed != 2 && feedLit s port x.feed && late) s (startRetrain s port 2)

/-- PLANNED_SWITCHOVER (rule R303): the order selects another feed, both are lit, and no other port is switching. -/
def execPlannedSwitchover (port : Nat) (s : State) : Host.Outcome State Fault Refusal :=
  let x := getPort s port
  let target := selectFeed s port
  whenDo (portPresent s port && x.feed != 2 && target != 2 && target != x.feed && feedLit s port x.feed && feedLit s port target
      && s.ports.all (fun q => q.2.switching.isNone)) s
    (updPort s port (fun y => { y with switching := some target }))

/-- SWITCHOVER_COMPLETE (rules R303, R311): the port uses the new feed; a fast retrain that waited follows. -/
def execSwitchoverComplete (port : Nat) (s : State) : Host.Outcome State Fault Refusal :=
  let x := getPort s port
  match x.switching with
  | none => ok s
  | some target =>
    let s1 := countSwitch (updPort s port (fun y => { y with feed := target, switching := none, planned := satInc 16 y.planned })) port
    ok (if x.retrainWanted then startRetrain s1 port 0 else s1)

/-- UNPLANNED_SWITCHOVER (rule R304). -/
def execUnplannedSwitchover (port : Nat) (s : State) : Host.Outcome State Fault Refusal :=
  whenDo (portPresent s port && (getPort s port).feed != 2) s (loseFeed s port)

/-- The usage record that a serial number brings with it: the one kept of a removed Lantern, or a new one (rule R309). -/
def useOf (a : Attic) (serial : Nat) (first : List Int) (hours : Nat) : LanternUse :=
  match a.lanternsGone.find? (fun u => u.serial == serial) with
  | some u => { u with hours := hours, installs := satInc 16 u.installs }
  | none => { serial := serial, first := first, hours := hours, installs := 1 }

/-- LANTERN_INSERTED (rules R305, R306, R309): PRESENT, with what its own memory holds. -/
def execLanternInserted (lantern serial model hours : Nat) (first : List Int) (s : State) : Host.Outcome State Fault Refusal :=
  let u := useOf s.attic serial first hours
  let s1 : State := { s with attic := { s.attic with
    lanterns := SMap.set s.attic.lanterns lantern u
    lanternsGone := s.attic.lanternsGone.filter (fun g => g.serial != serial) } }
  whenDo (isLantern lantern && (getLantern s lantern).state == 0 && decide (s.dev ≠ .off)) s
    (setLanternState (setLantern s1 lantern { serial := serial, model := model, hours := hours, first := first }) lantern 1)

/-- LANTERN_REMOVED (rules R304, R309, R310): a lit Lantern is an unplanned loss, recorded as removed without release. -/
def execLanternRemoved (lantern : Nat) (s : State) : Host.Outcome State Fault Refusal :=
  let lit := isLit s lantern
  let s1 := darken s lantern 0
  let u := SMap.get {} s1.attic.lanterns lantern
  let gone := (if lit then { u with unreleased := u.unreleased + 1 } else u) :: s1.attic.lanternsGone
  let s2 := setLantern s1 lantern {}
  whenDo (isLantern lantern && (getLantern s lantern).state != 0) s
    { s2 with attic := { s2.attic with lanterns := SMap.erase s2.attic.lanterns lantern, lanternsGone := gone.take 4 } }

/-- A permanent-class event of a Lantern (rule R457): entered in its history of 16, with its record. -/
def lanternEvent (s : State) (l cause : Nat) : State :=
  let idx := s.faults.next
  let s1 := recordFault s { unitClass := 7, unitIndex := l, cause := cause, domain := 5, attic := true }
  let s2 := updUse s1 l (fun u => { u with
    history := enterHistory u.history 16 ⟨cause, 0, s.attic.lifetimeS, idx⟩
    failed := if cause = 0x0402 then u.failed + 1 else u.failed })
  let u := SMap.get {} s2.attic.lanterns l
  let ban := (decide (2 ≤ u.failed) || decide (3 ≤ u.rejects)) && !(s2.attic.serialsBanned.contains u.serial)
  let s3 : State := { s2 with
    attic := if ban then { s2.attic with serialsBanned := s2.attic.serialsBanned ++ [u.serial] } else s2.attic
    atticStore := { s2.atticStore with pendingFault := true } }
  signRecord s3 idx false

/-- Finish the LANTERN_CHECK commands of a Lantern that wait (rule R399). -/
def answerLantern (s : State) (l : Nat) : State :=
  let x := getLantern s l
  s.rings.foldl (fun st p =>
    (p.2.queue.filter (fun w => w.executing && w.pkt.opcode == 0x0905 && w.note == [l])).foldl (fun q w =>
      finish q (keySrc p.1) w.pkt.tag 0 0 (natLE x.state 1 ++ natLE 0 1 ++ natLE (unsignedOf 16 x.decline) 2)) st) s

/-- LANTERN_AUTHENTICATION (rules R305, R306, R311, R457): a proof that verifies makes a Lantern that waits WARMING; one that does
not, or a serial number the module no longer lights, makes it REJECTED. -/
def execLanternAuthentication (lantern : Nat) (proof : Bytes) (s : State) : Host.Outcome State Fault Refusal :=
  let x := getLantern s lantern
  let serves := decide (s.dev ≠ .off) && decide (s.dev ≠ .standby) && decide (s.dev ≠ .waking)
  let (n, s0) := draw s
  let message := sha384 (Config.nonce n ++ natLE x.serial 8 ++ (x.first.map (fun v => natLE (unsignedOf 16 v) 2)).flatten)
  let good := proof != [] && Config.verifies proof message
  let banned := s.attic.serialsBanned.contains x.serial
  let s1 :=
    if good then
      let s2 := updUse (updLantern s0 lantern (fun y => { y with authBell := some s.bell.count })) lantern
        (fun u => { u with rejects := 0, authOk := true })
      if x.state = 1 ∨ x.state = 5 then setLanternState s2 lantern (if banned then 5 else 2) else refreshMirror s2 lantern
    else
      let s2 := updUse (updLantern s0 lantern (fun y => { y with authFails := satInc 16 y.authFails })) lantern
        (fun u => { u with rejects := u.rejects + 1, authFails := satInc 16 u.authFails, authOk := false })
      lanternEvent (darken s2 lantern 5) lantern 0x0403
  whenDo (isLantern lantern && x.state != 0 && serves) s (if isLit s1 lantern then s1 else answerLantern s1 lantern)

/-- The wiring check of one Lantern (rule R302): the feeds that rose from dark must be exactly those the map names. -/
def checkWiring (s : State) (l : Nat) (rose : List Nat) : State :=
  (List.range 32).foldl (fun q f =>
    let named := (namedFeeds l).contains f
    let bad := named != rose.contains f
    let clear := fun (m : List Nat) => m.filter (fun g => g != f % 2)
    if bad then updPort q (f / 2) (fun x => { x with miswired := clear x.miswired ++ [f % 2] })
    else if named then updPort q (f / 2) (fun x => { x with miswired := clear x.miswired })
    else q) s

/-- Whether a port's feeds are settled for a check: no switch-over and no training (rule R311). -/
def settled (x : Port) : Bool := x.switching.isNone && x.state != portTraining && x.state != portRetraining

/-- Enter the measured levels of a Lantern's outputs; a port that is not settled keeps its previous value (rules R307, R311, R312). -/
def enterLevels (s : State) (l : Nat) (levels : List Int) : State :=
  (lanternPorts l).zipIdx.foldl (fun q pi =>
    let x := getPort q pi.1
    if settled x then
      (List.range 9).foldl (fun r w =>
        let v := levels.getD (9 * pi.2 + w) (-32768)
        updLantern (updPort r pi.1 (fun y => { y with feedPower := SMap.set y.feedPower (9 * feedFrom pi.1 l + w) v })) l
          (fun y => { y with levels := SMap.set y.levels (9 * pi.2 + w) v })) q
    else q) s

/-- The outputs counted in a Lantern's decline: those wired to enabled ports and not MISWIRED (rule R307). -/
def countedOutputs (s : State) (l : Nat) : List (Nat × Nat) :=
  (lanternPorts l).zipIdx.filter (fun pi =>
    portPresent s pi.1 && !(getPort s pi.1).disabled && !((getPort s pi.1).miswired.contains (feedFrom pi.1 l)))

/-- How far an output has declined at a wavelength (rule R307). -/
def outputDecline (x : Lantern) (o w : Nat) : Int :=
  if x.first = [] then 0 else x.first.getD (9 * o + w) 0 - SMap.get (-32768) x.levels (9 * o + w)

def sumInt (l : List Int) : Int := l.foldl (· + ·) 0

/-- A quotient whose rounding the spec leaves open: its floor or one more, by a free value (notes/assumptions/7.md). -/
def freeRound (a b : Int) (n : Nat) : Int := a / b + (if a % b = 0 then 0 else (Config.freeNat 4 n % 2 : Nat))

/-- The hours left, in units of 10 h, from the least-squares line of the checks (rule R308); 0xFFFF for none. -/
def predictHours (checks : List (Nat × Int)) (now n : Nat) : Nat :=
  let c := checks.filter (fun p => decide (now ≤ p.1 + 2000))
  let k : Int := c.length
  let sx := sumInt (c.map (fun p => (p.1 : Int)))
  let sy := sumInt (c.map (fun p => p.2))
  let sxx := sumInt (c.map (fun p => (p.1 : Int) * p.1))
  let sxy := sumInt (c.map (fun p => (p.1 : Int) * p.2))
  let a := k * sxy - sx * sy
  let d := k * sxx - sx * sx
  if a ≤ 0 ∨ d ≤ 0 then 0xFFFF
  else (max 0 (min 0xFFFE (freeRound (150 * d - (sy * sxx - sx * sxy) - now * a) (10 * a) n))).toNat

/-- Feed-path faults of a check (rule R307): outputs more than 1.0 dB beyond d_w, with the wavelength. -/
def feedFaults (x : Lantern) (outs : List (Nat × Nat)) : List (Nat × Nat × Nat) :=
  let k : Int := outs.length
  (List.range 9).flatMap (fun w =>
    let total := sumInt (outs.map (fun pi => outputDecline x pi.2 w))
    (outs.filter (fun pi => decide (100 * k < k * outputDecline x pi.2 w - total))).map (fun pi => (pi.1, pi.2, w)))

/-- The outcome of a health check once the levels are entered (rules R306 to R309): feed-path faults are recorded against their
ports; the decline, the prediction, EOL and FAILED follow. -/
def judge (s : State) (l hours : Nat) : State :=
  let x := getLantern s l
  let outs := countedOutputs s l
  let faults := feedFaults x outs
  let s1 := faults.foldl (fun q f =>
    signRecord (recordFault q { unitClass := 4, unitIndex := f.1, subIndex := f.2.2, cause := 0x0401, domain := 3 }) q.faults.next false) s
  let good := outs.filter (fun pi => !(faults.any (fun f => f.2.1 == pi.2)))
  let k : Int := good.length
  let sums := (List.range 9).map (fun w => (w, sumInt (good.map (fun pi => outputDecline x pi.2 w))))
  let (n, s2) := draw s1
  let waves := if k = 0 then [] else sums.map (fun p => (p.1, freeRound p.2 k n))
  let worst := sums.foldl (fun m p => max m p.2) (match sums with | [] => 0 | p :: _ => p.2)
  let decline := if k = 0 then 0 else freeRound worst k n
  let checks := ((SMap.get {} s2.attic.lanterns l).checks.filter (fun p => decide (hours ≤ p.1 + 2000))) ++ [(hours, decline)]
  let remaining := predictHours checks hours n
  let s3 := updUse (updLantern s2 l (fun y => { y with hours := hours, decline := decline, remaining := remaining, waves := waves })) l
    (fun u => { u with hours := hours, decline := decline, remaining := remaining, checks := checks })
  if 300 * k < worst then lanternEvent (darken s3 l 6) l 0x0402
  else if 150 * k ≤ worst ∧ 0 < k ∧ x.state = 3 then setLanternState s3 l 7
  else refreshMirror s3 l

/-- LANTERN_WARMUP_COMPLETE (rules R302, R303, R306, R309): a Lantern off grid has FAILED; any other is checked for its wiring, gets
its first-installation record if it has none, and is ACTIVE. -/
def execLanternWarmupComplete (lantern : Nat) (levels : List Int) (offGrid : Bool) (rose : List Nat) (s : State) :
    Host.Outcome State Fault Refusal :=
  let s1 := enterLevels (checkWiring s lantern rose) lantern levels
  let s2 := updLantern s1 lantern (fun x => { x with first := if x.first = [] then levels else x.first })
  let s3 := updUse s2 lantern (fun u => { u with first := (getLantern s2 lantern).first })
  whenDo (isLantern lantern && (getLantern s lantern).state == 2) s
    (if offGrid then lanternEvent (darken s lantern 6) lantern 0x0402
     else takeFeeds (setLanternState s3 lantern 3))

/-- LANTERN_HEALTH_CHECK (rules R307, R308, R399). -/
def execLanternHealthCheck (lantern : Nat) (levels : List Int) (hours : Nat) (s : State) : Host.Outcome State Fault Refusal :=
  whenDo (isLantern lantern && isLit s lantern) s (answerLantern (judge (enterLevels s lantern levels) lantern hours) lantern)

/-- LANTERN_MIRROR_REFRESH (rule R535). -/
def execLanternMirrorRefresh (s : State) : Host.Outcome State Fault Refusal :=
  ok ((List.range 4).foldl refreshMirror s)

end Sys2Proof.Machine
end

