-- ==== Sys2Proof/Machine/Control.lean ====
section
/-!
DEFINITION. Issue, and the control instructions: `nop`, `wait`, `take`, `pass`, `mark`, `bellwait`, `loop`, the instruction
fetch, the step gate and the kernel overrun (rules R123 to R129 of 06_tile_and_matrix_engine.md, R162 to R188 of
08_instruction_encoding_and_control.md, R221 of 10_training_passes.md).
-/
namespace Sys2Proof.Machine

/-- A physical tile number of the device (rule R13). -/
def isTile (t : Nat) : Bool := decide (t < 80)

/-- Whether a tile's streams may act: it holds a virtual tile of a suite that runs or drains, and is neither paused, in reset
nor disabled (rules R428, R479, R496). -/
def tileRuns (s : State) (t : Nat) : Bool :=
  let tile := getTile s t
  isTile t && !tile.gov.paused && !tile.health.inReset && !tile.health.disabled && !tile.health.blank && !tile.cdcHeld &&
    (match tile.suite with
     | none => false
     | some n => decide ((getSuite s n).state = .running) || decide ((getSuite s n).state = .draining))

/-- Whether a stream may act: its tile runs and it has neither halted, faulted nor stopped (rules R124, R433). -/
def streamLive (s : State) (t : Nat) (k : KStream) : Bool :=
  let x := (getTile s t).core.stream k
  tileRuns s t && !x.halted && !x.stopped && x.fault == 0

/-- Set a stream of a tile. -/
def setStream (s : State) (t : Nat) (k : KStream) (x : KState) : State :=
  updTile s t (fun y => { y with core := y.core.setStream k x })

def getStream (s : State) (t : Nat) (k : KStream) : KState := (getTile s t).core.stream k

/-- The word at a stream's position, where its buffer holds it (rule R165); one that an uncorrectable error of memory reached is zero
(rule R240). -/
def fetchWord (s : State) (t : Nat) (k : KStream) : Option Nat :=
  let x := getStream s t k
  if x.bufLo ≤ x.pc ∧ x.pc < x.bufHi then
    (if x.blank.any (fun r => decide (r.1 ≤ x.pc) && decide (x.pc < r.2)) then some 0 else (tileProgram s t k).instrs[x.pc]?)
  else none

/-- The next position and the open loops, innermost first, when position `next` is reached (rule R183). -/
def loopNext (next : Nat) : List LoopFrame → Nat × List LoopFrame
  | [] => (next, [])
  | f :: fs =>
    if f.last = next then
      if f.idx + 1 < f.trip then (f.first, { f with idx := f.idx + 1 } :: fs) else loopNext next fs
    else (next, f :: fs)

/-- A stream past its present instruction. -/
def advanceState (x : KState) : KState :=
  let r := loopNext (x.pc + 1) x.loops.reverse
  { x with pc := r.1, loops := r.2.reverse, phase := .ready, stall := 0, leading := false }

def advance (s : State) (t : Nat) (k : KStream) : State := setStream s t k (advanceState (getStream s t k))

/-- The stream stalls at its instruction with a STALL code (rule R184). -/
def stallAt (s : State) (t : Nat) (k : KStream) (code : Nat) : State :=
  setStream s t k { getStream s t k with stall := code }

/-- Issue the instruction at a stream's position (rules R123, R164, R165): `f` gives the effect of the instruction the command
names, and none for any other, which leaves the block unchanged; a fault that ends an evaluation window ends the effect with it. A word that is not resident stalls the stream (STALL 6); a
word that is no instruction faults it with ILLEGAL, whichever instruction was named. -/
def issueAs (s : State) (t : Nat) (k : KStream) (f : KInst → Nat → Option State) : State :=
  let x := getStream s t k
  if streamLive s t k && decide (x.phase = .ready) && !x.haltPending then
    match fetchWord s t k with
    | none => stallAt s t k 6
    | some w =>
      match decodeKernel w with
      | .illegal => faultStream s t k .illegal w
      | i => keepRestored s ((f i w).getD s) t
  else s

/-- Whether a stream holds a token (rule R125). -/
def holds (s : State) (t : Nat) (k : KStream) (tok : Nat) : Bool :=
  decide ((getTile s t).core.tokens.getD tok .none = .held k)

/-- Whether a stream holds every token of a list. -/
def holdsAll (s : State) (t : Nat) (k : KStream) (toks : List Nat) : Bool := toks.all (holds s t k)

def setToken (s : State) (t tok : Nat) (v : TokenState) : State :=
  updTile s t (fun y => { y with core := { y.core with tokens := y.core.tokens.set tok v } })

/-- Landings of a tile: 0 IN0, 1 IN1, 2 OUT0, 3 OUT1. -/
def getLanding (s : State) (t l : Nat) : Landing := SMap.get {} (getTile s t).landings l
def setLanding (s : State) (t l : Nat) (x : Landing) : State :=
  updTile s t (fun y => { y with landings := SMap.set y.landings l x })

/-- Token of a landing. -/
def landingToken (l : Nat) : Nat := 3 + l

/-- Whether every operation issued on a token's resource has completed, in the sense of rule R126: spills for ME and banks,
transfers for an inbound landing, acceptance of every transaction for an outbound one. -/
def tokenIdle (s : State) (t tok : Nat) : Bool :=
  let tile := getTile s t
  let q := fun l => (SMap.get {} tile.landings l).queue
  if tok = 0 then tile.passes.isEmpty
  else if tok = 3 ∨ tok = 4 then (q (tok - 3)).isEmpty
  else if tok = 5 ∨ tok = 6 then (q (tok - 3)).all (fun x => x.started == x.count)
  else if 7 ≤ tok then
    let b := tok - 7
    tile.passes.all (fun p => p.bank != b)
      && ((q 0) ++ (q 1)).all (fun x => !(x.layout == 2 && x.tsBase / 16384 == b))
      && ((q 2) ++ (q 3)).all (fun x => !(x.layout == 2 && x.tsBase / 16384 == b) || x.started == x.count)
  else true

/-- Token that a `wait` needs (rule R173). -/
def waitToken (sel : Nat) : Nat := if sel ≤ 3 then 3 + sel else sel - 4

/-- Incomplete transfers that a stream issued on a landing (rule R173). -/
def ownTransfers (s : State) (t l : Nat) (k : KStream) : Nat :=
  ((getLanding s t l).queue.filter (fun x => decide (x.issuer = k))).length

/-- Whether a `wait` is satisfied (rule R173). -/
def waitDone (s : State) (t : Nat) (k : KStream) (sel n : Nat) : Bool :=
  if sel ≤ 3 then decide (ownTransfers s t sel k ≤ n)
  else if sel = 4 then (getTile s t).passes.all (fun p => p.issuer != k)
  else true

/-- Whether every operation a stream issued has completed (rule R178). -/
def streamDrained (s : State) (t : Nat) (k : KStream) : Bool :=
  waitDone s t k 0 0 && waitDone s t k 1 0 && waitDone s t k 2 0 && waitDone s t k 3 0 && waitDone s t k 4 0

/-- Count a closing kernel's data flags (rule R185): SAT, RANGE, POISON, EMPTY. -/
def countFlags (l : List Nat) (f : Flags) : List Nat :=
  let add := fun (i : Nat) (b : Bool) => if b then satInc 32 (l.getD i 0) else l.getD i 0
  [add 0 f.sat, add 1 f.range, add 2 f.poison, add 3 f.empty]

/-- Change the step record of a suite. -/
def updStep (s : State) (n u : Nat) (f : StepAcc → StepAcc) : State :=
  updSuite s n (fun su => { su with steps := SMap.modify {} su.steps u f })

/-- Close the open kernel of a stream: its flags go to the step flag record, or to the window's record in an evaluation
program (rules R185, R231), and are cleared. -/
def closeKernel (s : State) (t : Nat) (k : KStream) : State :=
  let tile := getTile s t
  let x := tile.core.stream k
  let s1 := match tile.suite, x.kernel with
    | some n, some _ =>
      if tile.evalMode then
        updSuite s n (fun su => { su with window := su.window.map (fun w => { w with flagCounts := countFlags w.flagCounts x.flags }) })
      else
        updStep s n x.step (fun a =>
          let c := countFlags [a.satKernels, a.rangeKernels, a.poisonKernels, a.emptyKernels] x.flags
          { a with satKernels := c.getD 0 0, rangeKernels := c.getD 1 0, poisonKernels := c.getD 2 0, emptyKernels := c.getD 3 0 })
    | _, _ => s
  setStream s1 t k { x with flags := {}, kernel := none, occurrence := 0 }

/-- Open the kernel of the `mark` at a stream's position (rules R177, R178, R181). -/
def openKernel (s : State) (t : Nat) (k : KStream) (kernel duration : Nat) : State :=
  let x := getStream s t k
  let occ := SMap.get 0 x.seen kernel
  setStream s t k { (advanceState x) with
    kernel := some kernel, occurrence := occ, seen := SMap.set x.seen kernel (occ + 1), duration := duration,
    grace := ((getTile s t).suite.map (fun n => (getSuite s n).slice.grace)).getD x.grace,
    openBell := s.bell.count, waitedBells := 0, leading := true, cutWait := false, stopped := false }

/-- Whether a stream is at a stop point (rules R180, R433). -/
def atStopPoint (x : KState) : Bool :=
  x.stopped || (match x.phase with
    | .atGate => true
    | .finished => true
    | .bellWaiting _ _ => true
    | _ => false)

/-- Whether a suite executes: it runs, or drains to the gate at which a STOP in MODE 0 ends it (rules R17, R395). -/
def executing (su : Suite) : Bool := decide (su.state = .running) || (decide (su.state = .draining) && su.slice.stopAfter.isSome)

/-- Streams of the virtual tiles of a suite that are resident, as tile and stream. -/
def suiteStreams (s : State) (n : Nat) : List (Nat × KStream) :=
  (s.tiles.filter (fun p => decide (p.2.suite = some n))).foldr (fun p acc => (p.1, .f) :: (p.1, .b) :: (p.1, .u) :: acc) []

/-- Step counters of every stream of a suite, folded virtual tiles in their save slots included. -/
def suiteSteps (s : State) (n : Nat) : List Nat :=
  let su := getSuite s n
  let here := (suiteStreams s n).map (fun p => (getStream s p.1 p.2).step)
  let away := su.saves.foldr (fun p acc =>
    if (s.tiles.any (fun q => decide (q.2.suite = some n) && q.2.vtile == p.1)) then acc
    else p.2.f.step :: p.2.b.step :: p.2.u.step :: acc) []
  here ++ away

/-- Value of a plan's count for a rank count (rule R412). -/
def countOf (c : CountSpec) (n : Nat) : Nat :=
  match c with
  | .fixed k => k
  | .perN d => if d = 0 then 0 else n / d

/-- Whether step `u` is a vote step of a suite's rank (rules R47, R328, R329). -/
def voteStep (su : Suite) (u : Nat) : Bool :=
  match su.image with
  | none => false
  | some im =>
    let m := match im.plan.voteFamily with
      | none => 0
      | some f => ((im.plan.families[f]?).map (fun x => countOf x.count su.job.nRanks)).getD 0
    decide (0 < im.digestPlan.k) && decide (0 < u) && u % im.digestPlan.k == 0 && decide (1 < m) && su.job.rank.isSome

/-- The step gate of a stream into step `u` is open (rules R179, R221, R232, R329, R433). -/
def gateOpen (s : State) (n : Nat) (k : KStream) (u : Nat) : Bool :=
  let su := getSuite s n
  (suiteSteps s n).all (fun v => decide (u ≤ v + 1))
    && !su.slice.stopping
    && (match su.slice.stopAfter with
        | some p => decide (u ≤ p)
        | none => true)
    && (match su.closedGate with
        | some g => decide (u < g)
        | none => true)
    && (match su.holdU with
        | some g => decide (k ≠ .u) || decide (u < g)
        | none => true)
    && !(decide (k = .u) && voteStep su (u - 1) && decide (su.job.voted < u - 1))

/-- Whether a stream's final holders differ from those that its program's section gives (rules R127, R407, TOKEN_LEAK). -/
def tokenLeak (s : State) (t : Nat) (k : KStream) : Bool :=
  let tile := getTile s t
  match tile.suite with
  | none => false
  | some n =>
    match (getSuite s n).image with
    | none => false
    | some im =>
      let h := (SMap.get {} (if tile.evalMode then im.evalTiles else im.vtiles) tile.vtile).holders
      (List.range 11).any (fun i =>
        match tile.core.tokens.getD i .none with
        | .transit j => decide (j = k)
        | .held j => decide (j = k) && bits h (2 * i) 2 != k.idx
        | .none => false)

/-- Whether the mark that opens `kernel` on a stream is a fold cut of a folded tile (rule R416). -/
def isCut (s : State) (t : Nat) (k : KStream) (kernel : Nat) : Bool :=
  let tile := getTile s t
  match tile.suite with
  | none => false
  | some n =>
    match (getSuite s n).image with
    | none => false
    | some im =>
      decide (1 < tile.fold) && !tile.evalMode && (SMap.get {} im.vtiles tile.vtile).cuts.any (fun c =>
        match k with
        | .f => c.1 == kernel
        | .b => c.2.1 == kernel
        | .u => c.2.2 == kernel)

/-- A stream that stands inside a mark, its kernel closed, opens the mark's kernel: at a resume, a release or a fold swap
(rules R178, R416, R434). -/
def resumeInMark (s : State) (t : Nat) (k : KStream) : State :=
  let x := getStream s t k
  match x.phase, fetchWord s t k with
  | .draining, some w =>
    match decodeKernel w with
    | .mark false d kn =>
      if x.stopped || x.cutWait then openKernel (setStream s t k { x with stopped := false, cutWait := false }) t k kn d else s
    | _ => s
  | _, _ => s

/-- NOP (rule R163, Note 1). -/
def execNop (tile : Nat) (st : KStream) (s : State) : Host.Outcome State Fault Refusal :=
  ok (issueAs s tile st (fun i _ =>
    match i with
    | .nop => some (advance s tile st)
    | _ => none))

/-- WAIT (rule R173). -/
def execWait (tile : Nat) (st : KStream) (s : State) : Host.Outcome State Fault Refusal :=
  ok (issueAs s tile st (fun i w =>
    match i with
    | .wait sel n =>
      if !(holds s tile st (waitToken sel)) then some (faultStream s tile st .ownership w)
      else if waitDone s tile st sel n then some (advance s tile st)
      else some (setStream s tile st { getStream s tile st with phase := .waiting sel n, stall := 3 })
    | _ => none))

/-- WAIT_SATISFIED (rule R173): a stalled `wait` completes. -/
def execWaitSatisfied (tile : Nat) (st : KStream) (s : State) : Host.Outcome State Fault Refusal :=
  match (getStream s tile st).phase with
  | .waiting sel n => whenDo (streamLive s tile st && waitDone s tile st sel n) s (advance s tile st)
  | _ => ok s

/-- TAKE (rules R126, R127): it stalls until TAKE_COMPLETE. -/
def execTake (tile : Nat) (st : KStream) (s : State) : Host.Outcome State Fault Refusal :=
  ok (issueAs s tile st (fun i w =>
    match i with
    | .take tok =>
      if holds s tile st tok then some (faultStream s tile st .tokenHeld w)
      else some (setStream s tile st { getStream s tile st with phase := .taking tok, stall := 1 })
    | _ => none))

/-- TAKE_COMPLETE (rule R126): the token is in transit to the stream and its resource's operations have completed. -/
def execTakeComplete (tile : Nat) (st : KStream) (s : State) : Host.Outcome State Fault Refusal :=
  match (getStream s tile st).phase with
  | .taking tok =>
    whenDo (streamLive s tile st && decide ((getTile s tile).core.tokens.getD tok .none = .transit st) && tokenIdle s tile tok) s
      (advance (setToken s tile tok (.held st)) tile st)
  | _ => ok s

/-- The stream that a `pass` names (rule R175). -/
def streamOfCode (c : Nat) : KStream := if c = 0 then .f else if c = 1 then .b else .u

/-- PASS (rules R126, R127). Of a pass to the passing stream itself of a token that it does not hold, TOKEN_NOT_HELD is found first: the table
of rule R127 gives no order (DESIGN CHOICE, assumption 56). -/
def execPass (tile : Nat) (st : KStream) (s : State) : Host.Outcome State Fault Refusal :=
  ok (issueAs s tile st (fun i w =>
    match i with
    | .pass target tok =>
      if !(holds s tile st tok) then some (faultStream s tile st .tokenNotHeld w)
      else if streamOfCode target = st then some (faultStream s tile st .tokenSelf w)
      else some (advance (setToken s tile tok (.transit (streamOfCode target))) tile st)
    | _ => none))

/-- MARK (rule R178): the stream drains (STALL 3); MARK_DRAIN_COMPLETE ends the drain. -/
def execMark (tile : Nat) (st : KStream) (s : State) : Host.Outcome State Fault Refusal :=
  ok (issueAs s tile st (fun i _ =>
    match i with
    | .mark _ _ _ => some (setStream s tile st { getStream s tile st with phase := .draining, stall := 3 })
    | _ => none))

/-- The value of a bell slot of a tile's suite; an unset slot holds all ones (rule R182). -/
def bellSlot (s : State) (t i : Nat) : Nat :=
  match (getTile s t).suite with
  | none => 2 ^ 64 - 1
  | some n => SMap.get (2 ^ 64 - 1) (getSuite s n).slots i

/-- The target a waiting `bellwait` compares with (rule R182). -/
def bellTarget (s : State) (t : Nat) (slot : Option Nat) (target : Nat) : Nat :=
  match slot with
  | some i => bellSlot s t i
  | none => target

/-- BELLWAIT (rules R182, R433): legal only directly after a mark; a target already passed completes at once, and a stream of a
suite that is being pre-empted stops here. -/
def execBellwait (tile : Nat) (st : KStream) (s : State) : Host.Outcome State Fault Refusal :=
  ok (issueAs s tile st (fun i w =>
    match i with
    | .bellwait useSlot slot offset =>
      let x := getStream s tile st
      let stopping := match (getTile s tile).suite with
        | some n => (getSuite s n).slice.stopping
        | none => false
      let sl := if useSlot then some slot else none
      let target := x.openBell + offset
      if !x.leading then some (faultStream s tile st .illegal w)
      else if bellTarget s tile sl target ≤ s.bell.count ∧ stopping = false then some (advance s tile st)
      else some (setStream s tile st
        { x with phase := .bellWaiting sl target, stall := 4, waitFrom := s.bell.count, stopped := stopping })
    | _ => none))

/-- BELLWAIT_COMPLETE (rule R182): the bell count reaches the target; the time stalled is not counted (rule R181). -/
def execBellwaitComplete (tile : Nat) (st : KStream) (s : State) : Host.Outcome State Fault Refusal :=
  match (getStream s tile st).phase with
  | .bellWaiting sl target =>
    let x := getStream s tile st
    whenDo (streamLive s tile st && decide (bellTarget s tile sl target ≤ s.bell.count)) s
      (advance (setStream s tile st { x with waitedBells := x.waitedBells + (s.bell.count - x.waitFrom) }) tile st)
  | _ => ok s

/-- LOOP (rule R183): opens a depth; a fifth depth, or a body that ends beyond its outer body, is ILLEGAL. -/
def execLoop (tile : Nat) (st : KStream) (s : State) : Host.Outcome State Fault Refusal :=
  ok (issueAs s tile st (fun i w =>
    match i with
    | .loop trip body =>
      let x := getStream s tile st
      let last := x.pc + 1 + body
      let inside := match x.loops.getLast? with
        | some f => decide (last ≤ f.last)
        | none => true
      if 4 ≤ x.loops.length ∨ inside = false then some (faultStream s tile st .illegal w)
      else some (setStream s tile st
        { x with pc := x.pc + 1, loops := x.loops ++ [⟨x.pc + 1, last, trip, 0⟩], stall := 0, leading := false })
    | _ => none))

/-- Count corrected bits of the instruction buffer and tables (rule R165). -/
def countIbuf (s : State) (t : Nat) (ecc : List EccHit) : State :=
  let n := (ecc.filter (fun h => !h.double && decide (h.site = .program))).length
  updTile s t (fun x => tileEvents x n (fun c k => { c with ibufCorrected := satAdd 16 c.ibufCorrected k }))

/-- Whether a double-bit error stands in the program or a table (rules R165, R189). -/
def programLost (ecc : List EccHit) : Bool := ecc.any (fun h => h.double && decide (h.site = .program))

/-- Lowest position that must stay resident: the outermost open loop's body, or the position (rule R165). -/
def residentFrom (x : KState) : Nat :=
  match x.loops with
  | [] => x.pc
  | f :: _ => min f.first x.pc

/-- Bells that count towards the open kernel's duration (rule R181). -/
def kernelBells (s : State) (x : KState) : Nat :=
  let waiting := match x.phase with
    | .bellWaiting _ _ => s.bell.count - x.waitFrom
    | _ => 0
  s.bell.count - x.openBell - x.waitedBells - waiting

/-- KERNEL_OVERRUN (rules R181, R431): the open kernel runs longer than its DURATION plus the suite's grace; the stream faults
and the suite is reset. -/
def execKernelOverrun (tile : Nat) (st : KStream) (s : State) : Host.Outcome State Fault Refusal :=
  let x := getStream s tile st
  match (getTile s tile).suite with
  | none => ok s
  | some n =>
    let s1 := faultStream s tile st .kernelOverrun 0
    whenDo (tileRuns s tile && x.kernel.isSome && decide (x.duration + x.grace < kernelBells s x)) s
      (let s2 := updSuite s1 n (fun su => { su with slice := { su.slice with stopAfter := none } })
       if (getSuite s2 n).state = .running then setSuiteState s2 n .draining else s2)

end Sys2Proof.Machine
end

