-- ==== Sys2Proof/Machine/Checkers.lean ====
section
/-!
DEFINITION. Findings of the tile's SECDED code (rule R112), checker disagreements and their resolution (rules R122, R452 to R455,
R459 of 20_faults_checkers_and_signatures.md).
-/
namespace Sys2Proof.Machine

/-- A step is settled on a rank: complete, not poisoned, and every checker verdict of it given (rule R339). -/
def stepSettled (s : State) (n u : Nat) : Bool :=
  let su := getSuite s n
  (SMap.get {} su.steps u).complete
    && (match su.job.poisonedStep with
        | some p => decide (u < p)
        | none => true)
    && s.tiles.all (fun p => p.2.verdicts.all (fun v => !(v.place.suite == n && !v.place.eval && decide (v.place.step ≤ u))))
    && s.faults.resolutions.all (fun r => !(r.suite == n && !r.eval && decide (r.step ≤ u)))

/-- Checkpoints whose step is settled become complete, and CHECKPOINT_DONE reports each (rules R339, R441); with the one that carries it a
lineage break is recorded for good (rule R38). -/
def settleCheckpoints (s : State) (n : Nat) : State :=
  let su := getSuite s n
  let ready := su.checkpoints.filter (fun c => !c.complete && decide (c.header ≠ []) && stepSettled s n c.step)
  let told := ready.any (fun c => bit (fieldAt c.header 5 1) 0)
  let s1 := setSuite s n { su with
    checkpoints := su.checkpoints.map (fun c =>
      if !c.complete && decide (c.header ≠ []) && stepSettled s n c.step then { c with complete := true } else c)
    job := if told then { su.job with broken := none } else su.job }
  if ready = [] then s
  else ready.foldl (fun st c => suiteEvent st n 0x0480 (natLE c.step 4 ++ natLE 0 2 ++ natLE 0 2 ++ natLE c.id 4)) s1

/-- Settle the checkpoints of every suite. -/
def settleAll (s : State) : State := s.suites.foldl (fun st p => settleCheckpoints st p.1) s

/-- Modulus of the checker's residues (rule R120). -/
def checkP : Nat := 2 ^ 61 - 1

/-- Residue of an integer modulo P. -/
def residue (i : Int) : Nat := (i % (checkP : Int)).toNat

/-- Suite, step and instruction of a stream's present instruction. -/
def placeOf (s : State) (t : Nat) (k : KStream) (word : Nat) : OpPlace :=
  let tile := getTile s t
  let x := tile.core.stream k
  { suite := tile.suite.getD 0xFF, step := x.step, eval := tile.evalMode, word := word, kernel := x.kernel.getD 0xFFFF,
    occurrence := x.occurrence, instr := x.pc }

def OpPlaceOp (p : OpPlace) (k : KStream) : FaultOp :=
  { stream := k.idx, operation := p.word, kernelId := p.kernel, occurrence := p.occurrence, instrIndex := p.instr }

/-- Store addresses of the words in which a double-bit error was found (rule R112). -/
def poisonedWords (ecc : List EccHit) : List Nat :=
  ecc.filterMap (fun h => match h.double, h.site with
    | true, .store a => some (a / 8)
    | _, _ => none)

/-- Whether a finding is of an accumulator bank. -/
def bankHit (h : EccHit) : Bool :=
  match h.site with
  | .bank _ _ => true
  | _ => false

/-- Bank entries in which a double-bit error was found take the poisoned pattern (rules R82, R112). -/
def poisonEntries (c : TileCore) (ecc : List EccHit) : TileCore :=
  ecc.foldl (fun c h => match h.double, h.site with
    | true, .bank b e => { c with banks := SMap.modify {} c.banks b (fun x => { x with entries := SMap.set x.entries e AccForm.a192.poisoned }) }
    | _, _ => c) c

/-- A double-bit error of the store or a bank: a record against the tile, a poisoned step and a permanent-class event
(rules R112, R448, R457). -/
def tileSecded (s : State) (t : Nat) (p : OpPlace) (k : KStream) (h : EccHit) : State :=
  let idx := s.faults.next
  let loc := match h.site with
    | .store a => a
    | .bank b e => 16384 * b + e
    | .program => 0
  let sub := match h.site with
    | .bank b _ => b
    | _ => 0xFFFFFFFF
  let r : FaultRec := forSuite s p.suite p.step
    { unitClass := 0, unitIndex := t, subIndex := sub, cause := 0x0110, op := OpPlaceOp p k, domain := 0, attic := true, location := loc }
  signRecord (tileEvent (confirmFault (recordFault s r) p.suite p.step idx p.eval) t 0x0110 0 idx) idx false

/-- What the SECDED code found while an instruction read: corrected bits counted, double-bit errors recorded (rule R112). -/
def eccRead (s : State) (t : Nat) (k : KStream) (p : OpPlace) (ecc : List EccHit) : State :=
  let fixed := (ecc.filter (fun h => !h.double && decide (h.site ≠ .program))).length
  let s1 := countIbuf (updTile s t (fun x =>
    tileEvents { x with core := poisonEntries x.core ecc } fixed (fun c n => { c with tsCorrected := satAdd 16 c.tsCorrected n }))) t ecc
  (ecc.filter (fun h => h.double && decide (h.site ≠ .program))).foldl (fun st h => tileSecded st t p k h) s1

/-- Cause code of a checker's disagreement (rule R448). -/
def checkerCause (c : Checker) (lane : Bool) : Nat :=
  match c with
  | .me => 0x0100
  | .ve => if lane then 0x0103 else 0x0102
  | .cu => 0x0104

/-- Class codes of a resolved disagreement (rules R446, R455). -/
def clsTransient : Nat := 1
def clsPermanent : Nat := 2
def clsIntermittent : Nat := 3
def clsChecker : Nat := 4
def clsUnresolved : Nat := 5

/-- The Hall releases the halt of a tile: streams that have not faulted go on (rule R455). -/
def releaseHalt (s : State) (t : Nat) : State :=
  let go := fun (x : KState) => if x.fault = 0 then { x with halted := false, haltPending := false } else x
  updTile s t (fun x => { x with core := { x.core with f := go x.core.f, b := go x.core.b, u := go x.core.u } })

/-- A known-answer run of a tile falls due when no suite holds it (rule R455). -/
def karWhenFree (s : State) (t : Nat) : State :=
  updTile s t (fun x => { x with health := { x.health with karDue := true } })

/-- A record that the ring could not store is completed as if it stood there (rule R449). -/
def recallRecord (s : State) (kept : Option FaultRec) : State :=
  match kept with
  | some x => { s with faults := { s.faults with last := x } }
  | none => s

/-- End a resolution in a class (rules R453, R455): the record is completed, then the class acts. The poison of a step whose restore has
completed meanwhile went with its halt (rule R467). -/
def finishResolution (s0 : State) (r : Resolution) (cls : Nat) (values : List Nat) : State :=
  let s := recallRecord s0 r.kept
  let perm := cls == clsPermanent || cls == clsIntermittent || cls == clsChecker
  let s1 := updateFault s r.record (fun x => { x with cls := cls, owner := true, attic := perm, values := values, third := r.third })
  let s2 : State := { s1 with faults := countClass { s1.faults with
    resolutions := dropFirst (fun q => q.record == r.record) s1.faults.resolutions } { cls := cls, owner := true } }
  let s3 := if cls = clsChecker ∨ r.folded = true then s2 else confirmFault s2 r.suite r.step r.record r.eval
  let s4 := if perm then tileEvent s3 r.tile r.cause cls r.record else s3
  let s5 := if cls = clsPermanent ∨ cls = clsIntermittent then
      updSuite s4 r.suite (fun su => { su with excluded := if su.excluded.contains r.tile then su.excluded else su.excluded ++ [r.tile] })
    else if cls = clsChecker then
      (if s4.faults.resolutions.any (fun q => q.tile == r.tile) then s4 else releaseHalt s4 r.tile)
    else if cls = clsUnresolved then karWhenFree s4 r.tile
    else s4
  settleAll (signRecord s5 r.record false)

/-- A checker disagreement on a tile (rules R452, R453): the tile halts, a record is written, and the resolution begins. Causes
whose addends are not kept end at once as UNRESOLVED. -/
def disagree (s : State) (t : Nat) (k : KStream) (cause : Nat) (p : OpPlace) (values : List Nat) : State :=
  let s1 := updTile (haltTile s t) t (fun x => { x with counts := { x.counts with disagreements := satInc 16 x.counts.disagreements } })
  let idx := s1.faults.next
  let r : FaultRec := forSuite s1 p.suite p.step
    { unitClass := 0, unitIndex := t, cause := cause, op := OpPlaceOp p k, domain := 0, owner := false, values := values }
  let q : Resolution := { tile := t, cause := cause, value := values.getD 0 0, check := values.getD 1 0, suite := p.suite,
                          step := p.step, eval := p.eval, record := idx
                          kept := if (recordFault s1 r).faults.held.any (fun x => x.index == idx) then none
                            else some (recordFault s1 r).faults.last }
  let s2 := recordFault s1 r
  let s3 : State := { s2 with faults := { s2.faults with resolutions := s2.faults.resolutions ++ [q] } }
  if cause = 0x0101 ∨ cause = 0x0102 ∨ cause = 0x0105 then finishResolution s3 q clsUnresolved values else s3

/-- The oldest verdict of a checker still to come on a tile. -/
def nextVerdict (s : State) (t : Nat) (c : Checker) : Option Verdict :=
  (getTile s t).verdicts.find? (fun v => decide (v.checker = c))

def dropVerdict (s : State) (t id : Nat) : State :=
  updTile s t (fun x => { x with verdicts := dropFirst (fun v => v.id == id) x.verdicts })

/-- Add a verdict still to come and number it. -/
def addVerdict (s : State) (t : Nat) (v : Verdict) : State :=
  updTile s t (fun x => { x with verdicts := x.verdicts ++ [{ v with id := x.nextOp }], nextOp := x.nextOp + 1 })

/-- PASS_CHECK_VERDICT (rules R120 to R122): the two residues of the oldest completed pass are compared; `err` is how far a
fault has moved the sum of the cells. -/
def execPassCheckVerdict (tile : Nat) (err : Int) (s : State) : Host.Outcome State Fault Refusal :=
  match nextVerdict s tile .me with
  | none => ok s
  | some v =>
    let lhs := residue ((v.lhs : Int) + err)
    let s1 := dropVerdict s tile v.id
    ok (settleAll (if v.mismatch then disagree s1 tile v.issuer 0x0101 v.place [lhs, v.rhs]
      else if lhs ≠ v.rhs then disagree s1 tile v.issuer 0x0100 v.place [lhs, v.rhs] else s1))

/-- What a vector or conversion check observed, applied to the oldest instruction still to be checked. -/
def applyVerdict (s : State) (t : Nat) (c : Checker) (obs : CheckObs) : State :=
  match nextVerdict s t c with
  | none => s
  | some v =>
    let s1 := dropVerdict s t v.id
    match obs with
    | .agree => if v.mismatch then disagree s1 t v.issuer (checkerCause c false) v.place [] else s1
    | .reduction => disagree s1 t v.issuer (checkerCause c false) v.place []
    | .lane a b => if a = b then s1 else disagree s1 t v.issuer (checkerCause c true) v.place [a, b]

/-- VE_CHECK_VERDICT (rules R159 to R161). -/
def execVeCheckVerdict (tile : Nat) (obs : CheckObs) (s : State) : Host.Outcome State Fault Refusal :=
  ok (settleAll (applyVerdict s tile .ve obs))

/-- CVT_CHECK_VERDICT (rule R211): the duplicate converter compares elements only. -/
def execCvtCheckVerdict (tile : Nat) (obs : CheckObs) (s : State) : Host.Outcome State Fault Refusal :=
  ok (settleAll (applyVerdict s tile .cu (match obs with | .reduction => .agree | o => o)))

/-- The resolution in progress on a tile. -/
def resolutionOf (s : State) (t : Nat) : Option Resolution := s.faults.resolutions.find? (fun r => r.tile == t)

/-- Tiles of a device that a third run may use, in the order of rule R454: spares of the wing that no suite holds, then usable
tiles of the device that no suite holds. -/
def thirdTile (s : State) (t : Nat) : Option Nat :=
  let free := fun (i : Nat) =>
    let x := getTile s i
    wingPresent s (i / 10) && !x.health.retired && !x.health.disabled && !x.health.inReset && x.suite.isNone && i != t
  let held := fun (i : Nat) => s.suites.any (fun p => decide (p.2.state ≠ .absent) && p.2.res.tiles.contains i)
  let spares := (List.range 10).map (fun j => t / 10 * 10 + j)
  match spares.find? (fun i => free i && !(held i) && !(inService s i)) with
  | some i => some i
  | none => (List.range 80).find? (fun i => free i && !(held i))

/-- CHECK_REPEAT_COMPLETE (rule R453): the repeat on the same tile gives a value and a check. -/
def execCheckRepeatComplete (tile value check : Nat) (s : State) : Host.Outcome State Fault Refusal :=
  match resolutionOf s tile with
  | none => ok s
  | some r =>
    let vs := [r.value, r.check, value]
    whenDo r.third.isNone s
      (if check ≠ r.check then finishResolution s r clsUnresolved vs
       else if value = r.check then finishResolution s r clsTransient vs
       else if value ≠ r.value then finishResolution s r clsIntermittent vs
       else match thirdTile s tile with
         | none => finishResolution s r clsUnresolved vs
         | some b =>
           let s1 := updTile s b (fun x => { x with counts := { x.counts with thirdRuns := satInc 16 x.counts.thirdRuns } })
           { s1 with faults := { s1.faults with
               resolutions := s1.faults.resolutions.map (fun q => if q.record = r.record then { q with third := some b } else q) } })

/-- THIRD_RUN_COMPLETE (rule R453): the run on the borrowed tile decides by majority. -/
def execThirdRunComplete (tile value check : Nat) (s : State) : Host.Outcome State Fault Refusal :=
  match resolutionOf s tile with
  | none => ok s
  | some r =>
    let vs := [r.value, r.check, r.value, value]
    whenDo r.third.isSome s
      (if value ≠ check then finishResolution s r clsUnresolved vs
       else if value = r.check then finishResolution s r clsPermanent vs
       else if value = r.value then finishResolution s r clsChecker vs
       else finishResolution s r clsUnresolved vs)

/-- RESOLUTION_TIMEOUT (rule R453): 200 µs after the disagreement, an unfinished resolution is UNRESOLVED. -/
def execResolutionTimeout (tile : Nat) (s : State) : Host.Outcome State Fault Refusal :=
  match resolutionOf s tile with
  | none => ok s
  | some r => ok (finishResolution s r clsUnresolved [r.value, r.check])

/-- The third-run tile of a resolution is retired: the run ends, and the class is UNRESOLVED (rule R467). -/
def endThirdRuns (s : State) (t : Nat) : State :=
  (s.faults.resolutions.filter (fun r => r.third == some t)).foldl (fun st r => finishResolution st r clsUnresolved [r.value, r.check, r.value]) s

end Sys2Proof.Machine
end

