-- ==== Sys2Proof/Machine/Access.lean ====
section
/-!
DEFINITION. What every compute instruction reads and writes: tensors and scales by generation (rules R91, R98, R231), elements
of the tile store (rules R59, R116, R136), random words (rules R104 to R107), extent records and counts (rules R92 to R95),
bank entries (rules R82, R195).
-/
namespace Sys2Proof.Machine

/-- The setting an instruction runs in: suite, image, step of its draws, step of its generations, seed, and whether an
evaluation window runs. -/
structure Ctx where
  suite : Nat
  image : Image
  step : Nat
  gen : Nat
  eval : Bool
  seed : Nat

/-- The setting of a stream; a tile without a loaded suite has none. In a window that names step s, draws take step s and
generations are those of step s + 1 (rules R106, R231). -/
def ctxOf (s : State) (t : Nat) (k : KStream) : Option Ctx :=
  let tile := getTile s t
  match tile.suite with
  | none => none
  | some n =>
    let su := getSuite s n
    match su.image with
    | none => none
    | some im =>
      let w := (su.window.map (fun w => w.step)).getD 0
      let u := (tile.core.stream k).step
      some { suite := n, image := im, step := if tile.evalMode then w else u, gen := if tile.evalMode then w + 1 else u,
             eval := tile.evalMode, seed := su.job.seed }

/-- A tensor of the tensor table. -/
def ctxTensor (c : Ctx) (id : Nat) : Option Tensor :=
  if SMap.has c.image.tensors id then some (SMap.get {} c.image.tensors id) else none

/-- What a record holds for min until a number enters it: no decision reads it, since its amax is zero (rule R99). -/
def noMin : Nat := 0x7FFFFFFF

/-- What a rank reports of a tensor that it did not write in a step, so that its domain's merge can complete: no extent word of a written tensor has
this min beside a zero amax (notes/assumptions/24.md). -/
def absentRecord (step : Nat) : ScaleRecord := ⟨step, 0, noMin, 0, []⟩
def isAbsent (r : ScaleRecord) : Bool := r.amax == 0 && r.min == noMin && r.sat == 0

/-- Whether a tensor was written in step `u`, as far as the rank knows (rule R91). -/
def wroteIn (s : State) (n id u : Nat) : Bool :=
  let a := SMap.get {} (getSuite s n).steps u
  SMap.has a.recs id || (SMap.has a.merged id && !(isAbsent (SMap.get (absentRecord u) a.merged id)))

/-- Which tensor's entry gives the scale of a tensor: an EVAL tensor may name a training tensor (rule R231). -/
def scaleEntryId (c : Ctx) (id : Nat) (x : Tensor) : Nat := if c.eval && x.role == 7 && x.scaleSource then x.source else id

/-- The scale a CURRENT reference or a write takes; none where the step is not yet decided (rules R91, R98). -/
def scaleCurrent (s : State) (c : Ctx) (id : Nat) (x : Tensor) : Option GenScale :=
  if x.fmt = .b32 then some {}
  else
    let su := getSuite s c.suite
    let e := scaleEntryId c id x
    if SMap.has su.scale e then
      let se := SMap.get ⟨0, .q8a, false, false, false, 1, 0, 0, 0, 0, 1, 0, 0, 0, 0, [], [], [], {}, {}⟩ su.scale e
      if e ≠ id then some (se.earlierScale c.gen (wroteIn s c.suite e (c.gen - 1))) else se.writeScale c.gen
    else some {}

/-- The scale an EARLIER reference takes (rule R91). -/
def scaleEarlier (s : State) (c : Ctx) (id : Nat) (x : Tensor) : GenScale :=
  if x.fmt = .b32 then {}
  else
    let su := getSuite s c.suite
    let e := scaleEntryId c id x
    if SMap.has su.scale e then
      let se := SMap.get ⟨0, .q8a, false, false, false, 1, 0, 0, 0, 0, 1, 0, 0, 0, 0, [], [], [], {}, {}⟩ su.scale e
      se.earlierScale c.gen (wroteIn s c.suite e (c.gen - 1))
    else {}

/-- The scale of the generation a reference names: 0 CURRENT, 1 EARLIER. -/
def scaleOf (s : State) (c : Ctx) (id : Nat) (x : Tensor) (g : Nat) : Option GenScale :=
  if g = 1 then some (scaleEarlier s c id x) else scaleCurrent s c id x

/-- The exponent of one channel, or the tensor's. -/
def GenScaleAt (g : GenScale) (chan : Option Nat) : Int :=
  match chan with
  | some c => if g.ch = [] then g.s else g.ch.getD c g.s
  | none => g.s

/-- The code table of a tensor (rule R57). -/
def tensorTable (x : Tensor) : List Nat := if x.defaultTable then defaultQ4Table else x.codeTable

/-- The code of `width` bits at a byte address and, for four bits, a nibble (rule R59). -/
def codeAt (m : Memory) (f : Fmt) (addr nib : Nat) : Nat :=
  match f with
  | .q4w | .q4a => bits (Memory.read m addr).toNat (4 * nib) 4
  | .q8w | .q8a => (Memory.read m addr).toNat
  | .h16 => leNat (Memory.readN m addr 2)
  | .b32 => leNat (Memory.readN m addr 4)

/-- Write a code; four bits leave the other nibble. -/
def setCode (m : Memory) (f : Fmt) (addr nib code : Nat) : Memory :=
  match f with
  | .q4w | .q4a =>
    let b := (Memory.read m addr).toNat
    Memory.write m addr (BitVec.ofNat 8 (if nib = 0 then b / 16 * 16 + code % 16 else b % 16 + 16 * (code % 16)))
  | .q8w | .q8a => Memory.write m addr (BitVec.ofNat 8 code)
  | .h16 => Memory.writeN m addr (natLE code 2)
  | .b32 => Memory.writeN m addr (natLE code 4)

/-- Address and nibble of the element at offset `o` from a base (rule R136). -/
def linearAt (f : Fmt) (base : Int) (o : Int) : Int × Nat :=
  match f with
  | .q4w | .q4a => (base + o / 2, (o % 2).toNat)
  | .q8w | .q8a => (base + o, 0)
  | .h16 => (base + 2 * o, 0)
  | .b32 => (base + 4 * o, 0)

/-- Bytes of one element, at least one. -/
def elemBytes (f : Fmt) : Nat := max 1 (f.bits / 8)

/-- Whether an element at an address lies in the tile store (rule R110). -/
def inStore (f : Fmt) (addr : Int) : Bool := decide (0 ≤ addr) && decide (addr + elemBytes f ≤ 0x800000)

/-- The value of a stored element before its scale, and whether reading it sets SAT; a word with a double-bit error reads as
POISON (rules R60, R112). -/
def elemValue (m : Memory) (pw : List Nat) (x : Tensor) (z : Nat) (addr nib : Nat) : Value × Bool :=
  if pw.contains (addr / 8) then (.poison, false) else codeValue x.fmt (tensorTable x) z (codeAt m x.fmt addr nib)

/-- The random word of a stochastic rounding (rules R104, R106, R107): purpose SR, or EVAL in a window. -/
def srWord (c : Ctx) (tensor elem : Nat) : Nat :=
  (generator c.seed elem tensor c.step (if c.eval then 3 else 1)).word 0

/-- What a conversion site hands to the record of a tensor in a step (rules R92, R95). -/
structure Extent where
  amax : Nat := 0
  min : Nat := 0
  any : Bool := false
  sat : Nat := 0
  channels : SMap Nat := []

/-- Enter one source value into an extent (rule R92): POISON is excluded. -/
def enterExtent (e : Extent) (v : Value) (chan : Option Nat) : Extent :=
  match v with
  | .poison => e
  | .num d _ =>
    let a := amaxWord d
    let mn := minWord d
    let ch := match chan with
      | some j => SMap.modify 0 e.channels j (fun o => max o a)
      | none => e.channels
    { e with amax := max e.amax a, min := if e.any then extentMin e.min mn else mn, any := true, channels := ch }

/-- Add an extent to the step's record of a tensor (rules R90, R92, R95): a tensor written in the step has a record, even one
whose sources were all POISON. Without TRACK only the saturations enter it (rule R208), and are counted apart too. -/
def recordExtent (s : State) (c : Ctx) (id : Nat) (x : Tensor) (e0 : Extent) (track wrote : Bool) : State :=
  let e : Extent := if track then e0 else { sat := e0.sat }
  if c.eval || !wrote then s
  else
    updStep s c.suite c.step (fun a =>
      let chs := if x.perChannel then (List.range x.channels).map (fun j => SMap.get 0 e.channels j) else []
      let mn := if x.fmt.isAct then (if e.any then e.min else noMin) else 0
      let r : ScaleRecord := ⟨c.step, e.amax, mn, e.sat, chs⟩
      let r1 := if SMap.has a.recs id then (SMap.get r a.recs id).merge r else r
      { a with recs := SMap.set a.recs id r1
               sats := if track then a.sats else SMap.modify 0 a.sats id (fun n => satAdd 32 n e.sat) })

/-- Channel of a logical element index: its coordinate on the channel axis (rule R208). -/
def channelOf (x : Tensor) (idx : Nat) : Option Nat :=
  if x.perChannel then
    let inner := (x.shape.drop (x.chAxis + 1)).foldl (· * ·) 1
    some (idx / inner % (x.shape.getD x.chAxis 1))
  else none

/-- A tile's bank. -/
def getBank (c : TileCore) (b : Nat) : Bank := SMap.get {} c.banks b
def setBank (c : TileCore) (b : Nat) (x : Bank) : TileCore := { c with banks := SMap.set c.banks b x }

/-- Value of a bank entry with its column's base exponent; an unset column counts as zero (rules R83, R195). -/
def entryValue (b : Bank) (e : Nat) : Int × Int := (SMap.get 0 b.entries e, SMap.get 0 b.bases (e % 128))

/-- Add to a bank entry; zero entries are unlisted (rules R82, R195). -/
def addEntry (b : Bank) (e : Nat) (v : Int) : Bank :=
  let n := accAdd .a192 (SMap.get 0 b.entries e) v
  { b with entries := if n = 0 then SMap.erase b.entries e else SMap.set b.entries e n }

/-- Queued BANK transfers of a tile's inbound or outbound landings that name a bank. -/
def bankTransfers (s : State) (t b : Nat) (outbound : Bool) : List Transfer :=
  (if outbound then [2, 3] else [0, 1]).flatMap (fun l =>
    (getLanding s t l).queue.filter (fun y => y.layout == 2 && y.tsBase / 16384 == b))

/-- Merges into a bank that have not all arrived, and raw transfers out of it that have not read it whole (rules R87, R118). -/
def bankMerges (s : State) (t b : Nat) : List Transfer := bankTransfers s t b false
def bankReads (s : State) (t b : Nat) : List Transfer := (bankTransfers s t b true).filter (fun y => decide (y.started < y.count))

/-- Whether a pass or a merge into a bank is outstanding: a readout or a direct read waits for it (rules R87, R118). -/
def bankBusy (s : State) (t b : Nat) : Bool := (getTile s t).passes.any (fun p => p.bank == b) || !(bankMerges s t b).isEmpty

/-- Tile faults of an instruction whose descriptor or record does not suit it (rules R164, R186). -/
abbrev Check (α : Type) := Except KFault α

/-- Take a record of a table or fault with DESC_RANGE (rule R164). -/
def needRec {α : Type} (t : List α) (i : Nat) : Check α :=
  match tableGet t i with
  | some x => .ok x
  | none => .error .descRange

/-- A descriptor of a given KIND (rule R167). -/
def needDesc (t : List Desc) (i kind : Nat) : Check Desc :=
  match tableGet t i with
  | some d => if d.kind = kind then .ok d else .error .descRange
  | none => .error .descRange

/-- A tensor of the table (rule R164). -/
def needTensor (c : Ctx) (id : Nat) : Check Tensor :=
  match ctxTensor c id with
  | some x => .ok x
  | none => .error .descRange

/-- A condition, or a fault. -/
def require (b : Bool) (f : KFault) : Check Unit := if b then .ok () else .error f

end Sys2Proof.Machine
end

