-- ==== Sys2Proof/Machine/Convert.lean ====
section
/-!
DEFINITION. The conversion unit: `cvt` and `dig` (rules R205 to R213 of 09_compute_instructions.md).
-/
namespace Sys2Proof.Machine

/-- Whether a conversion path from a source format to a target exists (rules R70, R206). -/
def cvtPath (src : Nat) (from' : Option Fmt) (x : Tensor) : Bool :=
  let progQ4 := x.fmt == .q4w && !x.defaultTable
  !progQ4 &&
    (match src, from' with
     | 2, _ => x.fmt == .h16 || x.fmt == .b32
     | 1, some .h16 => x.fmt != .h16
     | _, _ => true)

/-- Bytes that `n` linear elements of a format take (rules R59, R207). -/
def linearBytes (f : Fmt) (n : Nat) : Nat := (n * f.bits + 7) / 8

/-- A block of a tensor as it is hashed: the bytes past the tensor's end and the padding nibble of an odd number of 4-bit elements count as
zero (rules R43, R59). -/
def hashedBytes (x : Option Tensor) (block : Nat) (bs : Bytes) : Bytes :=
  match x with
  | none => bs
  | some x =>
    let n := x.shape.foldl (· * ·) 1
    let size := linearBytes x.fmt n
    let odd := x.fmt.bits == 4 && n % 2 == 1
    bs.zipIdx.map (fun p =>
      let a := 64 * block + p.2
      if size ≤ a then 0#8 else if odd ∧ a + 1 = size then p.1 &&& 0x0F#8 else p.1)

/-- Where the elements of a `cvt` come from. -/
inductive CvtSource where
  | bank (b first : Nat)
  | tensor (base : Nat) (id : Nat) (x : Tensor) (g : GenScale)
  | raw (base : Nat)

/-- What a `cvt` works with once checked. -/
structure CvtSetup where
  src : CvtSource
  base : Nat
  id : Nat
  x : Tensor
  g : GenScale
  coords : Option (CoordRec × List LoopFrame)

/-- Bytes that a `cvt` writes (rule R207). -/
def cvtBytes (o : CvtOp) (f : Fmt) : Nat :=
  if o.stripe then (o.cols + stripeGroup f - 1) / stripeGroup f * stripeSize f else linearBytes f (o.rows * o.cols)

/-- Whether two regions overlap. -/
def overlaps (a n b m : Nat) : Bool := decide (a < b + m) && decide (b < a + n)

/-- Where the elements of a `cvt` come from, whether its source suits it (DESC_RANGE), whether the combination is admitted (ILLEGAL) and
whether the tile store holds what it reads (TS_RANGE); the inner none where a scale is not yet decided (rules R164, R206, R208). -/
structure CvtFrom where
  src : Option CvtSource
  suits : Bool
  legal : Bool
  inStore : Bool

def cvtFrom (s : State) (c : Ctx) (prog : StreamProg) (loops : List LoopFrame) (o : CvtOp) (x : Tensor) (coords : Bool) (db : Int) (size : Nat) :
    Check CvtFrom := do
  let n := o.rows * o.cols
  match o.src with
  | 0 =>
    let sd ← needDesc prog.descs o.sDesc 2
    let sb := descEff sd loops
    .ok { src := some (.bank (sb.toNat / 16384) (sb.toNat % 16384))
          suits := decide (0 ≤ sb) && decide (sb < 65536) && decide (sb % 16384 / 128 + o.rows ≤ 128) && cvtPath 0 none x
          legal := descAligned sd && sb % 128 == 0, inStore := true }
  | 1 =>
    let sd ← needDesc prog.descs o.sDesc 0
    let y ← needTensor c sd.tensor
    let sb := descEff sd loops
    .ok { src := (scaleOf s c sd.tensor y o.gen).map (fun h => .tensor sb.toNat sd.tensor y h)
          suits := cvtPath 1 (some y.fmt) x
          legal := sb % ((elemBytes y.fmt : Nat) : Int) == 0 && !(y.perChannel && (!coords || y.shape != x.shape))
            && !(overlaps sb.toNat (linearBytes y.fmt n) db.toNat size)
          inStore := decide (0 ≤ sb) && decide (sb + (linearBytes y.fmt n : Nat) ≤ 0x800000) }
  | _ =>
    let sd ← needDesc prog.descs o.sDesc 0
    let sb := descEff sd loops
    .ok { src := some (.raw sb.toNat), suits := sd.tensor == 0xFFFFFF && cvtPath 2 none x
          legal := sb % 8 == 0 && !(overlaps sb.toNat (40 * n) db.toNat size)
          inStore := decide (0 ≤ sb) && decide (sb + (40 * n : Nat) ≤ 0x800000) }

/-- The checks of a `cvt`, which give one code (rule R164); none where a scale is not yet decided (rules R98, R206 to R208). -/
def cvtSetup (s : State) (c : Ctx) (prog : StreamProg) (loops : List LoopFrame) (o : CvtOp) : Check (Option CvtSetup) := do
  let dd ← needDesc prog.descs o.dDesc 0
  let x ← needTensor c dd.tensor
  let db := descEff dd loops
  let coords ← (if o.cDesc = 0x3FF then .ok none else do
    let r ← needRec prog.coords o.cDesc
    .ok (some (r, loops)))
  let size := cvtBytes o x.fmt
  let f ← cvtFrom s c prog loops o x coords.isSome db size
  require (f.suits && (coords.map (fun r => r.1.tensor == dd.tensor)).getD true) .descRange
  require (f.legal && !(o.stripe && x.fmt == .b32)
    && db % ((if o.stripe then stripeSize x.fmt else elemBytes x.fmt : Nat) : Int) == 0
    && !(x.managed && !o.track) && !(x.fmt == .b32 && o.track) && (o.sr || x.role != 2) && !(x.perChannel && coords.isNone)) .illegal
  require (f.inStore && decide (0 ≤ db) && decide (db + (size : Nat) ≤ 0x800000)) .tsRange
  match f.src, scaleCurrent s c dd.tensor x with
  | some src, some g => .ok (some ⟨src, db.toNat, dd.tensor, x, g, coords⟩)
  | _, _ => .ok none

/-- Logical index of element `l` (rules R190, R208). -/
def cvtIndex (u : CvtSetup) (l : Nat) : Option Nat := u.coords.map (fun c => coordIndex c.1 c.2 l)

/-- The bank that a `cvt` from a bank names, whose token it needs before anything else is checked (rule R210). -/
def cvtBank (prog : StreamProg) (loops : List LoopFrame) (o : CvtOp) : Option Nat :=
  if o.src = 0 then
    match needDesc prog.descs o.sDesc 2 with
    | .ok d => some ((descEff d loops).toNat / 16384 % 4)
    | .error _ => none
  else none

/-- Source value of element (i, j), and whether reading it sets SAT (rules R86, R206). -/
def cvtValue (core : TileCore) (pw : List Nat) (u : CvtSetup) (cols i j : Nat) : Value × Bool :=
  let l := i * cols + j
  match u.src with
  | .bank b first =>
    let e := entryValue (getBank core b) (first + 128 * i + j)
    (accValue .a192 e.1 e.2, false)
  | .tensor base _ y g =>
    let a := linearAt y.fmt base l
    let v := elemValue core.store pw y g.z a.1.toNat a.2
    let chan := (cvtIndex u l).bind (channelOf y)
    (if y.fmt = .b32 then v.1 else v.1.scale (GenScaleAt g chan), v.2)
  | .raw base =>
    if (List.range 5).any (fun w => pw.contains (base / 8 + 5 * l + w)) then (.poison, false)
    else (accValue .a320 (accOfRaw .a320 (Memory.readN core.store (base + 40 * l) 40)) 0, false)

/-- Address and nibble at which element (i, j) is written (rule R207). -/
def cvtPlace (o : CvtOp) (u : CvtSetup) (i j : Nat) : Nat × Nat :=
  let f := u.x.fmt
  if o.stripe then
    let g := stripeGroup f
    let pos := j % g
    let row := u.base + j / g * stripeSize f + i * stripeRow f
    match f with
    | .q4w | .q4a => (row + pos / 2, pos % 2)
    | .h16 => (row + 2 * pos, 0)
    | _ => (row + pos, 0)
  else
    let a := linearAt f u.base (i * o.cols + j : Nat)
    (a.1.toNat, a.2)

/-- One element: memory, extent, flags (rules R92, R95, R210). -/
def cvtElement (c : Ctx) (core : TileCore) (pw : List Nat) (o : CvtOp) (u : CvtSetup) (acc : Memory × Extent × Flags) (l : Nat) :
    Memory × Extent × Flags :=
  let i := l / o.cols
  let j := l % o.cols
  let v := cvtValue core pw u o.cols i j
  let e := cvtIndex u l
  let mode := if o.sr then Rounding.sr (srWord c u.id (e.getD 0)) else .rne
  let chan := e.bind (channelOf u.x)
  let k := convert v.1 u.x.fmt mode (GenScaleAt u.g chan) u.g.z
  let a := cvtPlace o u i j
  (setCode acc.1 u.x.fmt a.1 a.2 k.code,
   { enterExtent acc.2.1 v.1 chan with sat := if k.sat then acc.2.1.sat + 1 else acc.2.1.sat },
   orFlags acc.2.2 { sat := k.sat || v.2, poison := k.poison })

/-- The bytes after the tensor's last element, to the end of its block, where this `cvt` writes that element: address and number (rule R43).
Without a coordinate record it does where it writes the whole tensor (DEDUCED, assumption 56). -/
def cvtTail (o : CvtOp) (u : CvtSetup) : Nat × Nat :=
  let n := u.x.shape.foldl (· * ·) 1
  let pad := (linearBytes u.x.fmt n + 63) / 64 * 64 - linearBytes u.x.fmt n
  let at' := match u.coords with
    | none => if o.rows * o.cols = n then some (n - 1) else none
    | some _ => (List.range (o.rows * o.cols)).find? (fun l => decide (cvtIndex u l = some (n - 1)))
  match at' with
  | none => (0, 0)
  | some l => if o.stripe then (0, 0) else
    let a := u.base + linearBytes u.x.fmt (l + 1)
    (a, min pad (0x800000 - a))

/-- CVT (rule R210): elements and padding are written, then a bank is cleared (rule R209). -/
def execCvt (tile : Nat) (st : KStream) (ecc : List EccHit) (s : State) : Host.Outcome State Fault Refusal :=
  ok (issueAs s tile st (fun i w =>
    match i with
    | .cvt o =>
      match ctxOf s tile st with
      | none => some s
      | some c =>
        let x := getStream s tile st
        if !(holds s tile st tokCU) then some (faultStream s tile st .ownership w)
        else if programLost ecc then some (faultStream s tile st .ifetchEcc w)
        else
          let prog := tileProgram s tile st
          let bank := cvtBank prog x.loops o
          let bankNo := bank.getD 0
          if bank.isSome && !(holds s tile st (tokBK bankNo)) then some (faultStream s tile st .ownership w)
          else
          match cvtSetup s c prog x.loops o with
          | .error f => some (faultStream s tile st f w)
          | .ok none => some (stallAt s tile st 5)
          | .ok (some u) =>
            if bank.isSome && bankBusy s tile bankNo || o.clr && !(bankReads s tile bankNo).isEmpty then some s
            else
              let pl := placeOf s tile st w
              let s1 := eccRead s tile st pl ecc
              let core := (getTile s1 tile).core
              let tail := cvtTail o u
              let m0 := Memory.clear (Memory.clear core.store u.base (cvtBytes o u.x.fmt)) tail.1 tail.2
              let r := (List.range (o.rows * o.cols)).foldl (cvtElement c core (poisonedWords ecc) o u) (m0, {}, {})
              let core1 : TileCore := { core with store := r.1 }
              let core2 := if o.clr then setBank core1 bankNo {} else core1
              let s2 := updTile s1 tile (fun y => { y with core := core2 })
              let s3 := recordExtent s2 c u.id u.x r.2.1 o.track true
              let s4 := addVerdict (raiseFlags s3 tile st r.2.2) tile { checker := .cu, issuer := st, place := pl }
              some (advance s4 tile st)
    | _ => none))

/-- Add a block's hash to a sum of digests (rule R42). -/
def addDigest (m : SMap Nat) (id h : Nat) : SMap Nat := SMap.modify 0 m id (fun d => (d + h) % 2 ^ 128)

/-- The checks of a `dig` (rules R164, R213): base, tensor and logical index of the first block. -/
def digSetup (c : Ctx) (prog : StreamProg) (loops : List LoopFrame) (count sDesc cDesc : Nat) : Check (Nat × Nat × Nat) := do
  let d ← needDesc prog.descs sDesc 0
  let r ← needRec prog.coords cDesc
  let base := descEff d loops
  require (d.tensor != 0xFFFFFF && (ctxTensor c d.tensor).isSome) .descRange
  require (r.tensor == d.tensor && r.w == 1 && r.pitch == 0) .descRange
  require (base % 64 == 0) .illegal
  require (decide (0 ≤ base) && decide (base + (64 * count : Nat) ≤ 0x800000)) .tsRange
  .ok (base.toNat, d.tensor, (coordEff r loops).toNat)

/-- DIG (rule R213): block hashes join the content digest; a block with a double-bit error gives a free value. -/
def execDig (tile : Nat) (st : KStream) (ecc : List EccHit) (s : State) : Host.Outcome State Fault Refusal :=
  ok (issueAs s tile st (fun i w =>
    match i with
    | .dig count sDesc cDesc =>
      match ctxOf s tile st with
      | none => some s
      | some c =>
        let prog := tileProgram s tile st
        let loops := (getStream s tile st).loops
        if !(holds s tile st tokCU) then some (faultStream s tile st .ownership w)
        else if programLost ecc then some (faultStream s tile st .ifetchEcc w)
        else
          match digSetup c prog loops count sDesc cDesc with
          | .error f => some (faultStream s tile st f w)
          | .ok (base, id, e0) =>
            let s1 := eccRead s tile st (placeOf s tile st w) ecc
            let pw := poisonedWords ecc
            let m := (getTile s1 tile).core.store
            let h := (List.range count).foldl (fun acc i =>
              let a := base + 64 * i
              let bad := (List.range 8).any (fun j => pw.contains (a / 8 + j))
              let bs := hashedBytes (ctxTensor c id) (e0 + i) (Memory.readN m a 64)
              (acc + (if bad then Config.freeNat 2 s1.free else blockHash bs id (e0 + i))) % 2 ^ 128) 0
            let s2 : State := { s1 with free := s1.free + 1 }
            let s3 := if c.eval then
                updSuite s2 c.suite (fun su => { su with window := su.window.map (fun v => { v with digests := addDigest v.digests id h }) })
              else updStep s2 c.suite c.step (fun a => { a with content := addDigest a.content id h })
            some (advance s3 tile st)
    | _ => none))

end Sys2Proof.Machine
end

