-- ==== Sys2Proof/Machine/Memory.lean ====
section
/-!
DEFINITION. The memory of the wings: errors, scrubbing, row repair, temperature and refresh, the wing cache (rules R235 to R257 of
11_memory_and_landings.md).
-/
namespace Sys2Proof.Machine

/-- A SUPPLY event (rule R401): what happened and the episode's lowest voltage. -/
def supplyEvent (s : State) (kind : Nat) : State := deviceEvent s 0x0980 (natLE kind 1 ++ natLE 0 3 ++ natLE s.cup.minMv 4)

/-- The Cupola sets THROTTLE (rule R502): the event is posted at the set only. -/
def raiseThrottle (s : State) : State :=
  if s.cup.throttle then s
  else supplyEvent { s with cup := { s.cup with throttle := true, throttles := satInc 8 s.cup.throttles } } 2

/-- Bells of 24 hours: a bell is one microsecond (rule R344). -/
def bellsPerDay : Nat := 86400000000

/-- Wing of a pseudo-channel (rule R235). -/
def wingOfPc (pc : Nat) : Nat := pc / 64

/-- Row and bank of a local address: rows of 1,024 bytes over 64 banks (notes/assumptions/10.md). -/
def rowOf (addr : Nat) : Nat := addr / 1024
def bankOfRow (row : Nat) : Nat := row % 64

/-- Key of a bank's spare rows, and the spares left in it; how many a bank starts with is a free value. -/
def spareKey (pc row : Nat) : Nat := pc * 64 + bankOfRow row
def sparesLeft (s : State) (pc row : Nat) : Nat :=
  SMap.get (Config.freeNat 3 (wingOfPc pc)) (getWing s (wingOfPc pc)).spares (spareKey pc row)

/-- The suite that owns a pseudo-channel. -/
def suiteOfPc (s : State) (pc : Nat) : Option Nat :=
  (s.suites.find? (fun p => decide (p.2.state ≠ .absent) && p.2.res.pcs.contains pc)).map (fun p => p.1)

/-- Mark a row for online repair (rules R240, R242): a row that newly needs repair is an event of the pseudo-channel (rule R457). -/
def markRow (s : State) (pc row idx : Nat) : State :=
  let w := getWing s (wingOfPc pc)
  if w.needRepair.contains (pc, row) then s
  else pcEvent (setWing s (wingOfPc pc) { w with needRepair := w.needRepair ++ [(pc, row)] }) pc 0 idx

/-- Zero the 64 bytes of an access: its data is lost (rules R240, R243, R250). -/
def zeroAccess (s : State) (pc addr : Nat) : State :=
  { s with hbm := Memory.clear s.hbm (hbmKey pc (addr / 64 * 64)) 64 }

/-- A corrected error (rules R239, R242): counted; a second address of the row within 24 hours marks the row. -/
def correctedError (s : State) (pc addr : Nat) : State :=
  let wn := wingOfPc pc
  let w := getWing s wn
  let a := addr / 64 * 64
  let recent := w.ceHistory.filter (fun h => decide (s.bell.count < h.2.2 + bellsPerDay))
  let other := recent.any (fun h => h.1 == pc && h.2.1 != a && rowOf h.2.1 == rowOf a)
  let s1 := setWing s wn { wingEvents w 1 (fun x n => { x with ce := SMap.modify 0 x.ce (pc % 64) (satAdd 24 · n) }) with
    ceHistory := (recent.filter (fun h => !(h.1 == pc && h.2.1 == a))) ++ [(pc, a, s.bell.count)] }
  if other then markRow s1 pc (rowOf a) 0xFFFFFFFF else s1

/-- Whether the access already stands recorded as lost and its row waits for repair (rule R256). -/
def alreadyLost (s : State) (pc a step : Nat) : Bool :=
  (getWing s (wingOfPc pc)).needRepair.contains (pc, rowOf a) &&
    s.faults.held.any (fun r => r.unitClass == 3 && r.unitIndex == pc && r.location == a && r.step == step)

/-- The record of an uncorrectable error (rules R240, R241): one record against the pseudo-channel, the row is marked, and the owning
suite's step is poisoned. -/
def reportLost (s : State) (pc addr cause step : Nat) (op : FaultOp) (eval : Bool) : State :=
  let a := addr / 64 * 64
  let s0 := updWing s (wingOfPc pc) (fun w => { w with ue := SMap.modify 0 w.ue (pc % 64) (satInc 7) })
  if alreadyLost s pc a step then s0
  else
    let idx := s0.faults.next
    let base : FaultRec := { unitClass := 3, unitIndex := pc, subIndex := rowOf a, cause := cause, op := op, domain := 2, attic := true,
                             location := a }
    match suiteOfPc s0 pc with
    | some n =>
      let s1 := pcEvent (recordFault s0 (forSuite s0 n step base)) pc cause idx
      signRecord (confirmFault (markRow s1 pc (rowOf a) idx) n step idx eval) idx false
    | none => signRecord (markRow (pcEvent (recordFault s0 base) pc cause idx) pc (rowOf a) idx) idx false

/-- An uncorrectable error of a read (rule R240): its 64 bytes are delivered as zero, and it is reported. -/
def uncorrectable (s : State) (pc addr cause step : Nat) (op : FaultOp) (eval : Bool) : State :=
  reportLost (zeroAccess s pc (addr / 64 * 64)) pc addr cause step op eval

/-- Pseudo-channel and local address that a cache line holds: a line is one granule, numbered by its key over 512 (rule R247). -/
def linePc (line : Nat) : Nat := 512 * line / 2 ^ 31
def lineLocal (line : Nat) : Nat := 512 * line % 2 ^ 31

/-- A double-bit error in a dirty line (rule R250): 64 bytes are lost and a record names the way and set. -/
def cacheDirtyLost (s : State) (wing line way off step : Nat) (op : FaultOp) (eval : Bool) : State :=
  let pc := linePc line
  let a := lineLocal line + off / 64 * 64
  let s0 := updWing (zeroAccess s pc a) wing (fun w => { w with cacheDirtyUe := satInc 16 w.cacheDirtyUe })
  let idx := s0.faults.next
  let base : FaultRec := { unitClass := 5, unitIndex := wing, subIndex := 6144 * way + line % 6144, cause := 0x0210, op := op, domain := 1,
                           location := a }
  match suiteOfPc s0 pc with
  | some n => signRecord (confirmFault (recordFault s0 (forSuite s0 n step base)) n step idx eval) idx false
  | none => recordFault s0 base

/-- Whether a wing's cache holds a line of its own stack, dirty or clean as asked (rules R246, R250). -/
def holdsLine (s : State) (w line : Nat) (dirty : Bool) : Bool :=
  decide (w < 8) && wingOfPc (linePc line) == w && (match (getWing s w).lines.find? (fun l => l.1 == line) with
    | some l => l.2.dirty == dirty
    | none => false)

/-- Count a corrected error of the cache, or a clean line that it gave up (rules R250, R361). -/
def correctedInCache (x : Wing) : Wing := wingEvents x 1 (fun y n => { y with cacheCorrected := satAdd 16 y.cacheCorrected n })

/-- What the memory system observed on an access of a step (rules R239, R240, R242, R250). -/
def memObs (s : State) (step : Nat) (op : FaultOp) (eval : Bool) (cause : Nat) (o : MemObs) : State :=
  match o with
  | .corrected pc addr => if pc < 512 then correctedError s pc addr else s
  | .uncorrectable pc addr => if pc < 512 then uncorrectable s pc addr cause step op eval else s
  | .cacheCorrected w => if w < 8 then updWing s w correctedInCache else s
  | .cacheCleanUe w line =>
    if holdsLine s w line false then
      updWing s w (fun x => correctedInCache { x with lines := SMap.erase x.lines line })
    else s
  | .cacheDirtyUe w line way off => if holdsLine s w line true then cacheDirtyLost s w line way off step op eval else s

/-- Whether an observation falls on a pseudo-channel of a suite. -/
def obsOfSuite (s : State) (n : Nat) (o : MemObs) : Bool :=
  let mine := fun (pc : Nat) => (getSuite s n).res.granted.contains pc
  match o with
  | .corrected pc _ => mine pc
  | .uncorrectable pc _ => mine pc
  | .cacheCorrected _ => true
  | .cacheCleanUe _ line => mine (linePc line)
  | .cacheDirtyUe _ line _ _ => mine (linePc line)

/-- What a read of a suite's memory by another than a landing met: the Hall, the save engine, an instruction fetch, a host command
(rule R240). Its step is the suite's current step. -/
def readObs (s : State) (n : Nat) (obs : List MemObs) : State :=
  let eval := ((getSuite s n).window.map (fun w => w.started)).getD false
  (obs.filter (obsOfSuite s n)).foldl (fun st o => memObs st (lowestStep st n) {} eval 0x0200 o) s

/-- Ways of a wing that a suite owns (rule R248). -/
def waysOwned (x : Wing) (n : Nat) : Nat := (x.wayOwner.filter (fun p => p.2 == n)).length

/-- The set of a line (rule R247): which one is no part of the contract, and a free value. -/
def setOf (line : Nat) : Nat := Config.freeNat 14 line % 6144

/-- The line used longest ago. -/
def leastUsed (ls : SMap CacheLine) : Option Nat :=
  (ls.foldl (fun (best : Option (Nat × Nat)) l => match best with
    | none => some (l.1, l.2.used)
    | some b => if l.2.used < b.2 then some (l.1, l.2.used) else best) none).map (fun b => b.1)

/-- Make room for a line in the ways of suite `n` (rule R247): where they are full in its set, the line used longest ago is evicted, and
written back where it is dirty (rule R251), which changes no byte. -/
def makeLineRoom (s : State) (x : Wing) (n line : Nat) : Wing :=
  let mine := x.lines.filter (fun l => (getSuite s n).res.granted.contains (linePc l.1) && setOf l.1 == setOf line)
  if mine.length < waysOwned x n then x
  else
    match leastUsed mine with
    | some old => { x with lines := SMap.erase x.lines old }
    | none => x

/-- `count` 64-byte accesses touch a line (rules R247 to R249, R533): under NORMAL a miss allocates, a write makes the line dirty and a hit
updates the order of use; under STREAM only a line that is there is touched. -/
def touchLine (s : State) (n key count : Nat) (streamPolicy write : Bool) : State :=
  let line := key / 512
  let w := wingOfPc (linePc line)
  let x := getWing s w
  if SMap.has x.lines line then
    let l := SMap.get {} x.lines line
    setWing s w { x with hits := satAdd 32 x.hits count, uses := x.uses + 1
                         lines := SMap.set x.lines line { dirty := l.dirty || write, used := if streamPolicy then l.used else x.uses } }
  else
    let x1 := { x with misses := satAdd 32 x.misses count, uses := x.uses + 1 }
    if !streamPolicy && decide (0 < waysOwned x n) then
      let y := makeLineRoom s x1 n line
      setWing s w { y with lines := SMap.set y.lines line { dirty := write, used := x.uses } }
    else setWing s w x1

/-- Bytes written by the Hall, the save engine or the host: lines that hold them take them and are dirty (rules R246, R256); none is
allocated (DESIGN CHOICE, assumption 57). -/
def dirtyLines (s : State) (n a len : Nat) : State :=
  let pcs := (getSuite s n).res.pcs
  let hit : Nat → Bool := fun line => match suiteAddr pcs (512 * line) with
    | some v => decide (v < a + len) && decide (a < v + 512)
    | none => false
  if s.wings.all (fun w => !(w.2.lines.any (fun l => hit l.1))) then s
  else { s with wings := SMap.mapVals s.wings (fun _ w => { w with
    lines := w.lines.map (fun l => (l.1, if hit l.1 then { l.2 with dirty := true } else l.2)) }) }

/-- Lines of a pseudo-channel that retires are written back and go (rule R251). -/
def dropLines (s : State) (pcs : List Nat) : State :=
  { s with wings := SMap.mapVals s.wings (fun _ w => { w with lines := w.lines.filter (fun l => !(pcs.contains (linePc l.1))) }) }

/-- Whether scrubbing and refresh go on (rules R241, R245): from TESTING to FAULTED. -/
def memoryAlive (s : State) : Bool :=
  decide (s.dev = .testing) || decide (s.dev = .ready) || decide (s.dev = .running) || decide (s.dev = .draining) || decide (s.dev = .faulted)

/-- What a scrub finds (rule R241): it never changes the value of a byte. -/
def scrubObs (s : State) (step : Nat) (o : MemObs) : State :=
  match o with
  | .corrected pc addr => if pc < 512 then correctedError s pc addr else s
  | .uncorrectable pc addr => if pc < 512 then reportLost s pc addr 0x0201 step {} false else s
  | _ => s

/-- PATROL_SCRUB (rule R241): one 64-byte access is scrubbed; no byte changes. -/
def execPatrolScrub (pc addr : Nat) (obs : List MemObs) (s : State) : Host.Outcome State Fault Refusal :=
  let wn := wingOfPc pc
  let mine := fun (o : MemObs) => match o with
    | .corrected p a => p == pc && a / 64 == addr / 64
    | .uncorrectable p a => p == pc && a / 64 == addr / 64
    | _ => false
  let w := getWing s wn
  let total := 64 * pcCapacity s / 64
  let wrap := decide (total ≤ w.scrubProgress + 1)
  let s1 := setWing s wn { w with
    scrubAt := addr
    scrubProgress := if wrap then 0 else w.scrubProgress + 1
    scrubPasses := if wrap then satInc 16 w.scrubPasses else w.scrubPasses }
  let step := match suiteOfPc s pc with
    | some n => lowestStep s n
    | none => 0
  whenDo (decide (pc < 512) && wingPresent s wn && memoryAlive s && w.trained && addr % 64 == 0 && decide (addr < pcCapacity s)) s
    ((obs.filter mine).foldl (fun st o => scrubObs st step o) s1)

/-- ONLINE_ROW_REPAIR (rules R243, R244): a marked row is mapped to a spare of its bank; with no spare left, the row stays
broken and the pseudo-channel is to be retired. -/
def execOnlineRowRepair (pc row : Nat) (s : State) : Host.Outcome State Fault Refusal :=
  let wn := wingOfPc pc
  let w := getWing s wn
  let idx := s.faults.next
  let base : FaultRec := { unitClass := 3, unitIndex := pc, subIndex := row, cause := 0x0202, domain := 2, attic := true, location := 1024 * row }
  let r := match suiteOfPc s pc with
    | some n => forSuite s n 0 base
    | none => base
  let gone := setWing s wn { w with needRepair := w.needRepair.filter (fun q => decide (q ≠ (pc, row))) }
  whenDo (decide (pc < 512) && wingPresent s wn && memoryAlive s && w.repairActive.isNone && w.needRepair.contains (pc, row)) s
    (if sparesLeft s pc row = 0 then signRecord (pcEvent (recordFault gone r) pc 0x0202 idx) idx false
     else setWing s wn { w with repairActive := some (2 ^ 21 * pc + row) })

/-- Accesses of a row that could not be read with correction. -/
def lostInRow (pc row : Nat) (obs : List MemObs) : List Nat :=
  obs.filterMap (fun o => match o with
    | .uncorrectable p a => if p = pc ∧ rowOf a = row then some a else none
    | _ => none)

/-- ROW_REPAIR_COMPLETE (rule R243): the spare holds the row's data as read with correction, zero where it could not be read, and the
repair enters the Attic's repair map. -/
def execRowRepairComplete (pc row : Nat) (obs : List MemObs) (s0 : State) : Host.Outcome State Fault Refusal :=
  let s := (lostInRow pc row obs).foldl (fun st a => zeroAccess st pc a) s0
  let wn := wingOfPc pc
  let w := getWing s wn
  let w1 := { w with
    repairActive := none
    onlineRepairs := satInc 16 w.onlineRepairs
    spares := SMap.set w.spares (spareKey pc row) (sparesLeft s pc row - 1)
    needRepair := w.needRepair.filter (fun q => decide (q ≠ (pc, row))) }
  let s1 := setWing s wn w1
  whenDo (decide (pc < 512) && decide (row < 2 ^ 21) && decide (w.repairActive = some (2 ^ 21 * pc + row))) s0
    { s1 with attic := { s1.attic with repairMap := s1.attic.repairMap ++ [(pc, row)], repairVersion := (s1.attic.repairVersion + 1) % 2 ^ 16 },
              atticStore := { s1.atticStore with pendingFault := true } }

/-- Refresh multiple code and bandwidth halving that a temperature asks for, in units of 0.25 °C (rule R245). -/
def refreshFor (t : Int) : Nat × Bool := if t ≤ 340 then (0, false) else if t ≤ 380 then (1, false) else (2, true)

/-- The multiple after a reading: a lower rate needs a reading 2 °C below the threshold that raised the present one. -/
def refreshAfter (cur : Nat) (t : Int) : Nat :=
  let w := (refreshFor t).1
  if cur ≤ w then w
  else if cur = 2 ∧ 372 < t then 2
  else if t ≤ 332 then 0 else 1

/-- HBM_TEMP_READING (rule R245): the change takes effect with REFRESH_RATE_CHANGE. A stack above 105 °C at two readings raises
a thermal event (rule R502). The stack's own error counts are read with it (rule R236). -/
def execHbmTempReading (wing : Nat) (temp : Int) (onDie : Nat) (s : State) : Host.Outcome State Fault Refusal :=
  let w := getWing s wing
  let t := signedOf 12 (unsignedOf 12 temp)
  let m := refreshAfter w.refreshMult t
  let s1 := setWing s wing { w with temp := t, onDieEcc := onDie, pendingMult := if m = w.refreshMult then none else some (m, m == 2) }
  whenDo (decide (wing < 8) && wingPresent s wing && memoryAlive s) s
    (if 420 < t ∧ 420 < w.temp then raiseThrottle s1 else s1)

/-- REFRESH_RATE_CHANGE (rule R245). -/
def execRefreshRateChange (wing : Nat) (s : State) : Host.Outcome State Fault Refusal :=
  let w := getWing s wing
  match w.pendingMult with
  | none => ok s
  | some (m, h) => whenDo (decide (wing < 8)) s (setWing s wing { w with refreshMult := m, throttle := h, pendingMult := none })

/-- PER_BANK_REFRESH (rules R236, R245): it holds its own bank and changes no value. -/
def execPerBankRefresh (wing bank : Nat) (s : State) : Host.Outcome State Fault Refusal :=
  let w := getWing s wing
  whenDo (decide (wing < 8) && wingPresent s wing && memoryAlive s && decide (bank < 4096)) s
    (setWing s wing { w with refreshes := w.refreshes + 1 })

/-- REFRESH_MANAGEMENT (rules R236, R245): issued on the stack's request. -/
def execRefreshManagement (wing bank : Nat) (s : State) : Host.Outcome State Fault Refusal :=
  let w := getWing s wing
  whenDo (decide (wing < 8) && wingPresent s wing && memoryAlive s && decide (bank < 4096)) s
    (setWing s wing { w with rfms := w.rfms + 1 })

/-- CACHE_EVICTION (rules R250, R251): a dirty line is written back, and the line goes; no byte changes but those that a double-bit error of
the line has lost. -/
def execCacheEviction (wing line : Nat) (obs : List MemObs) (s : State) : Host.Outcome State Fault Refusal :=
  let mine := fun (o : MemObs) => match o with
    | .cacheDirtyUe w l _ _ => w == wing && l == line
    | .cacheCorrected w => w == wing
    | _ => false
  let step := match suiteOfPc s (linePc line) with
    | some n => lowestStep s n
    | none => 0
  let s1 := (obs.filter mine).foldl (fun st o => memObs st step {} false 0 o) s
  whenDo (decide (wing < 8) && SMap.has (getWing s wing).lines line) s (updWing s1 wing (fun w => { w with lines := SMap.erase w.lines line }))

/-- INSTRUCTION_FETCH (rules R165, R240): `words` further words of the program arrive in the 8,192-instruction buffer, as zero where memory
could not be read (the words of one fetch are one transaction: DESIGN CHOICE, assumption 57). -/
def execInstructionFetch (tile : Nat) (st : KStream) (words : Nat) (ecc : List EccHit) (obs : List MemObs) (s : State) :
    Host.Outcome State Fault Refusal :=
  let x := getStream s tile st
  let len := (tileProgram s tile st).instrs.length
  let hi := min (x.bufHi + words) len
  let lo := max x.bufLo (hi - 8192)
  let n := ((getTile s tile).suite).getD 0
  let good := isTile tile && (getTile s tile).suite.isSome && decide (0 < words) && decide (lo ≤ residentFrom x)
  let lost := obs.any (fun o => obsOfSuite s n o && (match o with
    | .uncorrectable _ _ => true
    | .cacheDirtyUe w l _ _ => holdsLine s w l true
    | _ => false))
  let blank := x.blank.filter (fun r => decide (lo < r.2))
  let s1 := countIbuf (setStream s tile st { x with
    bufLo := lo, bufHi := hi, blank := if lost then blank ++ [(x.bufHi, hi)] else blank, stall := if x.stall = 6 then 0 else x.stall }) tile ecc
  let s2 := readObs s1 n obs
  whenDo good s (if programLost ecc then faultStream s2 tile st .ifetchEcc 0 else s2)

end Sys2Proof.Machine
end

