-- ==== Sys2Proof/Machine/Routes.lean ====
section
/-!
DEFINITION. The links and slots of the on-chip network, and the routes that the loader builds on them (rules R265 to R270 of
12_streams_and_routes.md, R295 of 13_spires_lanterns_and_fabric_links.md).
-/
namespace Sys2Proof.Machine

/-- PORT_SHARE of a whole port (rule R394): sixteen of sixteen slots each. -/
def wholePort : Nat := 16

/-- Slots of a link's frame in each direction (rule R266). -/
def frameSlots : Nat := 256

/-- The wing in whose region a link lies (rules R265, R279); a link between two wings is counted in the lower. -/
def wingOfLink : NetLink → Nat
  | .tile t => t / 10
  | .wing w => w
  | .bridge w => w
  | .memory w => w
  | .spire p => p / 2

/-- Whether a link exists (rule R265). -/
def linkExists : NetLink → Bool
  | .tile t => decide (t < 80)
  | .wing w => decide (w < 7) && w != 3
  | .bridge w => decide (w < 4)
  | .memory w => decide (w < 8)
  | .spire p => decide (p < 16)

/-- Wing links between two wings of one die (rule R265). -/
def wingLinks (a b : Nat) : List NetLink := ((List.range (max a b - min a b)).map (fun i => .wing (min a b + i)))

/-- Links between two wings' regions (rule R267): along the source's die to the destination's column, then across the bridge if the
destination is on the other die. A fused-off wing's region carries them too (rule R265). -/
def netPath (a b : Nat) : List NetLink :=
  let turn := a / 4 * 4 + b % 4
  wingLinks a turn ++ (if a / 4 = b / 4 then [] else [.bridge (b % 4)])

/-- The path of a route (rule R267). -/
def routePath (a : NetLink) (b : NetLink) : List NetLink :=
  if a = b then [a] else a :: (netPath (wingOfLink a) (wingOfLink b) ++ [b])

/-- Spire port of an image port: the suite's p-th in ascending order (rule R411). -/
def imagePortOf (su : Suite) (p : Nat) : Nat := ((su.res.ports.map (fun q => q.1))[p]?).getD 0xFF

/-- Ports that a suite holds whole (rules R268, R295, R394). -/
def wholePorts (su : Suite) : List Nat := (su.res.ports.filter (fun h => h.2 == wholePort)).map (fun h => h.1)

/-- Forwarding between ports that a suite holds whole, as its route table names it (rule R295). -/
def transits (su : Suite) : List (RouteUse × List NetLink) :=
  let whole := wholePorts su
  let pairs := whole.flatMap (fun p => (su.job.routes.filterMap (fun r =>
    let q := fieldAt r.2 4 1
    if whole.contains q && p != q then some (min p q, max p q) else none)))
  pairs.eraseDups.map (fun pq => (.transit pq.1 pq.2, routePath (.spire pq.1) (.spire pq.2)))

/-- The routes that an image needs on a map of its virtual tiles, with their paths (rule R267): one from each tile with memory streams to each
wing that holds pseudo-channels of the suite, one for each TILE and each REMOTE stream, and the transit routes. -/
def neededRoutes (su : Suite) (im : Image) (vmap : SMap Nat) (pcs : List Nat) : List (RouteUse × List NetLink) :=
  let tiles := (vmap.map (fun q => q.2)).eraseDups
  let wings := (pcs.map (fun pc => pc / 64)).eraseDups
  let at1 := fun (v : Nat) => SMap.get 0 vmap v
  let memory := (tiles.filter (fun t => im.decls.any (fun d => decide (d.type ≤ 1) && at1 d.vtile == t))).flatMap (fun t =>
    wings.map (fun w => (RouteUse.memory t w, routePath (.tile t) (.memory w))))
  let streams := im.decls.zipIdx.filterMap (fun q =>
    if q.1.type = 2 ∧ q.1.outbound then some (RouteUse.stream q.2, routePath (.tile (at1 q.1.vtile)) (.tile (at1 q.1.peerVtile)))
    else if q.1.type = 3 then some (RouteUse.stream q.2, routePath (.tile (at1 q.1.vtile)) (.spire (imagePortOf su q.1.imagePort)))
    else none)
  memory ++ streams ++ transits su

/-- Slots of a direction of a link that routes own. -/
def takenSlots (l : NetLink) (back : Bool) (rs : List Route) : List Nat :=
  rs.flatMap (fun r => (r.slots.filter (fun q => decide (q.1 = l))).map (fun q => if back then q.2.2 else q.2.1))

/-- The lowest slot of a direction of a link that no route owns. -/
def freeSlot (l : NetLink) (back : Bool) (rs : List Route) : Option Nat :=
  let taken := takenSlots l back rs
  (List.range frameSlots).find? (fun i => !(taken.contains i))

/-- Slots of a Spire link that a suite may own in each direction (rules R268, R394); every slot of another link. -/
def slotShare (su : Suite) : NetLink → Nat
  | .spire p => 16 * ((su.res.ports.find? (fun h => h.1 == p)).map (fun h => h.2)).getD 0
  | _ => frameSlots

/-- Give a route one slot in each direction of every link of its path, beside the routes that stand (rules R266 to R268). -/
def addRoute (su : Suite) (others : List Route) (own : List Route) (use : RouteUse) (path : List NetLink) : Option (List Route) := do
  let all := others ++ own
  let slots ← path.mapM (fun l =>
    if slotShare su l ≤ (takenSlots l false own).length then none
    else
      match freeSlot l false all, freeSlot l true all with
      | some a, some b => some (l, a, b)
      | _, _ => none)
  let id ← (List.range 4096).find? (fun i => !(all.any (fun r => r.id == i)))
  some (own ++ [{ id := id, use := use, slots := slots }])

/-- The routes of the other suites. -/
def otherRoutes (s : State) (n : Nat) : List Route := (s.suites.filter (fun p => p.1 != n)).flatMap (fun p => p.2.routes)

/-- Whether a link is in service (rule R269): neither its tile nor its port is retired or disabled. -/
def linkInService (s : State) (l : NetLink) : Bool :=
  linkExists l && (match l with
    | .tile t => usableTile s t
    | .spire p => portPresent s p && !(getPort s p).disabled
    | _ => true)

/-- Build routes of a suite one by one (rules R266 to R269); none where one does not fit or needs a link that is out of service. -/
def planRoutes (s : State) (n : Nat) (needed : List (RouteUse × List NetLink)) : Option (List Route) :=
  needed.foldl (fun acc u => match acc with
    | none => none
    | some own => if u.2.all (linkInService s) then addRoute (getSuite s n) (otherRoutes s n) own u.1 u.2 else none) (some [])

/-- Whether the routes that an image needs on a map cannot be built (rule R269). -/
def routesFail (s : State) (n : Nat) (su : Suite) (im : Image) (vmap : SMap Nat) (pcs : List Nat) : Bool :=
  im.decls.any (fun d => d.type == 3 && decide (su.res.ports.length ≤ d.imagePort)) || (planRoutes s n (neededRoutes su im vmap pcs)).isNone

/-- The owner of a slot of a link's direction (rule R266). -/
def slotOwner (s : State) (l : NetLink) (back : Bool) (slot : Nat) : Option Nat :=
  ((s.suites.flatMap (fun p => p.2.routes)).find? (fun r => r.slots.any (fun q => decide (q.1 = l) && (if back then q.2.2 else q.2.1) == slot))).map
    (fun r => r.id)

/-- The id of the route that a use has in a suite; 0xFFFF for none (rule R261). -/
def routeId (su : Suite) (use : RouteUse) : Nat := ((su.routes.find? (fun r => decide (r.use = use))).map (fun r => r.id)).getD 0xFFFF

end Sys2Proof.Machine
end

