-- ==== Sys2Proof/Machine/Streams.lean ====
section
/-!
DEFINITION. Stream-table entries: timeouts, notices, disabling and run-time checks (rules R258 to R279 of
12_streams_and_routes.md), and the forwarding of fabric traffic (rules R294 to R297 of 13_spires_lanterns_and_fabric_links.md).
-/
namespace Sys2Proof.Machine

def isEntry (e : Nat) : Bool := decide (e < 65536)

/-- Stream types (rule R261). -/
def typeMemory : Nat := 0
def typeInput : Nat := 1
def typeTile : Nat := 2
def typeRemote : Nat := 3

/-- The landing of an entry's tile that the entry is bound to: 0 IN0, 1 IN1, 2 OUT0, 3 OUT1. -/
def entryLanding (x : StreamEntry) : Nat := x.landing + (if x.outbound then 2 else 0)

/-- Streams with transfers queued on an entry. -/
def entryIssuers (s : State) (e : Nat) : List KStream :=
  let x := getEntry s e
  let q := (getLanding s x.ptile (entryLanding x)).queue.filter (fun t => t.entry == e)
  [KStream.f, .b, .u].filter (fun k => q.any (fun t => decide (t.issuer = k)))

/-- Whether an evaluation program runs on an entry's tile, and the step its work belongs to. -/
def entryEval (s : State) (e : Nat) : Bool := (getTile s (getEntry s e).ptile).evalMode

/-- Remove every transfer of an entry from its landing, and give back the credits of `n` transactions. -/
def dropTransfers (s : State) (e n : Nat) : State :=
  let x := getEntry s e
  let l := entryLanding x
  let y := getLanding s x.ptile l
  setLanding s x.ptile l { y with queue := y.queue.filter (fun t => t.entry != e), creditsUsed := y.creditsUsed - n }

/-- Transactions of an entry's queued transfers that have not started. -/
def unstarted (s : State) (e : Nat) : Nat :=
  let x := getEntry s e
  ((getLanding s x.ptile (entryLanding x)).queue.filter (fun t => t.entry == e)).foldl (fun n t => n + (t.count - t.started)) 0

/-- Absorb an entry's incomplete transactions, all but `spare` of them counted (rules R273, R274, R276): the entry takes a state. Their tags are
retired unless a disable absorbs them (rule R270). -/
def absorbEntry (s : State) (e : Nat) (st : EntryState) (spare : Nat) (queued : Bool) : State :=
  let x := getEntry s e
  let n := x.inFlight.length - spare + (if queued then unstarted s e else 0)
  let s1 := dropTransfers s e x.inFlight.length
  let s2 := setEntry s1 e { x with
    state := st, inFlight := [], retired := if st = .disabled then x.retired else x.retired ++ x.inFlight.map (fun t => t.tag), absorbed := satAdd 32 x.absorbed n,
    seqOldest := x.seqNext, draining := false }
  updSuite s2 x.suite (fun su => { su with counts := { su.counts with absorbed := su.counts.absorbed + n } })

/-- Transactions that absorbing an entry counts. -/
def absorbedBy (s : State) (e spare : Nat) (queued : Bool) : Nat :=
  (getEntry s e).inFlight.length - spare + (if queued then unstarted s e else 0)

/-- A stream faults without a record of its own, wherever it stands; the tile's other streams halt (rules R124, R187). -/
def stopStream (s : State) (t : Nat) (k : KStream) (f : KFault) : State :=
  updTile s t (fun x =>
    let c := haltCore x.core
    let y := x.core.stream k
    { x with core := c.setStream k { y with fault := if y.fault = 0 then f.code else y.fault, halted := true } })

def stopStreams (s : State) (t : Nat) (ks : List KStream) (f : KFault) : State := ks.foldl (fun st k => stopStream st t k f) s

/-- Operation fields of a stream's present instruction. -/
def opHere (s : State) (t : Nat) (ks : List KStream) : FaultOp :=
  match ks with
  | [] => {}
  | k :: _ => opOf k (getStream s t k) ((fetchWord s t k).getD 0)

/-- The step an entry's work belongs to: that of its issuer, else the suite's lowest. -/
def entryStep (s : State) (e : Nat) : Nat :=
  let x := getEntry s e
  match entryIssuers s e with
  | [] => lowestStep s x.suite
  | k :: _ => (getStream s x.ptile k).step

/-- The module id of an entry's far end, from the rank map (rules R263, R293). -/
def peerModule (s : State) (x : StreamEntry) : Nat := SMap.get 0xFFFFFFFF (getSuite s x.suite).job.map x.peerRank

/-- Name another end's record in the record of an entry's timeout (rules R274, R277): both ends timed out. -/
def nameOther (s : State) (e causeIdx : Nat) : State :=
  match s.faults.held.reverse.find? (fun r => r.unitClass == 2 && r.unitIndex == e && r.cause == 0x0300) with
  | none => s
  | some r => updateFault s r.index (fun y => { y with causeIndex := causeIdx })

/-- A notice that arrives for an entry (rules R274, R276): the entry takes the state, its incomplete slots are absorbed, the
stream bound to it faults, and a consequent record names the notifying entry's record. An entry that has timed out itself names it too. -/
def noticeAt (s : State) (e : Nat) (disable : Bool) (causeIdx : Nat) : State :=
  let x := getEntry s e
  if x.state = .bound then
    let ks := entryIssuers s e
    let n := absorbedBy s e 0 false
    let r : FaultRec := forSuite s x.suite (entryStep s e)
      { unitClass := 2, unitIndex := e, cls := 6, cause := 0x0302, op := opHere s x.ptile ks, domain := 1, owner := false,
        causeIndex := causeIdx, location := e, absorbed := n }
    let s1 := stopStreams (absorbEntry s e (if disable then .disabled else .timedOut) 0 false) x.ptile ks
      (if disable then .unitDisabled else .streamTimeout)
    let s2 := updSuite s1 x.suite (fun su => { su with counts := { su.counts with notices := satInc 16 su.counts.notices } })
    recordFault s2 r
  else
    updSuite (if x.state = .timedOut ∧ disable = false then nameOther s e causeIdx else s) x.suite
      (fun su => { su with counts := { su.counts with notices := satInc 16 su.counts.notices } })

/-- The port by which a packet for a module leaves over the management path (rule R318). -/
def managementPort (s : State) (dest : Nat) : Option Nat :=
  match s.mgr.workers.find? (fun w => w.module == dest) with
  | some w => some w.port
  | none =>
    if SMap.has s.mgr.placed dest then some (SMap.get 0 s.mgr.placed dest)
    else if s.mgr.role = 1 ∨ s.mgr.role = 3 then some s.mgr.parentPort
    else (s.mgr.workers.head?).map (fun w => w.port)

/-- A timeout notice also goes through the managers (rule R274), in a management packet whose form the spec does not give. -/
def noticeByManagers (s : State) (dest : Nat) (record : Bytes) : State :=
  match managementPort s dest with
  | none => s
  | some p => sendMgmt s p (Config.answer 0x0274 (leNat record))

/-- Notify an entry's far end (rules R274, R276): on the device, or by a control record that carries the record's INDEX. -/
def notifyPeer (s : State) (e : Nat) (disable : Bool) (idx : Nat) : State :=
  let x := getEntry s e
  if x.type = typeTile then noticeAt s x.peerEntry disable idx
  else if x.type = typeRemote then
    let record := controlRec (if disable then 4 else 3) 1 x.peerEntry (peerModule s x) idx
    let s1 := sendControl s x.port record
    if disable then s1 else noticeByManagers s1 (peerModule s x) record
  else s

/-- A CDC_TIMEOUT record that already stands for a tile's crossing: a timeout it causes is consequent (rules R360, R451). -/
def crossingOwner (s : State) (t : Nat) : Option Nat :=
  if (getTile s t).cdcHeld then
    (s.faults.held.find? (fun r => r.cause == 0x0310 && r.unitIndex == t)).map (fun r => r.index)
  else none

/-- Discards that a timeout reports become consequences of its record (rules R277, R451): at this entry or, of a TILE stream, at its far end; and
that of a slot or a memory port that lost the transaction. -/
def nameDiscards (s : State) (e tag : Nat) (lost : Option Nat) (idx : Nat) : State :=
  let x := getEntry s e
  let mine := fun (r : FaultRec) => r.unitClass == 2 && r.location == tag && (r.unitIndex == e || (x.type == typeTile && r.unitIndex == x.peerEntry))
  { s with faults := { s.faults with
      held := s.faults.held.map (fun r =>
        if r.cause = 0x0303 ∧ r.cls = 0 ∧ (mine r = true ∨ lost = some r.index) then { r with cls := 6, causeIndex := idx } else r) } }

/-- The stream that issued a transaction. -/
def issuerOf (s : State) (txn : Txn) : Option KStream :=
  ((getLanding s txn.tile txn.landing).queue.find? (fun t => t.id == txn.transfer)).map (fun t => t.issuer)

/-- Link counts of a port (rule R275): retries, flits replayed, codewords corrected. -/
def linkCounts (x : Port) : List Nat := [x.linkRetries, x.linkReplays, x.linkFec]

/-- Link retries, replays and corrections at a transaction's port since it started (rule R275). -/
def foldedCounts (s : State) (x : StreamEntry) (txn : Txn) : List Nat :=
  if x.type = typeRemote then List.zipWith (fun a b => a - b) (linkCounts (getPort s x.port)) (txn.marks ++ List.replicate (3 - txn.marks.length) 0)
  else []

/-- A transaction reaches its timeout (rules R273, R275): its tag is retired, the entry is TIMED_OUT and its other transactions are
absorbed, its issuer faults, one record is written, the step is poisoned and the far end is told. -/
def timeOut (s : State) (e : Nat) (txn : Txn) (cause : Nat) : State :=
  let x := getEntry s e
  let ks := ((issuerOf s txn).map (fun k => [k])).getD []
  let folded := foldedCounts s x txn
  let eval := entryEval s e
  let idx := s.faults.next
  let own := crossingOwner s x.ptile
  let r : FaultRec := forSuite s x.suite txn.step
    { unitClass := 2, unitIndex := e, cls := if own.isSome then 6 else 0, cause := cause, op := opHere s x.ptile ks, domain := 1,
      owner := own.isNone, causeIndex := own.getD 0xFFFFFFFF, location := txn.tag, retries := min 0xFFFF (folded.getD 0 0),
      replays := min 0xFFFF (folded.getD 1 0), fecCorrected := min 0xFFFFFFFF (folded.getD 2 0), absorbed := absorbedBy s e 1 false }
  let s1 := stopStreams (absorbEntry s e .timedOut 1 false) x.ptile ks .streamTimeout
  let s2 := updSuite s1 x.suite (fun su => { su with counts := { su.counts with timeouts := satInc 16 su.counts.timeouts } })
  let s3 := nameDiscards (recordFault s2 r) e txn.tag txn.lost idx
  let s4 := if own.isSome then s3 else confirmFault s3 x.suite txn.step idx eval
  let s5 := if (getSuite s4 x.suite).slice.stopping then
      setSuiteState (updSuite s4 x.suite (fun su => { su with slice := { su.slice with stopping := false } })) x.suite .faulted
    else s4
  notifyPeer s5 e false idx

/-- The transaction of an entry with a tag. -/
def flightOf (x : StreamEntry) (tag : Nat) : Option Txn := x.inFlight.find? (fun t => t.tag == tag)

/-- STREAM_TIMEOUT (rules R271, R273): every class but INPUT; a posted slot has no timer. -/
def execStreamTimeout (entry tag : Nat) (s : State) : Host.Outcome State Fault Refusal :=
  let x := getEntry s entry
  match flightOf x tag with
  | none => ok s
  | some txn =>
    whenDo (isEntry entry && decide (x.state = .bound) && (x.type == typeMemory || (x.outbound && x.type != typeInput))) s
      (timeOut s entry txn 0x0300)

/-- INPUT_TIMEOUT (rules R272, R273). -/
def execInputTimeout (entry tag : Nat) (s : State) : Host.Outcome State Fault Refusal :=
  let x := getEntry s entry
  match flightOf x tag with
  | none => ok s
  | some txn => whenDo (isEntry entry && decide (x.state = .bound) && x.type == typeInput) s (timeOut s entry txn 0x0301)

/-- A disable takes effect (rule R276): what remains is absorbed, the entry is DISABLED, its issuer faults and the far end is
told. -/
def disableNow (s : State) (e : Nat) : State :=
  let x := getEntry s e
  let ks := entryIssuers s e
  let s1 := stopStreams (absorbEntry s e .disabled 0 true) x.ptile ks .unitDisabled
  let s2 := ks.foldl (fun st k => consequentRecord st x.ptile k 0) s1
  notifyPeer s2 e true ((unitOwner s x.suite).getD 0xFFFFFFFF)

/-- Begin the disabling of an entry (rules R276, R277): at once where nothing is in flight. -/
def disableEntry (s : State) (e : Nat) : State :=
  let x := getEntry s e
  if x.state = .bound ∨ x.state = .unbound then
    (if x.inFlight = [] then disableNow s e else setEntry s e { x with draining := true })
  else s

/-- Where a port's arriving traffic for another module leaves: the suite that holds both ports whole names the port (rule R295). A
route entry holds DEST_MODULE and PORT (rule R398, Note 1). -/
def forwardPort (s : State) (p module : Nat) : Option Nat :=
  match s.suites.find? (fun q => (wholePorts q.2).contains p) with
  | none => none
  | some q =>
    match q.2.job.routes.find? (fun r => fieldAt r.2 0 4 == module) with
    | none => none
    | some r => if (wholePorts q.2).contains (fieldAt r.2 4 1) then some (fieldAt r.2 4 1) else none

/-- A discard at a port, counted (rule R297). -/
def discardAt (s : State) (p : Nat) (notOwned : Bool) : State :=
  updPort s p (fun x =>
    if notOwned then { x with notOwned := satInc 16 x.notOwned } else { x with otherDiscard := satInc 16 x.otherDiscard })

/-- Whether an entry belongs to a suite that holds a share of a port (rule R297). -/
def ownsPort (s : State) (p e : Nat) : Bool :=
  let x := getEntry s e
  decide (x.state ≠ .free) && (getSuite s x.suite).res.ports.any (fun h => h.1 == p)

/-- A response whose tag is not posted and incomplete (rule R270): late when the tag was retired, else a tag violation with a
record against the entry, which the later timeout owns. -/
def strayTag (s : State) (e tag : Nat) : State :=
  let x := getEntry s e
  if x.retired.contains tag then
    let s1 := setEntry s e { x with late := satInc 32 x.late }
    updSuite s1 x.suite (fun su => { su with counts := { su.counts with late := satInc 32 su.counts.late } })
  else
    let s1 := updWing s (wingOfTile x.ptile) (fun w => { w with tagViol := satInc 16 w.tagViol })
    recordFault s1 (forSuite s1 x.suite (entryStep s1 e)
      { unitClass := 2, unitIndex := e, cause := 0x0303, domain := 1, owner := false, location := tag })

/-- A control record that arrives on a port (rules R294, R295): for this module it acts on its entry, for another it is
forwarded by the route of DATA flits; an entry of a suite without a share of the port takes nothing. -/
def controlIn (s : State) (p : Nat) (r : Bytes) (act : Nat → State) : State :=
  let module := fieldAt r 4 4
  let e := fieldAt r 2 2
  if module = ownId s ∨ module = 0xFFFFFFFF then (if ownsPort s p e then act e else discardAt s p true)
  else
    match forwardPort s p module with
    | some q => sendControl s q (bytesAt r 0 12)
    | none => discardAt s p false

/-- Whether a port leads to this module's manager or to a worker. -/
def managementPath (s : State) (p : Nat) : Bool :=
  ((s.mgr.role == 1 || s.mgr.role == 3) && s.mgr.parentPort == p) || s.mgr.workers.any (fun w => w.port == p && !w.lost)

/-- A timeout notice that arrives (rule R274): by the stream's route, or through the managers, where the port need not be the suite's; one for
another module goes on the same way. -/
def noticeIn (s : State) (p : Nat) (r : Bytes) : State :=
  let module := fieldAt r 4 4
  let e := fieldAt r 2 2
  if managementPath s p ∧ ownsPort s p e = false ∧ forwardPort s p module = none then
    if module = ownId s then (if (getEntry s e).type = typeRemote ∧ (getEntry s e).state ≠ .free then noticeAt s e false (fieldAt r 8 4) else discardAt s p true)
    else noticeByManagers s module (bytesAt r 0 12)
  else controlIn s p r (fun e => noticeAt s e false (fieldAt r 8 4))

/-- Whether a port is up for the traffic of streams. -/
def portUpFor (s : State) (p : Nat) : Bool := portPresent s p && (getPort s p).state == portUp

/-- TIMEOUT_NOTICE (rules R274, R294): TAG carries the INDEX of the notifying entry's record. -/
def execTimeoutNotice (port : Nat) (rec : Bytes) (s : State) : Host.Outcome State Fault Refusal :=
  whenDo ((portUpFor s port || (portPresent s port && (getPort s port).state == portMgmtOnly && managementPath s port)) && fieldAt rec 0 1 == 3) s
    (noticeIn s port rec)

/-- DISABLE_NOTICE (rules R276, R294). -/
def execDisableNotice (port : Nat) (rec : Bytes) (s : State) : Host.Outcome State Fault Refusal :=
  whenDo (portUpFor s port && fieldAt rec 0 1 == 4) s (controlIn s port rec (fun e => noticeAt s e true (fieldAt rec 8 4)))

end Sys2Proof.Machine
end

