-- ==== Sys2Proof/Machine/Landing.lean ====
section
/-!
DEFINITION. Landing transfers: `qin`, `qout` and their transactions (rules R166 to R174 of 08_instruction_encoding_and_control.md,
R252 to R254 of 11_memory_and_landings.md, R271 and R272 of 12_streams_and_routes.md, R324 of
14_managers_replicas_and_collectives.md, R418 of 18_images_and_the_loader.md), and the step gate.
-/
namespace Sys2Proof.Machine

/-- Bytes of a tensor's stored image in whole blocks (rules R43, R409). -/
def storedBytes (x : Tensor) : Nat := (linearBytes x.fmt (x.shape.foldl (· * ·) 1) + 63) / 64 * 64

/-- The binding of an INPUT tensor for training or evaluation programs (rule R409). -/
def bindingOf (su : Suite) (tensor kind : Nat) : Option Binding :=
  su.bindings.find? (fun b => b.tensor == tensor && b.kind == kind)

/-- The suite-relative region of an entry in a step: its context's region, or the input window of the step (rule R167). -/
def entryRegion (s : State) (c : Ctx) (e : StreamEntry) : Option (Nat × Nat) :=
  if e.type = typeMemory then some (e.regionBase, e.regionLen)
  else
    match bindingOf (getSuite s c.suite) e.tensor (bnat c.eval), ctxTensor c e.tensor with
    | some b, some x =>
      let w := storedBytes x
      if w = 0 ∨ b.len < w then none else some (b.base + (c.step - 1) % (b.len / w) * w, w)
    | _, _ => none

/-- Whole rows that a STRIPE transfer of `count` transactions brings in, where the number is whole (rule R254). -/
def stripeRows (x : Tensor) (count : Nat) : Option Nat :=
  let kt := x.shape.getLast?.getD 0
  let rowBits := kt * x.fmt.bits
  if rowBits = 0 ∨ (x.fmt.bits = 4 ∧ kt % 2 = 1) ∨ x.fmt = .b32 then none
  else if 4096 * count % rowBits = 0 ∧ 1 ≤ 4096 * count / rowBits ∧ 4096 * count / rowBits ≤ 128 then some (4096 * count / rowBits)
  else none

/-- Bytes of the stripes of rows of `kt` elements (rule R254). -/
def stripeExtent (f : Fmt) (kt : Nat) : Nat := (kt + stripeGroup f - 1) / stripeGroup f * stripeSize f

/-- The tensors that a SUM's level reads and writes, level by level (rules R323, R324). -/
def sumLevels (p : SumPlan) : List (Nat × Nat) :=
  let outs := p.intermediates ++ [p.output]
  List.zip (p.contribution :: p.intermediates) outs

/-- The tensor that the level of a contribution tensor writes; none where no level names it (rule R324). -/
def levelTarget (im : Image) (t : Nat) : Option Nat :=
  ((im.plan.sums.map sumLevels).flatten.find? (fun p => p.1 == t)).map (fun p => p.2)

/-- Scale of the contribution tensor and base exponent for an unset column (rule R324); none while either is undecided. -/
def contribScales (s : State) (c : Ctx) (t : Nat) : Option (Int × Int) :=
  match levelTarget c.image t, ctxTensor c t with
  | some o, some x =>
    match ctxTensor c o with
    | none => none
    | some y =>
      match scaleCurrent s c t x, scaleCurrent s c o y with
      | some g, some h => some (g.s, h.s)
      | _, _ => none
  | _, _ => none

/-- What the checks of a `qin` or `qout` find: the TSDESC, its effective base and the offset in the stream's region; whether a field does
not suit what it names or an extent of it (DESC_RANGE); whether a contribution transfer's tensor feeds a level (rule R324); whether the combination is refused otherwise (ILLEGAL); whether the tile store
holds the extent (TS_RANGE) (rule R164). -/
structure QueueFields where
  td : Desc
  tb : Int
  sb : Nat
  suits : Bool
  level : Bool
  legal : Bool
  inStore : Bool

/-- Whether an extent of `n` entries lies within one bank. -/
def inBank (tb : Int) (n : Nat) : Bool := decide (0 ≤ tb) && decide (tb < 65536) && decide (tb % 16384 + (n : Nat) ≤ 16384)

/-- The fields of a `qin` or `qout`; `region` is the length of a memory stream's region, or none where the stream is no memory stream
(rules R164, R167, R169, R170, R254, R324). -/
def queueFields (c : Ctx) (prog : StreamProg) (loops : List LoopFrame) (q : QOp) (mem : Bool) (region : Option Nat) : Check QueueFields := do
  let td ← needDesc prog.descs q.tsDesc (if q.layout = 2 then 2 else 0)
  let tb := descEff td loops
  let sd ← (if mem then needDesc prog.descs q.sDesc 1 else .ok ({} : Desc))
  let b := descEff sd loops
  let x := ctxTensor c td.tensor
  let raw := td.tensor == 0xFFFFFF
  let inRegion := if mem then (region.map (fun r => decide (0 ≤ b) && decide (b + (512 * q.count : Nat) ≤ (r : Int)))).getD false
    else q.sDesc == 0x3FF
  let striped := x.map (fun x => decide (x.fmt ≠ .b32))
  .ok { td := td, tb := tb, sb := b.toNat
        suits := inRegion && (match q.layout with
          | 0 => true
          | 1 => striped.getD false
          | _ => if raw then inBank tb (q.count / 3 * 64)
                 else (x.map (fun x => x.fmt == .h16)).getD false && inBank tb (256 * q.count))
        level := q.layout != 2 || raw || (levelTarget c.image td.tensor).isSome
        legal := descAligned sd && descAligned td && (mem || q.layout != 1) && !(q.out && q.layout == 1) && (match q.layout with
          | 0 => true
          | 1 => sd.tensor == td.tensor && (x.map (fun x => (stripeRows x q.count).isSome)).getD false
          | _ => if raw then q.count % 3 == 0 else !q.out && decide (q.count ≤ 64) && tb % 256 == 0)
        inStore := (match q.layout with
          | 0 => decide (0 ≤ tb) && decide (tb + (512 * q.count : Nat) ≤ 0x800000)
          | 1 => decide (0 ≤ tb) && decide (tb + ((x.map (fun x => stripeExtent x.fmt (x.shape.getLast?.getD 0))).getD 0 : Nat) ≤ 0x800000)
          | _ => true) }

/-- The one code that a `qin` or `qout` faults with (rule R164). -/
def queueVerdict (f : QueueFields) : Check Unit := do
  require (f.suits && f.level) .descRange
  require f.legal .illegal
  require f.inStore .tsRange

/-- The checks of a `qin` or `qout` after its tokens (rules R167, R169 to R171, R254, R262, R270): the transfer to queue; none
where a scale is not yet decided. -/
def queueCheck (s : State) (c : Ctx) (t : Nat) (prog : StreamProg) (loops : List LoopFrame) (k : KStream) (q : QOp) :
    Check (Option Transfer) := do
  let su := getSuite s c.suite
  require (decide (q.stream < c.image.streams)) .streamBind
  let eno := 1024 * su.res.baseBlock + q.stream
  let e := getEntry s eno
  require (decide (e.state ≠ .timedOut)) .streamTimeout
  require (decide (e.state ≠ .disabled) && !e.draining) .unitDisabled
  require (decide (e.state = .bound) && e.suite == c.suite && e.vtile == (getTile s t).vtile && e.ptile == t
    && e.landing == q.landing && e.outbound == q.out) .streamBind
  let mem := e.type == typeMemory || e.type == typeInput
  let f ← queueFields c prog loops q mem ((entryRegion s c e).map (fun r => r.2))
  queueVerdict f
  let tr : Transfer := { id := (getTile s t).nextTransfer, issuer := k, entry := eno, layout := q.layout, tsBase := f.tb.toNat,
                         tsTensor := f.td.tensor, sBase := f.sb, count := q.count, step := c.step
                         place := placeOf s t k ((fetchWord s t k).getD 0) }
  if q.layout ≠ 0 ∧ q.layout ≠ 1 ∧ f.td.tensor ≠ 0xFFFFFF then .ok ((contribScales s c f.td.tensor).map (fun _ => tr))
  else .ok (some tr)

/-- Issue a `qin` or `qout` (rule R171). -/
def issueQueue (s : State) (t : Nat) (k : KStream) (q : QOp) (w : Nat) : State :=
  let l := q.landing + (if q.out then 2 else 0)
  match ctxOf s t k with
  | none => s
  | some c =>
    let prog := tileProgram s t k
    let loops := (getStream s t k).loops
    let bankTok := match q.layout, needDesc prog.descs q.tsDesc 2 with
      | 2, .ok d => some (tokBK ((descEff d loops).toNat / 16384 % 4))
      | _, _ => none
    if !(holds s t k (landingToken l)) then faultStream s t k .ownership w
    else if bankTok.isSome && !(holds s t k (bankTok.getD 0)) then faultStream s t k .ownership w
    else
      match queueCheck s c t prog loops k q with
      | .error f =>
        let e := 1024 * ((getSuite s c.suite).res.baseBlock) + q.stream
        let s1 := if f = .unitDisabled then
            updSuite (updEntry s e (fun x => { x with absorbed := satAdd 32 x.absorbed q.count })) c.suite
              (fun su => { su with counts := { su.counts with absorbed := su.counts.absorbed + q.count } })
          else s
        faultStream s1 t k f w
      | .ok none => stallAt s t k 5
      | .ok (some tr) =>
        let y := getLanding s t l
        if 16 ≤ y.queue.length then stallAt s t k 2
        else
          let s1 := setLanding s t l { y with queue := y.queue ++ [tr] }
          advance (updTile s1 t (fun x => { x with nextTransfer := x.nextTransfer + 1 })) t k

/-- QIN (rules R169 to R171). -/
def execQin (tile : Nat) (st : KStream) (s : State) : Host.Outcome State Fault Refusal :=
  ok (issueAs s tile st (fun i w =>
    match i with
    | .q q => if q.out then none else some (issueQueue s tile st q w)
    | _ => none))

/-- QOUT (rules R169 to R171). -/
def execQout (tile : Nat) (st : KStream) (s : State) : Host.Outcome State Fault Refusal :=
  ok (issueAs s tile st (fun i w =>
    match i with
    | .q q => if q.out then some (issueQueue s tile st q w) else none
    | _ => none))

/-- Whether an entry is a fold stream: its consumer end is a virtual tile on a folded tile (rule R418). -/
def isFoldEntry (s : State) (x : StreamEntry) : Bool :=
  !x.outbound && (x.type == typeTile || x.type == typeRemote) && decide (1 < (getTile s x.ptile).fold)

/-- Remote transactions that may be in flight at a port for a suite: 4,096 shared in proportion to its slots, of which a PORT_SHARE counts
16 each (rules R252, R268, R394). -/
def remoteLimit (s : State) (n p : Nat) : Nat :=
  4096 * (((getSuite s n).res.ports.find? (fun h => h.1 == p)).map (fun h => h.2)).getD 0 / wholePort

/-- Remote transactions in flight on a port, and its peak (rules R252, R534). -/
def portInFlight (s : State) (p : Nat) : Nat :=
  (s.streams.filter (fun q => q.2.type == typeRemote && q.2.port == p)).foldl (fun c q => c + q.2.inFlight.length) 0
def notePeak (s : State) (x : StreamEntry) : State :=
  if x.type = typeRemote then updPort s x.port (fun p => { p with peak := max p.peak (portInFlight s x.port) }) else s

/-- Remote transactions of a suite in flight at a port. -/
def remoteInFlight (s : State) (n p : Nat) : Nat :=
  (s.streams.filter (fun q => q.2.type == typeRemote && q.2.suite == n && q.2.port == p)).foldl (fun c q => c + q.2.inFlight.length) 0

/-- Memory transactions of a tile in flight (rule R252). -/
def memoryInFlight (s : State) (t : Nat) : Nat :=
  (s.streams.filter (fun q => (q.2.type == typeMemory || q.2.type == typeInput) && q.2.ptile == t && decide (q.2.state ≠ .free))).foldl
    (fun c q => c + q.2.inFlight.length) 0

/-- The transfer that a landing works on: the first with a transaction still to start (rule R168). -/
def nextTransfer (y : Landing) : Option Transfer := y.queue.find? (fun t => decide (t.started < t.count))

/-- Whether what its stream did earlier to a BANK transfer's bank is done (rules R87, R118): no pass is outstanding; a merge waits until
earlier outbound transfers have read, and an outbound transfer until earlier merges are in. -/
def bankTurn (s : State) (t : Nat) (tr : Transfer) (outbound : Bool) : Bool :=
  let b := tr.tsBase / 16384
  (getTile s t).passes.all (fun p => p.bank != b)
    && (if outbound then (bankMerges s t b).all (fun y => decide (tr.id ≤ y.id)) else (bankReads s t b).all (fun y => decide (tr.id ≤ y.id)))

/-- Whether the next transaction of a transfer may start (rules R87, R118, R168, R171, R252, R276). -/
def mayStart (s : State) (t : Nat) (y : Landing) (tr : Transfer) : Bool :=
  let x := getEntry s tr.entry
  decide (y.creditsUsed < 256) && decide (x.inFlight.length < 32) && decide (x.state = .bound) && !x.draining
    && (if x.type = typeRemote then decide (remoteInFlight s x.suite x.port < remoteLimit s x.suite x.port)
        else if x.type = typeTile then true
        else decide (memoryInFlight s t < 1024))
    && (!(x.outbound && (x.type == typeTile || x.type == typeRemote)) || decide (x.posted % 2 ^ 32 ≠ x.seqNext))
    && (tr.layout != 2 || bankTurn s t tr x.outbound)

/-- Bytes that transaction `i` of an outbound transfer carries (rules R85, R170). -/
def outboundBytes (c : TileCore) (tr : Transfer) (i : Nat) : Bytes :=
  if tr.layout = 2 then
    let b := getBank c (tr.tsBase / 16384)
    (List.range 512).map (fun j =>
      let o := 512 * i + j
      (rawAcc .a192 (SMap.get 0 b.entries (tr.tsBase % 16384 + o / 24))).getD (o % 24) 0#8)
  else Memory.readN c.store (tr.tsBase + 512 * i) 512

/-- A word of an outbound transaction in which the code found a double-bit error: its values are poisoned for the reader (rule R112), and what
the eight bytes then are the spec does not say. -/
def loseWords (s : State) (tr : Transfer) (i : Nat) (ecc : List EccHit) (data : Bytes) : Bytes :=
  if tr.layout = 2 then data
  else (poisonedWords ecc).foldl (fun d w =>
    let at' := 8 * w - (tr.tsBase + 512 * i)
    if tr.tsBase + 512 * i ≤ 8 * w ∧ at' + 8 ≤ 512 then bytesAt d 0 at' ++ natLE (Config.freeNat 13 (s.free + at')) 8 ++ d.drop (at' + 8) else d) data

/-- Header and body of a DATA flit (rules R292, R293). -/
def dataContent (module entry cls tag : Nat) (data : Bytes) : Bytes :=
  natLE module 4 ++ natLE entry 2 ++ natLE cls 1 ++ natLE 0 1 ++ natLE tag 4 ++ data

/-- Post a slot for an inbound transaction at the far end (rules R171, R294). -/
def postSlots (s : State) (x : StreamEntry) (tag n : Nat) : State :=
  if x.type = typeTile then updEntry s x.peerEntry (fun p => { p with posted := (p.posted + n) % 2 ^ 32 })
  else sendControl s x.port (controlRec 1 n x.peerEntry (peerModule s x) tag)

/-- A transaction completes (rules R168, R172, R264): its places are given back, and its transfer with the last of them. -/
def finishTxn (s : State) (e : Nat) (txn : Txn) : State :=
  let x := getEntry s e
  let fl := x.inFlight.filter (fun t => t.tag != txn.tag)
  let s1 := setEntry s e { x with inFlight := fl, seqOldest := (fl.head?.map (fun t => t.tag)).getD x.seqNext }
  let y := getLanding s1 txn.tile txn.landing
  let q := y.queue.map (fun t => if t.id = txn.transfer then { t with done := t.done + 1 } else t)
  let s2 := setLanding s1 txn.tile txn.landing { y with
    queue := q.filter (fun t => !(t.id == txn.transfer && decide (t.count ≤ t.done))), creditsUsed := y.creditsUsed - 1 }
  if x.draining && fl.isEmpty then disableNow s2 e else s2

/-- The transfer that a transaction belongs to. -/
def transferOf (s : State) (txn : Txn) : Option Transfer := (getLanding s txn.tile txn.landing).queue.find? (fun t => t.id == txn.transfer)

/-- Pseudo-channels that the next transaction of a transfer reaches (rules R237, R252); none for a transfer that is not of memory. -/
def nextPcs (s : State) (t : Nat) (tr : Transfer) : List Nat :=
  let x := getEntry s tr.entry
  if x.type = typeTile ∨ x.type = typeRemote then []
  else
    match ctxOf s t tr.issuer with
    | none => []
    | some c =>
      match entryRegion s c x with
      | none => []
      | some r =>
        let a := r.1 + tr.sBase + 512 * tr.started
        ([a, a + 448].filterMap (fun b => place b (getSuite s c.suite).res.pcs (pcCapacity s))).map (fun p => p.1)

/-- Absorb one started transaction of a disabled unit (rules R256, R393, R480): it is counted, and its issuing stream faults with UNIT_DISABLED, consequent to the unit's record. -/
def absorbTxn (s : State) (e : Nat) (txn : Txn) : State :=
  let issuer := (transferOf s txn).map (fun t => t.issuer)
  let s1 := updEntry (finishTxn s e txn) e (fun x => { x with absorbed := satAdd 32 x.absorbed 1 })
  let s2 := updSuite s1 (getEntry s e).suite (fun su => { su with counts := { su.counts with absorbed := su.counts.absorbed + 1 } })
  match issuer with
  | none => s2
  | some k =>
    if (getStream s2 txn.tile k).fault = 0 then consequentRecord (stopStream s2 txn.tile k .unitDisabled) txn.tile k 0 else s2

/-- Whether an ownership check of the network fails (rules R266, R270): a slot that carried another route than its owner, or an access on a
pseudo-channel that is not of the suite. -/
def netViolation (s : State) (n : Nat) (o : NetObs) : Bool :=
  match o with
  | .slot link back slot route => decide (slotOwner s link back slot ≠ some route)
  | .access pc => !((getSuite s n).res.pcs.contains pc)

/-- A failed ownership check (rules R270, R279, R447): counted in the region's register, and recorded against the link, by the route id of the
slot's owner, or against the wing. How links without an owner are numbered the spec does not give. -/
def countViolation (s : State) (n step tag : Nat) (o : NetObs) : State :=
  let at1 : Nat × Nat × Nat := match o with
    | .slot link back slot _ => (wingOfLink link, 6, (slotOwner s link back slot).getD (Config.freeNat 15 s.free % 2 ^ 16))
    | .access pc => (pc / 64, 5, pc / 64)
  let s1 := updWing s at1.1 (fun w => { w with slotViol := satInc 16 w.slotViol })
  recordFault s1 (forSuite s1 n step { unitClass := at1.2.1, unitIndex := at1.2.2, cause := 0x0303, domain := 1, owner := false, location := tag })

/-- What a started transaction sends into the network (rules R171, R252, R266): a posted slot or its data; nothing where the network discards
it. -/
def sendStarted (s : State) (x : StreamEntry) (data : Bytes) : State :=
  if !x.outbound && (x.type == typeTile || x.type == typeRemote) && !(isFoldEntry s x) then postSlots s x x.seqNext 1
  else if x.outbound && x.type == typeRemote then sendFlit s x.port 1 0 (dataContent (peerModule s x) x.peerEntry 0 x.seqNext data)
  else s

/-- LANDING_TRANSACTION_START (rules R112, R168, R171, R252, R253, R264, R270): `ecc` is what the code found in what an outbound one reads, `net`
what the network's ownership checks saw of it. A transaction that a check discards stays incomplete. -/
def execLandingTransactionStart (tile landing : Nat) (ecc : List EccHit) (net : List NetObs) (s0 : State) : Host.Outcome State Fault Refusal :=
  let y := getLanding s0 tile landing
  match nextTransfer y with
  | none => ok s0
  | some tr =>
    let x := getEntry s0 tr.entry
    let s := if x.outbound then eccRead s0 tile tr.issuer tr.place ecc else s0
    let tl := getTile s tile
    let bad := net.filter (netViolation s x.suite)
    let data := if x.outbound then loseWords s0 tr tr.started ecc (outboundBytes tl.core tr tr.started) else []
    let txn : Txn := { tag := x.seqNext, tile := tile, landing := landing, transfer := tr.id, index := tr.started, data := data, step := tr.step
                       lost := if bad = [] then none else some s.faults.next
                       marks := if x.type = typeRemote then linkCounts (getPort s x.port) else [] }
    let tr1 := { tr with started := tr.started + 1, firstTag := if tr.started = 0 then x.seqNext else tr.firstTag }
    let s1 := setLanding s tile landing { y with
      queue := y.queue.map (fun q => if q.id = tr.id then tr1 else q), creditsUsed := y.creditsUsed + 1 }
    let s2 := setEntry s1 tr.entry { x with
      seqNext := (x.seqNext + 1) % 2 ^ 32, seqOldest := if x.inFlight = [] then x.seqNext else x.seqOldest, inFlight := x.inFlight ++ [txn] }
    let s3 := notePeak (if bad = [] then sendStarted s2 x data else bad.foldl (fun st o => countViolation st x.suite tr.step x.seqNext o) s2) x
    let t0 := getTile s0 tile
    whenDo (isTile tile && decide (landing < 4) && t0.suite.isSome && !t0.health.inReset && !t0.health.disabled && !t0.cdcHeld
        && mayStart s0 tile y tr && (nextPcs s0 tile tr).all (fun p => !(getWing s0 (p / 64)).inReset)) s0
      (if evalEnded s0 s tile then s else if (nextPcs s tile tr).any (fun p => unitOff s 3 p) then absorbTxn s3 tr.entry txn else s3)

/-- Tile-store address of byte `o` of a STRIPE transfer (rules R116, R254). -/
def stripeAt (f : Fmt) (kt base o : Nat) : Nat :=
  let el := o * 8 / f.bits
  let r := el / kt
  let k := el % kt
  let pos := k % stripeGroup f
  base + k / stripeGroup f * stripeSize f + r * stripeRow f
    + (match f with
       | .q4w | .q4a => pos / 2
       | .h16 => 2 * pos + o % 2
       | _ => pos)

/-- Write a transaction's bytes in stripe layout; the first to arrive zeroes the padding (rule R254). -/
def landStripe (m : Memory) (x : Tensor) (tr : Transfer) (i : Nat) (data : Bytes) : Memory :=
  let kt := x.shape.getLast?.getD 1
  let m0 := if tr.done = 0 then Memory.clear m tr.tsBase (stripeExtent x.fmt kt) else m
  (List.range 512).foldl (fun acc j => Memory.write acc (stripeAt x.fmt kt tr.tsBase (512 * i + j)) (data.getD j 0#8)) m0

/-- Add the 256 codes of a contribution (rule R324): unset columns take their base exponent, each code is an aligned addend, and
the flags of what was met are returned. -/
def landContribution (b : Bank) (first : Nat) (sigma base : Int) (data : Bytes) : Bank × Flags :=
  (List.range 256).foldl (fun acc j =>
    let e := first + j
    let col := e % 128
    let bk := if SMap.has acc.1.bases col then acc.1 else { acc.1 with bases := SMap.set acc.1.bases col base }
    match h16Value (fieldAt data (2 * j) 2) with
    | .poison => ({ bk with entries := SMap.set bk.entries e AccForm.a192.poisoned }, { acc.2 with poison := true })
    | .num d _ =>
      let a := alignAddend d (sigma - SMap.get 0 bk.bases col)
      (addEntry bk e a.1, if a.2 then { acc.2 with range := true } else acc.2)) (b, {})

/-- Merge a raw transfer's staged partials into their entries (rules R85, R170). -/
def mergeRaw (b : Bank) (first n : Nat) (staging : Memory) : Bank :=
  (List.range n).foldl (fun acc j => addEntry acc (first + j) (accOfRaw .a192 (Memory.readN staging (24 * j) 24))) b

/-- What an inbound transaction brings: its bytes, how far the second adder of a contribution differs (rule R324), and what the code found
in the entries that it is added to (rule R112). -/
structure Arrival where
  data : Bytes
  dup : Int := 0
  ecc : List EccHit := []

/-- Write an inbound transaction's bytes where its transfer puts them (rules R112, R168, R170, R254, R324). -/
def landInbound (s0 : State) (txn : Txn) (arr : Arrival) : State :=
  match transferOf s0 txn with
  | none => s0
  | some tr =>
    let data := arr.data
    let dup := arr.dup
    let t := txn.tile
    let s := if tr.layout = 2 then eccRead s0 t tr.issuer tr.place (arr.ecc.filter bankHit) else s0
    let c := (getTile s t).core
    let setCore := fun (c1 : TileCore) => updTile s t (fun y => { y with core := c1 })
    let ctx := ctxOf s t tr.issuer
    if evalEnded s0 s t then s
    else if tr.layout = 0 then setCore { c with store := Memory.writeN c.store (tr.tsBase + 512 * txn.index) data }
    else if tr.layout = 1 then
      match ctx.bind (fun x => ctxTensor x tr.tsTensor) with
      | none => s
      | some x => setCore { c with store := landStripe c.store x tr txn.index data }
    else
      let bk := tr.tsBase / 16384
      let first := tr.tsBase % 16384
      if tr.tsTensor = 0xFFFFFF then
        let staged := Memory.writeN tr.staging (512 * txn.index) data
        if tr.count ≤ tr.done + 1 then setCore (setBank c bk (mergeRaw (getBank c bk) first (tr.count / 3 * 64) staged))
        else
          let y := getLanding s t txn.landing
          setLanding s t txn.landing { y with queue := y.queue.map (fun q => if q.id = tr.id then { q with staging := staged } else q) }
      else
        match ctx with
        | none => s
        | some x =>
          match contribScales s x tr.tsTensor with
          | none => s
          | some g =>
            let r := landContribution (getBank c bk) (first + 256 * txn.index) g.1 g.2 data
            let s1 := raiseFlags (setCore (setBank c bk r.1)) t tr.issuer r.2
            if dup ≠ 0 then disagree s1 t tr.issuer 0x0105 tr.place [] else s1

/-- Suite-relative address of a memory transaction. -/
def memoryAddr (s : State) (x : StreamEntry) (txn : Txn) : Option Nat :=
  match transferOf s txn with
  | none => none
  | some tr =>
    match ctxOf s txn.tile tr.issuer with
    | none => none
    | some c => (entryRegion s c x).map (fun r => r.1 + tr.sBase + 512 * txn.index)

/-- Whether an observation falls on the 512 bytes of a transaction of a suite. -/
def obsOn (s : State) (n a : Nat) (o : MemObs) : Bool :=
  let pcs := (getSuite s n).res.pcs
  let hit := fun (key : Nat) => match suiteAddr pcs key with
    | some v => decide (a / 64 * 64 ≤ v) && decide (v < a + 512)
    | none => false
  match o with
  | .corrected pc l => hit (hbmKey pc (l / 64 * 64))
  | .uncorrectable pc l => hit (hbmKey pc (l / 64 * 64))
  | .cacheCorrected _ => true
  | .cacheCleanUe _ line => hit (512 * line) || hit (512 * line + 511)
  | .cacheDirtyUe _ line _ off => hit (512 * line + off % 512 / 64 * 64)

/-- Touch the lines of the granules of a write or read of at most 512 bytes (rule R249), with the accesses that fall in each. -/
def touchLines (s : State) (n a : Nat) (streamPolicy write : Bool) : State :=
  let first := 8 - a % 512 / 64
  ([(a, first)] ++ (if first < 8 then [(a / 512 * 512 + 512, 8 - first)] else [])).foldl (fun st v =>
    match place v.1 (getSuite st n).res.pcs (pcCapacity st) with
    | none => st
    | some (pc, l) => touchLine st n (hbmKey pc l) v.2 streamPolicy write) s

/-- Whether an observation loses data. -/
def losesData (o : MemObs) : Bool :=
  match o with
  | .uncorrectable _ _ => true
  | _ => false

/-- A memory or input read completes (rules R172, R240, R250, R272). -/
def completeRead (s : State) (e : Nat) (x : StreamEntry) (txn : Txn) (a : Nat) (obs : List MemObs) (dup : Int) (ecc : List EccHit) : State :=
  let ks := ((transferOf s txn).map (fun t => [t.issuer])).getD []
  let seen := obs.filter (obsOn s x.suite a)
  let met := seen.foldl (fun st o => memObs st txn.step (opHere st txn.tile ks) (entryEval s e) 0x0200 o) s
  let s1 := touchLines met x.suite a x.policyStream false
  let data := if a % 512 ≠ 0 ∧ seen.any losesData = true then List.replicate 512 0#8 else suiteBytes s1 x.suite a 512
  finishTxn (landInbound s1 txn ⟨data, dup, ecc⟩) e txn

/-- A tensor, by the image of the suite. -/
def suiteTensor (s : State) (n id : Nat) : Option Tensor :=
  (getSuite s n).image.bind (fun im => if SMap.has im.tensors id then some (SMap.get {} im.tensors id) else none)

/-- Digest of the eight blocks that a write covers, added to the step's or the window's digest of the tensor (rules R42, R43, R59, R233). -/
def digestWrite (s : State) (x : StreamEntry) (txn : Txn) (off : Nat) (data : Bytes) (eval : Bool) : State :=
  let h := (List.range 8).foldl (fun acc i =>
    (acc + blockHash (hashedBytes (suiteTensor s x.suite x.tensor) (off / 64 + i) (bytesAt data (64 * i) 64)) x.tensor (off / 64 + i)) % 2 ^ 128) 0
  if eval then
    updSuite s x.suite (fun su => { su with window := su.window.map (fun v => { v with digests := addDigest v.digests x.tensor h }) })
  else updStep s x.suite txn.step (fun a => { a with digests := addDigest a.digests x.tensor h })

/-- A memory write completes: acknowledged, visible and digested (rules R42, R172). -/
def completeWrite (s : State) (e : Nat) (x : StreamEntry) (txn : Txn) (a : Nat) : State :=
  let s1 := suiteSetBytes (touchLines s x.suite a x.policyStream true) x.suite a txn.data
  finishTxn (digestWrite s1 x txn (a - x.regionBase) txn.data (entryEval s e)) e txn

/-- A transaction that arrives for a fold stream takes the slot of its tag, counted from the slots filled at the last resume
(rules R418, R437). -/
def bufferFold (x : StreamEntry) (tag : Nat) (data : Bytes) : StreamEntry :=
  { x with foldBuffer := SMap.set x.foldBuffer ((x.foldBase + tag) % 2 ^ 32) data, foldGot := x.foldGot + 1 }

/-- An outbound tile transaction is delivered: into the fold buffer of a fold stream, else into the slot of its tag, which it
completes with itself (rules R171, R172, R418). -/
def completeTile (s : State) (e : Nat) (x : StreamEntry) (txn : Txn) (dup : Int) (ecc : List EccHit) : State :=
  let p := getEntry s x.peerEntry
  if isFoldEntry s p then
    finishTxn (setEntry s x.peerEntry (bufferFold p txn.tag txn.data)) e txn
  else
    match p.inFlight.find? (fun t => t.tag == txn.tag) with
    | some slot => finishTxn (finishTxn (landInbound s slot ⟨txn.data, dup, ecc⟩) x.peerEntry slot) e txn
    | none => strayTag s x.peerEntry txn.tag

/-- A consumer's `qin` takes its bytes from the fold buffer (rule R418). -/
def completeFold (s : State) (e : Nat) (x : StreamEntry) (txn : Txn) (dup : Int) (ecc : List EccHit) : State :=
  if SMap.has x.foldBuffer txn.tag then
    let s1 := setEntry s e { x with foldBuffer := SMap.erase x.foldBuffer txn.tag }
    finishTxn (landInbound s1 txn ⟨SMap.get [] x.foldBuffer txn.tag, dup, ecc⟩) e txn
  else s

/-- TRANSACTION_COMPLETE (rules R172, R270 to R272): a response whose tag a timeout has retired is late, and one with any other tag that is not
in flight is a tag violation (rule R277). A transaction that the network discarded does not complete; a remote one completes by DATA_FLIT or
ACK. -/
def execTransactionComplete (entry tag : Nat) (obs : List MemObs) (dup : Int) (ecc : List EccHit) (s : State) : Host.Outcome State Fault Refusal :=
  let x := getEntry s entry
  match x.inFlight.find? (fun t => t.tag == tag) with
  | none => whenDo (isEntry entry && decide (x.state ≠ .free)) s (strayTag s entry tag)
  | some txn =>
    let eff :=
      if txn.lost.isSome then s
      else if isFoldEntry s x then completeFold s entry x txn dup ecc
      else if x.type = typeTile then (if x.outbound then completeTile s entry x txn dup ecc else s)
      else if x.type = typeRemote then s
      else
        match memoryAddr s x txn with
        | none => s
        | some a =>
          if x.outbound then completeWrite s entry x txn a
          else if x.type = typeInput ∧ (getSuite s x.suite).readyStep < txn.step then s
          else completeRead s entry x txn a obs dup ecc
    whenDo (isEntry entry && decide (x.state = .bound)) s eff

/-- Give back a class's buffer to the far end of a port (rules R294, R296). -/
def returnCredit (s : State) (p cls : Nat) : State := sendControl s p (controlRec 5 1 cls 0 0)

/-- DATA_FLIT (rules R11, R171, R293 to R297): the transaction lands in the slot of its tag and is acknowledged, or is forwarded, or is
discarded and counted, as one with a reserved bit set is. Its buffer is free again with that, or when the forwarded flit has left. -/
def execDataFlit (port : Nat) (body : Bytes) (ecc : List EccHit) (s : State) : Host.Outcome State Fault Refusal :=
  let module := fieldAt body 0 4
  let e := fieldAt body 4 2
  let cls := fieldAt body 6 1 % 4
  let tag := fieldAt body 8 4
  let data := bytesAt body 12 512
  let x := getEntry s e
  let s0 := returnCredit s port cls
  let ack := fun (st : State) => sendControl st x.port (controlRec 2 1 x.peerEntry (peerModule s x) tag)
  let eff :=
    if 3 < fieldAt body 6 1 ∨ fieldAt body 7 1 ≠ 0 then discardAt s0 port false
    else if (getPort s port).linkVersion = 1 ∧ 1 < cls then discardAt s0 port false
    else if module = ownId s ∨ module = 0xFFFFFFFF then
      if !(ownsPort s port e) then discardAt s0 port true
      else if isFoldEntry s x then ack (setEntry s0 e (bufferFold x tag data))
      else
        match x.inFlight.find? (fun t => t.tag == tag) with
        | some slot => if x.outbound || slot.lost.isSome then strayTag s0 e tag else ack (finishTxn (landInbound s0 slot ⟨data, 0, ecc⟩) e slot)
        | none => strayTag s0 e tag
    else if cls = 3 then discardAt s0 port false
    else
      match forwardPort s port module with
      | some q =>
        if (getPort s q).linkVersion = 1 ∧ 1 < cls + 1 then discardAt s0 port false
        else forwardFlit s q (cls + 1) (dataContent module e (cls + 1) tag data) (port, cls)
      | none => discardAt s0 port false
  whenDo (portUpFor s port && decide (body.length = 524)) s eff

/-- CREDIT (rules R171, R294): COUNT slots are posted from tag TAG. -/
def execCredit (port : Nat) (rec : Bytes) (s : State) : Host.Outcome State Fault Refusal :=
  whenDo (portUpFor s port && fieldAt rec 0 1 == 1) s
    (controlIn s port rec (fun e =>
      let x := getEntry s e
      if x.outbound && decide (x.state = .bound) then
        setEntry s e { x with posted := (fieldAt rec 8 4 + fieldAt rec 1 1 + 1) % 2 ^ 32 }
      else s))

/-- One acknowledged tag of an outbound entry. -/
def ackTag (s : State) (e tag : Nat) : State :=
  let x := getEntry s e
  match x.inFlight.find? (fun t => t.tag == tag) with
  | some txn => if x.outbound && txn.lost.isNone then finishTxn s e txn else strayTag s e tag
  | none => strayTag s e tag

/-- ACK (rules R172, R277, R294): transactions TAG to TAG + COUNT − 1 are written at the far end. -/
def execAck (port : Nat) (rec : Bytes) (s : State) : Host.Outcome State Fault Refusal :=
  whenDo (portUpFor s port && fieldAt rec 0 1 == 2) s
    (controlIn s port rec (fun e =>
      (List.range (fieldAt rec 1 1 + 1)).foldl (fun st i => ackTag st e ((fieldAt rec 8 4 + i) % 2 ^ 32)) s))

/-- Slots that the fold buffers of a suite post at the start of a step or of a window (rules R411, R418). -/
def postFold (s : State) (n : Nat) (eval : Bool) : State :=
  let su := getSuite s n
  match su.image with
  | none => s
  | some im =>
    (List.range im.decls.length).foldl (fun st i =>
      let e := 1024 * su.res.baseBlock + i
      let x := getEntry st e
      let count := (im.decls[i]?.map (fun d => if eval then d.evalCount else d.trainCount)).getD 0
      if isFoldEntry st x && decide (x.state = .bound) && decide (0 < count) then
        let s1 := setEntry st e { x with posted := (x.posted + count) % 2 ^ 32 }
        if x.type = typeTile then postSlots s1 x x.posted count
        else (List.range ((count + 255) / 256)).foldl (fun q j =>
          postSlots q x ((x.posted + 256 * j) % 2 ^ 32) (min 256 (count - 256 * j))) s1
      else st) s

/-- Every U stream of a suite has ended the steps before `u`: the state tensors hold the state after step u − 1 (rules R218, R336). -/
def updatesPast (s : State) (n u : Nat) : Bool :=
  ((suiteStreams s n).filter (fun p => decide (p.2 = .u))).all (fun p => decide (u ≤ (getStream s p.1 p.2).step))
    && (getSuite s n).saves.all (fun p =>
      s.tiles.any (fun q => decide (q.2.suite = some n) && q.2.vtile == p.1) || decide (u ≤ p.2.u.step))

/-- Copy a suite's state tensors and scale table into the snapshot slot of step `u` (rule R336). -/
def takeSnapshot (s : State) (n u : Nat) : State :=
  let su := getSuite s n
  match su.image with
  | none => s
  | some im =>
    let m := im.tensors.foldl (fun acc p =>
      let x : Tensor := p.2
      if x.role = 3 ∨ x.role = 4 ∨ x.role = 5 then suiteCells s n x.base (storedBytes x) x.base acc else acc) []
    setSuite s n { su with snapshots := SMap.set su.snapshots (u % 2) { step := u, state := m, scale := su.scale } }

/-- Pass a stream through its step gate into step `u` (rules R179, R336, R418): the first stream into a step posts the fold
buffers' slots, and stream U leaves a snapshot of the state after the step before where the job keeps snapshots. -/
def passGate (s : State) (t : Nat) (k : KStream) (n u : Nat) : State :=
  let s1 := setStream s t k { getStream s t k with phase := .ready, stall := 0, stopped := false }
  let su := getSuite s1 n
  let s2 := if su.foldStep < u then postFold (setSuite s1 n { su with foldStep := u }) n false else s1
  let snapDone := match (getSuite s2 n).snapshots.find? (fun p => p.2.step == u - 1) with
    | some _ => true
    | none => false
  if k = .u ∧ (getSuite s2 n).job.snapshot = true ∧ snapDone = false then takeSnapshot s2 n (u - 1) else s2

/-- STEP_GATE_OPEN (rules R179, R221, R336): the Hall opens the stream's gate into its next step. With snapshots, U waits until
every U stream has ended the step before. -/
def execStepGateOpen (tile : Nat) (st : KStream) (s : State) : Host.Outcome State Fault Refusal :=
  let x := getStream s tile st
  match (getTile s tile).suite with
  | none => ok s
  | some n =>
    whenDo (tileRuns s tile && !x.halted && x.fault == 0 && decide (x.phase = .atGate)
        && executing (getSuite s n) && gateOpen s n st x.step
        && (!((getSuite s n).job.snapshot && decide (st = .u)) || updatesPast s n x.step)) s
      (passGate s tile st n x.step)

end Sys2Proof.Machine
end

