-- ==== Sys2Proof/Machine/SuiteOps.lean ====
section
/-!
DEFINITION. The life of a suite's tiles and entries: mapping the virtual grid, binding streams, saving and restoring tiles, suite
resets and restores (rules R258 to R264 of 12_streams_and_routes.md, R414 to R419 of 18_images_and_the_loader.md, R433 to R443 of
19_suites_and_preemption.md, R478 to R481 of 21_bringup_reset_and_firmware.md).
-/
namespace Sys2Proof.Machine

/-- The tiles a suite may be mapped on, ascending (rules R415, R458, R459): usable, not about to retire, not excluded. -/
def suiteTiles (s : State) (n : Nat) : List Nat :=
  let su := getSuite s n
  (List.range 80).filter (fun t => su.res.tiles.contains t && usableTile s t && !(getTile s t).health.pendingRetire
    && (List.range 4).all (fun l => !unitOff s 1 (t * 4 + l)) && !su.excluded.contains t)

/-- Whether a pseudo-channel is usable (rules R244, R393, R394): its wing is enabled, it is neither retired nor disabled. -/
def usablePc (s : State) (pc : Nat) : Bool :=
  decide (pc < 512) && wingPresent s (pc / 64) && !(s.attic.pcsRetired.contains pc) && !(unitOff s 3 pc)

/-- The suite's pseudo-channels that are planned at a load (rules R244, R393): those granted and usable, without those whose retirement
takes effect with it. -/
def plannedPcs (s : State) (n : Nat) : List Nat :=
  (getSuite s n).res.granted.filter (fun pc => usablePc s pc && !(s.attic.pcsMarked.contains pc))

/-- The retirements that wait for a suite's next load or resume take effect (rules R244, R251, R458). -/
def settlePcs (s : State) (n : Nat) : State :=
  let due := s.attic.pcsMarked.filter (fun pc => (getSuite s n).res.granted.contains pc)
  if due = [] then s
  else dropLines { s with attic := { s.attic with pcsMarked := s.attic.pcsMarked.filter (fun pc => !(due.contains pc))
                                                  pcsRetired := s.attic.pcsRetired ++ due } } due

/-- Plan a suite's memory at a resume without the pseudo-channels that are no longer usable (rules R237, R244, R393): its contents move with
it. -/
def replan (s0 : State) (n : Nat) : State :=
  let s := settlePcs s0 n
  let su := getSuite s n
  let pcs := plannedPcs s n
  if pcs = su.res.pcs then s
  else
    let cap := su.res.pcs.length * pcCapacity s
    let cells := suiteCells s n 0 cap 0 []
    let s1 := updSuite (suiteClear s n 0 cap) n (fun x => { x with res := { x.res with pcs := pcs } })
    cells.foldl (fun st c => suiteSetByte st n c.1 c.2) s1

/-- The virtual grid on `L` (rule R415). -/
def gridMap (v : Nat) (l : List Nat) : SMap Nat :=
  (List.range v).map (fun i => (i, if v ≤ l.length then l.getD (i * l.length / v) 0 else l.getD (i % l.length) 0))

/-- The fold factor (rule R415). -/
def foldFactor (v p : Nat) : Nat := if v ≤ p then 1 else (v + p - 1) / p

/-- A stream before its first step: it stands at its gate into step `first`. -/
def freshStream (first : Nat) : KState := { step := first, phase := .atGate, stall := 7 }

/-- Token holders of an image's tile (rules R129, R407). -/
def holderTokens (h : Nat) : List TokenState :=
  (List.range 11).map (fun i =>
    match bits h (2 * i) 2 with
    | 0 => .held .f
    | 1 => .held .b
    | 2 => .held .u
    | _ => .none)

/-- A virtual tile as a load or a resume from a checkpoint leaves it: all zero, tokens as the image says (rules R110, R129). -/
def freshCore (v : VTileImage) (first : Nat) : TileCore :=
  { tokens := holderTokens v.holders, f := freshStream first, b := freshStream first, u := freshStream first }

/-- What a save slot keeps of a tile (rule R436): the store below TS_BYTES and the banks with a set column. -/
def slotOf (im : Image) (c : TileCore) : TileCore :=
  { c with
    store := c.store.filter (fun q => decide (q.1 < im.tsBytes))
    banks := c.banks.filter (fun q => !q.2.bases.isEmpty) }

/-- Put a virtual tile on a physical tile, everything that a save does not keep as at load (rules R110, R134, R436). -/
def seat (x : Tile) (n v fold : Nat) (c : TileCore) : Tile :=
  { x with health := { x.health with blank := false }, core := c, suite := some n, vtile := v, fold := fold, saved := false, evalMode := false, vregs := [], masks := [], units := [],
           landings := [], passes := [], verdicts := [] }

/-- Take every resident tile from a suite. -/
def unseatAll (s : State) (n : Nat) : State :=
  { s with tiles := s.tiles.map (fun p => if p.2.suite = some n then (p.1, unseat p.2) else p) }

/-- Retire the tiles of a suite whose retirement waited until it is PREEMPTED or LOADED (rules R444, R458). -/
def settleRetirement (s : State) (n : Nat) : State :=
  (getSuite s n).res.tiles.foldl (fun st t =>
    let h := (getTile st t).health
    if h.pendingRetire && !(tileBusy st t) then retireTile st t else st) s

/-- Whether a START keeps the map of the load: every tile of it is still usable (DESIGN CHOICE, assumption 57). -/
def keepsMap (s : State) (n : Nat) (im : Image) (fresh : Bool) : Bool :=
  let m := (getSuite s n).vmap
  !fresh && decide (m.length = im.v) && m.all (fun q => (suiteTiles s n).contains q.2)

/-- The map of a suite's virtual grid (rules R415, R423, R437): afresh at a load or resume. -/
def suiteMap (s : State) (n : Nat) (im : Image) (fresh : Bool) : SMap Nat :=
  if keepsMap s n im fresh then (getSuite s n).vmap else gridMap im.v (suiteTiles s n)

/-- The load registers with P of the map in force (rules R415, R424). -/
def mapReg (s : State) (n : Nat) (im : Image) (fresh : Bool) : LoadReg :=
  let l := (getSuite s n).load
  if keepsMap s n im fresh then l else { l with ptiles := (suiteTiles s n).length }

/-- The fold factor of a map. -/
def foldOf (v : Nat) (m : SMap Nat) : Nat := foldFactor v ((m.map (fun q => q.2)).eraseDups.length)

/-- Map a suite's virtual grid and seat its resident virtual tiles; the others wait in the save area (rules R415 to R417, R437). `cores` gives
each virtual tile's state. -/
def mapSuite (s : State) (n : Nat) (cores : SMap TileCore) (fresh : Bool) : State :=
  let su := getSuite s n
  match su.image with
  | none => s
  | some im =>
    let l := suiteTiles s n
    let m := suiteMap s n im fresh
    let s1 := unseatAll s n
    let s2 := l.foldl (fun st t =>
      match m.filter (fun q => q.2 == t) with
      | [] => st
      | (v, _) :: rest => updTile st t (fun x => seat x n v (rest.length + 1) (SMap.get {} cores v))) s1
    let away := cores.filter (fun q => !(l.any (fun t => (getTile s2 t).suite == some n && (getTile s2 t).vtile == q.1)))
    setSuite s2 n { su with vmap := m, fold := foldOf im.v m, load := mapReg s n im fresh, saves := away }

/-- Whether a suite's grid can be mapped (rule R415). -/
def mappable (s : State) (n : Nat) : Bool :=
  match (getSuite s n).image with
  | none => false
  | some im => let p := (suiteTiles s n).length; decide (0 < p) && decide (foldFactor im.v p ≤ 16)

/-- Stream n's entry in a suite's range (rule R260). -/
def entryOf (su : Suite) (i : Nat) : Nat := 1024 * su.res.baseBlock + i

/-- The rank at an offset within the rank's own instance of a family (rules R411, R412). -/
def peerRankOf (im : Image) (fam : Nat) (off : Int) (rank nRanks : Nat) : Nat :=
  match im.plan.families[fam]? with
  | none => rank
  | some f =>
    let m := max 1 (countOf f.count nRanks)
    let st := max 1 f.stride
    let i := rank / st % m
    (rank - st * i) + st * (((i : Int) + off) % (m : Int)).toNat

/-- Build a suite's routes for its map (rules R267, R277): those it had are given up. -/
def buildRoutes (s : State) (n : Nat) : State :=
  let su := getSuite s n
  match su.image with
  | none => s
  | some im => setSuite s n { su with routes := (planRoutes s n (neededRoutes su im su.vmap su.res.pcs)).getD [] }

/-- Route id of an image stream: at both ends of a TILE stream that of its sending end (rules R261, R267). -/
def routeOf (su : Suite) (i : Nat) (d : StreamDecl) : Nat :=
  if d.type = 2 ∧ !d.outbound then routeId su (.stream d.peerStream)
  else if d.type = 2 ∨ d.type = 3 then routeId su (.stream i)
  else 0xFFFF

/-- First entry of the range of a rank's suite (rules R260, R263): of another module it is a free value of the job and the rank. -/
def rankBase (s : State) (su : Suite) (rank : Nat) : Nat :=
  match s.suites.find? (fun p => p.2.job.rank == some rank && decide (p.2.state ≠ .absent) && p.2.job.lineage == su.job.lineage) with
  | some p => if SMap.get 0xFFFFFFFF su.job.map rank = ownId s then 1024 * p.2.res.baseBlock
    else 1024 * (Config.freeNat 16 (leNat (bytesAt su.job.lineage 0 16 ++ natLE rank 4)) % 64)
  | none => 1024 * (Config.freeNat 16 (leNat (bytesAt su.job.lineage 0 16 ++ natLE rank 4)) % 64)

/-- An entry as the loader or a resume binds it, tags at zero (rules R260 to R264). `remote` says that the far ends are known. -/
def boundEntry (s : State) (n i : Nat) (d : StreamDecl) (im : Image) (remote : Bool) : StreamEntry :=
  let su := getSuite s n
  let x : Tensor := SMap.get {} im.tensors d.tensor
  let reg := if d.type = 0 then (x.base, storedBytes x)
    else if d.type = 1 then ((bindingOf su d.tensor 0).map (fun b => (b.base, b.len))).getD (0, 0)
    else (0, 0)
  let peer := peerRankOf im d.family d.offset (su.job.rank.getD 0) su.job.nRanks
  { state := if unitOff s 2 (entryOf su i) then .disabled else if d.type = 3 ∧ !remote then .unbound else .bound
    type := d.type, tclassInput := d.type == 1, landing := d.landing, outbound := d.outbound, policyStream := d.policyStream
    suite := n, vtile := d.vtile, ptile := SMap.get 0 su.vmap d.vtile
    port := if d.type = 3 then imagePortOf su d.imagePort else 0xFF
    route := routeOf su i d
    regionBase := reg.1, regionLen := reg.2, tensor := d.tensor
    peerRank := if d.type = 3 then (if remote then peer else 0) else if d.type = 2 then d.peerVtile else 0
    peerEntry := if d.type = 2 then entryOf su d.peerStream else if d.type = 3 ∧ remote then rankBase s su peer + d.peerStream else 0 }

/-- How the entries of a suite are bound afresh: whether the far ends of REMOTE streams are known (rule R263); whether fold buffers keep what no
`qin` has taken (rules R418, R437); whether an entry that is TIMED_OUT or DISABLED stays so, for want of a reset, load or resume (rule R262). -/
structure BindAs where
  remote : Bool := false
  keep : Bool := false
  stay : Bool := false

/-- An entry bound afresh in an old one's place (rules R261, R262, R418): its counts run on since the load. -/
def rebound (x old : StreamEntry) (how : BindAs) : StreamEntry :=
  let base := old.foldBuffer.length
  let state := if how.stay ∧ (old.state = .timedOut ∨ old.state = .disabled) then old.state else x.state
  if how.keep then
    { x with state := state, foldBuffer := (List.range base).zip (old.foldBuffer.map (fun q => q.2)), foldBase := base, foldGot := base,
             posted := base + (old.posted - old.foldGot), absorbed := old.absorbed, late := old.late }
  else { x with state := state, absorbed := old.absorbed, late := old.late }

/-- Bind every entry of a suite afresh over its routes (rules R262, R263, R437); with `keep` the fold buffers' unfilled slots are posted
again (rules R418, R437). -/
def bindEntries (s0 : State) (n : Nat) (how : BindAs) : State :=
  let s := buildRoutes s0 n
  let su := getSuite s n
  match su.image with
  | none => s
  | some im =>
    let put := fun (st : State) (i : Nat) =>
      match im.decls[i]? with
      | none => st
      | some d => setEntry st (entryOf su i) (rebound (boundEntry s n i d im how.remote) (getEntry s (entryOf su i)) how)
    let s1 := (List.range im.decls.length).foldl put s
    if how.keep then
      (List.range im.decls.length).foldl (fun st i =>
        let e := entryOf su i
        let x := getEntry st e
        let left := x.posted - x.foldGot
        if isFoldEntry st x && decide (x.state = .bound) && decide (0 < left) then
          (List.range ((left + 255) / 256)).foldl (fun q j => postSlots q x (256 * j) (min 256 (left - 256 * j))) st
        else st) s1
    else s1

/-- Free every entry of a suite's range. -/
def freeEntries (s : State) (n : Nat) : State :=
  { s with streams := s.streams.filter (fun q => !(decide (q.2.state ≠ .free) && q.2.suite == n)) }

/-- Transactions of a suite in flight. -/
def suiteInFlight (s : State) (n : Nat) : Nat :=
  (s.streams.filter (fun q => decide (q.2.state ≠ .free) && q.2.suite == n)).foldl (fun c q => c + q.2.inFlight.length) 0

/-- Entries of a suite that are bound. -/
def suiteEntries (s : State) (n : Nat) : List Nat :=
  (s.streams.filter (fun q => decide (q.2.state ≠ .free) && q.2.suite == n)).map (fun q => q.1)

/-- Absorb every transaction and queued transfer of an entry without changing its state. -/
def absorbAll (s : State) (e : Nat) : State := absorbEntry s e (getEntry s e).state 0 true

/-- Drop the transfers of an entry that have not begun. -/
def dropQueued (s : State) (e : Nat) : State :=
  let x := getEntry s e
  let l := entryLanding x
  let y := getLanding s x.ptile l
  let q := y.queue.map (fun t => if t.entry = e then { t with count := t.started } else t)
  setLanding s x.ptile l { y with queue := q.filter (fun t => t.entry != e || decide (t.done < t.count)) }

/-- Step 2 of a suite reset at one entry (rule R481): queued transfers, waiting INPUT transactions and posted slots are absorbed; the
far end of a REMOTE entry is told. -/
def stopEntry (s : State) (e : Nat) : State :=
  let x := getEntry s e
  let n := unstarted s e
  let s1 := if x.type = typeInput ∨ (!x.outbound ∧ x.type ≠ typeMemory) then absorbAll s e
    else
      let s2 := dropQueued s e
      updSuite (updEntry s2 e (fun y => { y with absorbed := satAdd 32 y.absorbed n })) x.suite
        (fun su => { su with counts := { su.counts with absorbed := su.counts.absorbed + n } })
  if x.type = typeRemote ∧ x.state = .bound then sendControl s1 x.port (controlRec 4 1 x.peerEntry (peerModule s x) 0xFFFFFFFF) else s1

/-- Halt every stream of a suite's resident tiles (rules R335, R481). -/
def haltSuiteTiles (s : State) (n : Nat) : State :=
  { s with tiles := s.tiles.map (fun p => if p.2.suite = some n then (p.1, { p.2 with core := haltCore p.2.core }) else p) }

/-- Forget everything that a suite recorded of steps `u` and later (rules R97, R335). -/
def discardFrom (s : State) (n u : Nat) : State :=
  let su := getSuite s n
  let gone := su.checkpoints.filter (fun c => !c.complete && decide (u ≤ c.step))
  let s1 := setSuite s n { su with
    steps := su.steps.filter (fun p => decide (p.1 < u))
    ring := su.ring.filter (fun p => decide (p.2.step < u))
    scale := su.scale.map (fun p => (p.1, { p.2 with ring := p.2.ring.filter (fun r => decide (r.2.step < u)) }))
    snapshots := su.snapshots.filter (fun p => decide (p.2.step < u))
    checkpoints := su.checkpoints.filter (fun c => c.complete || decide (c.step < u))
    counts := { su.counts with satStep := min su.counts.satStep (u - 1) } }
  gone.foldl (fun st c => suiteEvent st n 0x0480 (natLE c.step 4 ++ natLE 0x0401 2 ++ natLE 0 2 ++ natLE c.id 4)) s1

/-- The step number after the last that a suite has completed. -/
def openStep (s : State) (n : Nat) : Nat := lowestStep s n

/-- Pending windows of a step from `u` on are not performed: their events report a status (rules R340, R401); those before wait on. -/
def dropWindows (s : State) (n u status : Nat) : State :=
  let l := windowsOf (getSuite s n)
  let keep := (l.filter (fun w => decide (w.step < u))).map (fun w => { w with started := false, saves := [], resident := [], programsDone := [], entries := [] })
  (l.filter (fun w => decide (u ≤ w.step))).foldl (fun st w => windowEvent st n w status) (updSuite s n (fun su => setWindows su keep))

/-- A pending window or checkpoint of a step from `u` on is not performed: its event reports a status (rules R340, R441). -/
def dropPending (s : State) (n u status : Nat) : State :=
  let l := ckptsOf (getSuite s n)
  (l.filter (fun e => decide (u ≤ e.step))).foldl (fun st e => ckptEvent st n e status)
    (updSuite (dropWindows s n u status) n (fun su => setCkpts su (l.filter (fun e => decide (e.step < u)))))

/-- The step into which the U streams of a rank have gone furthest; without a seated or saved stream, the one after which its state stands
(rule R31). -/
def uEntered (s : State) (n : Nat) : Nat :=
  let entered := fun (x : KState) => if x.phase = .atGate then x.step - 1 else x.step
  let here := (suiteStreams s n).filterMap (fun p => if p.2 = .u then some (entered (getStream s p.1 p.2)) else none)
  let away := (getSuite s n).saves.filterMap (fun p =>
    if s.tiles.any (fun q => decide (q.2.suite = some n) && q.2.vtile == p.1) then none else some (entered p.2.u))
  match here ++ away with
  | [] => (getSuite s n).heldStep
  | x :: xs => xs.foldl max x

/-- Keep the step after which a suite's state stands, before its streams go. -/
def holdStep (s : State) (n : Nat) : State := updSuite s n (fun su => { su with heldStep := uEntered s n })

/-- Begin a suite reset (rule R481): gates close, streams halt, queued work goes, started transactions drain. -/
def beginReset (s : State) (n : Nat) : State :=
  let su := getSuite s n
  let s1 := if su.state = .loaded then s else haltSuiteTiles s n
  let s2 := (suiteEntries s1 n).foldl stopEntry s1
  let s3 := updSuite (dropPending (restoreWindow s2 n) n 0 0x0401) n (fun x => { x with
    slice := { x.slice with stopping := false, waitingSlice := false, stopAfter := none, resumeAsked := false } })
  if su.state = .running ∨ su.state = .faulted then setSuiteState s3 n .draining else s3

/-- Halt a suite at step `u` for its job (rule R335): streams halt, in-flight transactions are absorbed, results of steps from
`u` on go, and the suite resets; unless the job stops (rule R332), it then restores. -/
def haltForRollback (s : State) (n u : Nat) : State :=
  let st0 := (getSuite s n).state
  let s0 := dropPending (restoreWindow s n) n u 0x0301
  let keep := getSuite s0 n
  let none1 := updSuite s0 n (fun su => setCkpts (setWindows su []) [])
  let s1 := (suiteEntries none1 n).foldl absorbAll (haltSuiteTiles none1 n)
  let s2 := updSuite (beginReset (discardFrom s1 n u) n) n (fun x => setCkpts (setWindows x (windowsOf keep)) (ckptsOf keep))
  let s3 := if st0 = .preempted then setSuiteState s2 n .draining else s2
  updSuite s3 n (fun x => { x with job := { x.job with rollback := !x.job.stopHalt, haltStep := u, haltBell := none } })

/-- Reset a tile (rules R478, R479): everything but its health and its meter. -/
def zeroTile (x : Tile) : Tile :=
  { unseat x with gov := { energyUj := x.gov.energyUj }, counts := {}, cdcHeld := false, cdcPending := 0 }

/-- Reset the resident tiles of a suite. -/
def zeroSuiteTiles (s : State) (n : Nat) : State :=
  { s with tiles := s.tiles.map (fun p => if p.2.suite = some n then (p.1, zeroTile p.2) else p) }

/-- A suite after its drain (rule R481): tiles reset, save area gone, entries fresh with tags zero, bell slots all ones; of a LOADED
suite the entries and slots only. -/
def finishReset (s : State) (n : Nat) : State :=
  let su := getSuite s n
  let s1 := if su.state = .loaded then s else discardFrom (zeroSuiteTiles (holdStep s n) n) n (openStep s n)
  let s2 := setSuite s1 n { getSuite s1 n with slots := [], saves := [], vmap := su.vmap }
  let s3 : State := { s2 with bringup := { s2.bringup with suiteResets := satInc 16 s2.bringup.suiteResets } }
  settleRetirement (bindEntries s3 n {}) n

/-- Whether a suite's drain is done: nothing is in flight but what no timer ends. -/
def drained (s : State) (n : Nat) : Bool := suiteInFlight s n == 0

/-- State tensors (rule R216, Note 3). -/
def stateTensors (im : Image) : List (Nat × Tensor) :=
  im.tensors.filter (fun p => let x : Tensor := p.2; x.role == 3 || x.role == 4 || x.role == 5)

/-- Write saved state tensors back and zero to every other tensor (rule R440); an INPUT tensor's windows are not tensor storage. -/
def restoreTensors (s : State) (n : Nat) (m : Memory) (others : Bool) : State :=
  match (getSuite s n).image with
  | none => s
  | some im =>
    im.tensors.foldl (fun st p =>
      let x : Tensor := p.2
      if x.role = 3 ∨ x.role = 4 ∨ x.role = 5 then suiteRestore st n x.base (storedBytes x) x.base m
      else if others && x.role ≠ 0 then suiteClear st n x.base (storedBytes x) else st) s

/-- The load check that a map on the tiles now usable fails (rules R415, R422). -/
def mapFailure (s : State) (n : Nat) : Option Nat := if mappable s n then none else some 0x0115

/-- The load check that a resume on the units now usable fails (rule R422, Note 1): too few tiles, too little memory, or routes
that cannot be built. -/
def resumeFailure (s : State) (n : Nat) : Option Nat :=
  let su := getSuite s n
  let cap := (plannedPcs s n).length * pcCapacity s
  if (mapFailure s n).isSome then mapFailure s n
  else if cap < SMap.get 0 su.areas 5 then some 0x0118
  else if cap < SMap.get 0 su.areas 8 then some 0x0119
  else if su.image.any (fun im => routesFail s n su im (gridMap im.v (suiteTiles s n)) (plannedPcs s n)) then some 0x011C
  else none

/-- Fresh virtual tiles of an image for a first step. -/
def freshCores (im : Image) (first : Nat) : SMap TileCore := im.vtiles.map (fun p => (p.1, freshCore p.2 first))

/-- Append a map to the run record of a suite's job: the manager's Hall keeps it, and every rank (rules R37, R48, R414, R463). -/
def addRunRecord (s : State) (n : Nat) (m : Bytes) : State :=
  let s1 := updSuite s n (fun su => { su with runRecord := su.runRecord ++ m })
  match jobOf s (getSuite s n).job.lineage with
  | some (no, j) => { s1 with mgr := { s1.mgr with jobs := SMap.set s1.mgr.jobs no { j with runRecord := j.runRecord ++ m } } }
  | none => s1

/-- The MAP of a load or resume (rules R48, R463). -/
def mapRecord (s : State) (n step : Nat) : Bytes :=
  let su := getSuite s n
  let entries := su.vmap.map (fun p => cborArray [cborUint p.1, cborUint (ownId s), cborUint p.2])
  cborMap [(0, some (cborUint 1)), (1, some (cborBytes (bytesAt su.job.lineage 0 16))), (2, some (cborUint step)),
           (4, some (cborUint (su.job.rank.getD 0xFFFFFFFF))), (8, some (cborArray entries)), (9, some (cborUint su.fold))]

/-- Suites that share tiles with a suite, itself included, through at most eight steps (rule R426). -/
def tileGroup (s : State) (n : Nat) : List Nat :=
  let live := (List.range 8).filter (fun m => decide ((getSuite s m).state ≠ .absent))
  let touch := fun (a b : Nat) => (getSuite s a).res.tiles.any (fun t => (getSuite s b).res.tiles.contains t)
  (List.range 8).foldl (fun g _ => live.filter (fun m => g.contains m || g.any (fun x => touch x m))) [n]

/-- Whether another suite of the tile group executes (rule R426). -/
def groupBusy (s : State) (n : Nat) : Bool :=
  (tileGroup s n).any (fun m => m != n && (decide ((getSuite s m).state = .running) || decide ((getSuite s m).state = .draining)))

/-- A slice begins at a bell (rules R429, R430): its charged length, and the overrun still to be charged. -/
def beginSliceAt (s : State) (n bell : Nat) : State :=
  updSuite s n (fun su0 =>
    let su := { su0 with slice := { su0.slice with slice := su0.slice.nextSlice.getD su0.slice.slice, nextSlice := none } }
    let charged := if su.slice.slice ≤ su.slice.carry + 1000 then 1000 else su.slice.slice - su.slice.carry
    if su.slice.slice = 0 then su
    else { su with slice := { su.slice with sliceStart := bell, charged := charged,
                                            carry := su.slice.carry - (su.slice.slice - charged), waitingSlice := false } })

/-- A slice begins now. -/
def beginSlice (s : State) (n : Nat) : State := beginSliceAt s n s.bell.count

/-- Resolutions of a suite's steps that are run again, or of a job that has ended: their poison went with the halt (rules R340, R467). -/
def foldResolutions (s : State) (n : Nat) : State :=
  { s with faults := { s.faults with resolutions := s.faults.resolutions.map (fun r => if r.suite = n then { r with folded := true } else r) } }

/-- Start a suite's streams at step `first` (rules R321, R337); while another suite of its tile group executes, it waits in its save area for
its slice (rules R426, R428, R429). -/
def launch (s : State) (n first : Nat) (fresh : Bool) : State :=
  match (getSuite s n).image with
  | none => s
  | some im =>
    let busy := groupBusy s n
    let s1 := if busy then updSuite (unseatAll s n) n (fun su => { su with
        vmap := suiteMap s n im fresh, fold := foldOf im.v (suiteMap s n im fresh), load := mapReg s n im fresh, saves := freshCores im first })
      else mapSuite s n (freshCores im first) fresh
    let s2 := bindEntries s1 n { remote := true, stay := !fresh }
    let s3 := updSuite s2 n (fun su => { su with
      firstStep := first, foldStep := first - 1
      slice := { su.slice with waitingSlice := busy, rotation := busy, stopping := false, stopAfter := none, resumeAsked := false }
      job := { su.job with voted := min su.job.voted (first - 1), votePending := none, voteBell := 0, poisonedStep := none, haltBell := none,
                           owner := (0xFFFFFFFF, 0xFFFFFFFF), rollback := false, inPlace := false, toCheckpoint := false, anyCheckpoint := none, stopHalt := false,
                           takeover := none } })
    let s4 := setSuiteState (foldResolutions (addRunRecord s3 n (mapRecord s3 n first)) n) n .running
    if busy then setSuiteState s4 n .preempted else beginSlice s4 n

/-- The latest complete checkpoint of a suite with a step of at most `u`; a vouched one where asked (rules R333, R336). -/
def latestCheckpoint (su : Suite) (u : Nat) (vouched : Bool) : Option Checkpoint :=
  (su.checkpoints.filter (fun c => c.complete && decide (c.step ≤ u) && (!vouched || c.vouched))).foldl
    (fun best c => match best with
      | none => some c
      | some b => if b.step ≤ c.step then some c else some b) none

/-- The suites of this module that hold ranks of a suite's job, itself among them: what ranks of other modules hold no packet tells. -/
def jobPeers (s : State) (n : Nat) : List Nat :=
  (n :: (if (getSuite s n).job.rank.isSome then suitesOf s (getSuite s n).job.lineage else [])).eraseDups

/-- Whether a suite holds a complete checkpoint of a step; a vouched one where asked. -/
def holdsCheckpoint (su : Suite) (u : Nat) (vouched : Bool) : Bool :=
  su.checkpoints.any (fun c => c.complete && c.step == u && (!vouched || c.vouched))

/-- The checkpoint of a suite whose step, at most `u`, is the latest of which every rank of its job holds one (rules R333, R336, R338). -/
def commonCheckpoint (s : State) (n u : Nat) (vouched : Bool) : Option Checkpoint :=
  latestCheckpoint { getSuite s n with checkpoints := (getSuite s n).checkpoints.filter (fun c =>
    (jobPeers s n).all (fun m => holdsCheckpoint (getSuite s m) c.step vouched)) } u vouched

/-- Restore a suite from a checkpoint (rules R336, R440): state tensors and scale table; READY_STEP takes its step. -/
def restoreCheckpoint (s : State) (n : Nat) (c : Checkpoint) : State :=
  updSuite (restoreTensors s n c.state true) n (fun su => { su with scale := c.scale, readyStep := c.step, slots := [], heldStep := c.step })

/-- A suite that nothing can restore (rule R432). -/
def faultSuite (s : State) (n : Nat) : State := setSuiteState s n .faulted

/-- Bring back the state before the halted step (rules R336, R338, R431): in place after a vote, from a snapshot where every rank holds it, or
from a checkpoint of the step that all ranks share, as a resume, which plans the memory afresh (rule R237). -/
def restorePoint (s : State) (n : Nat) : Option (State × Nat) :=
  let su := getSuite s n
  let target := su.job.haltStep - 1
  let snap := su.snapshots.find? (fun p => p.2.step == target)
  if su.job.inPlace then some (s, target)
  else
    let every := (jobPeers s n).all (fun m => (getSuite s m).snapshots.any (fun p => p.2.step == target))
    match (if su.job.toCheckpoint || su.job.anyCheckpoint.isSome || !every then none else snap) with
    | some p => some (updSuite (restoreTensors s n p.2.state false) n (fun x => { x with scale := p.2.scale }), target)
    | none =>
      let found : Option Checkpoint := match su.job.anyCheckpoint with
        | some u => su.checkpoints.find? (fun c => c.complete && c.step == u)
        | none => commonCheckpoint s n target su.job.toCheckpoint
      found.map (fun c => (restoreCheckpoint (replan s n) n c, c.step))

/-- Whether what is left of a suite's memory no longer holds its image and save areas (rules R244, R422). -/
def smallMemory (s : State) (n : Nat) : Bool :=
  let su := getSuite s n
  decide (su.res.pcs.length * pcCapacity s < SMap.get 0 su.areas 8)

/-- JOB_RESTORE_COMPLETE (rules R331, R336, R337, R428): the restored suite, or the spare that has taken a rank, runs from the step
after the restore point. -/
def execJobRestoreComplete (suite : Nat) (obs : List MemObs) (s0 : State) : Host.Outcome State Fault Refusal :=
  let s := readObs s0 suite obs
  let su := getSuite s0 suite
  let ready := (decide (su.state = .draining) || decide (su.state = .loaded)) && su.job.rollback && su.job.haltBell.isNone && drained s0 suite
    && (decide (su.state = .loaded) || (suiteStreams s0 suite).isEmpty)
  whenDo ready s0
    (match restorePoint s suite with
     | none => faultSuite s suite
     | some (s1, u) =>
       if (mapFailure s1 suite).isSome || smallMemory s1 suite then faultSuite s1 suite
       else
         let rec1 := cborMap [(0, some (cborUint 5)), (1, some (cborBytes (bytesAt su.job.lineage 0 16))), (2, some (cborUint su.job.haltStep)),
           (3, some (cborUint s.bell.count)), (8, some (cborUint u)),
           (9, some (cborArray [cborUint su.job.owner.1, cborUint su.job.owner.2]))]
         let s2 := addRunRecord (launch (discardFrom s1 suite (u + 1)) suite (u + 1) true) suite rec1
         updSuite s2 suite (fun x => { x with job := { x.job with restore := u, rollbacks := satInc 8 x.job.rollbacks } }))

/-- A suite that has stopped at its gate is LOADED with its memory (rules R395, R428); a window that still waits is not performed. -/
def finishStop (s : State) (n : Nat) : State :=
  let s1 := dropWindows (holdStep (restoreWindow s n) n) n 0 0x0301
  let s2 := updSuite (bindEntries (unseatAll s1 n) n { stay := true }) n
    (fun x => { x with slice := { x.slice with stopAfter := none }, saves := [] })
  settleRetirement (setSuiteState s2 n .loaded) n

/-- STOP of a PREEMPTED suite (rule R395): LOADED, its save area discarded. -/
def stopSaved (s : State) (n : Nat) : State :=
  let s1 := updSuite (dropPending (holdStep s n) n 0 0x0401) n (fun su => { su with saves := [], slice := { su.slice with
    resumeAsked := false, waitingSlice := false, rotation := false, stopAfter := none } })
  setSuiteState (bindEntries s1 n { stay := true }) n .loaded

/-- SUITE_DRAIN_COMPLETE (rules R395, R428, R481): a STOP at a gate is done once every stream stands there; after a reset the suite's tiles are
reset, and it is LOADED unless a rollback restores it. -/
def execSuiteDrainComplete (suite : Nat) (s : State) : Host.Outcome State Fault Refusal :=
  let su := getSuite s suite
  let allStopped := (suiteSteps s suite).all (fun v => match su.slice.stopAfter with
      | some p => decide (p < v)
      | none => false)
    && (suiteStreams s suite).all (fun p => decide ((getStream s p.1 p.2).phase = .atGate))
  if su.state = .draining ∧ su.slice.stopAfter.isSome = true then whenDo (allStopped && drained s suite) s (finishStop s suite)
  else
    whenDo (decide (su.state = .draining) && drained s suite && (!su.job.rollback || !(suiteStreams s suite).isEmpty)) s
      (let s1 := finishReset s suite
       if su.job.rollback then s1 else settleRetirement (setSuiteState s1 suite .loaded) suite)

end Sys2Proof.Machine
end

