-- ==== Sys2Proof/Machine/Record.lean ====
section
/-!
DEFINITION. What a completed step leaves behind: digest records (rules R47 to R49, R185, R397, R556), scale records and their
exchange (rules R90, R97 to R101, R327), vote records (rule R329), and END marks (rules R178 to R180).
-/
namespace Sys2Proof.Machine

/-- Key of the training flag record, of the step input digest and of the evaluation flag record in a slot. -/
def flagKey : Nat := 0xFFFFFE
def inputKey : Nat := 0xFFFFFF
def evalFlagKey : Nat := 0x1FFFFFE

/-- A digest record (rule R397). -/
def digestRecord (su : Suite) (step tensor : Nat) (eval : Bool) (d : Bytes) : Bytes :=
  bytesAt su.job.lineage 0 16 ++ natLE (su.job.rank.getD 0xFFFFFFFF) 4 ++ natLE step 4 ++ natLE tensor 3 ++ natLE (bnat eval) 1
    ++ natLE 0 4 ++ bytesAt d 0 16

/-- The step input digest (rule R49): SHA-384 over the training input windows of a step, in ascending tensor id. -/
def stepInputDigest (s : State) (n u : Nat) : Bytes :=
  let su := getSuite s n
  match su.image with
  | none => []
  | some im =>
    let parts := im.tensors.map (fun p =>
      let x : Tensor := p.2
      let w := storedBytes x
      match (if x.role = 0 then bindingOf su p.1 0 else none) with
      | some b => if 0 < w ∧ w ≤ b.len then suiteBytes s n (b.base + (u - 1) % (b.len / w) * w) w else []
      | none => [])
    (sha384 parts.flatten).take 16

/-- The weight digest of a step (rule R47). -/
def weightDigest (im : Image) (a : StepAcc) : Nat :=
  im.digestPlan.weights.foldl (fun d t => (d + SMap.get 0 (if im.digestPlan.inPassing then a.digests else a.content) t) % 2 ^ 128) 0

/-- The training records of a completed step (rules R48, R185, R556). -/
def stepSlot (s : State) (n u : Nat) (im : Image) (a : StepAcc) : DigestSlot :=
  let su := getSuite s n
  let old := SMap.get {} su.ring (u % im.digestPlan.ringDepth)
  let keep := if old.step = u then old.recs else []
  let r0 := im.tensors.foldl (fun m p =>
    if (p.2 : Tensor).role = 7 then m
    else SMap.set m p.1 (digestRecord su u p.1 false (natLE (SMap.get 0 a.digests p.1) 16))) keep
  let flags := natLE a.satKernels 4 ++ natLE a.rangeKernels 4 ++ natLE a.poisonKernels 4 ++ natLE a.emptyKernels 4
  let r1 := SMap.set r0 flagKey (digestRecord su u flagKey false flags)
  { step := u, recs := SMap.set r1 inputKey (digestRecord su u inputKey false (stepInputDigest s n u)),
    evalStep := if old.step = u then old.evalStep else 0 }

/-- The records of an evaluation window under its named step (rules R233, R556). -/
def windowSlot (su : Suite) (im : Image) (w : EvalWindow) : DigestSlot :=
  let old := SMap.get {} su.ring (w.step % im.digestPlan.ringDepth)
  let keep := if old.step = w.step then old.recs else []
  let r0 := im.tensors.foldl (fun m p =>
    if (p.2 : Tensor).role = 7 then SMap.set m p.1 (digestRecord su w.step p.1 true (natLE (SMap.get 0 w.digests p.1) 16)) else m) keep
  let c := fun i => natLE (w.flagCounts.getD i 0) 4
  { step := w.step, recs := SMap.set r0 evalFlagKey (digestRecord su w.step flagKey true (c 0 ++ c 1 ++ c 2 ++ c 3)), evalStep := w.step }

/-- Whether the scale domains of a rank's MANAGED tensors hold more than one rank (rules R90, R327): the plan has a RECORDS
collective. -/
def sharedScales (su : Suite) : Bool :=
  match su.image with
  | none => false
  | some im => im.plan.recordsFamily.isSome && decide (1 < su.job.nRanks)

/-- The tensors whose scale domain holds more than one rank (rules R90, R327): every rank runs the same image (rule R321), so the ranks that write a
MANAGED tensor are all of them. -/
def domainTensors (su : Suite) : List Nat :=
  if sharedScales su then (((su.image.map (fun im => im.tensors)).getD []).filter (fun p => let x : Tensor := p.2; x.managed)).map (fun p => p.1) else []

/-- A record as it is reported and written: the min of a tensor into which only POISON went is zero, which no decision reads (rule R99). -/
def settledMin (r : ScaleRecord) : ScaleRecord := { r with min := if r.min = noMin then 0 else r.min }

/-- A tensor's scale record as sent (rule R398, Note 2): the tensor's own, then each channel's. -/
def scaleRecordBytes (t : Nat) (r : ScaleRecord) : List Bytes :=
  (natLE t 3 ++ natLE 0 1 ++ natLE 0 4 ++ natLE r.amax 4 ++ natLE r.min 4 ++ natLE r.sat 4) ::
    (List.range r.channels.length).map (fun j =>
      natLE t 3 ++ natLE 1 1 ++ natLE j 4 ++ natLE (r.channels.getD j 0) 4 ++ natLE 0 4 ++ natLE 0 4)

/-- Lists of at most `k` elements; the first argument bounds their number. -/
def chunks {α : Type} (k : Nat) : Nat → List α → List (List α)
  | 0, _ => []
  | n + 1, l => match l with
    | [] => []
    | _ => l.take k :: chunks k n (l.drop k)

/-- Payloads of RECORDS for a list of scale records (rule R398). -/
def recordsPayloads (lineage : Bytes) (step : Nat) (rs : List Bytes) : List Bytes :=
  (chunks 200 rs.length rs).map (fun c => bytesAt lineage 0 16 ++ natLE step 4 ++ natLE c.length 2 ++ natLE 0 2 ++ c.flatten)

/-- Set position `j` of a list, extending it with zeros. -/
def setPad (l : List Nat) (j v : Nat) : List Nat :=
  let x := l ++ List.replicate (j + 1 - l.length) 0
  x.set j (max v (x.getD j 0))

/-- Merge one received scale record (rules R90, R327). -/
def mergeOne (m : SMap ScaleRecord) (step : Nat) (b : Bytes) : SMap ScaleRecord :=
  let t := fieldAt b 0 3
  let had := SMap.has m t
  let r := SMap.get ⟨step, 0, noMin, 0, []⟩ m t
  if fieldAt b 3 1 = 1 then SMap.set m t { r with channels := setPad r.channels (fieldAt b 4 4) (fieldAt b 8 4) }
  else SMap.set m t { r with amax := max r.amax (fieldAt b 8 4), min := if had then extentMin r.min (fieldAt b 12 4) else fieldAt b 12 4,
                             sat := satAdd 32 r.sat (fieldAt b 16 4) }

/-- Whether a scale record is a tensor's own. -/
def isTensorRecord (b : Bytes) : Bool := fieldAt b 3 1 == 0

/-- The scale records of a RECORDS payload. -/
def recordsOf (payload : Bytes) : List Bytes :=
  (List.range (fieldAt payload 20 2)).map (fun i => bytesAt payload (24 + 20 * i) 20)

/-- Merged records reach the ranks of this module (rule R327). -/
def deliverHere (s : State) (lineage : Bytes) (step t : Nat) (r : ScaleRecord) : State :=
  (suitesOf s lineage).foldl (fun st n => updStep st n step (fun a => { a with merged := SMap.set a.merged t r })) s

/-- Enter a merged scale record into what a rank has (rule R327): a tensor's channels wait, under its id and 2^24, for its own record. -/
def takeMerged (m : SMap ScaleRecord) (step : Nat) (b : Bytes) : SMap ScaleRecord :=
  let t := fieldAt b 0 3
  let part := SMap.get ⟨step, 0, noMin, 0, []⟩ m (t + 2 ^ 24)
  if isTensorRecord b then
    SMap.set (SMap.erase m (t + 2 ^ 24)) t ⟨step, fieldAt b 8 4, fieldAt b 12 4, fieldAt b 16 4, part.channels⟩
  else SMap.set m (t + 2 ^ 24) { part with channels := setPad part.channels (fieldAt b 4 4) (fieldAt b 8 4) }

/-- A RECORDS payload reaches a rank's suite. -/
def takeRecords (s : State) (n : Nat) (payload : Bytes) : State :=
  let step := fieldAt payload 16 4
  updStep s n step (fun a => { a with merged := (recordsOf payload).foldl (fun m b => takeMerged m step b) a.merged })

/-- The top manager merges a rank's records; a tensor whose every rank has reported goes to every rank (rule R327). Those of a step that a halt
discards are dropped (rule R97). -/
def mergeAtTop (s : State) (payload : Bytes) : State :=
  let lineage := bytesAt payload 0 16
  let step := fieldAt payload 16 4
  match jobOf s lineage with
  | none => s
  | some (no, j) =>
    let key := 2 ^ 32 * no + step
    if (j.haltBell.map (fun h => decide (s.bell.count < h) && decide (j.haltStep ≤ step))).getD false then s
    else (recordsOf payload).foldl (fun st b =>
      let t := fieldAt b 0 3
      let m := mergeOne (SMap.get [] st.mgr.merged key) step b
      let cnt := SMap.get [] st.mgr.reported key
      let seen := ((cnt.find? (fun c => c.1 == t)).map (fun c => c.2)).getD 0 + bnat (isTensorRecord b)
      let st1 : State := { st with mgr := { st.mgr with
        merged := SMap.set st.mgr.merged key m
        reported := SMap.set st.mgr.reported key ((t, seen) :: cnt.filter (fun c => c.1 != t)) } }
      if seen = j.nRanks then
        let r := SMap.get ⟨step, 0, noMin, 0, []⟩ m t
        let st2 := deliverHere st1 lineage step t r
        (j.ranks.filter (fun q => q.2.1 != ownId st2)).foldl (fun x q =>
          (recordsPayloads lineage step (scaleRecordBytes t r).reverse).foldl (fun y p => sendToModule y q.2.1 0x050C q.2.2 8 p) x) st2
      else st1) s

/-- A rank sends its records of a completed step (rule R327); channels go before the tensor's own record. -/
def sendRecords (s : State) (n u : Nat) : State :=
  let su := getSuite s n
  let a := SMap.get {} su.steps u
  let own := fun (t : Nat) => if SMap.has a.recs t then settledMin (SMap.get (absentRecord u) a.recs t) else absentRecord u
  let rs := ((domainTensors su).map (fun t => (scaleRecordBytes t (own t)).reverse)).flatten
  if sharedScales su then
    (recordsPayloads su.job.lineage u rs).foldl (fun st p => if isTop st then mergeAtTop st p else sendToManager st 0x050C 0xFF false p) s
  else s

/-- Payload of a rank's vote (rules R329, R398). -/
def votePayload (su : Suite) (u digest : Nat) : Bytes :=
  bytesAt su.job.lineage 0 16 ++ natLE (su.job.rank.getD 0) 4 ++ natLE u 4 ++ natLE digest 16

/-- Records of the step that every stream of a suite has now ended (rules R180, R556). -/
def completeStep (s : State) (n u : Nat) : State :=
  let su := getSuite s n
  match su.image with
  | none => s
  | some im =>
    let a := SMap.get {} su.steps u
    let s1 := setSuite s n { su with
      ring := SMap.set su.ring (u % im.digestPlan.ringDepth) (stepSlot s n u im a)
      steps := SMap.set su.steps u { a with complete := true }
      job := { su.job with votePending := if voteStep su u then some u else su.job.votePending } }
    sendRecords s1 n u

/-- SCALE_RECORDS_WRITE (rules R97, R102, R327): the complete records of a step enter the scale table; those of a shared domain once they
are merged, on every rank. With the last MANAGED tensor's the step's saturations are summed. -/
def execScaleRecordsWrite (suite tensor step : Nat) (s : State) : Host.Outcome State Fault Refusal :=
  let su := getSuite s suite
  let a := SMap.get {} su.steps step
  let shared := (domainTensors su).contains tensor
  let recs := if shared then a.merged else a.recs
  let found := if SMap.has recs tensor then some (SMap.get (absentRecord step) recs tensor) else none
  let r := (found.filter (fun r => !(shared && isAbsent r))).map settledMin
  let zero : ScaleEntry := ⟨0, .q8a, false, false, false, 1, 0, 0, 0, 0, 1, 0, 0, 0, 0, [], [], [], {}, {}⟩
  let e := SMap.get zero su.scale tensor
  let scale1 := SMap.set su.scale tensor (e.writeRecord step r)
  let total := scale1.foldl (fun t p => if p.2.managed then satAdd 32 t (((p.2.record step).map (fun r => r.sat)).getD 0) else t) 0
  let done := su.scale.all (fun p => !p.2.managed || p.1 == tensor || a.written.contains p.1) && decide (su.counts.satStep ≤ step)
  let ready := decide (su.state ≠ .absent) && SMap.has su.scale tensor && a.complete && !(a.written.contains tensor) && (found.isSome || !shared)
  whenDo ready s
    (setSuite s suite { su with
      scale := scale1
      steps := SMap.set su.steps step { a with written := a.written ++ [tensor] }
      counts := if done then { su.counts with satTotal := total, satStep := step } else su.counts })

/-- Whether the records of a tensor's step stand in the table, or the step lies before the suite's first (rules R97, R98). -/
def recordsStand (su : Suite) (tensor u : Nat) : Bool :=
  decide (u < su.firstStep) || (SMap.get {} su.steps u).written.contains tensor

/-- SCALE_DECISION (rules R98 to R101): the write scale of the next step, once the records it needs stand. -/
def execScaleDecision (suite tensor step : Nat) (s : State) : Host.Outcome State Fault Refusal :=
  let su := getSuite s suite
  let zero : ScaleEntry := ⟨0, .q8a, false, false, false, 1, 0, 0, 0, 0, 1, 0, 0, 0, 0, [], [], [], {}, {}⟩
  let e := SMap.get zero su.scale tensor
  let d := e.decideStep step
  let ready := decide (su.state ≠ .absent) && SMap.has su.scale tensor && e.managed && decide (2 ≤ step) && decide (e.decidedStep + 1 = step)
    && recordsStand su tensor (step - 2) && (!e.adapt || recordsStand su tensor (step - 1))
  whenDo ready s
    (setSuite s suite { su with
      scale := SMap.set su.scale tensor d.1
      counts := { su.counts with clamp := satAdd 16 su.counts.clamp d.2.1, adapt := if d.2.2 then satInc 16 su.counts.adapt else su.counts.adapt } })

end Sys2Proof.Machine
end

