-- ==== Sys2Proof/Machine/Checkpoint.lean ====
section
/-!
DEFINITION. The bytes of a scale table and of a checkpoint (rule R96 of 05_scaling_and_stochastic_rounding.md, rules R440 to R442 of
19_suites_and_preemption.md).
-/
namespace Sys2Proof.Machine

/-- Zero bytes up to the next multiple of 64. -/
def padTo64 (bs : Bytes) : Bytes := bs ++ List.replicate ((64 - bs.length % 64) % 64) 0#8

/-- A scale table as bytes: entries start on 64-byte boundaries (rule R96). -/
def scaleTableBytes (m : SMap ScaleEntry) : Bytes := (m.map (fun p => padTo64 p.2.toBytes)).flatten

/-- A scale table from its bytes; the first argument bounds the number of entries. -/
def scaleTableOf (im : Image) : Nat → Bytes → SMap ScaleEntry
  | 0, _ => []
  | fuel + 1, bs =>
    match bs with
    | [] => []
    | _ =>
      let t := fieldAt bs 0 3
      let size := (scaleEntrySize (bit (fieldAt bs 3 1) 2) (fieldAt bs 12 4) + 63) / 64 * 64
      SMap.set (scaleTableOf im fuel (bs.drop size)) t (scaleEntryOfBytes (SMap.get {} im.tensors t : Tensor).fmt bs)

/-- Size of a checkpoint's header (rule R440). -/
def headerSize : Nat := 65536

/-- Directory of a checkpoint: tensor id, offset and length, in ascending id (rule R441). -/
def directory (im : Image) : List (Nat × Nat × Nat) :=
  ((stateTensors im).foldl (fun (acc : Nat × List (Nat × Nat × Nat)) p =>
    (acc.1 + storedBytes p.2, acc.2 ++ [(p.1, acc.1, storedBytes p.2)])) (headerSize, [])).2

/-- Offset of the scale table behind the tensors. -/
def scaleOffset (im : Image) : Nat := (directory im).foldl (fun a d => a + d.2.2) headerSize

/-- The tensors of a saved state, in directory order. -/
def stateBytes (im : Image) (m : Memory) : Bytes :=
  ((stateTensors im).map (fun p => Memory.readN m (p.2 : Tensor).base (storedBytes p.2))).flatten

/-- The lineage break that a suite's next checkpoint carries (rule R38): it stands in the first of the new lineage only. -/
def breakDue (su : Suite) : Option (Bytes × Nat × Nat) :=
  if su.checkpoints.any (fun c => c.lineage == su.job.lineage && bit (fieldAt c.header 5 1) 0) then none else su.job.broken

/-- A checkpoint header (rule R441) with a content digest; the bytes past the directory are zero. -/
def headerBytes (s : State) (n step : Nat) (im : Image) (scale : Bytes) (digest : Bytes) : Bytes :=
  let su := getSuite s n
  let j := su.job
  let g := fun i => natLE (j.levels.getD i 0) 2
  let br := (breakDue su).getD ([], 0, 0)
  let weight := if im.digestPlan.k ≠ 0 ∧ step % im.digestPlan.k = 0 then weightDigest im (SMap.get {} su.steps step) else 0
  asciiBytes "AZCP" ++ [1#8] ++ natLE (bnat (breakDue su).isSome) 1 ++ natLE 0 2 ++ natLE step 4 ++ natLE (j.rank.getD 0xFFFFFFFF) 4
    ++ bytesAt j.lineage 0 16 ++ bytesAt im.digest 0 48 ++ bytesAt j.manifest 0 48 ++ natLE j.seed 8 ++ natLE j.nRanks 4
    ++ natLE j.levels.length 1 ++ natLE 0 1 ++ g 0 ++ g 1 ++ g 2 ++ natLE (directory im).length 4 ++ natLE weight 16
    ++ bytesAt br.1 0 16 ++ natLE br.2.1 4 ++ natLE br.2.2 1 ++ natLE 0 3 ++ natLE s.bell.count 8 ++ natLE (scaleOffset im) 5
    ++ natLE scale.length 5 ++ natLE 0 6 ++ bytesAt digest 0 48 ++ bytesAt [] 0 248
    ++ ((directory im).map (fun d => natLE d.1 3 ++ natLE 0 1 ++ natLE d.2.1 5 ++ natLE d.2.2 5 ++ natLE 0 2)).flatten

/-- CONTENT_DIGEST of a checkpoint's bytes (rule R441): SHA-384 with its own field zero. -/
def contentDigest (bs : Bytes) : Bytes := sha384 (bs.take 216 ++ bytesAt [] 0 48 ++ bs.drop 264)

/-- The bytes of a checkpoint (rule R441). -/
def checkpointBytes (im : Image) (c : Checkpoint) : Bytes :=
  bytesAt c.header 0 headerSize ++ stateBytes im c.state ++ scaleTableBytes c.scale

/-- Copy a suite's state into a checkpoint of step `u` with its header (rules R440, R441). -/
def copyCheckpoint (s : State) (n u id slot : Nat) (im : Image) : Checkpoint :=
  let su := getSuite s n
  let m := (stateTensors im).foldl (fun acc p => suiteCells s n (p.2 : Tensor).base (storedBytes p.2) (p.2 : Tensor).base acc) []
  let table := SMap.mapVals su.scale (fun _ e => e.atDecision (u + 1))
  let scale := scaleTableBytes table
  let h0 := headerBytes s n u im scale []
  let d := sha384 (bytesAt h0 0 headerSize ++ stateBytes im m ++ scale)
  { step := u, id := id, slot := slot, lineage := su.job.lineage, header := headerBytes s n u im scale d, state := m, scale := table }

/-- The checkpoint that received bytes hold, where their header fits the image and their digest matches (rules R396, R442). -/
def checkpointOf (im : Image) (bs : Bytes) : Option Checkpoint :=
  let entries := (List.range (fieldAt bs 148 4)).map (fun i =>
    (fieldAt bs (512 + 16 * i) 3, fieldAt bs (516 + 16 * i) 5, fieldAt bs (521 + 16 * i) 5))
  let good := decide (bs.take 4 = asciiBytes "AZCP") && fieldAt bs 4 1 == 1 && decide (entries = directory im)
    && decide (bytesAt bs 216 48 = contentDigest bs)
  if good then
    let m := entries.foldl (fun acc d => Memory.writeN acc (SMap.get {} im.tensors d.1 : Tensor).base (bytesAt bs d.2.1 d.2.2)) []
    let sc := bytesAt bs (fieldAt bs 200 5) (fieldAt bs 205 5)
    some { step := fieldAt bs 8 4, complete := true, lineage := bytesAt bs 16 16, header := bs.take (512 + 16 * entries.length),
           state := m, scale := scaleTableOf im (sc.length / 64 + 1) sc }
  else none

/-- Room for one more checkpoint (rule R396): a free slot, or that of the oldest not vouched; none when every one is vouched. -/
def checkpointSlot (su : Suite) (im : Image) : Option (Nat × List Checkpoint) :=
  if su.checkpoints.length < im.checkpoints then
    some (((List.range im.checkpoints).find? (fun i => su.checkpoints.all (fun c => c.slot != i))).getD 0, su.checkpoints)
  else
    match (su.checkpoints.filter (fun c => !c.vouched)).foldl (fun (best : Option Checkpoint) c => match best with
        | none => some c
        | some b => if c.step < b.step then some c else some b) none with
    | none => none
    | some old => some (old.slot, su.checkpoints.filter (fun c => c.slot != old.slot))

end Sys2Proof.Machine
end

