-- ==== Sys2Proof/Machine/Jobs.lean ====
section
/-!
DEFINITION. The top manager's work for a job: maps and routes, halts, votes and verdicts, expulsion and takeover, lost managers and
workers (rules R295, R319 to R340 of 14_managers_replicas_and_collectives.md, R49, R53 of 02_determinism_contract.md).
-/
namespace Sys2Proof.Machine

def getJob (s : State) (no : Nat) : Job := SMap.get {} s.mgr.jobs no
def setJob (s : State) (no : Nat) (j : Job) : State := { s with mgr := { s.mgr with jobs := SMap.set s.mgr.jobs no j } }
def updJob (s : State) (no : Nat) (f : Job → Job) : State := setJob s no (f (getJob s no))

/-- JOB_EVENT (rule R401): on the physical function of the top manager, and on the suites of the job that this module holds. -/
def jobEvent (s : State) (lineage : Bytes) (kind verdict no step rank : Nat) : State :=
  let body := natLE kind 1 ++ natLE verdict 1 ++ natLE no 1 ++ natLE 0 1 ++ natLE step 4 ++ natLE rank 4
  (suitesOf s lineage).foldl (fun st n => holdEvent st (n + 1) 0x0580 0 body) (deviceEvent s 0x0580 body)

/-- Append a map to a job's run record, here and in the suites of the job that this module holds (rules R48, R463). -/
def addJobRecord (s : State) (no : Nat) (m : Bytes) : State :=
  let j := getJob s no
  (suitesOf s j.lineage).foldl (fun st n => updSuite st n (fun su => { su with runRecord := su.runRecord ++ m }))
    (setJob s no { j with runRecord := j.runRecord ++ m })

/-- Lineage key of a run-record map. -/
def lineageItem (lineage : Bytes) : Nat × Option Bytes := (1, some (cborBytes (bytesAt lineage 0 16)))

/-- A port of a module as its capacity table has it (rule R286): whether it is UP, its link version, and its far end's module and port. -/
structure FarEnd where
  up : Bool
  version : Nat
  module : Nat
  port : Nat

/-- The rows of a module's capacity table, as far as this module has it. -/
def farEnds (s : State) (module : Nat) : List FarEnd :=
  let t := if module = ownId s then (capacityBytes s).drop 4 else SMap.get [] s.mgr.tables module
  (List.range (t.length / 12)).map (fun p =>
    { up := fieldAt t (12 * p) 1 == portUp, version := fieldAt t (12 * p + 3) 1, module := fieldAt t (12 * p + 4) 4, port := fieldAt t (12 * p + 8) 4 })

/-- Who a job's packets go to: each rank with its number, then each spare. -/
def jobMembers (j : Job) : List (Nat × Nat × Nat) := j.ranks ++ j.spares.map (fun p => (0xFFFFFFFF, p))

/-- Suites of this module that a job names, ranks first, with their place in that order. -/
def ownMembers (s : State) (j : Job) : List (Nat × Nat) :=
  (((jobMembers j).map (fun m => m.2)).zipIdx.filter (fun m => m.1.1 == ownId s)).map (fun m => (m.2, m.1.2))

/-- The image that this module has of a job. -/
def jobImage (s : State) (j : Job) : Option Image := (ownMembers s j).findSome? (fun m => (getSuite s m.2).image)

/-- Whether a port of a module may carry a job's flits in a class, having come in by another port or none (rule R295): the link is UP and
carries the class; on this module the job's suites hold the port, and forwarding takes two ports that one suite holds whole. Which ports the
suites of other modules hold no packet tells: they count as held. -/
def hopAllowed (s : State) (j : Job) (m p cls : Nat) (came : Option Nat) (e : FarEnd) : Bool :=
  let held := (ownMembers s j).any (fun q =>
    let su := getSuite s q.1
    match came with
    | none => su.res.ports.any (fun h => h.1 == p)
    | some i => (wholePorts su).contains i && (wholePorts su).contains p)
  e.up && (decide (cls ≤ 1) || decide (2 ≤ e.version)) && (m != ownId s || held)

/-- Whether a module reaches another in at most `h` more hops, the first in class `cls` (rule R295). -/
def reaches (s : State) (j : Job) (dest : Nat) : Nat → Nat → Nat → Option Nat → Bool
  | 0, _, m, _ => m == dest
  | h + 1, cls, m, came => m == dest || (farEnds s m).zipIdx.any (fun q =>
      hopAllowed s j m q.2 cls came q.1 && reaches s j dest h (cls + 1) q.1.module (some q.1.port))

/-- The port by which a module sends towards another: on a shortest path, the lowest (rule R295). -/
def portTowards (s : State) (j : Job) (src dest : Nat) : Option Nat :=
  (List.range 4).findSome? (fun h => ((farEnds s src).zipIdx.find? (fun q =>
    hopAllowed s j src q.2 0 none q.1 && reaches s j dest h 1 q.1.module (some q.1.port))).map (fun q => q.2))

/-- Whether a flit that leaves a module reaches another when each module on its way follows its own table: at most four hops (rule R295). -/
def follows (s : State) (j : Job) (dest : Nat) : Nat → Nat → Nat → Option Nat → Bool
  | 0, _, m, _ => m == dest
  | h + 1, cls, m, came => m == dest || (match portTowards s j m dest with
      | none => false
      | some p =>
        match (farEnds s m)[p]? with
        | none => false
        | some e => hopAllowed s j m p cls came e && follows s j dest h (cls + 1) e.module (some e.port))

/-- The modules of a job. -/
def jobModules (j : Job) : List Nat := (j.ranks.map (fun r => r.2.1)).eraseDups

/-- The fabric route table of a module (rules R295, R398, Note 1): one entry for each other module of the job. -/
def routeTable (s : State) (j : Job) (src : Nat) : List Bytes :=
  ((jobModules j).filter (fun m => m != src)).filterMap (fun m => (portTowards s j src m).map (fun p => natLE m 4 ++ natLE p 1 ++ natLE 0 3))

/-- The pairs of modules between which a job's REMOTE streams run (rules R295, R411); all pairs where this module has no image of it. -/
def neededPairs (s : State) (j : Job) : List (Nat × Nat) :=
  let moduleOf := fun (r : Nat) => (SMap.get (0xFFFFFFFF, 0xFF) j.ranks r).1
  let pairs : List (Nat × Nat) := match jobImage s j with
    | none => (jobModules j).flatMap (fun a => (jobModules j).map (fun b => (a, b)))
    | some im => j.ranks.flatMap (fun r => (im.decls.filter (fun d => d.type == 3)).map (fun d =>
        (r.2.1, moduleOf (peerRankOf im d.family d.offset r.1 j.ranks.length))))
  (pairs.filter (fun q => q.1 != q.2)).eraseDups

/-- Whether the transit routes of a suite fit its free slots with a route table (rules R295, R422). -/
def transitFits (s : State) (n : Nat) (table : List Bytes) : Bool :=
  let su := getSuite s n
  match su.image with
  | none => true
  | some im => !(routesFail s n { su with job := { su.job with routes := table.zipIdx.map (fun q => (q.2, q.1)) } } im su.vmap su.res.pcs)

/-- Whether every route that a job needs can be built (rules R295, R422). -/
def routesExist (s : State) (j : Job) : Bool :=
  (neededPairs s j).all (fun q => follows s j q.2 4 0 q.1 none)
    && (ownMembers s j).all (fun m => transitFits s m.1 (routeTable s j (ownId s)))

/-- A JOB_MAP payload (rule R398). -/
def jobMapPayload (lineage : Bytes) (rank n first count kind : Nat) (last : Bool) (items : Bytes) : Bytes :=
  bytesAt lineage 0 16 ++ natLE rank 4 ++ natLE n 4 ++ natLE first 4 ++ natLE count 2 ++ natLE kind 1 ++ natLE (bnat last) 1 ++ items

/-- JOB_MAP payloads of one kind, in packets of at most `per` items (rule R398). -/
def jobMapPayloads (lineage : Bytes) (rank n kind per : Nat) (items : List Bytes) : List Bytes :=
  let cs := match chunks per items.length items with
    | [] => [[]]
    | l => l
  (List.range cs.length).map (fun i =>
    let c := cs.getD i []
    jobMapPayload lineage rank n (per * i) c.length kind (i + 1 == cs.length) c.flatten)

/-- What a rank or spare takes from a JOB_MAP (rules R263, R321, R398). -/
def takeJobMap (s : State) (n : Nat) (p : Bytes) : State :=
  let rank := fieldAt p 16 4
  let kind := fieldAt p 30 1
  let first := fieldAt p 24 4
  let count := fieldAt p 28 2
  updSuite s n (fun su =>
    let j0 : JobState := { su.job with nRanks := fieldAt p 20 4, rank := if rank = 0xFFFFFFFF then none else some rank }
    { su with job :=
        if kind = 0 then
          { j0 with map := (List.range count).foldl (fun m i => SMap.set m (first + i) (fieldAt p (32 + 4 * i) 4)) (if first = 0 then [] else j0.map) }
        else if kind = 1 then
          { j0 with routes := (List.range count).foldl (fun m i => SMap.set m (first + i) (bytesAt p (32 + 8 * i) 8)) (if first = 0 then [] else j0.routes)
                    mapReceived := j0.mapReceived || bit (fieldAt p 31 1) 0 }
        else { j0 with lineage := bytesAt p 0 16, committedMap := true } })

/-- Send the rank map and the route table to every rank and spare (rules R321, R331, R337). -/
def sendJobMaps (s : State) (no : Nat) (lineage : Bytes) : State :=
  let j := getJob s no
  let ids := j.ranks.map (fun r => natLE r.2.1 4)
  (jobMembers j).foldl (fun st m =>
    let ps := jobMapPayloads lineage m.1 j.nRanks 0 1008 ids ++ jobMapPayloads lineage m.1 j.nRanks 1 504 (routeTable s j m.2.1)
    ps.foldl (fun x p => if m.2.1 = ownId s then takeJobMap x m.2.2 p else sendToModule x m.2.1 0x050B m.2.2 8 p) st) s

/-- The top manager halts a job at step `step` (rules R335, R340): as for a poison of one of its own ranks, or by announcing H alone
where this module holds no rank of the job. -/
def haltJob (s : State) (no step : Nat) : State :=
  let j := getJob s no
  match suitesOf s j.lineage with
  | n :: _ => chooseHalt s n step
  | [] =>
    let h := match j.haltBell with
      | some x => if s.bell.count < x then x else s.bell.count + s.mgr.haltLead
      | none => s.bell.count + s.mgr.haltLead
    j.ranks.foldl (fun st r =>
      sendToModule st r.2.1 0x0507 r.2.2 0x0A (bytesAt j.lineage 0 16 ++ natLE step 4 ++ natLE 0 4 ++ natLE h 8))
      (setJob { s with mgr := dropMerges s.mgr no step } no { j with votes := [], voteBell := none, votedStep := 0, haltBell := some h, haltStep := step })

/-- A verdict reaches a rank (rules R329 to R333, R441): AGREE opens the U gate and vouches for the checkpoint of the step; the others
say how the halt that follows restores. -/
def takeVerdict (s : State) (n u v : Nat) : State :=
  updSuite s n (fun su =>
    { su with
      checkpoints := if v = 0 then su.checkpoints.map (fun c => if c.step = u then { c with vouched := true } else c) else su.checkpoints
      job := { su.job with
        voted := if v = 0 then max su.job.voted u else su.job.voted
        disagree := if v = 0 ∨ voteStep su u = false then su.job.disagree else satInc 8 su.job.disagree
        inPlace := if v = 1 then true else if v = 2 then false else su.job.inPlace
        toCheckpoint := if v = 2 then true else su.job.toCheckpoint
        stopHalt := if v = 3 then true else su.job.stopHalt
        keptRing := if v = 2 ∧ su.job.keptRing = [] then su.ring else su.job.keptRing } })

/-- Send a verdict to every rank of a job (rule R330). -/
def sendVerdict (s : State) (no u v : Nat) : State :=
  let j := getJob s no
  j.ranks.foldl (fun st r =>
    if r.2.1 = ownId s then takeVerdict st r.2.2 u v
    else sendToModule st r.2.1 0x050A r.2.2 0x0A (bytesAt j.lineage 0 16 ++ natLE u 4 ++ natLE v 1 ++ natLE 0 3)) s

/-- The job stops (rule R332): every rank halts at step `step` and keeps its state; the stop is reported and recorded. -/
def stopJob (s : State) (no step cause : Nat) : State :=
  let j := getJob s no
  let s1 := haltJob (sendVerdict s no (step - 1) 3) no step
  let s2 := addJobRecord s1 no (cborMap [(0, some (cborUint 6)), lineageItem j.lineage, (2, some (cborUint step)),
    (3, some (cborUint s.bell.count)), (8, some (cborUint cause))])
  updJob (jobEvent s2 j.lineage 4 3 no step 0xFFFFFFFF) no (fun x => { x with started := false })

/-- The spare with the lowest module id (rule R331). -/
def lowestSpare (l : List (Nat × Nat)) : Option (Nat × Nat) :=
  l.foldl (fun best x => match best with
    | none => some x
    | some b => if x.1 < b.1 then some x else some b) none

/-- A suite leaves its job: it is reset and holds no rank (rule R331). -/
def leaveJob (s : State) (n : Nat) : State := updSuite (beginReset s n) n (fun su => { su with job := {} })

/-- A spare begins to take a rank (rules R331, R338, R398). -/
def beginTakeover (s : State) (n : Nat) (p : Bytes) : State :=
  updSuite s n (fun su => { su with job := { su.job with takeover := some p } })

/-- The top manager's EXPEL of ranks, to one rank of the job on another module (rules R331, R398). -/
def sendExpel (s : State) (no step : Nat) (rs : List Nat) (m : Nat × Nat) : State :=
  sendToModule s m.1 0x0504 m.2 0x0A
    (natLE no 1 ++ natLE 0 3 ++ natLE step 4 ++ natLE rs.length 2 ++ natLE 0 2 ++ (rs.map (fun r => natLE r 4)).flatten)

/-- EXPEL goes to every rank of the job (rules R331, R391). -/
def sendExpels (s : State) (no step : Nat) (rs : List Nat) : State :=
  ((getJob s no).ranks.filter (fun r => r.2.1 != ownId s)).foldl (fun st r => sendExpel st no step rs r.2) s

/-- TAKEOVER of a rank to a spare (rules R331, R338, R398); one on another module answers later. -/
def sendTakeover (s : State) (no r : Nat) (sp : Nat × Nat) (step source sourceModule gone : Nat) : State :=
  let p := bytesAt (getJob s no).lineage 0 16 ++ natLE r 4 ++ natLE step 4 ++ natLE source 1 ++ natLE 0 3
    ++ natLE (if source = 2 then sp.1 else sourceModule) 4 ++ natLE gone 4
  let t := s.mgr.nextTag
  let ask := fun (st : State) => { st with mgr := { st.mgr with asked := SMap.set st.mgr.asked t [0x0505, no, r, step, source, sourceModule] } }
  if sp.1 = ownId s then beginTakeover s sp.2 p else ask (sendToModule s sp.1 0x0505 sp.2 8 p)

/-- A rank that failed or was expelled goes to the spare with the lowest module id, which is told to take it (rules R331, R338). -/
def assignSpare (s : State) (no r step source sourceModule : Nat) : State :=
  let j := getJob s no
  match lowestSpare j.spares with
  | none => s
  | some sp =>
    let old := SMap.get (0xFFFFFFFF, 0xFF) j.ranks r
    let gone := if SMap.has j.taking r then (SMap.get (old.1, 0) j.taking r).1 else old.1
    let s1 := setJob s no { j with ranks := SMap.set j.ranks r sp, spares := j.spares.filter (fun x => x != sp),
                                   taking := SMap.set j.taking r (gone, sp.1), lost := j.lost.filter (fun x => x != r),
                                   expelled := j.expelled ++ [old.1] }
    let s2 := if old.1 = ownId s then leaveJob s1 old.2 else s1
    let s3 := (suitesOf s2 j.lineage).foldl (fun st n => updSuite st n (fun su => { su with job := { su.job with expels := satInc 8 su.job.expels } })) s2
    jobEvent (sendTakeover s3 no r sp step source sourceModule gone) j.lineage 1 1 no step r

/-- The record that a rank has failed (rules R338, R448). -/
def recordRankFailed (s : State) (lineage : Bytes) (r step : Nat) (stopped : Bool) : State :=
  let idx := s.faults.next
  let r1 : FaultRec := { unitClass := 10, unitIndex := min r 0xFFFF, cause := 0x0601, domain := 4, lineage := lineage, rank := r, step := step }
  signRecord (recordFault (blame s lineage (ownId s, idx)) r1) idx stopped

/-- Every rank of this module restores the checkpoint of step `c` at the coming halt (rule R338). -/
def fromCheckpoint (s : State) (lineage : Bytes) (c : Nat) : State :=
  (suitesOf s lineage).foldl (fun st n => updSuite st n (fun su => { su with job := { su.job with anyCheckpoint := some c } })) s

/-- Whether a module holds a complete checkpoint of a rank of a lineage (rule R338): of another module no packet tells, and it counts as
holding. -/
def moduleHolds (s : State) (m : Nat) (lineage : Bytes) (r c : Nat) : Bool :=
  m != ownId s || s.suites.any (fun p => p.2.checkpoints.any (fun k =>
    k.complete && k.step == c && decide (bytesAt k.lineage 0 16 = bytesAt lineage 0 16) && fieldAt k.header 12 4 == r))

/-- The common step and the source from which the spare of a failed rank takes it (rule R338): the latest step at or before `u` of which every
surviving rank holds a complete checkpoint, and the failed rank's own module, where it still answers, or else the spare holds the rank's. Where
no rank of the job is on this module its manager is not told the step: a free value of the job, the rank and `u`, 0 for none. -/
def commonSource (s : State) (no r u : Nat) (failed spare : Nat) (answers vouched : Bool) : Option (Nat × Nat) :=
  let lineage := (getJob s no).lineage
  let stay := (suitesOf s lineage).filter (fun n => (getSuite s n).job.rank != some r)
  let source := fun (c : Nat) =>
    if answers && moduleHolds s failed lineage r c then some 1 else if moduleHolds s spare lineage r c then some 2 else none
  let known := (s.suites.map (fun p => p.2.checkpoints.map (fun c => c.step))).flatten.filter (fun c =>
    decide (c ≤ u) && stay.all (fun n => holdsCheckpoint (getSuite s n) c vouched) && (source c).isSome)
  let free := Config.freeNat 17 (leNat (bytesAt lineage 0 16 ++ natLE r 4 ++ natLE u 4)) % (u + 1)
  let c := if stay = [] ∧ failed ≠ ownId s ∧ spare ≠ ownId s then free else known.foldl max 0
  if c = 0 then none else (source c).map (fun x => (c, x))

/-- A rank has failed (rule R338): with a spare and a common step it is taken over from a checkpoint, without one the job stops. -/
def failRank (s : State) (no r step : Nat) (gone : Bool) : State :=
  let j := getJob s no
  let old := SMap.get (0xFFFFFFFF, 0xFF) j.ranks r
  match (lowestSpare j.spares).bind (fun sp => commonSource s no r (step - 1) old.1 sp.1 (!gone) false) with
  | none => stopJob (recordRankFailed s j.lineage r step true) no step 0x0601
  | some (c, source) =>
    let s1 := haltJob (fromCheckpoint (recordRankFailed s j.lineage r step false) j.lineage c) no step
    assignSpare (if old.1 = ownId s then s1 else sendExpel s1 no (step - 1) [r] old) no r c source old.1

/-- Ranks that have failed by poisoning one step twice are dealt with at the halt (rule R338). -/
def processLost (s : State) (no : Nat) : State :=
  let j := getJob s no
  j.lost.foldl (fun st r => if (getJob st no).started then failRank st no r j.haltStep false else st) (updJob s no (fun x => { x with lost := [] }))

/-- Vote groups of a job (rules R328, R329): the instances of the plan's vote family; one group of every rank where this module holds
no image of the job. -/
def voteGroups (s : State) (j : Job) : List (List Nat) :=
  let fam := ((suitesOf s j.lineage).findSome? (fun n => (getSuite s n).image)).bind (fun im =>
    im.plan.voteFamily.bind (fun f => im.plan.families[f]?))
  match fam with
  | none => [List.range j.nRanks]
  | some f =>
    let m := max 1 (countOf f.count j.nRanks)
    let st := max 1 f.stride
    ((List.range j.nRanks).filter (fun r => r / st % m == 0)).map (fun r => (List.range m).map (fun i => r + st * i))

/-- The verdict of one group and its dissenters (rule R330): a missing record counts as a value that no other member holds. -/
def groupVerdict (votes : SMap Bytes) (g : List Nat) : Nat × List Nat :=
  let same := fun a b => SMap.has votes a && SMap.has votes b && decide (SMap.get [] votes a = SMap.get [] votes b)
  if g.length ≤ 1 then (0, [])
  else
    match g.find? (fun r => decide (g.length < 2 * (g.filter (same r)).length)) with
    | none => (2, [])
    | some r =>
      let out := g.filter (fun q => !(same r q))
      if out = [] then (0, []) else (1, out)

/-- The agreeing member of a rank's group with the lowest number (rule R331). -/
def agreeingMember (votes : SMap Bytes) (gs : List (List Nat)) (r : Nat) : Option Nat :=
  match gs.find? (fun g => g.contains r) with
  | none => none
  | some g => g.find? (fun q => !(groupVerdict votes g).2.contains q)

/-- Halt a job after step `step`, whose state every rank keeps in place (rules R331, R335, R336). -/
def haltInPlace (s : State) (no step : Nat) : State :=
  haltJob ((suitesOf s (getJob s no).lineage).foldl (fun st n =>
    updSuite st n (fun su => { su with job := { su.job with inPlace := true } })) s) no (step + 1)

/-- Expel ranks after step `step` (rules R331, R332): halt at the step after, one spare for each; with too few spares the job stops. -/
def expelRanks (s : State) (no step : Nat) (rs : List Nat) (source : Nat → Nat) : State :=
  if (getJob s no).spares.length < rs.length then stopJob s no (step + 1) 0x0600
  else rs.foldl (fun st r => assignSpare st no r step 0 (source r)) (sendExpels (haltInPlace s no step) no step rs)

/-- First step, rank and tensor at which a rerun's digest records differ from those kept (rules R53, R333), over the ranks of this
module. -/
def locateDivergence (s : State) (lineage : Bytes) : Option (Nat × Nat × Nat) :=
  let found := (suitesOf s lineage).map (fun n =>
    let su := getSuite s n
    let order := ((su.image.map (fun im => im.digestPlan.order)).getD [])
    su.job.keptRing.filterMap (fun p =>
      match su.ring.find? (fun q => q.2.step == p.2.step) with
      | none => none
      | some q =>
        ((List.range order.length).find? (fun i => decide (SMap.get [] q.2.recs (order.getD i 0) ≠ SMap.get [] p.2.recs (order.getD i 0)))).map
          (fun i => (p.2.step, i, su.job.rank.getD 0, order.getD i 0))))
  (found.flatten.foldl (fun (best : Option (Nat × Nat × Nat × Nat)) x => match best with
    | none => some x
    | some b => if x.1 < b.1 ∨ (x.1 = b.1 ∧ (x.2.1 < b.2.1 ∨ (x.2.1 = b.2.1 ∧ x.2.2.1 < b.2.2.1))) then some x else some b) none).map
    (fun x => (x.1, x.2.2.1, x.2.2.2))

/-- Whether the ranks of this module hold a vouched checkpoint of a step at or before `u` (rule R333). -/
def vouchedHeld (s : State) (lineage : Bytes) (u : Nat) : Bool :=
  (suitesOf s lineage).all (fun n => (latestCheckpoint (getSuite s n) u true).isSome)

/-- The vote of a job is decided (rules R330 to R333). -/
def decideVote (s : State) (no : Nat) : State :=
  let j := getJob s no
  let u := j.voteStep
  let gs := voteGroups s j
  let vs := gs.map (groupVerdict j.votes)
  let out := (vs.map (fun v => if v.1 = 1 then v.2 else [])).flatten
  let split := (gs.filter (fun g => (groupVerdict j.votes g).1 == 2)).map (fun g => g.headD 0)
  let again := decide (j.disagreeStep = u) && split.any (fun g => j.disagreeGroups.contains g)
  let v := if j.spares.length < out.length then 3
    else if split ≠ [] then (if again || !vouchedHeld s j.lineage u then 3 else 2)
    else if out ≠ [] then 1 else 0
  let s1 := setJob s no { j with votes := [], voteBell := none, votedStep := u,
                                 disagreeStep := if v = 2 then u else j.disagreeStep,
                                 disagreeGroups := if v = 2 then split else j.disagreeGroups }
  let s2 := addJobRecord s1 no (cborMap [(0, some (cborUint 3)), lineageItem j.lineage, (2, some (cborUint u)), (3, some (cborUint s.bell.count)),
    (8, some (cborUint v)), (9, some (cborArray (out.map cborUint)))])
  let s3 := jobEvent s2 j.lineage 0 v no u (out.headD 0xFFFFFFFF)
  let s4 := if split = [] then s3
    else
      let idx := s3.faults.next
      let r1 : FaultRec := { unitClass := 10, unitIndex := min (split.headD 0) 0xFFFF, cause := 0x0600, domain := 4, lineage := j.lineage,
                             rank := split.headD 0, step := u, divergence := if again then locateDivergence s3 j.lineage else none }
      signRecord (recordFault (blame s3 j.lineage (ownId s, idx)) r1)
        idx (v == 3)
  if v = 0 then sendVerdict s4 no u 0
  else if v = 1 then
    expelRanks (sendVerdict s4 no u 1) no u out (fun r =>
      (SMap.get (0xFFFFFFFF, 0xFF) j.ranks ((agreeingMember j.votes gs r).getD 0)).1)
  else if v = 2 then jobEvent (haltJob (sendVerdict s4 no u 2) no u) j.lineage 3 2 no u 0xFFFFFFFF
  else stopJob s4 no (u + 1) 0x0600

/-- Ranks whose records a vote needs. -/
def votingRanks (s : State) (j : Job) : List Nat := ((voteGroups s j).filter (fun g => decide (1 < g.length))).flatten

/-- A vote record reaches the top manager (rules R329, R340): one that arrives after its vote is discarded and counted. -/
def receiveVote (s : State) (p : Bytes) : State :=
  let drop : State := { s with mgr := { s.mgr with unanswered := satInc 16 s.mgr.unanswered } }
  match jobOf s (bytesAt p 0 16) with
  | none => drop
  | some (no, j) =>
    let r := fieldAt p 16 4
    let u := fieldAt p 20 4
    if u ≤ j.votedStep ∨ SMap.has j.ranks r = false then drop
    else
      let same := j.voteStep == u
      let j1 : Job := { j with voteStep := u, voteBell := some (if same then j.voteBell.getD s.bell.count else s.bell.count),
                               votes := SMap.set (if same then j.votes else []) r (bytesAt p 24 16) }
      let s1 := setJob s no j1
      if (votingRanks s j1).all (fun q => SMap.has j1.votes q) then decideVote s1 no else s1

/-- A rank sends its vote once the step is complete and the vote bell has come (rule R329). -/
def tryVote (s : State) (n : Nat) : State :=
  let su := getSuite s n
  match su.image, su.job.votePending with
  | some im, some u =>
    if su.job.voteBell = 0 then s
    else
      let p := votePayload su u (weightDigest im (SMap.get {} su.steps u))
      let s1 := updSuite s n (fun x => { x with job := { x.job with votePending := none, voteBell := 0 } })
      if isTop s1 then receiveVote s1 p else sendToManager s1 0x0509 0xFF false p
  | _, _ => s

/-- HEARTBEAT (rule R319; rule R393, Note 1 of the GET_INFO table): a GET_INFO of SELECT 2 to a direct worker. -/
def execHeartbeat (worker : Nat) (s : State) : Host.Outcome State Fault Refusal :=
  match s.mgr.workers.find? (fun w => w.module == worker && !w.lost) with
  | none => ok s
  | some w =>
    let s1 := sendCommand s w.port w.module 0x0001 0xFF 8 [2#8, 0#8, 0#8, 0#8]
    whenDo (s.mgr.role == 2 || s.mgr.role == 3) s { s1 with mgr := { s1.mgr with heartbeats := satInc 16 s1.mgr.heartbeats } }

/-- The highest step that a stream of a suite has entered, the first step of its run at least, into which no gate leads (rule R179);
gates into later steps stay closed at a stop (rule R395). -/
def highestEntered (s : State) (n : Nat) : Nat :=
  let su := getSuite s n
  let at1 := fun (x : KState) => match x.phase with
    | .atGate => x.step - 1
    | _ => x.step
  let here := ((suiteStreams s n).filter (fun p => !(getTile s p.1).evalMode)).map (fun p => at1 (getStream s p.1 p.2))
  let away := (su.saves.map (fun p => [at1 p.2.f, at1 p.2.b, at1 p.2.u])).flatten
  (here ++ away).foldl max su.firstStep

/-- STOP in MODE 0 of a suite: it drains, its gates closed after the current step (rules R17, R179, R395); a pre-emption under way completes
first (rule R402). -/
def stopAtGate (s : State) (n : Nat) : State :=
  let s1 := updSuite s n (fun su => { su with slice := { su.slice with stopAfter := some (highestEntered s n) } })
  if (getSuite s n).slice.stopping then s1 else setSuiteState s1 n .draining

/-- Bells without a management packet after which a neighbour in the hierarchy is lost (rule R319). -/
def contactLost : Nat := 1000000

/-- A job suite whose manager is lost stops at its next step gate, or where its state is saved (rule R319). -/
def stopForLost (s : State) (n : Nat) : State :=
  if (getSuite s n).state = .running then stopAtGate s n else stopSaved s n

/-- MANAGER_LOST (rule R319): nothing has come from the manager for 1 s; every job suite stops, and the host hears of it. -/
def execManagerLost (s : State) : Host.Outcome State Fault Refusal :=
  let busy := s.suites.filter (fun p => p.2.job.rank.isSome && (decide (p.2.state = .running) || decide (p.2.state = .preempted)))
  let s1 : State := { s with mgr := { s.mgr with lost := satInc 16 s.mgr.lost, heard := none } }
  let s2 := recordFault s1 { unitClass := 9, cause := 0x0602, domain := 4 }
  let body := natLE 5 1 ++ natLE 0 7 ++ natLE 0xFFFFFFFF 4
  whenDo ((s.mgr.role == 1 || s.mgr.role == 3) && (s.mgr.heard.map (fun b => decide (b + contactLost ≤ s.bell.count))).getD false) s
    (busy.foldl (fun st p => suiteEvent (stopForLost st p.1) p.1 0x0580 body) (deviceEvent s2 0x0580 body))

/-- WORKER_LOST (rules R319, R338): nothing has come from the worker for 1 s; each rank that the worker holds has failed in the step its job is in. -/
def execWorkerLost (worker : Nat) (s : State) : Host.Outcome State Fault Refusal :=
  let s1 : State := { s with mgr := { s.mgr with
    lost := satInc 16 s.mgr.lost
    workers := s.mgr.workers.map (fun w => if w.module = worker then { w with lost := true } else w) } }
  let ranks := (s.mgr.jobs.filter (fun p => p.2.started)).map (fun p =>
    (p.2.ranks.filter (fun r => r.2.1 == worker)).map (fun r => (p.1, r.1, p.2)))
  let openAt := fun (j : Job) => ((suitesOf s j.lineage).map (fun n => openStep s n)).foldl max 1
  whenDo (s.mgr.workers.any (fun w => w.module == worker && !w.lost && decide (w.lastSeen + contactLost ≤ s.bell.count))) s
    (ranks.flatten.foldl (fun st q => if (getJob st q.1).started then failRank st q.1 q.2.1 (openAt q.2.2) true else st) s1)

/-- VOTE_BELL (rules R23, R329): the vote bell arrives at a rank. -/
def execVoteBell (suite : Nat) (s : State) : Host.Outcome State Fault Refusal :=
  let su := getSuite s suite
  let s1 := updSuite s suite (fun x => { x with job := { x.job with voteBell := 1 } })
  let s2 := match (if isTop s then jobOf s su.job.lineage else none) with
    | some (no, j) => setJob s1 no { j with voteBell := some (j.voteBell.getD s.bell.count) }
    | none => s1
  whenDo (su.job.rank.isSome && (executing su || decide (su.state = .preempted))) s (tryVote s2 suite)

/-- VOTE_TIMEOUT (rules R329, R330): HALL_MGR_VOTE_TIMEOUT bells after the vote bell, the records missing count as dissent. -/
def execVoteTimeout (job : Nat) (s : State) : Host.Outcome State Fault Refusal :=
  let j := getJob s job
  match j.voteBell with
  | none => ok s
  | some b => whenDo (j.started && decide (0 < j.votes.length) && decide (b + s.mgr.voteTimeout ≤ s.bell.count)) s (decideVote s job)

/-- HALT_BELL (rules R335, R338, R340, R431): at halt bell H each suite of the job halts. -/
def execHaltBell (suite : Nat) (s : State) : Host.Outcome State Fault Refusal :=
  let su := getSuite s suite
  match su.job.haltBell with
  | none => ok s
  | some h =>
    let s1 := match (if isTop s then jobOf s su.job.lineage else none) with
      | some (no, _) => processLost s no
      | none => s
    let n1 := getSuite s1 suite
    whenDo (decide (h ≤ s.bell.count) && (decide (su.state = .running) || decide (su.state = .preempted) || decide (su.state = .draining))) s
      (if n1.job.rank.isSome then haltForRollback s1 suite n1.job.haltStep else s1)

/-- Tensors that a takeover brings, written to the spare's memory (rule R331). -/
def writeTensors (s : State) (n : Nat) (im : Image) (data : List (Nat × Bytes)) : State :=
  data.foldl (fun st d =>
    let x : Tensor := SMap.get {} im.tensors d.1
    if SMap.has im.tensors d.1 then suiteSetBytes st n x.base (bytesAt d.2 0 (min d.2.length (storedBytes x))) else st) s

/-- The run record and event of a takeover that is done, at the top manager; every rank gets the new map (rules R331, R401, R463). -/
def takeoverDone (s : State) (no r step : Nat) : State :=
  let j := getJob s no
  let t := SMap.get (0xFFFFFFFF, 0xFFFFFFFF) j.taking r
  let s1 := addJobRecord (setJob s no { j with taking := SMap.erase j.taking r }) no
    (cborMap [(0, some (cborUint 4)), lineageItem j.lineage, (2, some (cborUint (step + 1))), (4, some (cborUint r)),
      (8, some (cborUint t.1)), (9, some (cborUint t.2))])
  let s2 := (suitesOf s1 j.lineage).foldl (fun st n => updSuite st n (fun su => { su with job := { su.job with takeovers := satInc 8 su.job.takeovers } })) s1
  sendJobMaps (jobEvent s2 j.lineage 2 1 no step r) no j.lineage

/-- A takeover of tensors that failed turns the verdict into ROLLBACK, and the spare takes the rank from the vouched checkpoint, without which
the job stops (rules R331, R333); one from the failed rank's own checkpoint is tried with the spare's, and after that the job stops (rule
R338). -/
def takeoverFailed (s : State) (no r step source : Nat) : State :=
  let j := getJob s no
  let t := SMap.get (0xFFFFFFFF, 0xFFFFFFFF) j.taking r
  let sp := SMap.get (0xFFFFFFFF, 0xFF) j.ranks r
  if source = 1 ∧ moduleHolds s sp.1 j.lineage r step = true then sendTakeover s no r sp step 2 sp.1 t.1
  else if source ≠ 0 then stopJob s no (step + 1) 0x0601
  else
    match commonSource s no r (step - 1) t.1 sp.1 true true with
    | none => stopJob s no (step + 1) 0x0600
    | some (c, x) =>
      sendTakeover (jobEvent (haltJob (sendVerdict s no step 2) no step) j.lineage 3 2 no step 0xFFFFFFFF) no r sp c x t.1 t.1

/-- The spare takes the rank (rules R331, R338): its tensors and scale table, or its own copy of the checkpoint. -/
def finishTakeover (s : State) (n : Nat) (im : Image) (p : Bytes) (data : List (Nat × Bytes)) (scale : Bytes) : State :=
  let step := fieldAt p 20 4
  let su := getSuite s n
  let s1 := match (if fieldAt p 24 1 = 2 then su.checkpoints.find? (fun c => c.complete && c.step == step) else none) with
    | some c => restoreCheckpoint s n c
    | none =>
      updSuite (writeTensors s n im data) n (fun x => { x with
        scale := if scale = [] then x.scale else scaleTableOf im (scale.length / 64 + 1) scale })
  updSuite s1 n (fun x => { x with job := { x.job with
    rank := some (fieldAt p 16 4), lineage := bytesAt p 0 16, takeover := none, haltStep := step + 1, inPlace := true, rollback := true } })

/-- The spare that takes a rank faults (rule R340): the next spare is assigned; with none left, the job stops. -/
def takeoverLost (s : State) (no r step source sourceModule : Nat) : State :=
  if (getJob s no).spares = [] then stopJob s no (step + 1) 0x0601 else assignSpare s no r step source sourceModule

/-- Answer the TAKEOVER commands that a suite executes (rule R398). -/
def answerTakeover (s : State) (n status : Nat) : State :=
  s.rings.foldl (fun st p =>
    (p.2.queue.filter (fun w => w.executing && w.pkt.opcode == 0x0505 && targetOf (keySrc p.1) w.pkt == n)).foldl
      (fun q w => finish q (keySrc p.1) w.pkt.tag status 0 []) st) s

/-- Whether a takeover can complete: SOURCE 2 needs the checkpoint in the spare's own area (rule R338). -/
def takeoverReady (su : Suite) (p : Bytes) : Bool :=
  fieldAt p 24 1 != 2 || su.checkpoints.any (fun c => c.complete && c.step == fieldAt p 20 4)

/-- TAKEOVER_TRANSFER_COMPLETE (rule R331): `ok` says that every content digest matched; `data` are the tensors received and `scale`
the rank's scale table. -/
def execTakeoverTransferComplete (suite : Nat) (ok : Bool) (data : List (Nat × Bytes)) (scale : Bytes) (s : State) :
    Host.Outcome State Fault Refusal :=
  let su := getSuite s suite
  match su.job.takeover, su.image with
  | some p, some im =>
    let step := fieldAt p 20 4
    let good := ok && takeoverReady su p && decide (su.state = .loaded)
    let s1 := if good then finishTakeover s suite im p data scale
      else updSuite s suite (fun x => { x with job := { x.job with takeover := none } })
    let s2 := match (if isTop s then jobOf s1 (bytesAt p 0 16) else none) with
      | none => answerTakeover s1 suite (if good then 0 else if takeoverReady su p then 0x0403 else 0x030F)
      | some (no, _) =>
        if su.state = .faulted then takeoverLost s1 no (fieldAt p 16 4) step (fieldAt p 24 1) (fieldAt p 28 4)
        else if good then takeoverDone s1 no (fieldAt p 16 4) step else takeoverFailed s1 no (fieldAt p 16 4) step (fieldAt p 24 1)
    whenDo (decide (su.state = .loaded) || decide (su.state = .faulted)) s s2
  | _, _ => .next s

end Sys2Proof.Machine
end

