-- ==== Sys2Proof/Machine/Marks.lean ====
section
/-!
DEFINITION. The end of a `mark`: the next kernel opens, or a step ends (rules R127, R178 to R180, R185, R187 of
08_instruction_encoding_and_control.md, R327 and R329 of 14_managers_replicas_and_collectives.md, R416, R433).
-/
namespace Sys2Proof.Machine

/-- A step is complete once every stream of every virtual tile has passed its END mark (rule R180): its records are formed, its scale
records go out, its checkpoint settles, and its vote goes once the vote bell has come. -/
def noteStepComplete (s : State) (n u : Nat) : State :=
  if (suiteSteps s n).all (fun v => decide (u < v)) && !(SMap.get {} (getSuite s n).steps u).complete then
    tryVote (settleCheckpoints (completeStep s n u) n) n
  else s

/-- A stream has reached a stop point of a pre-emption: the latest is the boundary (rule R430). -/
def noteBoundary (s : State) (n : Nat) : State :=
  updSuite s n (fun su => if su.slice.stopping then { su with slice := { su.slice with boundary := s.bell.count } } else su)

/-- The END mark of a step program, once drained (rules R127, R178, R179). -/
def endMark (s : State) (t : Nat) (k : KStream) (word : Nat) : State :=
  if tokenLeak s t k then faultStream s t k .tokenLeak word
  else
    let tile := getTile s t
    let x := tile.core.stream k
    let lo := if x.bufLo = 0 then x.bufHi else 0
    let y : KState := { x with pc := 0, bufLo := 0, bufHi := lo, loops := [], leading := false, seen := [] }
    match tile.suite with
    | none => s
    | some n =>
      if tile.evalMode then setStream s t k { y with phase := .finished, stall := 7 }
      else
        noteStepComplete (noteBoundary
          (setStream s t k { y with phase := .atGate, stall := 7, step := x.step + 1, stopped := (getSuite s n).slice.stopping })
          n) n x.step

/-- The drain of a `mark` ends (rules R178, R187, R433): a halt takes effect at the end of the mark and records no flags; a
stream of a suite that is being pre-empted stops inside the mark, and one at a fold cut waits there (rule R416); else the next
kernel opens. -/
def finishMark (s : State) (t : Nat) (k : KStream) (last : Bool) (duration kernel word : Nat) : State :=
  let x := getStream s t k
  if x.haltPending then setStream s t k { x with halted := true, haltPending := false }
  else
    let s1 := closeKernel s t k
    if last then endMark s1 t k word
    else
      match (getTile s t).suite with
      | none => s
      | some n =>
        let cut := isCut s t k kernel
        if (getSuite s n).slice.stopping ∨ cut = true then
          noteBoundary (setStream s1 t k { getStream s1 t k with stopped := (getSuite s n).slice.stopping, cutWait := cut }) n
        else openKernel s1 t k kernel duration

/-- MARK_DRAIN_COMPLETE (rule R178): every operation the stream issued has completed. -/
def execMarkDrainComplete (tile : Nat) (st : KStream) (s : State) : Host.Outcome State Fault Refusal :=
  match (getStream s tile st).phase, fetchWord s tile st with
  | .draining, some w =>
    match decodeKernel w with
    | .mark last d kn =>
      whenDo (streamLive s tile st && streamDrained s tile st && !(getStream s tile st).cutWait) s (finishMark s tile st last d kn w)
    | _ => ok s
  | _, _ => ok s


end Sys2Proof.Machine
end

