-- ==== Sys2Proof/Machine/Suites.lean ====
section
/-!
DEFINITION. Evaluation windows (rules R231 to R234 of 10_training_passes.md), checkpoints (rules R440, R441), slices, pre-emption and
resume (rules R429 to R439 of 19_suites_and_preemption.md), fold swaps (rules R416 to R418 of 18_images_and_the_loader.md).
-/
namespace Sys2Proof.Machine

/-- Take a commanded event from the Belfry's list. -/
def popEvent (s : State) (id : Nat) : State := { s with bell := { s.bell with events := dropFirst (fun e => e.id == id) s.bell.events } }

/-- Place of an event in the order at one edge (rule R355). -/
def edgeOrder (opcode : Nat) : Nat :=
  match opcode with
  | 0x0506 => 3
  | 0x0400 => 5
  | 0x0305 => 6
  | _ => 8

/-- Whether no earlier event of the suite at the same edge has still to take effect (rule R355). -/
def firstAtEdge (s : State) (e : BellEvent) : Bool :=
  let su := getSuite s e.suite
  let halts := su.job.haltBell == some e.bell
    && (decide (su.state = .running) || decide (su.state = .preempted) || decide (su.state = .draining))
  !halts && s.bell.events.all (fun x => x.bell != e.bell || x.suite != e.suite || decide (edgeOrder e.opcode ≤ edgeOrder x.opcode))

/-- A commanded event that is due (rule R354): of an opcode, its bell reached. -/
def dueEvent (s : State) (id opcode : Nat) : Option BellEvent :=
  s.bell.events.find? (fun e => e.id == id && e.opcode == opcode && decide (e.bell ≤ s.bell.count) && !s.fw.inActivation && firstAtEdge s e)

/-- Whether a U stream of the rank has passed its gate into step `u` (rule R31). -/
def uPassed (s : State) (n u : Nat) : Bool := decide (u ≤ uEntered s n)

/-- Whether a suite takes a state named by an event: it runs or is pre-empted, and the step is not poisoned (rules R31, R340). -/
def stepStatus (s : State) (n u : Nat) : Nat :=
  let su := getSuite s n
  let poisoned := match su.job.poisonedStep with
    | some p => decide (p ≤ u)
    | none => false
  if uPassed s n (u + 1) then 0x0307
  else if poisoned || !(decide (su.state = .running) || decide (su.state = .preempted) || decide (su.state = .loaded)) then 0x0301
  else 0

/-- EVAL_WINDOW_BELL (rules R31, R232, R340): the gates into step s + 1 that no stream has passed close, or the window is not
performed. Windows of several events wait in the order of their steps. -/
def execEvalWindowBell (event : Nat) (s : State) : Host.Outcome State Fault Refusal :=
  match dueEvent s event 0x0305 with
  | none => ok s
  | some e =>
    let st := stepStatus s e.suite e.step
    let s1 := popEvent s event
    let w : EvalWindow := { step := e.step, eventId := e.id }
    ok (if st = 0 then updSuite s1 e.suite (fun su => setWindows su (enterWindow w (windowsOf su))) else windowEvent s1 e.suite w st)

/-- Every stream of the rank stands at a gate, and every U stream at its gate into step `u` (rule R232). -/
def allAtGate (s : State) (n u : Nat) : Bool :=
  let there := fun (k : KStream) (x : KState) => decide (x.phase = .atGate) && (decide (k ≠ .u) || x.step == u)
  (suiteStreams s n).all (fun p => there p.2 (getStream s p.1 p.2))
    && (getSuite s n).saves.all (fun p =>
      s.tiles.any (fun q => decide (q.2.suite = some n) && q.2.vtile == p.1) || (there .f p.2.f && there .b p.2.b && there .u p.2.u))

/-- A virtual tile before its evaluation program: all zero, tokens as the image says (rules R129, R230). -/
def evalCore (im : Image) (v step : Nat) : TileCore :=
  let x : KState := { step := step }
  { tokens := holderTokens (SMap.get {} im.evalTiles v : VTileImage).holders, f := x, b := x, u := x }

/-- Tiles that hold a virtual tile of a suite, with the resident virtual tile. -/
def residents (s : State) (n : Nat) : List (Nat × Nat) := (s.tiles.filter (fun p => decide (p.2.suite = some n))).map (fun p => (p.1, p.2.vtile))

/-- A virtual tile whose evaluation program has ended. -/
def doneCore (im : Image) (v step : Nat) : TileCore :=
  let c := evalCore im v step
  { c with f := { c.f with phase := .finished }, b := { c.b with phase := .finished }, u := { c.u with phase := .finished } }

/-- Put a virtual tile's evaluation program on a tile: one that has ended stays so (rule R234). -/
def seatEval (s : State) (n t v : Nat) (im : Image) (w : EvalWindow) : State :=
  let x := getTile s t
  let c := if w.programsDone.contains v then doneCore im v w.step
    else if SMap.has w.saves v then SMap.get {} w.saves v else evalCore im v w.step
  setTile s t { (seat x n v x.fold c) with evalMode := true }

/-- The virtual tile of a tile whose evaluation program goes on at a resume (rule R234): the one that was saved in it, else one that has not run. -/
def evalTurn (su : Suite) (w : EvalWindow) (t v : Nat) : Nat :=
  let here := (su.vmap.filter (fun q => q.2 == t)).map (fun q => q.1)
  let left := here.filter (fun u => !(w.programsDone.contains u))
  ((left.find? (SMap.has w.saves)).orElse (fun _ => left.head?)).getD v

/-- A stopped stream must be released (rule R434): it holds an OUT token on which the far end has posted unused credits, a stream of
its tile waits for a token it holds, or a stream that waits on it at the step gate is due and this gate may open. -/
def dueForWork (s : State) (t : Nat) (k : KStream) : Bool :=
  let x := getStream s t k
  let credits := [5, 6].any (fun tok => holds s t k tok &&
    s.streams.any (fun p => decide (p.2.state = .bound) && p.2.outbound && (p.2.type == typeTile || p.2.type == typeRemote) && p.2.ptile == t
      && entryLanding p.2 + 3 == tok && p.2.posted != p.2.seqNext))
  let wanted := [KStream.f, .b, .u].any (fun j =>
    let y := getStream s t j
    decide (j ≠ k) && !(atStopPoint y) && (match y.phase with
      | .taking tok => holds s t k tok
      | _ => false))
  atStopPoint x && (credits || wanted)

def releaseDue (s : State) (t : Nat) (k : KStream) : Bool :=
  let x := getStream s t k
  match (getTile s t).suite with
  | none => false
  | some n =>
    let all := suiteSteps s n
    let gate := decide (x.phase = .atGate) && all.all (fun v => decide (x.step ≤ v + 1))
      && (suiteStreams s n).any (fun p =>
        let y := getStream s p.1 p.2
        decide (y.phase = .atGate) && decide (x.step + 2 ≤ y.step) && dueForWork s p.1 p.2)
    dueForWork s t k || gate

/-- Whether nothing of a tile is still being computed, moved or checked. -/
def tileQuiet (s : State) (t : Nat) : Bool :=
  let x := getTile s t
  x.passes.isEmpty && x.verdicts.isEmpty && (resolutionOf s t).isNone && x.landings.all (fun l => l.2.queue.isEmpty)

/-- Whether a tile can be saved (rules R433, R435): its streams stand at stop points, none is due for release, and it is quiet. -/
def saveReady (s : State) (t : Nat) : Bool :=
  [KStream.f, .b, .u].all (fun k => atStopPoint (getStream s t k) && !(releaseDue s t k)) && tileQuiet s t

/-- Whether a tile can be saved for an evaluation window (rule R232), whose U streams stand at the gate that the window needs closed. -/
def windowReady (s : State) (t : Nat) : Bool := [KStream.f, .b].all (fun k => !(releaseDue s t k)) && tileQuiet s t

/-- EVAL_WINDOW_START (rules R232, R234): every tile is saved as for a pre-emption and the evaluation programs start; a checkpoint of
the same step goes first. -/
def execEvalWindowStart (suite : Nat) (s : State) : Host.Outcome State Fault Refusal :=
  let su := getSuite s suite
  match su.window, su.image with
  | some w, some im =>
    let res := residents s suite
    let busy := (ckptsOf su).any (fun e => e.step == w.step)
    let saves := res.foldl (fun m p => SMap.set m p.2 (slotOf im (getTile s p.1).core)) su.saves
    let w1 := { w with started := true, resident := res, entries := s.streams.filter (fun q => q.2.suite == suite) }
    let s1 := setSuite s suite { su with saves := saves, window := some w1 }
    whenDo (decide (su.state = .running) && !w.started && !su.slice.stopping && !busy && allAtGate s suite (w.step + 1)
        && res.all (fun p => windowReady s p.1)) s
      (postFold (res.foldl (fun st p => seatEval st suite p.1 p.2 im w1) s1) suite true)
  | _, _ => ok s

/-- A tile's evaluation program has ended (rule R230). -/
def evalDone (s : State) (t : Nat) : Bool :=
  [KStream.f, .b, .u].all (fun k => decide ((getStream s t k).phase = .finished) || (tileProgram s t k).instrs.isEmpty)

/-- EVAL_PROGRAMS_COMPLETE (rules R232, R233): the window's records go to the digest ring, the saved state returns and the gates
open. -/
def execEvalProgramsComplete (suite : Nat) (s : State) : Host.Outcome State Fault Refusal :=
  let su := getSuite s suite
  match su.window, su.image with
  | some w, some im =>
    let res := residents s suite
    let all := im.vtiles.all (fun v => w.programsDone.contains v.1 || res.any (fun p => p.2 == v.1 && evalDone s p.1))
    let s1 := setSuite s suite { su with ring := SMap.set su.ring (w.step % im.digestPlan.ringDepth) (windowSlot su im w),
                                         evals := if su.evals.contains w.step then su.evals else su.evals ++ [w.step] }
    whenDo (executing su && w.started && all) s (endWindow s1 suite 0)
  | _, _ => ok s

/-- CHECKPOINT_BELL (rules R31, R340, R441): U is held at its gate into step s + 1, or the checkpoint is not performed. -/
def execCheckpointBell (event : Nat) (s : State) : Host.Outcome State Fault Refusal :=
  match dueEvent s event 0x0400 with
  | none => ok s
  | some e =>
    let st := stepStatus s e.suite e.step
    let s1 := popEvent s event
    ok (if st = 0 then updSuite s1 e.suite (fun su => setCkpts su (enterCkpt e (ckptsOf su))) else ckptEvent s1 e.suite e st)

/-- Whether a checkpoint of step `u` can be copied (rule R441, step 2). -/
def copyReady (s : State) (n u : Nat) : Bool :=
  let su := getSuite s n
  let a := SMap.get {} su.steps u
  a.complete && updatesPast s n (u + 1) && !uPassed s n (u + 1)
    && su.scale.all (fun p => !p.2.managed || (a.written.contains p.1 && decide (u + 1 ≤ p.2.decidedStep)))

/-- CHECKPOINT_COPY_COMPLETE (rules R240, R339, R396, R441): the copy stands in its slot and the U gate opens; it is listed as complete
once the step is settled. With every checkpoint vouched it fails with LIMIT. A copy that met an uncorrectable error is not kept. -/
def execCheckpointCopyComplete (suite : Nat) (obs : List MemObs) (s0 : State) : Host.Outcome State Fault Refusal :=
  let s := if copyReady s0 suite (((getSuite s0 suite).ckptEvent.map (fun e => e.step)).getD 0) then readObs s0 suite obs else s0
  let su := getSuite s suite
  match su.ckptEvent, su.image with
  | some e, some im =>
    let eff := match checkpointSlot su im with
      | none =>
        ckptEvent (setSuite s suite (setCkpts su su.laterCkpts)) suite e 0x0308
      | some (slot, rest) =>
        let c := { (copyCheckpoint s suite e.step e.id slot im) with vouched := voteStep su e.step && decide (e.step ≤ su.job.voted) }
        settleCheckpoints (setSuite s suite { (setCkpts su su.laterCkpts) with checkpoints := rest ++ [c] }) suite
    whenDo (copyReady s suite e.step && !(obs.any losesData)) s eff
  | _, _ => ok s

/-- A stream that stalls at a leading `bellwait` stops where it stands (rules R187, R433). -/
def stopWaiting (x : KState) : KState :=
  match x.phase with
  | .bellWaiting _ _ => { x with stopped := true }
  | _ => x

/-- Stop the streams of a suite that stall at a leading `bellwait`. -/
def stopBellwaits (s : State) (n : Nat) : State :=
  { s with tiles := s.tiles.map (fun p => if p.2.suite = some n then
      (p.1, { p.2 with core := { p.2.core with f := stopWaiting p.2.core.f, b := stopWaiting p.2.core.b, u := stopWaiting p.2.core.u } })
    else p) }

/-- Request a pre-emption (rule R433, step 1): every step gate of the suite closes. -/
def requestPreempt (s : State) (n : Nat) : State :=
  updSuite (stopBellwaits s n) n (fun su =>
    { su with slice := { su.slice with stopping := true, preemptBell := s.bell.count, boundary := s.bell.count } })

/-- Ask for a suite's restore (rule R437). -/
def requestResume (s : State) (n : Nat) : State :=
  updSuite s n (fun su => { su with slice := { su.slice with resumeAsked := true, resumeBell := s.bell.count } })

/-- The suite of a tile group that waits for its slice next after suite `n`, in ascending order and round again (rule R429). -/
def nextInRotation (s : State) (n : Nat) : Option Nat :=
  let w := (tileGroup s n).filter (fun m => m != n && (getSuite s m).slice.waitingSlice && decide ((getSuite s m).state = .preempted))
  match w.find? (fun m => decide (n < m)) with
  | some m => some m
  | none => w.head?

/-- SLICE_BOUNDARY (rule R429): the slice has run its charged length; with another suite waiting this one is pre-empted. -/
def execSliceBoundary (suite : Nat) (s : State) : Host.Outcome State Fault Refusal :=
  let su := getSuite s suite
  let due := decide (su.state = .running) && decide (0 < su.slice.slice) && !su.slice.stopping
    && decide (su.slice.sliceStart + su.slice.charged ≤ s.bell.count)
  whenDo due s
    (match nextInRotation s suite with
     | none => beginSliceAt s suite (su.slice.sliceStart + su.slice.charged)
     | some _ => updSuite (requestPreempt s suite) suite (fun x => { x with slice := { x.slice with
         waitingSlice := true, rotation := true, preemptBell := su.slice.sliceStart + su.slice.charged } }))

/-- A GANG_AT_BELL reaches a suite that it does not move (rule R439): OK where the suite is in the new state, else STATE. -/
def gangSettled (s : State) (n action id : Nat) : State :=
  let x := (getSuite s n).state
  if x = (if action = 0 then SuiteState.running else .preempted) then s
  else
    let status := if x = (if action = 0 then SuiteState.preempted else .running) then 0 else 0x0301
    let s1 := s.rings.foldl (fun st p =>
      (p.2.queue.filter (fun w => w.executing && w.pkt.opcode == 0x0506 && targetOf (keySrc p.1) w.pkt == n && w.note.getD 2 0 == id)).foldl
        (fun q w => finish q (keySrc p.1) w.pkt.tag status (if status = 0 then 0 else stateDetail st n)
          (if status = 0 then natLE (w.note.getD 1 0) 8 ++ natLE id 4 else [])) st) s
    s.mgr.broadcasts.foldl (fun st b =>
      let gang := (getRing st (ringKey b.src)).queue.any (fun w => w.executing && w.pkt.tag == b.tag && w.pkt.opcode == 0x0506)
      if gang then gatherResult st b.src b.tag (suiteTag n) (fun g => gatherAdd g (ownId st) status (if status = 0 then 0 else stateDetail st n))
      else st) s1

/-- GANG_BELL (rule R439): at the common bell every rank begins to stop, or to be restored. -/
def execGangBell (event : Nat) (s : State) : Host.Outcome State Fault Refusal :=
  match dueEvent s event 0x0506 with
  | none => ok s
  | some e =>
    let su := getSuite s e.suite
    let s1 := gangSettled (popEvent s event) e.suite e.arg event
    ok (if e.arg = 0 then
        (if su.state = .running then
          updSuite (requestPreempt s1 e.suite) e.suite (fun x => { x with slice := { x.slice with waitingSlice := false, rotation := false } })
         else s1)
      else if su.state = .preempted then requestResume s1 e.suite else s1)

/-- Run a released stream on to its next stop point (rule R434). -/
def release (s : State) (t : Nat) (k : KStream) (n : Nat) : State :=
  let x := getStream s t k
  match x.phase with
  | .atGate => passGate s t k n x.step
  | .draining => resumeInMark s t k
  | _ => setStream s t k { x with stopped := false }

/-- Whether a window of a suite waits for its streams to stop (rules R232, R433). -/
def windowWaits (su : Suite) : Bool := (su.window.map (fun w => !w.started)).getD false

/-- STREAM_RELEASE (rules R232, R434): for a pre-emption, or for a window that waits; a stream U whose gate the window closes is not released. -/
def execStreamRelease (tile : Nat) (st : KStream) (s : State) : Host.Outcome State Fault Refusal :=
  match (getTile s tile).suite with
  | none => ok s
  | some n =>
    let su := getSuite s n
    let x := getStream s tile st
    let open1 := decide (x.phase ≠ .atGate) || (suiteSteps s n).all (fun v => decide (x.step ≤ v + 1))
    whenDo (decide (su.state = .running) && (su.slice.stopping || (windowWaits su && decide (st ≠ .u))) && (x.stopped || decide (x.phase = .atGate)) && !x.halted
        && releaseDue s tile st && open1) s
      (updSuite (release s tile st n) n (fun y => { y with counts := { y.counts with releases := satInc 16 y.counts.releases } }))

/-- The STEP that the STOPs of a suite will report: its last completed step (rule R395). -/
def noteStops (s : State) (n : Nat) : State :=
  let last := lastStep s n
  { s with rings := s.rings.map (fun p => (p.1, { p.2 with queue := p.2.queue.map (fun w =>
      if w.executing && w.pkt.opcode == 0x0303 && targetOf (keySrc p.1) w.pkt == n then { w with note := [last] } else w) })) }

/-- Every tile of a suite has been saved: it is PREEMPTED (rules R429, R430, R433, R458), and a STOP that came meanwhile acts (rules R395,
R402). -/
def finishPreempt (s : State) (n : Nat) : State :=
  let su := getSuite s n
  let past := if su.slice.waitingSlice then su.slice.boundary - su.slice.preemptBell else 0
  let s1 := setSuite s n { su with
    slice := { su.slice with stopping := false, carry := su.slice.carry + past }
    counts := { su.counts with preempts := satInc 16 su.counts.preempts, saveBells := min 0xFFFF (s.bell.count - su.slice.boundary) } }
  let s2 := settleRetirement (unseatAll (setSuiteState s1 n .preempted) n) n
  let s3 := if su.slice.stopAfter.isSome then stopSaved (noteStops s2 n) n else s2
  match nextInRotation s3 n with
  | some m => requestResume s3 m
  | none => s3

/-- TILE_SAVE_COMPLETE (rules R433, R436): a tile's save slot is written; with the last the suite is PREEMPTED. -/
def execTileSaveComplete (tile : Nat) (s : State) : Host.Outcome State Fault Refusal :=
  let x := getTile s tile
  match x.suite with
  | none => ok s
  | some n =>
    let su := getSuite s n
    match su.image with
    | none => ok s
    | some im =>
      let slot := slotOf im x.core
      let su1 := if x.evalMode then { su with window := su.window.map (fun w => { w with saves := SMap.set w.saves x.vtile slot }) }
        else { su with saves := SMap.set su.saves x.vtile slot }
      let s1 := updTile (setSuite s n su1) tile (fun y => { y with saved := true })
      whenDo (decide (su.state = .running) && su.slice.stopping && !x.saved && saveReady s tile) s
        (if (residents s1 n).all (fun p => (getTile s1 p.1).saved) then finishPreempt s1 n else s1)

/-- A restored stream goes on from its stop point; one that still waits at a fold cut waits on (rules R416, R434, R437). -/
def wakeStream (s : State) (t : Nat) (k : KStream) : State :=
  let x := getStream s t k
  if x.cutWait && decide (1 < (getTile s t).fold) then setStream s t k { x with stopped := false }
  else
    match x.phase with
    | .draining => resumeInMark s t k
    | .bellWaiting _ _ => setStream s t k { x with stopped := false, waitFrom := s.bell.count, waitedBells := x.waitedBells + (s.bell.count - x.waitFrom) }
    | _ => setStream s t k { x with stopped := false }

/-- Restore a pre-empted suite (rule R437): the grid is mapped afresh, each resident virtual tile comes from its slot, the entries are
bound with tags at zero, and the gates open. A window in progress goes on (rule R234). -/
def restoreSuite (s0 : State) (n : Nat) : State :=
  let s := replan s0 n
  let su := getSuite s n
  match su.image with
  | none => s
  | some im =>
    let s1 := mapSuite s n su.saves true
    let res := residents s1 n
    let s2 := match su.window with
      | some w => if w.started then
          let w1 := { w with resident := res }
          res.foldl (fun st p => seatEval st n p.1 (evalTurn (getSuite s1 n) w1 p.1 p.2) im w1)
            (updSuite s1 n (fun x => { x with window := some w1, saves := su.saves }))
        else s1
      | none => s1
    let s3 := bindEntries s2 n { remote := su.job.rank.isSome, keep := true }
    let s4 := setSuiteState s3 n .running
    let s5 := res.foldl (fun st p => [KStream.f, .b, .u].foldl (fun q k => wakeStream q p.1 k) st) s4
    let s6 := updSuite s5 n (fun x => { x with
      excluded := []
      slice := { x.slice with resumeAsked := false, waitingSlice := false }
      counts := { x.counts with restoreBells := min 0xFFFF (s.bell.count - x.slice.resumeBell) } })
    addRunRecord (beginSlice s6 n) n (mapRecord s6 n (openStep s6 n))

/-- Whether a pre-empted suite is to be restored: it was asked for, or its slice has come because nothing of its group executes or was
asked for before it (rules R429, R437). -/
def resumeDue (s : State) (n : Nat) : Bool :=
  let su := getSuite s n
  su.slice.resumeAsked || (su.slice.waitingSlice && (tileGroup s n).all (fun m => !(getSuite s m).slice.resumeAsked))

/-- RESUME_RESTORE_COMPLETE (rule R437): no other suite of the tile group executes (rule R426). -/
def execResumeRestoreComplete (suite : Nat) (obs : List MemObs) (s : State) : Host.Outcome State Fault Refusal :=
  let su := getSuite s suite
  whenDo (decide (su.state = .preempted) && resumeDue s suite && !groupBusy s suite && (resumeFailure (updSuite s suite (fun x => { x with excluded := [] })) suite).isNone)
    s (readObs (restoreSuite (updSuite s suite (fun x => { x with excluded := [] })) suite) suite obs)

end Sys2Proof.Machine
end

