-- ==== Sys2Proof/Machine/Bell.lean ====
section
/-!
DEFINITION. The Belfry (rules R343 to R356 of 15_bell_clocks_and_crossings.md). Times are in units of 0.25 ns: a bell is 4,000.
The time of arrival of a record after the module's own edge, and the times a Spire measures, are operands of the commands.
-/
namespace Sys2Proof.Machine

/-- Codes of the Belfry states (rule R351). -/
def bellStateCode : BellState → Nat
  | .off => 0
  | .acquiring => 1
  | .locked => 2
  | .holdover => 3

/-- Move the Belfry to a state, posting BELL_STATE where it changes (rules R351, R401). -/
def setBellState (s : State) (x : BellState) : State :=
  if s.bell.state = x then s
  else
    deviceEvent { s with bell := { s.bell with
        state := x, good := 0, stepsSince := 0
        holdovers := if x = .holdover then satInc 16 s.bell.holdovers else s.bell.holdovers } } 0x0880
      (natLE (bellStateCode x) 1 ++ natLE 0 3 ++ natLE s.bell.stepsSince 4)

/-- Whether the module takes its bell from a manager (rule R343). -/
def hasManager (s : State) : Bool := s.mgr.role == 1 || s.mgr.role == 3

/-- The Belfry starts (rules R345, R351): at 0 without a manager, else acquiring the manager's count. -/
def startBelfry (s : State) : State :=
  if hasManager s then
    setBellState { s with bell := { s.bell with source := 3, port := s.mgr.parentPort, lastSync := s.bell.count } } .acquiring
  else
    setBellState { s with bell := { s.bell with count := 0, source := if s.bell.refValid then 2 else 1, port := 0, offset := 0, pathDelay := 0 } } .locked

/-- The Belfry stops (rule R351). -/
def stopBelfry (s : State) : State :=
  let s1 := setBellState s .off
  { s1 with bell := { s1.bell with source := 0, port := 0, offset := 0, pathDelay := 0, freqAdj := 0, delays := [], reqSent := none, inLinks := [] } }

/-- A bell that a count step moves, so that the time since it stays the same (rule R352); one before the first bell is at 0. -/
def movedBell (d : Int) (b : Nat) : Nat := ((b : Int) + d).toNat

/-- Move what a `bellwait` of a stream compares with: REL targets keep their remaining interval (rule R352), and the open kernel its time. -/
def shiftStream (d : Int) (k : KState) : KState :=
  let x := { k with openBell := movedBell d k.openBell, waitFrom := movedBell d k.waitFrom }
  match k.phase with
  | .bellWaiting none target => { x with phase := .bellWaiting none (movedBell d target) }
  | _ => x

def shiftCore (d : Int) (c : TileCore) : TileCore :=
  { c with f := shiftStream d c.f, b := shiftStream d c.b, u := shiftStream d c.u }

/-- What a module measures since a bell keeps its time over a count step (rules R319, R352, R378, R429; DEDUCED, assumption 57). -/
def shiftManager (d : Int) (m : Manager) : Manager :=
  { m with heard := m.heard.map (movedBell d), workers := m.workers.map (fun w => { w with lastSeen := movedBell d w.lastSeen })
           broadcasts := m.broadcasts.map (fun b => { b with since := movedBell d b.since }) }

def shiftSlice (d : Int) (x : SliceState) : SliceState :=
  { x with sliceStart := movedBell d x.sliceStart, boundary := movedBell d x.boundary, resumeBell := movedBell d x.resumeBell
           preemptBell := movedBell d x.preemptBell }

/-- A count step to `c` (rule R352): pending REL targets, stalled or saved, move with it; absolute counts stay. -/
def countStep (s : State) (c : Nat) : State :=
  let d : Int := (c : Int) - s.bell.count
  { s with
    bell := { s.bell with count := c, offset := 0, steps := satInc 16 s.bell.steps, stepsSince := s.bell.stepsSince + 1 }
    tiles := SMap.mapVals s.tiles (fun _ t => { t with core := shiftCore d t.core })
    mgr := shiftManager d s.mgr
    fw := { s.fw with servedBell := movedBell d s.fw.servedBell }
    suites := SMap.mapVals s.suites (fun _ su => { su with
      slice := shiftSlice d su.slice
      saves := SMap.mapVals su.saves (fun _ c => shiftCore d c)
      window := su.window.map (fun w => { w with saves := SMap.mapVals w.saves (fun _ c => shiftCore d c) }) }) }

/-- Whether an enabled wing is available (rule R464). -/
def wingAvailable (s : State) (w : Nat) : Bool :=
  let x := getWing s w
  let tiles := (List.range 10).map (fun j => w * 10 + j)
  (decide (s.dev = .ready) || decide (s.dev = .running)) && !x.inReset && x.trained
    && decide (s.fuse.gradeTiles ≤ (tiles.filter (usableTile s)).length) && tiles.all (fun t => !(getTile s t).health.inReset)
    && [2 * w, 2 * w + 1].any (fun p => (getPort s p).feed != 2)

def moduleAvailable (s : State) : Bool := s.fuse.wings.all (wingAvailable s)

/-- Whether this bell counts as measured time (rule R465): within the operating conditions, not in the bring-up that follows a wake
from STANDBY, not in an activation window. -/
def measured (s : State) : Bool :=
  decide (44000 ≤ s.cup.inputMv) && decide (s.cup.inputMv ≤ 59500) && !s.cup.coolantHot && !(s.fw.inActivation && !s.fw.fellBack)
    && !(decide (s.dev = .testing) && s.bringup.fresh)

/-- BELL_EDGE (rules R343, R346, R349, R465, R505, R512): the count rises by one; the period changes by at most 1 ns to drive the offset to zero, and
in HOLDOVER it keeps its last adjustment; BELL_REF_OUT follows where it is driven. -/
def execBellEdge (s : State) : Host.Outcome State Fault Refusal :=
  let b := s.bell
  let c : Int := max (-4) (min 4 (-b.offset))
  let b1 : Belfry := if b.state = .holdover then b else { b with offset := b.offset + c, freqAdj := 2500 * c }
  let second := decide (1000000 ≤ s.cup.lifeUs + 1)
  let s1 : State := { s with
    bell := { b1 with count := (b.count + 1) % 2 ^ 64 }
    cup := { s.cup with lifeUs := if second then 0 else s.cup.lifeUs + 1 }
    attic := { s.attic with
      lifetimeS := s.attic.lifetimeS + bnat second
      measuredUs := s.attic.measuredUs + bnat (measured s)
      downUs := s.attic.downUs + bnat (measured s && !(moduleAvailable s)) }
    atticStore := { s.atticStore with pendingOther := s.atticStore.pendingOther || (second && (s.attic.lifetimeS + 1) % 3600 == 0) } }
  whenDo (decide (b.state ≠ .off)) s (if b.outEn then send s1 .pins .pin [] else s1)

/-- A bell record (rule R347). -/
def bellRecord (s : State) (sub time count : Nat) : Bytes :=
  let ref := if hasManager s then s.bell.refFlag else s.bell.source == 2
  let flags := s.mgr.depth % 4 * 64 + 32 * bnat ref + 16 * bnat (decide (s.bell.state = .holdover)) + sub
  natLE 6 1 ++ natLE flags 1 ++ natLE time 2 ++ natLE count 8

/-- Ports on which a module sends bell records: the first of each direct worker's path, and the next port of each path it relays
(rule R347). -/
def bellPorts (s : State) : List Nat :=
  (s.mgr.workers.filter (fun w => !w.lost)).map (fun w => w.port) ++ s.mgr.relays.map (fun r => r.2)

/-- Whether a bell record has the kind and sub-kind named. -/
def isBellRecord (r : Bytes) (sub : Nat) : Bool := fieldAt r 0 1 == 6 && fieldAt r 1 1 % 16 == sub

/-- Whether a port is the bell port of a module that follows a manager (rule R347). -/
def onBellPort (s : State) (port : Nat) : Bool := hasManager s && s.bell.port == port

/-- Whether a path that this module relays comes in by a port (rules R347, R350). -/
def relayedIn (s : State) (port : Nat) : Bool := s.mgr.relays.any (fun r => r.1 == port)

/-- Measured delay of a port's inbound link (rules R348, R350). -/
def delayOf (s : State) (port : Nat) : Int := if onBellPort s port then s.bell.pathDelay else (SMap.get {} s.bell.inLinks port).delay

/-- The Belfry follows a SYNC of its manager (rules R347 to R352): the offset steps the count or turns the period, and the record names the
sender's depth (rule R315). -/
def followSync (s : State) (record : Bytes) (edge : Int) : State :=
  let b := s.bell
  let away := (fieldAt record 2 2 : Int) + b.pathDelay
  let m := edge - away
  let k := (m + 2000) / 4000
  let theta := 4000 * k - m
  let count := fieldAt record 4 8
  let own := (b.count : Int) + k
  let stepped := decide ((count : Int) ≠ own) || decide (2000 < theta.natAbs)
  let s1 := if stepped then countStep s (count + (away / 4000).toNat) else { s with bell := { b with offset := theta } }
  let good := if theta.natAbs ≤ 80 && !stepped then b.good + 1 else 0
  let s2 : State := { s1 with
    bell := { s1.bell with lastSync := s1.bell.count, good := good, refFlag := bit (fieldAt record 1 1) 5 }
    mgr := { s1.mgr with depth := min 3 (fieldAt record 1 1 / 64 + 1) } }
  match b.state with
  | .holdover => setBellState s2 .acquiring
  | .acquiring => if 10 ≤ good then setBellState s2 .locked else s2
  | _ => s2

/-- A SYNC goes on by each path that comes in by its port, later by the inbound link's delay and its time here; one too late is not sent (rule
R350). -/
def relaySync (s : State) (port : Nat) (record : Bytes) (time : Nat) : State :=
  (s.mgr.relays.filter (fun r => r.1 == port)).foldl (fun q r =>
    if time ≤ 65535 then sendControl q r.2 (bytesAt record 0 2 ++ natLE time 2 ++ bytesAt record 4 8) else q) s

/-- SYNC (rules R347 to R352): on the bell port the Belfry follows it, and every path that it belongs to carries it on. `edge` is the arrival
after the module's own edge, `residence` the time a relayed record stays here (rule R350). -/
def execSync (port : Nat) (record : Bytes) (edge : Int) (residence : Nat) (s : State) : Host.Outcome State Fault Refusal :=
  let follows := onBellPort s port && s.bell.source == 3
  let time := fieldAt record 2 2 + (delayOf s port).toNat + residence
  whenDo ((follows || relayedIn s port) && isBellRecord record 0 && decide (s.bell.state ≠ .off)) s
    (relaySync (if follows then followSync s record edge else s) port record time)

/-- DELAY_REQ (rule R348): answered on the port it came by, with its residence time. -/
def execDelayReq (port : Nat) (record : Bytes) (residence : Nat) (s : State) : Host.Outcome State Fault Refusal :=
  whenDo ((bellPorts s).contains port && isBellRecord record 1 && decide (s.bell.state ≠ .off)) s
    (sendControl s port (bellRecord s 2 residence (fieldAt record 4 8)))

/-- Insert into a rising list. -/
def insertInt (x : Int) : List Int → List Int
  | [] => [x]
  | y :: ys => if x ≤ y then x :: y :: ys else y :: insertInt x ys

/-- Twice the median of the round trips held. -/
def medianTwice (l : List Int) : Int :=
  let sorted := l.foldr insertInt []
  sorted.getD ((l.length - 1) / 2) 0 + sorted.getD (l.length / 2) 0

/-- The round trips kept after one more (rule R348): the last eight; one more than 50 ns above their median is discarded. -/
def keptTrips (l : List Int) (x : Int) : List Int :=
  if l = [] ∨ 2 * x ≤ medianTwice l + 400 then (l ++ [x]).drop (l.length + 1 - 8) else l

/-- The delay that kept round trips give (rule R348): half their mean; how a part of a unit rounds is a free value. -/
def meanDelay (l : List Int) (i : Nat) : Int := freeRound (l.foldl (· + ·) 0) (2 * l.length) i

/-- DELAY_RESP (rules R348, R350): the round trip less the residence is one exchange of the bell port, or of the link by which a relayed path
comes in. `trip` is what the Spire measured from request to response. -/
def execDelayResp (port : Nat) (record : Bytes) (trip : Nat) (s : State) : Host.Outcome State Fault Refusal :=
  let b := s.bell
  let x : Int := (trip : Int) - fieldAt record 2 2
  let id := fieldAt record 4 8
  let l := SMap.get {} b.inLinks port
  let (i, s1) := draw s
  let kept := keptTrips b.delays x
  let away := keptTrips l.delays x
  if onBellPort s port then
    whenDo (isBellRecord record 2 && b.reqSent == some id) s
      { s1 with bell := { b with reqSent := none, delays := kept, pathDelay := if kept = b.delays then b.pathDelay else meanDelay kept i } }
  else
    whenDo (relayedIn s port && isBellRecord record 2 && l.reqSent == some id) s
      { s1 with bell := { b with inLinks := SMap.set b.inLinks port { delays := away, delay := if away = l.delays then l.delay else meanDelay away i } } }

/-- SYNC_SEND (rules R347, R348): on a bell port, `offset` after the edge of the count. -/
def execSyncSend (port offset : Nat) (s : State) : Host.Outcome State Fault Refusal :=
  whenDo (((s.mgr.workers.filter (fun w => !w.lost)).any (fun w => w.port == port)) && decide (s.bell.state ≠ .off) && decide (offset ≤ 65535)) s
    (sendControl s port (bellRecord s 0 offset s.bell.count))

/-- DELAY_REQ_SEND (rules R348, R350): on the bell port, or on the link by which a relayed path comes in. -/
def execDelayReqSend (port : Nat) (s : State) : Host.Outcome State Fault Refusal :=
  let b := s.bell
  let s1 := sendControl s port (bellRecord s 1 0 b.reqSeq)
  let next := (b.reqSeq + 1) % 2 ^ 64
  if onBellPort s port then
    whenDo (b.source == 3 && decide (b.state ≠ .off)) s { s1 with bell := { s1.bell with reqSent := some b.reqSeq, reqSeq := next } }
  else
    whenDo (relayedIn s port && decide (b.state ≠ .off)) s
      { s1 with bell := { s1.bell with inLinks := SMap.modify {} s1.bell.inLinks port (fun l => { l with reqSent := some b.reqSeq }), reqSeq := next } }

/-- SYNC_LOSS (rule R351). -/
def execSyncLoss (s : State) : Host.Outcome State Fault Refusal :=
  whenDo (hasManager s && decide (s.bell.state = .locked) && decide (s.bell.lastSync + 1000 ≤ s.bell.count)) s
    (setBellState s .holdover)

/-- BELL_REF_LOSS (rules R343, R344, R351): a module that used it goes to HOLDOVER on its own oscillator. -/
def execBellRefLoss (present : Bool) (s : State) : Host.Outcome State Fault Refusal :=
  let b : Belfry := { s.bell with refValid := false, refPresent := present }
  ok (if s.bell.source = 2 then setBellState { s with bell := { b with source := 1 } } .holdover else { s with bell := b })

/-- BELL_REF_RETURN (rules R343, R344, R351): a module without a manager uses it; HOLDOVER ends in ACQUIRING. -/
def execBellRefReturn (s : State) : Host.Outcome State Fault Refusal :=
  let used := !(hasManager s) && decide (s.bell.state ≠ .off)
  let s1 : State := { s with bell := { s.bell with refValid := true, refPresent := true, source := if used then 2 else s.bell.source } }
  ok (if used && decide (s.bell.state = .holdover) then setBellState s1 .acquiring else s1)

/-- BELL_SLOT_VALUE (rule R356): the slot takes its value; a `bellwait` on it compares afresh. -/
def execBellSlotValue (event : Nat) (s : State) : Host.Outcome State Fault Refusal :=
  match dueEvent s event 0x0802 with
  | none => ok s
  | some e => ok (updSuite (popEvent s event) e.suite (fun su => { su with slots := SMap.set su.slots (e.arg % 16) e.value }))

end Sys2Proof.Machine
end

