-- ==== Sys2Proof/Machine/Units.lean ====
section
/-!
DEFINITION. Units taken away and reset: DISABLE_UNIT (rules R256, R276, R393, R483), tile and wing resets (rules R478 to R480) and
crossings (rules R359 to R363, R482). Unit classes are those of rule R393: 0 tile, 1 landing (tile × 4 + landing), 2 stream entry,
3 pseudo-channel, 4 Spire port; 5 is a wing.
-/
namespace Sys2Proof.Machine

/-- Whether a suite holds a unit (rules R393, R394). -/
def holdsUnit (su : Suite) (cls i : Nat) : Bool :=
  decide (su.state ≠ .absent) &&
    match cls with
    | 0 => su.res.tiles.contains i
    | 1 => su.res.tiles.contains (i / 4)
    | 2 => decide (1024 * su.res.baseBlock ≤ i) && decide (i < 1024 * (su.res.baseBlock + su.res.blocks))
    | 3 => su.res.pcs.contains i
    | 4 => su.res.ports.any (fun p => p.1 == i && decide (0 < p.2))
    | _ => su.res.tiles.any (fun t => t / 10 == i) || su.res.pcs.any (fun p => p / 64 == i)
        || su.res.ways.any (fun w => w.1 == i && decide (0 < w.2))

/-- The owner records of a disable or reset by command: one for each RUNNING suite that holds the unit, each poisoning its suite's
step once (rule R393). -/
def unitRecords (s : State) (cls i cause opcode : Nat) : State :=
  s.suites.foldl (fun st p =>
    if executing p.2 = true ∧ holdsUnit p.2 cls i then
      let idx := st.faults.next
      let step := lowestStep st p.1
      let r : FaultRec := forSuite st p.1 step
        { unitClass := cls, unitIndex := i, cause := cause, op := { operation := opcode, isOpcode := true }, domain := 4 }
      let s1 := recordFault st r
      signRecord (confirmFault s1 p.1 step idx ((p.2.window.map (fun w => w.started)).getD false)) idx false
    else st) s

/-- Whether a transaction of an entry reaches a pseudo-channel that satisfies `f`. -/
def txnReaches (s : State) (x : StreamEntry) (txn : Txn) (f : Nat → Bool) : Bool :=
  if x.type = typeTile ∨ x.type = typeRemote then false
  else
    match memoryAddr s x txn with
    | none => false
    | some a => ([a, a + 448].filterMap (fun b => place b (getSuite s x.suite).res.pcs (pcCapacity s))).any (fun p => f p.1)

/-- Absorb every started transaction of every entry that reaches such a pseudo-channel (rules R256, R480). -/
def absorbReaching (s : State) (f : Nat → Bool) : State :=
  s.streams.foldl (fun st p =>
    (p.2.inFlight.filter (fun t => txnReaches s p.2 t f)).foldl (fun q t => absorbTxn q p.1 t) st) s

/-- Entries that a unit carries. -/
def unitEntries (s : State) (cls i : Nat) : List Nat :=
  (s.streams.filter (fun p =>
    match cls with
    | 0 => p.2.ptile == i && decide (p.2.state ≠ .free)
    | 1 => p.2.ptile == i / 4 && entryLanding p.2 == i % 4 && decide (p.2.state ≠ .free)
    | 2 => p.1 == i
    | 3 => p.2.inFlight.any (fun t => txnReaches s p.2 t (fun c => c == i))
    | 4 => p.2.type == typeRemote && p.2.port == i
    | _ => p.2.inFlight.any (fun t => txnReaches s p.2 t (fun c => c / 64 == i)))).map (fun p => p.1)

/-- Whether a disabled unit has drained. -/
def unitDrained (s : State) (cls i : Nat) : Bool :=
  if cls = 3 then (unitEntries s 3 i).isEmpty
  else (unitEntries s cls i).all (fun e => !(getEntry s e).draining) && !(cls == 0 && (getTile s i).health.inReset)

def sumNat (l : List Nat) : Nat := l.foldl (· + ·) 0

/-- Transactions in flight, and queued, on a list of entries. -/
def flying (s : State) (es : List Nat) : Nat := sumNat (es.map (fun e => (getEntry s e).inFlight.length))
def waitingOn (s : State) (es : List Nat) : Nat := sumNat (es.map (unstarted s))

/-- Transactions that the device's entries have absorbed. -/
def absorbedTotal (s : State) : Nat := sumNat (s.streams.map (fun p => p.2.absorbed))

/-- Answer the commands that disabled or reset a unit, once it is done (rules R393, R483, R491). A waiting command notes class,
index, transactions in flight and queued, and the absorbed count at its start. -/
def answerUnits (s : State) : State :=
  s.rings.foldl (fun st p =>
    (p.2.queue.filter (fun w => w.executing && (w.pkt.opcode == 0x0103 || (w.pkt.opcode == 0x0102 && w.note.length == 5)))).foldl
      (fun q w =>
        let n := w.note.getD 0 0
        let i := w.note.getD 1 0
        let start := w.note.getD 2 0 + w.note.getD 3 0
        let absorbed := absorbedTotal s - w.note.getD 4 0
        let done := if w.pkt.opcode = 0x0103 then unitDrained s n i
          else if n = 0 then !(getTile s i).health.inReset else !(getWing s i).inReset
        if done then finish q (keySrc p.1) w.pkt.tag 0 0 (natLE (start - absorbed) 4 ++ natLE absorbed 4) else q) st) s

/-- A disabled port is DISABLED once its entries have drained (rules R312, R393). -/
def settlePorts (s : State) : State :=
  (List.range 16).foldl (fun st p =>
    let x := getPort st p
    if x.disabled && x.state != portDisabled && unitDrained st 4 p then
      updPort (downPort st p false) p (fun y => { y with state := portDisabled, feed := 2, switching := none })
    else st) s

/-- Disable a unit (rules R276, R393, R483). -/
def disableUnit (s : State) (cls i : Nat) : State :=
  let es := unitEntries s cls i
  let off := fun (st : State) => { st with offUnits := st.offUnits ++ [(cls, i)] }
  match cls with
  | 0 => es.foldl disableEntry (haltTile (updTile s i (fun x => { x with health := { x.health with disabled := true } })) i)
  | 3 => off s
  | 4 => settlePorts (es.foldl disableEntry (updPort s i (fun x => { x with disabled := true })))
  | _ => es.foldl disableEntry (off s)

/-- Whether a unit is disabled already (rule R393). -/
def unitDisabled (s : State) (cls i : Nat) : Bool :=
  match cls with
  | 0 => (getTile s i).health.disabled
  | 4 => (getPort s i).disabled
  | _ => unitOff s cls i

/-- Return a unit to use (rule R393): a port trains again. -/
def enableUnit (s : State) (cls i : Nat) : State :=
  match cls with
  | 0 => updTile s i (fun x => { x with health := { x.health with disabled := false } })
  | 4 =>
    let s1 := takeFeeds (updPort s i (fun x => { x with disabled := false, state := if x.state = portDisabled then portDown else x.state }))
    if (getPort s1 i).feed ≠ 2 ∧ (getPort s1 i).state = portDown then startRetrain s1 i 2 else s1
  | _ => { s with offUnits := s.offUnits.filter (fun u => u != (cls, i)) }

/-- DISABLE_DRAIN_EXPIRY (rules R256, R276): 100 µs after a disable, what remains on the entry is absorbed. -/
def execDisableDrainExpiry (entry : Nat) (s : State) : Host.Outcome State Fault Refusal :=
  let x := getEntry s entry
  let off := x.inFlight.filter (fun t => txnReaches s x t (fun c => unitOff s 3 c))
  let s1 := if x.draining then disableNow s entry else off.foldl (fun q t => absorbTxn q entry t) s
  whenDo (isEntry entry && decide (x.state ≠ .free)) s (answerUnits (settlePorts s1))

/-- Begin a tile reset (rule R479): streams halt, the transactions of its landings are absorbed and its entries are DISABLED. -/
def beginTileReset (s : State) (t : Nat) : State :=
  let s1 := updTile (haltTile s t) t (fun x => { x with health := { x.health with inReset := true } })
  (unitEntries s1 0 t).foldl (fun st e =>
    let x := getEntry st e
    if x.state = .bound ∨ x.state = .unbound then
      notifyPeer (absorbEntry st e .disabled 0 true) e true ((unitOwner st x.suite).getD 0xFFFFFFFF)
    else st) s1

/-- Latched high words of a block go with its reset (rule R522): `k` and `size` place the block. -/
def dropLatches (s : State) (k size : Nat) : State :=
  { s with bnd := { s.bnd with latches := s.bnd.latches.filter (fun q => q.1 % 2 ^ 32 / size != k) } }

/-- A stream after a tile reset: nothing but its step counter, which its suite's bookkeeping reads. -/
def blankStream (k : KState) : KState := { step := k.step, halted := true }

/-- A tile reset ends (rules R110, R478, R479): all but health, meter and membership take reset values, every token is coded 0b11,
and the crossings stay held until they resynchronise. -/
def endTileReset (s : State) (t : Nat) : State :=
  let s1 := updTile (dropLatches s (0x100 + t) 0x10000) t (fun x =>
    { suite := x.suite, vtile := x.vtile, fold := x.fold, saved := x.saved
      core := { f := blankStream x.core.f, b := blankStream x.core.b, u := blankStream x.core.u,
                tokens := List.replicate 11 .none }
      gov := { energyUj := x.gov.energyUj }
      health := { x.health with inReset := false, blank := true }, cdcHeld := true })
  { s1 with bringup := { s1.bringup with tileResets := satInc 8 s1.bringup.tileResets } }

/-- TILE_RESET_COMPLETE (rule R479). -/
def execTileResetComplete (tile : Nat) (s : State) : Host.Outcome State Fault Refusal :=
  whenDo (isTile tile && (getTile s tile).health.inReset) s (answerUnits (endTileReset s tile))

/-- Begin a wing reset (rule R480): its tiles reset, its controller takes no access, dirty lines go back to the stack. -/
def beginWingReset (s : State) (w : Nat) : State :=
  let s1 := (List.range 10).foldl (fun st j => beginTileReset st (w * 10 + j)) s
  updWing s1 w (fun x => { x with inReset := true, drained := false, lines := x.lines.map (fun l => (l.1, { l.2 with dirty := false })) })

/-- WING_DRAIN_EXPIRY (rule R480): 100 µs on, the accesses that remain are absorbed; their streams, on any wing, fault. -/
def execWingDrainExpiry (wing : Nat) (s : State) : Host.Outcome State Fault Refusal :=
  whenDo (decide (wing < 8) && (getWing s wing).inReset) s
    (updWing (absorbReaching s (fun c => c / 64 == wing)) wing (fun x => { x with drained := true }))

/-- WING_RESET_COMPLETE (rule R480): the lines are invalid, the stack is trained and its repairs are in place; contents and way
owners stay, and the counts of the controller and the cache take their reset values (rule R9, Note 2). -/
def execWingResetComplete (wing : Nat) (s : State) : Host.Outcome State Fault Refusal :=
  let s1 := (List.range 10).foldl (fun st j =>
    if (getTile st (wing * 10 + j)).health.inReset then endTileReset st (wing * 10 + j) else st) s
  let s2 := updWing (dropLatches s1 (wing + 1) 0x100000) wing (fun x => { x with
    inReset := false, drained := false, lines := [], trained := true, cdcHeld := true, cdcPending := 0
    hits := 0, misses := 0, cacheCorrected := 0, cacheDirtyUe := 0, ce := [], ue := [], onlineRepairs := 0 })
  let s3 : State := { s2 with bringup := { s2.bringup with wingResets := satInc 8 s2.bringup.wingResets } }
  whenDo (decide (wing < 8) && (getWing s wing).inReset && (getWing s wing).drained) s (answerUnits s3)

/-- CROSSING_RESYNC (rules R362, R365): the crossings of a block carry again, what pended at the reset being absorbed, and the resynchronisation is
counted. -/
def execCrossingResync (crossing : CrossingId) (s : State) : Host.Outcome State Fault Refusal :=
  match crossing with
  | .tile t => whenDo (isTile t && !(getTile s t).health.inReset) s
      (updTile s t (fun x => { x with cdcHeld := false, cdcPending := 0, counts := { x.counts with cdcResyncs := satInc 8 x.counts.cdcResyncs } }))
  | .wing w => whenDo (decide (w < 8) && !(getWing s w).inReset) s
      (updWing s w (fun x => { x with cdcHeld := false, cdcPending := 0, cdcResyncs := satInc 8 x.cdcResyncs }))
  | .spire p => whenDo (portPresent s p) s
      { s with portExtra := SMap.modify {} s.portExtra p (fun x => { x with cdcHeld := false, cdcPending := 0, cdcResyncs := satInc 8 x.cdcResyncs }) }
  | _ => ok s

end Sys2Proof.Machine
end

