-- ==== Sys2Proof/Machine/Bringup.lean ====
section
/-!
DEFINITION. Device states, bring-up and device resets (rules R16, R470 to R478, R482 of 21_bringup_reset_and_firmware.md).
-/
namespace Sys2Proof.Machine

/-- Wings enabled in fuses, ports and tiles that exist. -/
def presentWings (s : State) : List Nat := (List.range 8).filter (wingPresent s)
def presentPorts (s : State) : List Nat := (List.range 16).filter (portPresent s)
def presentTiles (s : State) : List Nat := (List.range 80).filter (fun t => wingPresent s (t / 10))

/-- A change of the Attic's working copy that is a fault event (rule R512). -/
def atticFault (s : State) (f : Attic → Attic) : State :=
  { s with attic := f s.attic, atticStore := { s.atticStore with pendingFault := true } }

/-- The bank that the Cupola takes (rule R510); none where neither is valid. -/
def takenBank (a : AtticStore) : Option (Nat × AtticBank) :=
  match a.bank0, a.bank1 with
  | some b, none => some (0, b)
  | none, some b => some (1, b)
  | none, none => none
  | some b, some c =>
    let d := (c.seq + 2 ^ 32 - b.seq) % 2 ^ 32
    if 1 ≤ d ∧ d < 2 ^ 31 then some (1, c) else some (0, b)

/-- The Cupola takes a bank and loads its content (rules R471, R510). -/
def readAttic (s : State) : State :=
  match takenBank s.atticStore with
  | none => s
  | some (b, x) => { s with attic := x.data, atticStore := { s.atticStore with taken := b, seq := x.seq } }

/-- Port 0's management lane (rule R299): lit from a Lantern that the Attic records as authenticated at its last check. -/
def managementLane (s : State) : State :=
  let good := fun (f : Nat) =>
    let l := feedLantern 0 f
    (getLantern s l).state != 0 && (SMap.get {} s.attic.lanterns l).authOk
  if !(portPresent s 0) then s
  else if good 0 then updPort s 0 (fun x => { x with state := portMgmtOnly, feed := 0, credits := startCredits })
  else if good 1 then updPort s 0 (fun x => { x with state := portMgmtOnly, feed := 1, credits := startCredits })
  else s

/-- The role that a module takes on entering WAKING (rules R314, R470). -/
def strapRole (s : State) : State :=
  let m : Manager := { strapGiven := s.fuse.strap }
  { s with mgr := if s.fuse.strap then { m with role := 2, depth := 0, moduleId := 0 } else m }

/-- What is left of the Lanterns when the compute rails go or the module sleeps: dark, to be authenticated afresh (rule R473). -/
def darkLanterns (s : State) : State :=
  { s with lanterns := SMap.mapVals s.lanterns (fun _ x => if x.state = 0 then x else { x with state := 1, mirror := {} }) }

/-- The ports of fused-off wings (rule R280): DISABLED. -/
def fusedPorts (s : State) : SMap Port := ((List.range 16).filter (fun p => !(portPresent s p))).map (fun p => (p, { state := portDisabled }))

/-- The state of the device's blocks after a device reset or a SLEEP (rules R393, R478, R482): suites, rings and sessions are gone; no suite is
left that a marked tile or pseudo-channel serves, so its retirement takes effect. A warm reset keeps fault records, meters, scrub counts, lit
Lanterns and the powered endpoint, and STANDBY nothing of a block that is off (rule R21); port 0's link session lasts through a SLEEP. The
boundary scan acts as BYPASS again (rule R547), and the Hall's exchanges on the management interface begin anew. -/
def blocksReset (s : State) (warm sleep : Bool) : State :=
  let meters := warm
  let keepTile := fun (x : Tile) =>
    ({ gov := { energyUj := if meters then x.gov.energyUj else 0 }
       health := { retired := x.health.retired || x.health.pendingRetire, karFail := x.health.karFail, inService := x.health.inService } } : Tile)
  let keepWing := fun (x : Wing) =>
    (if meters then { scrubPasses := x.scrubPasses, scrubProgress := x.scrubProgress, scrubAt := x.scrubAt, energyUj := x.energyUj } else {} : Wing)
  let keepRing := fun (k : Nat) (r : Ring) =>
    (if sleep && k == 16 then r else { sessions := r.sessions } : Ring)
  let s1 : State := { s with
    tiles := SMap.mapVals s.tiles (fun _ x => keepTile x)
    wings := SMap.mapVals s.wings (fun _ x => keepWing x)
    portExtra := if meters then SMap.mapVals s.portExtra (fun _ x => { energyUj := x.energyUj }) else []
    ports := fusedPorts s, suites := [], streams := [], offUnits := []
    bell := { s.bell with events := [], telemetry := 100000, outEn := true, steps := 0, holdovers := 0 }
    bringup := { s.bringup with tileResets := 0, wingResets := 0, suiteResets := 0 }
    bnd := { s.bnd with latches := [], jtagInstr := 0, extest := false, spdmState := 0, transcript := [], pldmUpdate := 0, pldmBytes := 0,
                        d3hot := if warm then s.bnd.d3hot else [], msix := if warm then s.bnd.msix else [] }
    hbm := if warm then s.hbm else []
    rings := SMap.mapVals s.rings keepRing
    faults := if meters then { s.faults with resolutions := [] } else {}
    fw := { s.fw with stage := 0, stagedVersion := 0, stagedSvn := 0, stagedLength := 0, stagedDigest := [], blocks := [], halves := [],
                      actPending := false, actBell := 2 ^ 64 - 1, inActivation := false, fellBack := false, heldPackets := [], keptWrites := [], heldRegs := [], serving := false } }
  let retiring := (s.tiles.filter (fun p => p.2.health.pendingRetire && !(s.attic.tilesRetired.contains p.1))).map (fun p => p.1)
  let s1 : State := if retiring = [] ∧ s.attic.pcsMarked = [] then s1
    else atticFault s1 (fun a => { a with tilesRetired := a.tilesRetired ++ retiring, pcsRetired := a.pcsRetired ++ a.pcsMarked, pcsMarked := [] })
  let s2 := stopBelfry s1
  let s3 := strapRole s2
  let s4 := if warm then s3 else darkLanterns s3
  managementLane { s4 with cup := { s4.cup with railsUp := warm && s4.cup.railsUp } }

/-- Begin a device reset (rules R470, R482): suites halt and drain; causes and counts enter the Attic. -/
def beginDeviceReset (s : State) (level cause : Nat) : State :=
  let s0 := s.suites.foldl (fun st p => haltSuiteTiles st p.1) s
  let s1 : State := { s0 with rings := SMap.mapVals s0.rings (fun _ r => { r with queue := [] }), mgr := { s0.mgr with broadcasts := [], asked := [] } }
  let warm := level == 3
  let s2 := { s1 with
    attic := { s1.attic with
      resetCause := cause, resetLevel := level
      warmResets := if warm then satInc 16 s1.attic.warmResets else s1.attic.warmResets
      coldResets := if warm then s1.attic.coldResets else satInc 16 s1.attic.coldResets }
    atticStore := { s1.atticStore with pendingOther := true }
    bringup := { s1.bringup with warm := warm, resetLevel := level, sleeping := false, drainTo := .waking } }
  setDev s2 .draining

/-- Begin WAKING (rules R470, R472). -/
def beginWaking (s0 : State) (full warm : Bool) : State :=
  let s := s0.attic.tilesRetired.foldl (fun st t => updTile st t (fun x => { x with health := { x.health with retired := true } })) s0
  setDev { strapRole s with bringup := { asked := if full then 1 else 2, warm := warm, fresh := decide (s.dev = .standby), resetLevel := s.bringup.resetLevel } } .waking

/-- A bring-up fails (rules R470, R476): FAULTED, and the code is the last bring-up result. -/
def failBringup (s : State) (code : Nat) : State :=
  let s1 := atticFault { s with bringup := { s.bringup with code := code } } (fun a => { a with
    bringupCode := code, bringupKind := if s.bringup.kind = 0 then s.bringup.asked else s.bringup.kind })
  setDev s1 .faulted

/-- The empty Attic that RESET at level 4 causes after a bring-up that failed with ATTIC: its write goes to bank 0 with SEQ 0
(rules R476, R510). -/
def emptyAttic (s : State) : State :=
  atticFault { s with atticStore := { s.atticStore with bank0 := none, bank1 := none, taken := 1, seq := 2 ^ 32 - 1 } } (fun _ => {})

/-- WAKE takes effect in STANDBY (rules R393, R504). -/
def wakeDevice (s : State) (full : Bool) : State := beginWaking (blocksReset s false true) full false

/-- RESET at level 3 or 4 (rules R393, R477). -/
def resetDevice (s : State) (level cause : Nat) : State :=
  let s0 := if s.dev = .faulted ∧ s.bringup.code = 3 ∧ level = 4 then emptyAttic s else s
  beginDeviceReset s0 level cause

/-- POWER_ON (rules R470, R493): the Cupola starts and enters STANDBY. -/
def execPowerOn (mv : Nat) (s : State) : Host.Outcome State Fault Refusal :=
  let s1 := readAttic { s with cup := { s.cup with inputMv := mv, rawMv := mv, minMv := mv } }
  let s2 := managementLane { s1 with attic := { s1.attic with resetCause := 0, resetLevel := 0 } }
  whenDo (decide (s.dev = .off) && decide (44000 ≤ mv) && decide (mv ≤ 59500)) s { s2 with dev := .standby }

/-- POWER_LOSS (rules R470, R513): OFF; what is not in fuses, flash or a written bank is lost, and a bank being written is invalid. -/
def execPowerLoss (s : State) : Host.Outcome State Fault Refusal :=
  let a := s.atticStore
  let result := fun (x : Attic) => (x.bringupCode, x.bringupKind, x.bringupMs, x.fullAt)
  let broken : AtticStore := { a with
    lostResult := a.lostResult || (a.writing && decide (((takenBank a).map (fun b => result b.2.data)) ≠ some (result a.image)))
    bank0 := if a.writing && a.taken == 1 then none else a.bank0
    bank1 := if a.writing && a.taken == 0 then none else a.bank1
    writing := false, pendingFault := false, pendingOther := false, lastWrite := none, lastFault := none }
  whenDo (decide (s.dev ≠ .off)) s
    { pending := s.pending, free := s.free, outbox := s.outbox, host := s.host, fuse := s.fuse, atticStore := broken
      fw := { slotA := s.fw.slotA, slotB := s.fw.slotB, fwMinSvn := s.fw.fwMinSvn }
      lanterns := SMap.mapVals s.lanterns (fun _ x => if x.state = 0 then x else { x with state := 1, mirror := {} })
      bnd := { perst := s.bnd.perst } }

/-- Whether the hold after a thermal shutdown lasts (rules R502, R514): until the third wake in a day, only the recovery wake ends it. -/
def thermalHold (s : State) : Bool :=
  s.cup.down == some 5 && decide ((s.cup.thermalWakes.filter (fun t => decide (s.attic.lifetimeS < t + 86400))).length < 3)

/-- WAKE_PIN (rules R477, R491, R504): wakes a module in STANDBY, and one whose SLEEP still drains once it is there; held for 1 s it is RESET at
level 4 after the failures that leave the Hall not running. `held` is the time the pin was high, in ms. -/
def execWakePin (held : Nat) (s : State) : Host.Outcome State Fault Refusal :=
  if s.dev = .standby then whenDo (decide (1 ≤ held) && !(thermalHold s)) s (wakeDevice s false)
  else if s.dev = .draining ∧ s.bringup.sleeping = true then
    whenDo (decide (1 ≤ held)) s { s with bringup := { s.bringup with wakeHeld := true } }
  else whenDo (decide (s.dev = .faulted) && decide (1 ≤ s.bringup.code) && decide (s.bringup.code ≤ 4) && decide (1000 ≤ held)) s
    (resetDevice s 4 1)

/-- RAILS_IN_REGULATION (rule R471): the rails are up, the fuses and the Attic are read. -/
def execRailsInRegulation (fusesOk : Bool) (s : State) : Host.Outcome State Fault Refusal :=
  let s1 : State := { s with cup := { s.cup with railsUp := true } }
  let s2 : State := { s1 with bringup := { s1.bringup with fusesRead := true } }
  whenDo (decide (s.dev = .waking) && !s.bringup.fusesRead) s
    (if !fusesOk then failBringup s1 2
     else if (takenBank s.atticStore).isNone then failBringup s1 3
     else s2)

/-- RAIL_REGULATION_TIMEOUT (rules R471, R476); a warm reset keeps the rails up. -/
def execRailRegulationTimeout (s : State) : Host.Outcome State Fault Refusal :=
  whenDo (decide (s.dev = .waking) && !s.cup.railsUp) s (failBringup s 1)

/-- Whether a quick bring-up is replaced by a full one (rules R472, R491). -/
def mustBeFull (s : State) (slot : Nat) : Bool :=
  let a := s.attic
  s.atticStore.lostResult || a.bringupKind == 0 || a.bringupCode != 0 || a.fullSlot != slot
    || (match a.fullAt with | none => true | some t => decide (t + 2592000 < a.lifetimeS))

/-- Start the Hall from a slot and enter TESTING (rules R345, R473, R486). -/
def enterTesting (s : State) (slot : Nat) : State :=
  let full := s.bringup.asked == 1 || mustBeFull s slot
  let s1 : State := { s with
    fw := { s.fw with active := slot, confirmed := s.attic.fwConfirmed && slot == s.attic.fwActive, reverted := s.attic.fwReverted, serving := true, servedBell := 0 }
    bringup := { s.bringup with kind := if full then 1 else 2, forcedFull := full && s.bringup.asked == 2 } }
  let s2 := startBelfry s1
  let s3 : State := { s2 with bringup := { s2.bringup with fromBell := s2.bell.count }, fw := { s2.fw with servedBell := s2.bell.count } }
  takeFeeds (setDev s3 .testing)

/-- FIRMWARE_VERIFIED (rule R486): the slot that the Attic records, then the other. -/
def execFirmwareVerified (okA okB : Bool) (s : State) : Host.Outcome State Fault Refusal :=
  let good := fun (slot : Nat) => if slot = 0 then okA && s.fw.slotA.valid else okB && s.fw.slotB.valid
  let first := s.attic.fwActive
  let other := 1 - first
  let drop : State := { s with fw := if first = 0 then { s.fw with slotA := { s.fw.slotA with valid := false } }
                                     else { s.fw with slotB := { s.fw.slotB with valid := false } } }
  whenDo (decide (s.dev = .waking) && s.bringup.fusesRead) s
    (if good first then enterTesting s first else if good other then enterTesting drop other else failBringup s 4)

/-- The record of a brown-out or thermal shutdown that the Hall writes at READY from the Attic entry (rules R500, R502). -/
def recordDown (s : State) : State :=
  match s.cup.down, s.attic.lastEntry with
  | some kind, some (_, _, mv, _) =>
    let idx := s.faults.next
    let s1 := updateFault (recordFault s { cause := if kind = 5 then 0x0701 else 0x0700, domain := 5 }) idx (fun r => { r with inputMv := mv })
    signRecord { s1 with cup := { s1.cup with down := none } } idx false
  | _, _ => s

/-- READY once every test of rule R473 is complete, and the capacity table goes to the manager (rule R286): stacks, tiles, and ports whose feed is lit by an ACTIVE or EOL Lantern. -/
def settleReady (s : State) : State :=
  let b := s.bringup
  let mem := (presentWings s).all b.memTested.contains
  let kar := (presentTiles s).all (fun t => b.karDone.contains t || (getTile s t).health.retired)
  let ports := (presentPorts s).all (fun p => (getPort s p).feed == 2 || (getPort s p).state != portTraining)
  if s.dev = .testing ∧ mem = true ∧ kar = true ∧ ports = true then
    let (n, s0) := draw { s with atticStore := { s.atticStore with lostResult := false } }
    let s1 := atticFault s0 (fun a => { a with
      bringupCode := 0, bringupKind := b.kind, bringupMs := Config.freeNat 5 n % 2 ^ 32
      fullAt := if b.kind = 1 then some a.lifetimeS else a.fullAt
      fullSlot := if b.kind = 1 then s.fw.active else a.fullSlot
      stackSettings := b.stacksTrained })
    sendTable (recordDown (setDev { s1 with bringup := { s1.bringup with code := 0 } } .ready))
  else s

/-- BRINGUP_TRAINING_COMPLETE (rules R283 to R285, R299, R300, R473): the ends exchange their capability records; nothing that waits is dropped. -/
def execBringupTrainingComplete (port txOk rxOk : Nat) (far : Bytes) (s : State) : Host.Outcome State Fault Refusal :=
  let x := getPort s port
  let s0 := sendCapability s port
  let wide := { (joinFar x far) with txWidth := 0, rxWidth := 0 }
  let s1 := match trainedPort wide txOk rxOk true with
    | some y => if y.linkVersion = 0 ∨ y.feed = 2 then downPort s0 port false else resumeTx (setPort s0 port y) port
    | none => downPort s0 port false
  whenDo (portPresent s port && (x.state == portTraining || (x.state == portMgmtOnly && lanesOn s))) s
    (settleReady (answerPort (if far = [] then joinManagement s port else s1) port))

/-- Rows of the repair map take their bank's spares (rules R243, R474). -/
def applyRepairs (s : State) (wing : Nat) : State :=
  (s.attic.repairMap.filter (fun r => r.1 / 64 == wing)).foldl (fun st r =>
    updWing st wing (fun w => { w with spares := SMap.set w.spares (spareKey r.1 r.2) (sparesLeft st r.1 r.2 - 1) }))
    (updWing s wing (fun w => { w with spares := [] }))

/-- STACK_TRAINING_COMPLETE (rules R474, R476). -/
def execStackTrainingComplete (wing : Nat) (passed : Bool) (s : State) : Host.Outcome State Fault Refusal :=
  let b := s.bringup
  let s1 := updWing (applyRepairs s wing) wing (fun w => { w with trained := true })
  whenDo (decide (s.dev = .testing) && wingPresent s wing && decide (wing < 8) && !(b.stacksTrained.contains wing)) s
    (if passed then { s1 with bringup := { b with stacksTrained := b.stacksTrained ++ [wing] } }
     else if b.stackRetries.contains wing then failBringup s 5
     else { s with bringup := { b with stackRetries := b.stackRetries ++ [wing] } })

/-- A row that the memory test finds (rules R242, R244, R474): repaired and entered in the map, or its pseudo-channel retires. -/
def testRow (s : State) (pc row : Nat) : State :=
  let left := sparesLeft s pc row
  if left = 0 then
    let idx := s.faults.next
    signRecord (pcEvent (recordFault s { unitClass := 3, unitIndex := pc, subIndex := row, cause := 0x0202, domain := 2, attic := true,
                                         location := 1024 * row }) pc 0x0202 idx) idx false
  else
    let s1 := updWing (pcEvent s pc 0 0xFFFFFFFF) (wingOfPc pc) (fun w => { w with spares := SMap.set w.spares (spareKey pc row) (left - 1) })
    atticFault s1 (fun a => { a with repairMap := a.repairMap ++ [(pc, row)], repairVersion := (a.repairVersion + 1) % 2 ^ 16 })

/-- MEMORY_TEST_COMPLETE (rule R474): found rows are repaired and every accessible byte of the stack is zero. -/
def execMemoryTestComplete (wing : Nat) (rows : List (Nat × Nat)) (s : State) : Host.Outcome State Fault Refusal :=
  let b := s.bringup
  let s1 := (rows.filter (fun r => r.1 / 64 == wing)).foldl (fun st r => testRow st r.1 r.2) s
  let s2 : State := { updWing s1 wing (fun w => { w with tested := true }) with
    hbm := s1.hbm.filter (fun c => c.1 / 2 ^ 31 / 64 != wing)
    bringup := { s1.bringup with memTested := s1.bringup.memTested ++ [wing] } }
  whenDo (decide (s.dev = .testing) && b.stacksTrained.contains wing && !(b.memTested.contains wing)) s (settleReady s2)

/-- Whether a waiting command is a KNOWN_ANSWER that awaits a tile: it notes the tiles that remain and those that passed. -/
def awaitsKar (t : Nat) (w : Waiting) : Bool := w.executing && w.pkt.opcode == 0x0F03 && bit (w.note.getD 0 0) t

/-- A tile's run enters the KNOWN_ANSWER commands that name it; one whose tiles have all run is answered (rule R400). -/
def answerKar (s : State) (t : Nat) (passed : Bool) : State :=
  s.rings.foldl (fun st p =>
    (p.2.queue.filter (awaitsKar t)).foldl (fun q w =>
      let left := w.note.getD 0 0 - 2 ^ t
      let good := w.note.getD 1 0 + (if passed then 2 ^ t else 0)
      if left = 0 then finish q (keySrc p.1) w.pkt.tag 0 0 (natLE good 10)
      else updRing q p.1 (fun r => { r with queue := r.queue.map (fun x => if x = w then { x with note := [left, good] } else x) })) st) s

/-- Whether a KNOWN_ANSWER command waits for a tile. -/
def karAsked (s : State) (t : Nat) : Bool := s.rings.any (fun p => p.2.queue.any (awaitsKar t))

/-- KAR_GOLDEN of the active image (rules R475, R484); the factory image's is `Config.karGolden`. -/
def goldenResult (s : State) : Bytes :=
  let x := if s.fw.active = 0 then s.fw.slotA else s.fw.slotB
  if x.image = [] then Config.karGolden else bytesAt x.image 48 16

/-- KNOWN_ANSWER_RUN_COMPLETE (rules R455, R457, R458, R475): a result other than the golden one, or a checker disagreement, retires
the tile, and the failed run is recorded. -/
def execKnownAnswerRunComplete (tile : Nat) (result : Bytes) (disagreed : Bool) (s : State) : Host.Outcome State Fault Refusal :=
  let x := getTile s tile
  let testing := decide (s.dev = .testing) && !(s.bringup.karDone.contains tile)
  let pass := decide (result = goldenResult s) && !disagreed
  let idx := s.faults.next
  let s1 := updTile s tile (fun y => { y with health := { y.health with karDue := false, karFail := !pass } })
  let s2 := if pass then s1
    else endThirdRuns (signRecord (atticFault (retireTile (recordFault s1
      { unitClass := 0, unitIndex := tile, cause := 0x0500, domain := 0, attic := true }) tile) id) idx false) tile
  let s3 : State := if testing then { s2 with bringup := { s2.bringup with karDone := s2.bringup.karDone ++ [tile] } } else s2
  whenDo (isTile tile && wingPresent s (tile / 10) && !x.health.retired && (testing || karAsked s tile || (x.health.karDue && !(tileHeld s tile)))) s
    (settleReady (answerKar s3 tile pass))

/-- DEVICE_DRAIN_COMPLETE (rules R393, R470, R482, R491): what is left is absorbed, and the device enters WAKING, or STANDBY after SLEEP, where
a WAKE pin that came meanwhile acts. -/
def execDeviceDrainComplete (s : State) : Host.Outcome State Fault Refusal :=
  let b := s.bringup
  let s1 := blocksReset s (b.warm && !b.sleeping) b.sleeping
  whenDo (decide (s.dev = .draining)) s
    (if b.sleeping then
       let asleep := setDev { s1 with bringup := { resetLevel := b.resetLevel } } .standby
       if b.wakeHeld then wakeDevice asleep false else asleep
     else beginWaking s1 (!b.warm) b.warm)

/-- HALL_WATCHDOG (rules R482, R505). -/
def execHallWatchdog (s : State) : Host.Outcome State Fault Refusal :=
  let running := decide (s.dev = .testing) || decide (s.dev = .ready) || decide (s.dev = .running)
    || (decide (s.dev = .faulted) && s.bringup.code == 5)
  whenDo running s (beginDeviceReset s 3 2)

/-- A CDC_TIMEOUT's record, owner of its fault (rules R360, R451). -/
def cdcRecord (s : State) (cls i domain : Nat) : State :=
  signRecord (recordFault s { unitClass := cls, unitIndex := i, subIndex := 0, cause := 0x0310, domain := domain }) s.faults.next false

/-- Poison the current step of every RUNNING suite that holds a unit, on record `idx` (rules R360, R393). -/
def poisonHolders (s : State) (cls i idx : Nat) : State :=
  s.suites.foldl (fun st p =>
    if executing p.2 = true ∧ holdsUnit p.2 cls i then
      confirmFault st p.1 (lowestStep st p.1) idx ((p.2.window.map (fun w => w.started)).getD false)
    else st) s

/-- CDC_TIMEOUT (rules R360, R365, R482): the crossing is held, one record is written against the unit, the fault is confirmed, and
the unit is reset at its level. -/
def execCdcTimeout (crossing : CrossingId) (s : State) : Host.Outcome State Fault Refusal :=
  let idx := s.faults.next
  let alive := decide (s.dev = .ready) || decide (s.dev = .running) || decide (s.dev = .testing)
  match crossing with
  | .tile t =>
    let s1 := updTile s t (fun x => { x with cdcHeld := true, counts := { x.counts with cdcTimeouts := satInc 8 x.counts.cdcTimeouts } })
    whenDo (alive && isTile t && wingPresent s (t / 10) && !(getTile s t).health.inReset) s
      (beginTileReset (poisonHolders (cdcRecord s1 0 t 0) 0 t idx) t)
  | .wing w =>
    let s1 := updWing s w (fun x => { x with cdcHeld := true, cdcTimeouts := satInc 8 x.cdcTimeouts })
    whenDo (alive && decide (w < 8) && wingPresent s w && !(getWing s w).inReset) s
      (beginWingReset (poisonHolders (cdcRecord s1 5 w 2) 5 w idx) w)
  | .spire p =>
    let s1 : State := { s with portExtra := SMap.modify {} s.portExtra p (fun x => { x with cdcHeld := true, cdcTimeouts := satInc 8 x.cdcTimeouts }) }
    whenDo (alive && portPresent s p) s
      (let s2 := poisonHolders (cdcRecord s1 4 p 3) 4 p idx
       if (getPort s2 p).state = portUp then startRetrain s2 p 1 else s2)
  | .cupola => whenDo alive s (beginDeviceReset (cdcRecord s 9 0xFFFF 5) 4 3)
  | _ => whenDo alive s (beginDeviceReset (cdcRecord s 9 0xFFFF 4) 3 3)

end Sys2Proof.Machine
end

