-- ==== Sys2Proof/Machine/Power.lean ====
section
/-!
DEFINITION. The Cupola: supply and thermal events, the tile governors, telemetry and the Attic's writes (rules R493 to R517 of
22_power_cupola_and_attic.md). Voltages are in mV, temperatures in units of 0.25 °C.
-/
namespace Sys2Proof.Machine

def powered (s : State) : Bool := decide (s.dev ≠ .off)

/-- A supply event with the episode's minimum voltage (rules R401, R498). -/
def supplyEventMv (s : State) (kind mv : Nat) : State := deviceEvent s 0x0980 (natLE kind 1 ++ natLE 0 3 ++ natLE mv 4)

/-- A reading of the filtered input voltage (rules R498, R515). -/
def sampleInput (s : State) (mv : Nat) : State := { s with cup := { s.cup with inputMv := mv } }

/-- A new unfiltered input sample (rules R498, R515). -/
def sampleRaw (s : State) (mv : Nat) : State :=
  { s with cup := { s.cup with rawMv := mv, minMv := min s.cup.minMv mv, readMin := min s.cup.readMin mv
                               warnMin := if s.cup.warn then min s.cup.warnMin mv else s.cup.warnMin } }

/-- SUPPLY_WARN (rule R498): the filtered voltage `mv` is low, with `low` the lowest sample under it; every tile clamps, which its frequency
limit reads. -/
def execSupplyWarn (mv low : Nat) (s : State) : Host.Outcome State Fault Refusal :=
  let s1 := sampleRaw (sampleInput s mv) low
  whenDo (powered s && !s.cup.warn && decide (mv < 46000)) s
    (supplyEventMv { s1 with cup := { s1.cup with warn := true, warnMin := low, warns := satInc 16 s1.cup.warns } } 0 low)

/-- SUPPLY_WARN_CLEAR (rule R498): the episode's minimum, `low` if no sample before was lower, and its duration are kept. -/
def execSupplyWarnClear (durUs low : Nat) (s : State) : Host.Outcome State Fault Refusal :=
  let least := min s.cup.warnMin low
  let s1 : State := { s with cup := { s.cup with minMv := min s.cup.minMv low, readMin := min s.cup.readMin low } }
  whenDo (powered s && s.cup.warn) s
    (supplyEventMv { s1 with cup := { s1.cup with warn := false, warnMin := least, supplyLast := least, supplyDur := durUs % 2 ^ 32 } } 1 least)

/-- DIP (rule R498): counted; nothing is reset. -/
def execDip (mv durUs : Nat) (s : State) : Host.Outcome State Fault Refusal :=
  let s1 := sampleRaw s mv
  whenDo (powered s && decide (mv < 42000) && decide (36000 ≤ mv) && decide (durUs < 20)) s
    { s1 with cup := { s1.cup with dips := satInc 16 s1.cup.dips } }

/-- The compute rails go at once: nothing drains, and the device is in STANDBY (rules R499, R502). `kind` is the reset cause, `low` the minimum
voltage of the entry. -/
def railsDown (s : State) (kind low : Nat) : State :=
  let from_ := s.dev
  let s1 := atticFault s (fun a => { a with
    lastEntry := some (kind, a.lifetimeS, low, devStateCode from_)
    resetCause := kind, resetLevel := 4, coldResets := satInc 16 a.coldResets
    brownouts := if kind = 4 then satInc 16 a.brownouts else a.brownouts
    shutdowns := if kind = 5 then satInc 16 a.shutdowns else a.shutdowns })
  let s2 := blocksReset { s1 with hbm := [] } false false
  { s2 with dev := .standby, bringup := { resetLevel := 4 }, cup := { s2.cup with down := some kind, downFrom := from_, railsUp := false } }

/-- BROWN_OUT (rules R498 to R500): on unfiltered samples below 42.0 V; in STANDBY it is only counted. -/
def execBrownOut (mv : Nat) (s : State) : Host.Outcome State Fault Refusal :=
  let s1 := sampleRaw s mv
  whenDo (powered s && decide (mv < 42000)) s
    (if s.dev = .standby then atticFault s1 (fun a => { a with brownouts := satInc 16 a.brownouts })
     else railsDown s1 4 mv)

/-- BROWNOUT_RECOVERY_WAKE (rule R500). -/
def execBrownoutRecoveryWake (s : State) : Host.Outcome State Fault Refusal :=
  whenDo (decide (s.dev = .standby) && s.cup.down == some 4) s (beginWaking s true false)

/-- OVERVOLT and OVERVOLT_CLEAR (rules R494, R498): a flag only. -/
def execOvervolt (mv : Nat) (s : State) : Host.Outcome State Fault Refusal :=
  let s1 := sampleInput s mv
  whenDo (powered s && decide (59500 < mv)) s { s1 with cup := { s1.cup with overvolt := true } }

def execOvervoltClear (mv : Nat) (s : State) : Host.Outcome State Fault Refusal :=
  let s1 := sampleInput s mv
  whenDo (powered s && decide (mv ≤ 59000)) s { s1 with cup := { s1.cup with overvolt := false } }

/-- A sensor reading and the hottest junction (rules R501, R515). -/
def readSensor (s : State) (n : Nat) (t : Int) : State :=
  let c := { s.cup with temps := SMap.set s.cup.temps n t }
  let junction := c.temps.filter (fun p => decide (p.1 ≤ 58) && decide (p.2 ≠ -512))
  let best := junction.foldl (fun (b : Option (Nat × Int)) p => match b with
    | none => some p
    | some q => if q.2 < p.2 then some p else some q) none
  match best with
  | none => { s with cup := c }
  | some b => { s with cup := { c with maxSensor := b.1, maxTemp := b.2 },
                       attic := { s.attic with maxTemp := max s.attic.maxTemp b.2 } }

/-- THROTTLE (rule R502): a junction sensor at 105 °C or more. A stack above 105 °C raises it at its reading (rule R245). -/
def execThrottle (sensor : Nat) (temp : Int) (s : State) : Host.Outcome State Fault Refusal :=
  whenDo (powered s && decide (sensor ≤ 58) && decide (420 ≤ temp)) s (raiseThrottle (readSensor s sensor temp))

/-- THROTTLE_CLEAR (rule R502): every stack is at or below 103 °C; the event says that every junction sensor is below it. -/
def execThrottleClear (s : State) : Host.Outcome State Fault Refusal :=
  whenDo (powered s && s.cup.throttle && s.wings.all (fun p => decide (p.2.temp ≤ 412))) s
    (supplyEvent { s with cup := { s.cup with throttle := false } } 3)

/-- COOLANT_HOT and COOLANT_HOT_CLEAR (rule R502): the inlet is sensor 62. -/
def execCoolantHot (temp : Int) (s : State) : Host.Outcome State Fault Refusal :=
  let s1 := readSensor s 62 temp
  whenDo (powered s && decide (160 < temp)) s { s1 with cup := { s1.cup with coolantHot := true } }

def execCoolantHotClear (temp : Int) (s : State) : Host.Outcome State Fault Refusal :=
  let s1 := readSensor s 62 temp
  whenDo (powered s && decide (temp ≤ 156)) s { s1 with cup := { s1.cup with coolantHot := false } }

/-- THERMAL_SHUTDOWN (rule R502): a junction sensor at 115 °C or a regulator sensor at 125 °C; as a brown-out. -/
def execThermalShutdown (sensor : Nat) (temp : Int) (s : State) : Host.Outcome State Fault Refusal :=
  let hot := (decide (sensor ≤ 58) && decide (460 ≤ temp)) || (decide (59 ≤ sensor) && decide (sensor ≤ 61) && decide (500 ≤ temp))
  whenDo (powered s && decide (s.dev ≠ .standby) && hot) s (railsDown (readSensor s sensor temp) 5 s.cup.minMv)

/-- THERMAL_RECOVERY_WAKE (rule R502): at most three in a day of the lifetime clock. -/
def execThermalRecoveryWake (s : State) : Host.Outcome State Fault Refusal :=
  let recent := s.cup.thermalWakes.filter (fun t => decide (s.attic.lifetimeS < t + 86400))
  whenDo (decide (s.dev = .standby) && s.cup.down == some 5 && decide (recent.length < 3)) s
    (beginWaking { s with cup := { s.cup with thermalWakes := recent ++ [s.attic.lifetimeS] } } true false)

def updGov (s : State) (t : Nat) (f : Governor → Governor) : State := updTile s t (fun x => { x with gov := f x.gov })

/-- Whether a tile's clock runs (rule R532). -/
def clocked (s : State) (t : Nat) : Bool :=
  isTile t && wingPresent s (t / 10) && !(getTile s t).health.inReset
    && (decide (s.dev = .testing) || decide (s.dev = .ready) || decide (s.dev = .running) || decide (s.dev = .draining)
        || (decide (s.dev = .faulted) && s.bringup.code == 5))

/-- A tile's frequency (rule R496): the lowest that its limits allow. -/
def tileMhz (s : State) (t : Nat) : Nat :=
  if clocked s t then
    let g := (getTile s t).gov
    let steps := 2300 - 25 * max g.currentSteps g.tempSteps
    let host := if g.ceilingMhz = 0 then 2300 else g.ceilingMhz / 25 * 25
    let clamp := if s.cup.warn then s.cup.warnClampMhz / 25 * 25 else 2300
    max 800 (min steps (min host clamp))
  else 0

/-- TILE_DROOP and DROOP_RECOVERY (rule R496): the clock is stretched while the rail is low. -/
def execTileDroop (tile : Nat) (s : State) : Host.Outcome State Fault Refusal :=
  whenDo (clocked s tile) s (updGov s tile (fun g => { g with droop := true, droopBell := some s.bell.count }))

def execDroopRecovery (tile : Nat) (s : State) : Host.Outcome State Fault Refusal :=
  whenDo (clocked s tile) s (updGov s tile (fun g => { g with droop := false }))

/-- TILE_CURRENT_LIMIT (rule R496): one step down. -/
def execTileCurrentLimit (tile : Nat) (s : State) : Host.Outcome State Fault Refusal :=
  whenDo (clocked s tile && decide ((getTile s tile).gov.currentSteps < 60)) s
    (updGov s tile (fun g => { g with currentSteps := g.currentSteps + 1, downSteps := satInc 16 g.downSteps }))

/-- TILE_TEMP_STEP_DOWN (rule R496): at 105 °C or more, one step of 25 MHz. -/
def execTileTempStepDown (tile : Nat) (temp : Int) (s : State) : Host.Outcome State Fault Refusal :=
  whenDo (clocked s tile && decide (420 ≤ temp) && decide ((getTile s tile).gov.tempSteps < 60)) s
    (updGov s tile (fun g => { g with tempSteps := g.tempSteps + 1, downSteps := satInc 16 g.downSteps }))

/-- TILE_TEMP_STEP_UP (rule R496): below 103 °C, one step up of the temperature limit, then of the current limit. -/
def execTileTempStepUp (tile : Nat) (temp : Int) (s : State) : Host.Outcome State Fault Refusal :=
  whenDo (clocked s tile && decide (temp < 412)) s
    (updGov s tile (fun g => if 0 < g.tempSteps then { g with tempSteps := g.tempSteps - 1 } else { g with currentSteps := g.currentSteps - 1 }))

/-- TILE_ISSUE_PAUSE (rule R496): at 0.80 GHz and 110 °C. -/
def execTileIssuePause (tile : Nat) (temp : Int) (s : State) : Host.Outcome State Fault Refusal :=
  whenDo (clocked s tile && decide (440 ≤ temp) && tileMhz s tile == 800) s (updGov s tile (fun g => { g with paused := true }))

/-- ISSUE_PAUSE_END (rule R496): below 108 °C. -/
def execIssuePauseEnd (tile : Nat) (temp : Int) (s : State) : Host.Outcome State Fault Refusal :=
  whenDo (isTile tile && (getTile s tile).gov.paused && decide (temp < 432)) s (updGov s tile (fun g => { g with paused := false }))

/-- Energy per Q8-equivalent operation of a period, in units of 0.01 fJ, to nearest (rule R508). -/
def energyPerOp (uj cycles : Nat) : Nat :=
  if cycles = 0 then 0xFFFFFFFF else min 0xFFFFFFFF ((2 * uj * 10 ^ 11 + 131072 * cycles) / (2 * (131072 * cycles)))

/-- A suite's meters at a sample (rules R508, R517): the energy of its resident tiles since the last sample, and its issue cycles. -/
def sampleSuite (old new : State) (n : Nat) (su : Suite) : Suite :=
  let uj := new.tiles.foldl (fun e p =>
    if p.2.suite = some n then e + ((SMap.get {} new.tiles p.1).gov.energyUj - (getTile old p.1).gov.energyUj) else e) 0
  { su with counts := { su.counts with
      energyUj := su.counts.energyUj + uj, cycles := su.counts.cyclesNow
      epo := energyPerOp uj (su.counts.cyclesNow - su.counts.cycles) } }

/-- TELEMETRY_SAMPLE (rules R354, R506, R507, R517): every meter, the input and every temperature are latched. A sensor that fails
its own check reads −512 (0x800). -/
def execTelemetrySample (sample : Telemetry) (s : State) : Host.Outcome State Fault Refusal :=
  let s1 := (sample.temps.zipIdx).foldl (fun st p => readSensor st p.2 p.1) (sampleRaw (sampleInput s sample.inputMv) sample.lowMv)
  let put := fun (old v : Nat) => max old v
  let s2 : State := { s1 with
    tiles := SMap.mapVals s1.tiles (fun t x => { x with gov := { x.gov with energyUj := put x.gov.energyUj (sample.tileUj.getD t 0) } })
    wings := SMap.mapVals s1.wings (fun w x => { x with energyUj := put x.energyUj (sample.wingUj.getD w 0) })
    portExtra := (presentPorts s1).foldl (fun m p => SMap.modify {} m p (fun x => { x with energyUj := put x.energyUj (sample.portUj.getD p 0) })) s1.portExtra
    cup := { s1.cup with
      inputMa := sample.inputMa, rails := (sample.rails.zipIdx).map (fun p => (p.2, p.1))
      energyUj := put s1.cup.energyUj sample.totalUj, commonUj := put s1.cup.commonUj sample.commonUj } }
  whenDo (decide (s.bell.state ≠ .off)) s
    { s2 with suites := SMap.mapVals s2.suites (fun n su => sampleSuite s s2 n su) }

/-- CUPOLA_MIRROR_COPY (rules R505, R515). -/
def execCupolaMirrorCopy (s : State) : Host.Outcome State Fault Refusal :=
  let c := s.cup
  let serves := decide (s.dev ≠ .off) && decide (s.dev ≠ .standby) && decide (s.dev ≠ .waking)
  whenDo serves s
    { s with cup := { c with mirror := {
        wear := s.atticStore.wear, bank := s.atticStore.taken, overvolt := c.overvolt, coolantHot := c.coolantHot, throttle := c.throttle
        warn := c.warn, inputMv := c.inputMv, inputMa := c.inputMa, minMv := c.minMv, supplyLast := c.supplyLast, supplyDur := c.supplyDur
        maxSensor := c.maxSensor, maxTemp := c.maxTemp, lifetime := s.attic.lifetimeS, brownouts := s.attic.brownouts
        shutdowns := s.attic.shutdowns, seq := s.atticStore.seq, writes0 := s.atticStore.writes0, writes1 := s.atticStore.writes1
        energyUj := c.energyUj, commonUj := c.commonUj
        present := (List.range 4).foldl (fun m l => if (getLantern s l).state = 0 then m else m + 2 ^ l) 0
        temps := c.temps, rails := c.rails } } }

/-- Whether `gap` seconds of the lifetime clock have passed since a write. -/
def writePast (s : State) (last : Option Nat) (gap : Nat) : Bool := (last.map (fun t => decide (t + gap ≤ s.attic.lifetimeS))).getD true

/-- ATTIC_WRITE (rules R510 to R512): the whole bank not taken, for a fault event, at most once a second, or for any other change, 60 s after
the previous write of any kind. -/
def execAtticWrite (faultEvent : Bool) (s : State) : Host.Outcome State Fault Refusal :=
  let a := s.atticStore
  let due := if faultEvent then a.pendingFault && writePast s a.lastFault 1 else a.pendingOther && writePast s a.lastWrite 60
  whenDo (powered s && !a.writing && due) s
    { s with atticStore := { a with
        writing := true, pendingFault := false, pendingOther := false, image := s.attic, lastWrite := some s.attic.lifetimeS
        lastFault := if faultEvent then some s.attic.lifetimeS else a.lastFault } }

/-- ATTIC_WRITE_COMPLETE (rules R510, R513): the bank carries the next SEQ and is taken; at 95,000 writes the wear flag is set. -/
def execAtticWriteComplete (s : State) : Host.Outcome State Fault Refusal :=
  let a := s.atticStore
  let q := (a.seq + 1) % 2 ^ 32
  let b : AtticBank := { seq := q, data := a.image }
  let w0 := if a.taken = 1 then a.writes0 + 1 else a.writes0
  let w1 := if a.taken = 1 then a.writes1 else a.writes1 + 1
  whenDo (powered s && a.writing) s
    { s with atticStore := { a with
        writing := false, seq := q, taken := 1 - a.taken, writes0 := w0, writes1 := w1
        bank0 := if a.taken = 1 then some b else a.bank0, bank1 := if a.taken = 1 then a.bank1 else some b
        wear := a.wear || decide (95000 ≤ w0) || decide (95000 ≤ w1) } }

/-- RESTART (rule R515): MIN_MV restarts from the present unfiltered voltage. -/
def execRestart (mv : Nat) (s : State) : Host.Outcome State Fault Refusal :=
  whenDo (powered s) s { s with cup := { s.cup with rawMv := mv, minMv := mv } }

end Sys2Proof.Machine
end

