-- ==== Sys2Proof/Machine/Packets.lean ====
section
/-!
DEFINITION. What every opcode's packet may hold, and the checks on receipt (rules R366 to R370, R380, R384 of 16_command_packets.md, the
opcode tables of 17_command_reference.md).
-/
namespace Sys2Proof.Machine

/-- What a payload field may hold (rules R11, R369): anything, zero only (reserved), a range, zero or a range, flag bits below a
number of them with the rest reserved, or a multiple of 64. -/
inductive FieldKind where
  | any
  | zero
  | rng (lo hi : Nat)
  | opt (lo hi : Nat)
  | flags (n : Nat)
  | mul64
deriving DecidableEq, Repr

/-- A payload field: offset, size, kind. -/
structure PField where
  off : Nat
  size : Nat
  kind : FieldKind
deriving DecidableEq, Repr

/-- Fields laid out one after another from an offset. -/
def layFields (o : Nat) : List (Nat × FieldKind) → List PField
  | [] => []
  | (n, k) :: fs => ⟨o, n, k⟩ :: layFields (o + n) fs

/-- `count` copies of an entry's fields. -/
def copies (count : Nat) (e : List (Nat × FieldKind)) : List (Nat × FieldKind) := (List.replicate count e).flatten

/-- What an opcode is (rule R387): targets (1 D, 2 S, 4 J) and flags (1 Q, 2 U, 4 B, 8 N, 16 P, 32 K). -/
structure OpInfo where
  op : Nat
  target : Nat
  flags : Nat
deriving DecidableEq, Repr

/-- The opcode tables (rules R393 to R400). -/
def opTableA : List OpInfo :=
  [⟨0x0000, 3, 1⟩, ⟨0x0001, 3, 5⟩, ⟨0x0100, 1, 0⟩, ⟨0x0101, 1, 16⟩, ⟨0x0102, 3, 2⟩, ⟨0x0103, 1, 18⟩, ⟨0x0104, 1, 16⟩,
   ⟨0x0200, 2, 16⟩, ⟨0x0201, 2, 16⟩, ⟨0x0202, 2, 32⟩, ⟨0x0203, 2, 0⟩, ⟨0x0204, 2, 32⟩,
   ⟨0x0300, 4, 16⟩, ⟨0x0301, 2, 2⟩, ⟨0x0302, 6, 16⟩, ⟨0x0303, 6, 2⟩, ⟨0x0304, 4, 16⟩, ⟨0x0305, 6, 0⟩, ⟨0x0306, 2, 16⟩,
   ⟨0x0400, 6, 0⟩, ⟨0x0401, 2, 1⟩, ⟨0x0402, 2, 33⟩, ⟨0x0403, 2, 32⟩, ⟨0x0404, 2, 33⟩, ⟨0x0405, 4, 33⟩]

def opTableB : List OpInfo :=
  [⟨0x0500, 1, 16⟩, ⟨0x0501, 1, 16⟩, ⟨0x0502, 1, 16⟩, ⟨0x0503, 4, 16⟩, ⟨0x0504, 4, 18⟩, ⟨0x0505, 2, 0⟩, ⟨0x0506, 6, 2⟩,
   ⟨0x0507, 2, 2⟩, ⟨0x0508, 1, 2⟩, ⟨0x0509, 1, 8⟩, ⟨0x050A, 2, 2⟩, ⟨0x050B, 2, 0⟩, ⟨0x050C, 3, 8⟩,
   ⟨0x0600, 3, 1⟩, ⟨0x0601, 3, 1⟩, ⟨0x0602, 1, 1⟩, ⟨0x0603, 1, 20⟩, ⟨0x0604, 3, 0⟩,
   ⟨0x0700, 1, 20⟩, ⟨0x0701, 1, 28⟩, ⟨0x0702, 1, 17⟩, ⟨0x0703, 1, 20⟩, ⟨0x0704, 1, 1⟩,
   ⟨0x0800, 1, 1⟩, ⟨0x0801, 3, 1⟩, ⟨0x0802, 6, 0⟩, ⟨0x0803, 3, 0⟩,
   ⟨0x0900, 1, 1⟩, ⟨0x0901, 3, 0⟩, ⟨0x0902, 1, 16⟩, ⟨0x0903, 1, 1⟩, ⟨0x0904, 1, 16⟩, ⟨0x0905, 1, 16⟩,
   ⟨0x0F00, 2, 33⟩, ⟨0x0F01, 2, 1⟩, ⟨0x0F02, 1, 16⟩, ⟨0x0F03, 1, 16⟩]

def opInfo (op : Nat) : Option OpInfo := (opTableA ++ opTableB).find? (fun i => i.op == op)

/-- Flags of an opcode; none where it is unknown. -/
def opFlag (op i : Nat) : Bool := match opInfo op with
  | some x => bit x.flags i
  | none => false

def isQuery (op : Nat) : Bool := opFlag op 0

/-- Whether a packet is unanswered (rules R382, R393): its opcode is, or it is RESET at level 3 or 4. -/
def isSilent (p : Packet) (body : Bytes) : Bool :=
  opFlag p.opcode 3 || (p.opcode == 0x0102 && (fieldAt body 0 1 == 3 || fieldAt body 0 1 == 4))

/-- The greatest LENGTH of a bulk command (rule R390). -/
def bulkMax : Nat := 2 ^ 32

/-- HOST_ADDR and LENGTH of a bulk command. -/
def hostRange : List (Nat × FieldKind) := [(8, .mul64), (8, .rng 0 bulkMax)]

/-- An entry of JOB_RANKS and SPARE_ASSIGN: module, suite, reserved. -/
def rankEntry : List (Nat × FieldKind) := [(4, .any), (1, .rng 0 7), (3, .zero)]

/-- STEP, JOB, reserved, BELL. -/
def scheduleFields : List (Nat × FieldKind) := [(4, .any), (1, .any), (3, .zero), (8, .any)]

/-- INDEX of DISABLE_UNIT and ENABLE_UNIT by class, and LANDING. -/
def unitFields (body : Bytes) : List (Nat × FieldKind) :=
  let top := match fieldAt body 0 1 with
    | 0 => 79
    | 1 => 79
    | 2 => 65535
    | 3 => 511
    | _ => 15
  [(1, .rng 0 4), (1, .rng 0 (if fieldAt body 0 1 = 1 then 3 else 0)), (2, .zero), (4, .rng 0 top)]

/-- Way masks of CREATE_SUITE: a wing without a pseudo-channel of the suite takes none (rules R248, R394). -/
def wayFields (body : Bytes) : List (Nat × FieldKind) :=
  (List.range 8).map (fun w => (2, if fieldAt body (12 + 8 * w) 8 = 0 then FieldKind.rng 0 0 else .any))

/-- Fields of JOB_MAP by kind (rule R398). -/
def jobMapFields (body : Bytes) : List (Nat × FieldKind) :=
  let kind := fieldAt body 30 1
  let count := fieldAt body 28 2
  [(16, .any), (4, .any), (4, .any), (4, .any), (2, .rng 0 (if kind = 0 then 1008 else if kind = 1 then 504 else 0)), (1, .rng 0 2), (1, .flags 1)]
    ++ (if kind = 0 then copies (min count 1008) [(4, .any)]
        else if kind = 1 then copies (min count 504) [(4, .any), (1, .rng 0 15), (3, .zero)] else [])

/-- Fields of an opcode's payload, classes 0x00 to 0x04. -/
def opFieldsA (op : Nat) (body : Bytes) : List (Nat × FieldKind) :=
  match op with
  | 0x0000 => [(4, .any), (4, .any), (4, .any), (4, .any), (8, .any), (1, .rng 0 1), (3, .zero), (4, .any)]
  | 0x0001 => [(1, .rng 0 2), (3, .zero)]
  | 0x0100 => [(1, .rng 0 1), (3, .zero)]
  | 0x0102 => [(1, .rng 0 4), (1, .zero), (2, .rng 0 (match fieldAt body 0 1 with | 0 => 79 | 1 => 7 | _ => 0))]
  | 0x0103 => unitFields body
  | 0x0104 => unitFields body
  | 0x0200 => [(10, .any), (2, .zero), (64, .any)] ++ wayFields body ++ [(1, .rng 1 64), (3, .zero)] ++ copies 16 [(1, .rng 0 16)]
  | 0x0202 => hostRange ++ [(48, .any)]
  | 0x0203 => [(48, .any), (1, .rng 0 1), (1, .zero), (2, .rng 1 251), (4, .zero)]
      ++ copies (min (fieldAt body 50 2) 251) [(3, .any), (1, .zero), (5, .mul64), (5, .mul64), (2, .zero)]
  | 0x0204 => [(3, .any), (1, .rng 0 1), (4, .zero), (8, .mul64), (8, .mul64), (8, .mul64)]
  | 0x0300 => [(1, .any), (1, .flags 1), (1, .rng 1 3), (1, .zero), (4, .any), (2, .any), (2, .any), (2, .any), (2, .zero), (8, .any)]
  | 0x0302 => [(1, .rng 0 1), (1, .any), (1, .flags 4), (1, .zero), (4, .any), (8, .any)]
  | 0x0303 => [(1, .rng 0 1), (1, .any), (2, .zero)]
  | 0x0304 => [(1, .any), (1, .flags 1), (2, .rng 1 500), (4, .any)] ++ copies (min (fieldAt body 2 2) 500) rankEntry
  | 0x0305 => scheduleFields
  | 0x0306 => [(4, .opt 1000 (2 ^ 32 - 1)), (4, .any)]
  | 0x0400 => scheduleFields
  | 0x0402 => [(4, .any), (4, .zero), (8, .any)] ++ hostRange
  | 0x0403 => [(4, .any), (1, .flags 1), (3, .zero), (8, .any)] ++ hostRange
  | 0x0404 => [(4, .any), (4, .any)] ++ hostRange
  | 0x0405 => [(1, .any), (7, .zero), (8, .any)] ++ hostRange
  | _ => []

/-- Fields of an opcode's payload, classes 0x05 to 0x0F. -/
def opFieldsB (op : Nat) (body : Bytes) : List (Nat × FieldKind) :=
  match op with
  | 0x0500 => [(1, .rng 0 1), (3, .zero)]
  | 0x0501 => (1, FieldKind.rng 1 4) :: (List.range 4).map (fun i => (1, if i < fieldAt body 0 1 then FieldKind.rng 0 15 else .any)) ++ [(3, .zero)]
  | 0x0502 => [(4, .any)]
  | 0x0503 => [(1, .any), (1, .flags 1), (2, .rng 1 500), (4, .zero)] ++ copies (min (fieldAt body 2 2) 500) rankEntry
  | 0x0504 => [(1, .any), (3, .zero), (4, .any), (2, .rng 1 1000), (2, .zero)] ++ copies (min (fieldAt body 8 2) 1000) [(4, .any)]
  | 0x0505 => [(16, .any), (4, .any), (4, .any), (1, .rng 0 2), (3, .zero), (4, .any), (4, .any)]
  | 0x0506 => [(1, .any), (1, .rng 0 1), (6, .zero), (8, .any)]
  | 0x0507 => [(16, .any), (4, .any), (4, .zero), (8, .any)]
  | 0x0508 => [(16, .any), (4, .any), (4, .any), (4, .any), (4, .any)]
  | 0x0509 => [(16, .any), (4, .any), (4, .any), (16, .any)]
  | 0x050A => [(16, .any), (4, .any), (1, .rng 0 3), (3, .zero)]
  | 0x050B => jobMapFields body
  | 0x050C => [(16, .any), (4, .any), (2, .rng 1 200), (2, .zero)]
      ++ copies (min (fieldAt body 20 2) 200) [(3, .any), (1, .rng 0 1), (4, .any), (4, .any), (4, .any), (4, .any)]
  | 0x0600 => [(4, .any)]
  | 0x0601 => [(4, .any)]
  | 0x0602 => [(4, .any), (4, .any)]
  | 0x0603 => [(8, .any)]
  | 0x0604 => [(4, .any)]
  | 0x0700 => [(48, .any), (4, .rng 0 (2 ^ 24)), (4, .any)]
  | 0x0701 => [(4, .rng 0 4095), (1, .rng 0 1), (3, .zero), (4, .any), (2048, .any)]
  | 0x0703 => [(48, .any), (8, .any)]
  | 0x0801 => [(4, .any)]
  | 0x0802 => [(1, .rng 0 15), (1, .any), (6, .zero), (8, .any), (8, .any)]
  | 0x0803 => [(4, .any)]
  | 0x0901 => [(10, .any), (2, .opt 800 2300)]
  | 0x0902 => [(2, .rng 800 2300), (2, .zero)]
  | 0x0903 => [(1, .rng 0 3), (3, .zero)]
  | 0x0904 => [(1, .rng 0 3), (1, .flags 1), (2, .zero)]
  | 0x0905 => [(1, .rng 0 3), (3, .zero)]
  | 0x0F00 => [(3, .any), (5, .zero), (8, .any)] ++ hostRange
  | 0x0F01 => [(2, .any), (2, .rng 1 63)]
  | 0x0F02 => [(1, .rng 0 15), (1, .rng 0 2), (2, .zero)]
  | 0x0F03 => [(10, .any)]
  | _ => []

/-- The fields of an opcode's payload. -/
def opFields (op : Nat) (body : Bytes) : List PField := layFields 0 (if op < 0x0500 then opFieldsA op body else opFieldsB op body)

/-- Offset of the first byte that is not zero in [o, o + n). -/
def firstNonzero (bs : Bytes) (o : Nat) : Nat → Option Nat
  | 0 => none
  | n + 1 => if fieldAt bs o 1 ≠ 0 then some o else firstNonzero bs (o + 1) n

/-- Offset of the first reserved byte or flag bit that is not zero (check 5). -/
def reservedBad (body : Bytes) (fs : List PField) : Option Nat :=
  fs.findSome? (fun f => match f.kind with
    | .zero => firstNonzero body f.off f.size
    | .flags n => if 2 ^ n ≤ fieldAt body f.off f.size then some f.off else none
    | _ => none)

/-- Whether a field's value is in its range. -/
def fieldGood (body : Bytes) (f : PField) : Bool :=
  let v := fieldAt body f.off f.size
  match f.kind with
  | .rng lo hi => decide (lo ≤ v) && decide (v ≤ hi)
  | .opt lo hi => v == 0 || (decide (lo ≤ v) && decide (v ≤ hi))
  | .mul64 => v % 64 == 0
  | _ => true

/-- Offset of the first field that is missing or out of range, or of the first byte past the layout (check 12). -/
def layoutBad (body : Bytes) (fs : List PField) : Option Nat :=
  match fs.find? (fun f => decide (body.length < f.off + f.size) || !(fieldGood body f)) with
  | some f => some f.off
  | none =>
    let len := match fs.getLast? with
      | some f => f.off + f.size
      | none => 0
    if len < body.length then some len else none

/-- A packet from its bytes (rule R366): the payload as far as it is there. -/
def parsePacket (raw : Bytes) : Packet :=
  { version := fieldAt raw 0 1, flags := fieldAt raw 1 1, opcode := fieldAt raw 2 2, tag := fieldAt raw 4 4, suite := fieldAt raw 8 1,
    payload := ((raw.drop 16).take (min (fieldAt raw 10 2) 4080)) }

/-- Length of the envelope of a packet, and its payload behind it (rule R376). -/
def envLen (p : Packet) : Nat := if isRelayed p then 16 else 0
def bodyOf (p : Packet) : Bytes := p.payload.drop (envLen p)

/-- Whether a version may be used on a ring or link (check 3): HELLO takes any from 2 upward. -/
def versionUsable (r : Ring) (p : Packet) : Bool :=
  if p.opcode = 0 then decide (2 ≤ p.version)
  else (p.version == 2 || p.version == 3) && (!r.session || p.version == r.cmdVersion)

/-- VERSION of a reply (rule R368). -/
def replyVersion (r : Ring) (p : Packet) : Nat :=
  if versionUsable r p then p.version
  else if r.session then r.cmdVersion
  else if p.version < 2 then 2 else min p.version 3

/-- Whether FLAGS are allowed on the path (check 4; rules R374, R376, R390). -/
def flagsAllowed (s : State) (src : Src) (p : Packet) : Bool :=
  let relayOk := match src with
    | .ring f => f == 0 && (s.mgr.role == 2 || s.mgr.role == 3)
    | .link _ => true
  let bulkOk := match src with
    | .ring _ => true
    | .link _ => !(opFlag p.opcode 5)
  p.flags % 2 == 0 && decide (p.flags < 16) && (!(isRelayed p) || relayOk) && (!(isBroadcast p) || isRelayed p)
    && (!(isBroadcast p) || (opInfo p.opcode).isNone || opFlag p.opcode 2) && bulkOk

/-- Offset in the packet of the first reserved byte that is not zero (check 5). -/
def reservedAt (raw : Bytes) (p : Packet) : Option Nat :=
  let env := if isRelayed p then firstNonzero raw 29 3 else none
  match (if fieldAt raw 9 1 ≠ 0 then some 9 else env) with
  | some o => some o
  | none => (reservedBad (bodyOf p) (opFields p.opcode (bodyOf p))).map (fun o => o + 16 + envLen p)

/-- The number of the first feature that a packet uses and the session lacks (check 8; rule R380). -/
def missingFeature (r : Ring) (p : Packet) : Option Nat :=
  let lacks := fun (i : Nat) => !(bit r.features i)
  if bit p.flags 1 && lacks 0 then some 0
  else if isBroadcast p && !(isSilent p (bodyOf p)) && lacks 1 then some 1
  else if p.opcode == 0x0300 && bit (fieldAt (bodyOf p) 1 1) 0 && lacks 2 then some 2
  else if (p.opcode == 0x0903 || p.opcode == 0x0904 || p.opcode == 0x0905) && lacks 3 then some 3
  else if p.opcode == 0x0305 && lacks 4 then some 4
  else none

/-- Whether SUITE suits the opcode and the path (check 9; rule R372); a job command from the top manager names a rank's suite
(rule R398). -/
def suiteValid (src : Src) (p : Packet) : Bool :=
  match opInfo p.opcode with
  | none => false
  | some i =>
    let dev := bit i.target 0 || bit i.target 2
    let perSuite := match src with
      | .link _ => bit i.target 1 || bit i.target 2
      | .ring _ => bit i.target 1
    let named := match src with
      | .ring (_ + 1) => p.suite == 0
      | _ => decide (p.suite < 8)
    let whole := match src with
      | .ring (_ + 1) => p.suite == 0xFF && decide (p.opcode ≤ 1)
      | _ => p.suite == 0xFF
    (dev && whole) || (perSuite && named)

/-- Offset of the first field in error (check 12), LEVEL of a RESET that does not admit the SUITE included (rule R393). -/
def payloadBad (src : Src) (p : Packet) : Option Nat :=
  let body := bodyOf p
  let level := match src with
    | .ring (_ + 1) => false
    | _ => p.opcode == 0x0102 && ((fieldAt body 0 1 == 2) == (p.suite == 0xFF))
  if p.payload.length < envLen p then some 16
  else
    match (if level then some 0 else layoutBad body (opFields p.opcode body)) with
    | some o => some (o + 16 + envLen p)
    | none => none

/-- The checks on receipt, in order (rule R369): STATUS and DETAIL of the first that fails. -/
def refusal (s : State) (src : Src) (raw : Bytes) : Option (Nat × Nat) :=
  let p := parsePacket raw
  let r := getRing s (ringKey src)
  let len := fieldAt raw 10 2
  if 4080 < len ∨ raw.length < 16 + len then some (0x0203, len)
  else if fieldAt raw 12 4 ≠ crc32 (raw.take 12 ++ p.payload) then some (0x0201, 0)
  else if !(versionUsable r p) then some (0x0202, if r.session then r.cmdVersion else 0)
  else if !(flagsAllowed s src p) then some (0x0209, 0)
  else
    match reservedAt raw p with
    | some o => some (0x0204, o)
    | none =>
      if (opInfo p.opcode).isNone then some (0x0205, 0)
      else if !r.session && p.opcode != 0 then some (0x0501, 0)
      else
        match missingFeature r p with
        | some f => some (0x0502, f)
        | none =>
          if !(suiteValid src p) then some (0x0207, p.suite)
          else if r.queue.any (fun w => w.pkt.tag == p.tag && w.reply.isNone) then some (0x0206, 0)
          else if bit p.flags 1 && !(opFlag p.opcode 1) then some (0x0208, 0)
          else (payloadBad src p).map (fun o => (0x020A, o))

end Sys2Proof.Machine
end

