-- ==== Sys2Proof/Machine/Rings.lean ====
section
/-!
DEFINITION. Host rings and link sessions: submission, starting, refusal, doorbells, events (rules R371 to R388 of 16_command_packets.md and
17_command_reference.md). `runCommand` is the frame of every command's meaning.
-/
namespace Sys2Proof.Machine

/-- Whether the rings of a function can be reached (rules R372, R394, R543, R548). -/
def reachable (s : State) (f : Nat) : Bool :=
  s.fw.serving && !s.bnd.perst && !(s.bnd.d3hot.contains f) && decide (f < 9)

/-- Completion slots that are neither used nor reserved for an executing command (rule R374). -/
def freeSlots (r : Ring) : Nat :=
  2 ^ r.cqLog2 - 1 - (r.cqTail + 2 ^ r.cqLog2 - r.cqHead) % 2 ^ r.cqLog2 - (r.queue.filter (fun w => w.executing)).length

/-- Whether a completion slot may be taken (rules R375, R384): urgent replies may use the last eight. -/
def hasRoom (r : Ring) (urgent : Bool) : Bool := if urgent then decide (0 < freeSlots r) else decide (8 < freeSlots r)

/-- Post the replies that wait for a slot, urgent ones first (rule R384). -/
def postWaiting (s : State) (src : Src) : State :=
  let k := ringKey src
  let ws := (getRing s k).queue.filter (fun w => w.reply.isSome)
  (ws.filter (fun w => w.urgent) ++ ws.filter (fun w => !w.urgent)).foldl (fun st w =>
    let r := getRing st k
    let ready := match src with
      | .ring _ => hasRoom r w.urgent && r.enable && !r.stopped && processed s src
      | .link _ => true
    if ready then postBytes (updRing st k (fun x => { x with queue := dropFirst (fun q => decide (q = w)) x.queue })) src (w.reply.getD []) else st) s

/-- A packet arrives (rule R369): refused, discarded when it is unanswered, or accepted. A packet to be relayed waits in the same
queue; a broadcast needs no relay where there is no worker. -/
def receivePacket (s : State) (src : Src) (raw : Bytes) : State :=
  let p := parsePacket raw
  let k := ringKey src
  match refusal s src raw with
  | none => updRing s k (fun r => { r with queue := r.queue ++ [{ pkt := p, urgent := bit p.flags 1, relayed := s.mgr.workers.isEmpty }] })
  | some (st, d) =>
    if isSilent p (bodyOf p) then { s with mgr := { s.mgr with unanswered := satInc 16 s.mgr.unanswered } }
    else
      let bs := replyBytes p (replyVersion (getRing s k) p) st d []
      postWaiting (updRing s k (fun r => { r with queue := r.queue ++ [{ pkt := p, urgent := bit p.flags 1, reply := some bs }] })) src

/-- Read the submission slots from SQ_HEAD up to SQ_TAIL (rules R373, R385). -/
def readSlots (s : State) (f : Nat) : Nat → State
  | 0 => s
  | fuel + 1 =>
    let r := getRing s f
    if r.stopped ∨ r.sqHead = r.sqTail then s
    else
      let a := r.sqBase + 4096 * r.sqHead
      let len := fieldAt (hostBytes s (a + 10) 2) 0 2
      let n := if 4080 < len then 16 else 16 + len
      if hostFails s a n then stopRing s f 2
      else readSlots (receivePacket (updRing s f (fun x => { x with sqHead := (x.sqHead + 1) % 2 ^ x.sqLog2 })) (.ring f) (hostBytes s a n)) f fuel

/-- A write of SQ_TAIL takes effect (rule R373). -/
def ringTail (s : State) (f value : Nat) : State :=
  let r := getRing s f
  let v := value % 4096
  let size := 2 ^ r.sqLog2
  let used := (r.sqTail + size - r.sqHead) % size
  let step := (v + size - r.sqTail) % size
  if !r.enable || r.stopped then s
  else if size ≤ v ∨ size ≤ used + step then stopRing s f 1
  else readSlots (updRing s f (fun x => { x with sqTail := v })) f 4096

/-- A write of CQ_HEAD takes effect (rule R374). -/
def ringHead (s : State) (f value : Nat) : State :=
  let r := getRing s f
  let v := value % 4096
  let used := (r.cqTail + 2 ^ r.cqLog2 - r.cqHead) % 2 ^ r.cqLog2
  let step := (v + 2 ^ r.cqLog2 - r.cqHead) % 2 ^ r.cqLog2
  if !r.enable || r.stopped then s
  else if 2 ^ r.cqLog2 ≤ v ∨ used < step then stopRing s f 1
  else postWaiting (updRing s f (fun x => { x with cqHead := v })) (.ring f)

/-- MSIX_VECTOR and CQ_IRQ_EN of a write of HALL_RING_CTRL (rules R386, R527): a vector the function lacks leaves the field. -/
def ringControl (r : Ring) (f value : Nat) : Ring :=
  let v := bits value 16 11
  { r with irqEn := bit value 1, vector := if v < (if f = 0 then 64 else 16) then v else r.vector }

/-- ENABLE is written to 1 (rules R371, R373): from 0, the indices are 0 and the ring is not stopped. -/
def ringOn (s : State) (f value : Nat) : State :=
  updRing s f (fun r =>
    let x := ringControl r f value
    if r.enable then x
    else { x with enable := true, sqHead := 0, sqTail := 0, cqHead := 0, cqTail := 0, eventTag := 0, stopped := false, error := 0 })

/-- ENABLE is written to 0 (rule R385): the session ends; executing commands run on, and what had not started is dropped. -/
def ringOff (s : State) (f value : Nat) : State :=
  updRing s f (fun r => { (ringControl r f value) with
    enable := false, session := false, features := 0, held := [], queue := r.queue.filter (fun w => w.executing && !(isRelayed w.pkt)) })

/-- Keep a register write that arrives while a firmware activation runs (rule R383), or let it take effect. -/
def keepOr (s : State) (f addr value : Nat) (t : State) : State :=
  if s.fw.inActivation then { s with fw := { s.fw with keptWrites := s.fw.keptWrites ++ [(f, addr, value)] } } else t

/-- Address of a ring register of a function (rule R386). -/
def ringAddr (f off : Nat) : Nat := 0xB000 + 0x40 * f + off

/-- SQ_TAIL_DOORBELL (rules R373, R385). -/
def execSqTailDoorbell (fn value : Nat) (s : State) : Host.Outcome State Fault Refusal :=
  whenDo (reachable s fn) s (keepOr s fn (ringAddr fn 0x24) value (ringTail s fn value))

/-- CQ_HEAD_DOORBELL (rule R374). -/
def execCqHeadDoorbell (fn value : Nat) (s : State) : Host.Outcome State Fault Refusal :=
  whenDo (reachable s fn) s (keepOr s fn (ringAddr fn 0x2C) value (ringHead s fn value))

/-- RING_ENABLE (rule R371). -/
def execRingEnable (fn value : Nat) (s : State) : Host.Outcome State Fault Refusal :=
  whenDo (reachable s fn && bit value 0) s (keepOr s fn (ringAddr fn 0) value (ringOn s fn value))

/-- RING_DISABLE (rule R385). -/
def execRingDisable (fn value : Nat) (s : State) : Host.Outcome State Fault Refusal :=
  whenDo (reachable s fn && !(bit value 0)) s (keepOr s fn (ringAddr fn 0) value (ringOff s fn value))

/-- EVENT_POST (rules R374, R375, R380): the oldest held event, where the session has EVENTS and more than eight slots are free. -/
def execEventPost (fn : Nat) (s : State) : Host.Outcome State Fault Refusal :=
  let r := getRing s fn
  match r.held with
  | [] => ok s
  | e :: rest =>
    whenDo (reachable s fn && r.enable && !r.stopped && bit r.features 5 && hasRoom r false && !s.fw.inActivation) s
      (postSlot (updRing s fn (fun x => { x with held := rest })) fn (packetBytes e))

/-- READY_STEP of a suite is written (rule R272): a lower value has no effect. -/
def writeReady (s : State) (n value : Nat) : State :=
  updSuite s n (fun su => { su with readyStep := max su.readyStep (value % 2 ^ 32) })

/-- READY_STEP_WRITE (rule R272): a virtual function writes its own suite's register. -/
def execReadyStepWrite (fn suite value : Nat) (s : State) : Host.Outcome State Fault Refusal :=
  let n := if fn = 0 then suite else fn - 1
  whenDo (reachable s fn && decide (n < 8) && decide ((getSuite s n).state ≠ .absent)) s
    (keepOr s fn (0x900C + 0x40 * n) value (writeReady s n value))

/-- Where a packet's command is to execute: the module, and the suite or device there (rules R376, R381). -/
def targetKey (s : State) (src : Src) (p : Packet) : Nat × Nat :=
  (if isRelayed p then fieldAt p.payload 0 4 else ownId s, targetOf src p)

/-- Whether a module lies in this module's subtree (rule R318). -/
def below (s : State) (m : Nat) : Bool := s.mgr.workers.any (fun w => w.module == m) || SMap.has s.mgr.placed m

/-- Whether an attach request has reached the end of its path (rule R317): HOPS counts the ports taken. -/
def attachHere (p : Packet) : Bool := decide (fieldAt (bodyOf p) 0 1 ≤ fieldAt p.payload 12 1 + 1)

/-- Whether a packet is executed here (rules R376 to R378): none whose HOPS is 6 is. -/
def isHere (s : State) (src : Src) (p : Packet) : Bool :=
  let dest := fieldAt p.payload 0 4
  if !(isRelayed p) then true
  else if 6 ≤ fieldAt p.payload 12 1 then false
  else if p.opcode = 0x0501 ∧ dest ≠ ownId s then
    (match src with
     | .link _ => attachHere p && !(below s dest)
     | .ring _ => false)
  else dest == ownId s || (isBroadcast p && decide (src = .link s.mgr.parentPort) && !(below s dest))

/-- Whether an accepted command may start (rules R374, R381, R383, R384); an urgent one lets a transfer of its target that it does not end
complete first (rule R402), and a CREATE_SUITE that names a tile borrowed for a third run waits for its end (rule R454). -/
def startable (s : State) (src : Src) (w : Waiting) : Bool :=
  let r := getRing s (ringKey src)
  let earlier := (r.queue.takeWhile (fun x => decide (x ≠ w))).filter (fun x => x.reply.isNone)
  let mine := fun (x : Waiting) => decide (targetKey s src x.pkt = targetKey s src w.pkt)
  let open1 := match src with
    | .ring f => r.enable && !r.stopped && reachable s f && hasRoom r w.urgent
    | .link _ => true
  let runsOn := s.rings.any (fun q => q.2.queue.any (fun x => x.executing && (x.pkt.opcode == 0x0204 || x.pkt.opcode == 0x0404)
    && decide (targetKey s (keySrc q.1) x.pkt = targetKey s src w.pkt)))
  let borrowed := w.pkt.opcode == 0x0200
    && s.faults.resolutions.any (fun q => (q.third.map (bit (fieldAt (bodyOf w.pkt) 0 10))).getD false)
  let order :=
    if w.urgent then earlier.all (fun x => !x.urgent || x.executing) && !runsOn
    else r.queue.all (fun x => !x.urgent || x.executing || x.reply.isSome)
      && (if isQuery w.pkt.opcode then earlier.all (fun x => !(mine x) || x.executing) else earlier.all (fun x => !(mine x)))
  !w.executing && w.reply.isNone && !s.fw.inActivation && open1 && order && !borrowed

/-- Whether the device state admits a command (rules R383, R388, R477, R482). -/
def admits (s : State) (src : Src) (p : Packet) : Bool :=
  let op := p.opcode
  let b0 := fieldAt (bodyOf p) 0 1
  let cls := op / 256
  let cupola := decide (src = .link 0) && (op == 0 || (op == 1 && b0 == 2))
  match s.dev with
  | .off => false
  | .standby => cupola || (decide (src = .link 0) && op == 0x0100)
  | .faulted =>
    if 1 ≤ s.bringup.code ∧ s.bringup.code ≤ 4 then cupola || (decide (src = .link 0) && op == 0x0102 && b0 == 4)
    else op == 0 || op == 1 || cls == 6 || cls == 15 || op == 0x0102
  | .ready => true
  | .running => op != 0x0101
  | _ => op == 0 || op == 1 || (isQuery op && (cls == 6 || cls == 8 || cls == 9)) || (op == 0x0102 && (b0 == 3 || b0 == 4))
      || (op == 0x0100 && decide (s.dev ≠ .draining))

/-- Whether a virtual function asks for what only the physical function may have (rules R388, R393). -/
def pfOnly (src : Src) (p : Packet) : Bool :=
  match src with
  | .ring (_ + 1) => opFlag p.opcode 4 || (p.opcode == 0x0102 && fieldAt (bodyOf p) 0 1 != 2)
  | _ => false

/-- A command's effect: the state, and its reply's STATUS, DETAIL and fields once it has one. -/
abbrev Effect := State × Option (Nat × Nat × Bytes)

/-- The command completes with OK. -/
def done (s : State) (body : Bytes) : Effect := (s, some (0, 0, body))
/-- The command is refused. -/
def deny (s : State) (status detail : Nat) : Effect := (s, some (status, detail, []))
/-- The command is refused with STATE. -/
def denyState (s : State) (n : Nat) : Effect := deny s 0x0301 (stateDetail s n)
/-- The command goes on executing. -/
def later (s : State) : Effect := (s, none)

/-- Change the executing command with a tag. -/
def updWaiting (s : State) (src : Src) (tag : Nat) (f : Waiting → Waiting) : State :=
  updRing s (ringKey src) (fun r => { r with queue := r.queue.map (fun w => if w.executing && w.pkt.tag == tag then f w else w) })

/-- Note what an executing command waits for. -/
def setNote (s : State) (src : Src) (tag : Nat) (note : List Nat) : State := updWaiting s src tag (fun w => { w with note := note })

/-- The command goes on executing, with a note. -/
def wait (s : State) (src : Src) (tag : Nat) (note : List Nat) : Effect := (setNote s src tag note, none)

/-- Take an unanswered command out of its queue (rule R382); one that its state does not admit is counted (rule R388). -/
def dropSilent (s : State) (src : Src) (tag : Nat) (discarded : Bool) : State :=
  let s1 := updRing s (ringKey src) (fun r => { r with queue := dropFirst (fun w => w.executing && w.pkt.tag == tag) r.queue })
  if discarded then { s1 with mgr := { s1.mgr with unanswered := satInc 16 s1.mgr.unanswered } } else s1

/-- The meaning of a command of opcode `op` (rules R381 to R388): it starts where it may; the physical function, the device state and
the suite are checked, and `eff` gives the effect on source, packet, target suite and payload. A virtual function's RESET of another
level than 2 is answered (rule R393). -/
def runCommand (op : Nat) (src : Src) (tag : Nat) (s : State) (eff : State → Src → Packet → Nat → Bytes → Effect) :
    Host.Outcome State Fault Refusal :=
  match (getRing s (ringKey src)).queue.find? (fun w => w.pkt.tag == tag && w.pkt.opcode == op && !w.executing && w.reply.isNone) with
  | none => .next s
  | some w =>
    let p := w.pkt
    let n := targetOf src p
    let s1 := updRing s (ringKey src) (fun r => { r with queue := r.queue.map (fun x => if x = w then { x with executing := true } else x) })
    let e : Effect :=
      if pfOnly src p then deny s1 0x0311 0
      else if !(admits s src p) then denyState s1 n
      else if n ≠ 0xFF ∧ p.opcode ≠ 0x0200 ∧ 1 < p.opcode ∧ (getSuite s n).state = .absent then deny s1 0x0303 0
      else eff s1 src p n (bodyOf p)
    let t := match e.2 with
      | none => e.1
      | some (st, d, b) => if isSilent p (bodyOf p) && !(op == 0x0102 && pfOnly src p) then dropSilent e.1 src tag (decide (st ≠ 0)) else finish e.1 src tag st d b
    whenDo (startable s src w && isHere s src p && (!(isBroadcast p) || w.relayed)) s t

end Sys2Proof.Machine
end

