-- ==== Sys2Proof/Machine/CmdDevice.lean ====
section
/-!
DEFINITION. Commands of classes 0x00 and 0x01: sessions, device information, power states, resets and units (rules R379, R380, R387 to R393,
R402 of 16_command_packets.md and 17_command_reference.md).
-/
namespace Sys2Proof.Machine

/-- Versions supported, as masks: command protocol, image, digest, signature (rule R380). -/
def supported : List Nat := [12, 6, 2, 4]

/-- Bits set in both masks, rising. -/
def commonBits (a b : Nat) : List Nat := (List.range 32).filter (fun i => bit a i && bit b i)

/-- Features of a session (rules R379, R380): offered by both, less those that need a higher command version. -/
def commonFeatures (offered version : Nat) : Nat :=
  ((List.range 6).filter (fun i => bit offered i && (decide (3 ≤ i) || version == 3))).foldl (fun m i => m + 2 ^ i) 0

/-- The four common version sets of a HELLO payload. -/
def commonVersions (body : Bytes) : List (List Nat) := (List.range 4).map (fun i => commonBits (supported.getD i 0) (fieldAt body (4 * i) 4))

/-- The highest of a rising list. -/
def highest (l : List Nat) : Nat := l.getLast?.getD 0

/-- The session that a HELLO opens. -/
def openSession (r : Ring) (body : Bytes) : Ring :=
  let v := commonVersions body
  let cmd := highest (v.getD 0 [])
  { r with session := true, cmdVersion := cmd, imageVersions := v.getD 1 [], digestVersions := v.getD 2 [],
           features := commonFeatures (fieldAt body 16 8) cmd, sessions := r.sessions + 1, peer := fieldAt body 28 4 }

/-- HELLO's effect (rule R379). -/
def helloEffect (s : State) (src : Src) (body : Bytes) : Effect :=
  let v := commonVersions body
  match v.findIdx? (fun l => l.isEmpty) with
  | some i => deny s 0x0503 (i + 1)
  | none =>
    let s1 := updRing s (ringKey src) (fun r => openSession r body)
    let r := getRing s1 (ringKey src)
    done s1 (natLE r.cmdVersion 1 ++ natLE (highest (v.getD 1 [])) 1 ++ natLE (highest (v.getD 2 [])) 1 ++ natLE (highest (v.getD 3 [])) 1
      ++ natLE r.features 8 ++ natLE r.sessions 4 ++ natLE 0 4)

/-- HELLO (rules R379, R380). -/
def execHello (src : Src) (tag : Nat) (s : State) : Host.Outcome State Fault Refusal :=
  runCommand 0x0000 src tag s (fun st sr _ _ body => helloEffect st sr body)

/-- A mask of the members of a list of small numbers. -/
def maskOf (l : List Nat) : Nat := l.foldl (fun m i => m ||| 2 ^ i) 0

/-- GET_INFO of SELECT 0 (rule R393; rule R529). -/
def identityBytes (s : State) : Bytes :=
  natLE s.fuse.serial 8 ++ natLE s.fuse.grade 1 ++ natLE s.fuse.stepping 1 ++ natLE s.attic.repairVersion 2 ++ natLE (maskOf s.fuse.tiles) 10
    ++ natLE (maskOf s.fuse.wings) 1 ++ natLE 0 1 ++ natLE (maskOf (presentPorts s)) 2 ++ natLE 0 2 ++ natLE (fwVersion s.fw) 4

/-- GET_INFO of SELECT 1. -/
def capacityInfo (s : State) : Bytes :=
  natLE (maskOf ((List.range 80).filter (usableTile s))) 10 ++ natLE (maskOf ((List.range 512).filter (usablePc s))) 64
    ++ natLE (maskOf ((presentPorts s).filter (fun p => (getPort s p).state == portUp))) 2 ++ natLE 0 4

/-- GET_INFO of SELECT 2; the Cupola leaves the fields of the Hall zero (rule R393, Note 2). -/
def stateInfo (s : State) : Bytes :=
  let hall := s.fw.serving
  natLE (devStateCode s.dev) 1 ++ natLE s.mgr.role 1 ++ natLE 0 2 ++ natLE (if hall then s.bell.count else 0) 8
    ++ ((List.range 8).map (fun n => natLE (if hall then suiteStateCode (getSuite s n).state else 0) 1)).flatten ++ natLE s.mgr.moduleId 4

/-- GET_INFO (rule R393). -/
def execGetInfo (src : Src) (tag : Nat) (s : State) : Host.Outcome State Fault Refusal :=
  runCommand 0x0001 src tag s (fun st _ _ _ body =>
    done st (match fieldAt body 0 1 with
      | 0 => identityBytes st
      | 1 => capacityInfo st
      | _ => stateInfo st))

/-- WAKE (rule R393): in STANDBY the module begins WAKING; later it has no effect. -/
def execWake (src : Src) (tag : Nat) (s : State) : Host.Outcome State Fault Refusal :=
  runCommand 0x0100 src tag s (fun st _ _ _ body =>
    let s1 := if st.dev = .standby then wakeDevice st (fieldAt body 0 1 == 1) else st
    done s1 (natLE (devStateCode s1.dev) 1))

/-- Whether a suite forbids SLEEP (rule R393). -/
def awake (su : Suite) : Bool := decide (su.state = .running) || decide (su.state = .preempted) || decide (su.state = .draining)

/-- SLEEP (rule R393): every suite goes, the dirty lines are written back, and the device drains to STANDBY. -/
def execSleep (src : Src) (tag : Nat) (s : State) : Host.Outcome State Fault Refusal :=
  runCommand 0x0101 src tag s (fun st _ _ n _ =>
    if st.suites.any (fun q => awake q.2) then denyState st n
    else
      let s1 : State := { st with
        suites := [], streams := [], wings := SMap.mapVals st.wings (fun _ w => { w with lines := [], wayOwner := [] })
        tiles := SMap.mapVals st.tiles (fun _ x => unseat x)
        bringup := { st.bringup with sleeping := true, warm := false, resetLevel := 0 } }
      done (setDev s1 .draining) [])

/-- A load that is ended leaves its suite EMPTY (rules R394, R402). -/
def emptySuite (s : State) (n : Nat) : State :=
  setSuiteState (updSuite (unseatAll (freeEntries s n) n) n (fun su => { su with image := none, vmap := [], fold := 0, bindings := [], routes := [] })) n .empty

/-- End every executing command that satisfies `f` with ABORTED (rules R389, R402); `op` is the urgent opcode. A KNOWN_ANSWER reports
the tiles completed. -/
def abortWhere (s : State) (op : Nat) (f : Src → Waiting → Bool) : State :=
  s.rings.foldl (fun st p =>
    (p.2.queue.filter (fun w => w.executing && f (keySrc p.1) w)).foldl (fun q w =>
      finish (if w.pkt.opcode = 0x0202 then emptySuite q (targetOf (keySrc p.1) w.pkt) else q) (keySrc p.1) w.pkt.tag 0x0309 op (if w.pkt.opcode = 0x0F03 then natLE (w.note.getD 1 0) 10 else [])) st) s

/-- KNOWN_ANSWER commands that name one of some tiles. -/
def abortKar (s : State) (op : Nat) (f : Nat → Bool) : State :=
  abortWhere s op (fun _ w => w.pkt.opcode == 0x0F03 && (List.range 80).any (fun t => f t && bit (w.note.getD 0 0) t))

/-- What a reset or disable command waits for: class or level, index, and what is in flight, queued and absorbed at its start. -/
def unitNote (s : State) (n i : Nat) (es : List Nat) : List Nat := [n, i, flying s es, waitingOn s es, absorbedTotal s]

/-- RESET at level 0 (rules R393, R479). -/
def resetTileEffect (s : State) (src : Src) (tag t : Nat) : Effect :=
  if !(usableTile s t) then deny s 0x0306 t
  else
    let s1 := setNote s src tag (unitNote s 0 t (unitEntries s 0 t))
    later (beginTileReset (unitRecords (abortKar s1 0x0102 (fun x => x == t)) 0 t 0x0800 0x0102) t)

/-- RESET at level 1 (rules R393, R480). -/
def resetWingEffect (s : State) (src : Src) (tag w : Nat) : Effect :=
  if !(wingPresent s w) then deny s 0x0306 w
  else
    let s1 := setNote s src tag (unitNote s 1 w (unitEntries s 5 w))
    later (beginWingReset (unitRecords (abortKar s1 0x0102 (fun x => x / 10 == w)) 5 w 0x0800 0x0102) w)

/-- Commands of a suite that its reset ends (rule R402). -/
def endedByReset (op : Nat) : Bool := op == 0x0202 || op == 0x0301 || op == 0x0402 || op == 0x0403 || op == 0x0F00

/-- RESET at level 2 (rules R393, R428, R481). -/
def resetSuiteEffect (s : State) (src : Src) (tag n : Nat) : Effect :=
  let es := suiteEntries s n
  let s1 := abortWhere s 0x0102 (fun sr w => targetOf sr w.pkt == n && endedByReset w.pkt.opcode)
  let s2 := setNote (updSuite s1 n (fun su => { su with receiving := [] })) src tag
    [(getSuite s n).counts.absorbed, flying s es + waitingOn s es]
  let s3 := updSuite s2 n (fun su => { su with job := { su.job with rollback := false } })
  match (getSuite s n).state with
  | .running => later (beginReset s3 n)
  | .faulted => later (beginReset s3 n)
  | .draining => later s3
  | .preempted => later (setSuiteState (finishReset (beginReset s3 n) n) n .loaded)
  | .loaded => done (finishReset (beginReset s3 n) n) (natLE 0 8)
  | _ => done s3 (natLE 0 8)

/-- RESET (rules R385, R393, R402, R477, R478). -/
def execReset (src : Src) (tag : Nat) (s : State) : Host.Outcome State Fault Refusal :=
  runCommand 0x0102 src tag s (fun st sr p n body =>
    let i := fieldAt body 2 2
    match fieldAt body 0 1 with
    | 0 => resetTileEffect st sr p.tag i
    | 1 => resetWingEffect st sr p.tag i
    | 2 => resetSuiteEffect st sr p.tag n
    | l => done (resetDevice st l 1) [])

/-- Class and index of the unit that a payload names (rule R393). -/
def namedUnit (body : Bytes) : Nat × Nat :=
  let c := fieldAt body 0 1
  (c, if c = 1 then fieldAt body 4 4 * 4 + fieldAt body 1 1 else fieldAt body 4 4)

/-- Whether a unit is there to be disabled or enabled: not fused off, not retired (rules R389, R393). -/
def unitThere (s : State) (c i : Nat) : Bool :=
  let tile := fun (t : Nat) => wingPresent s (t / 10) && !(getTile s t).health.retired
  match c with
  | 0 => tile i
  | 1 => tile (i / 4)
  | 2 => true
  | 3 => wingPresent s (i / 64) && !(s.attic.pcsRetired.contains i)
  | _ => portPresent s i

/-- The index that 0x0306 names: a landing's tile. -/
def unitIndex (c i : Nat) : Nat := if c = 1 then i / 4 else i

/-- DISABLE_UNIT's effect (rules R393, R402). -/
def disableEffect (s : State) (src : Src) (tag c i : Nat) : Effect :=
  if !(unitThere s c i) then deny s 0x0306 (unitIndex c i)
  else if unitDisabled s c i then (s, some (0, 1, natLE 0 8))
  else
    let s1 := setNote s src tag (unitNote s c i (unitEntries s c i))
    let s2 := abortWhere s1 0x0103 (fun sr w => w.pkt.opcode == 0x0202 && holdsUnit (getSuite s (targetOf sr w.pkt)) c i)
    let s3 := abortKar s2 0x0103 (fun t => c == 0 && t == i)
    later (answerUnits (disableUnit (unitRecords s3 c i 0x0801 0x0103) c i))

/-- DISABLE_UNIT (rules R256, R276, R393, R483). -/
def execDisableUnit (src : Src) (tag : Nat) (s : State) : Host.Outcome State Fault Refusal :=
  runCommand 0x0103 src tag s (fun st sr p _ body => disableEffect st sr p.tag (namedUnit body).1 (namedUnit body).2)

/-- ENABLE_UNIT (rule R393). -/
def execEnableUnit (src : Src) (tag : Nat) (s : State) : Host.Outcome State Fault Refusal :=
  runCommand 0x0104 src tag s (fun st _ _ _ body =>
    let u := namedUnit body
    if !(unitThere st u.1 u.2) then deny st 0x0306 (unitIndex u.1 u.2) else done (enableUnit st u.1 u.2) [])

end Sys2Proof.Machine
end

