-- ==== Sys2Proof/Machine/ImageFile.lean ====
section
/-!
DEFINITION. The bytes of a Druthen image: header, directory, resource descriptor, virtual tiles, tensors, plans (rules R404 to R412 of
18_images_and_the_loader.md, R166, R189 to R199 for the records).
-/
namespace Sys2Proof.Machine

/-- A section of an image (rule R405). -/
structure Section where
  type : Nat
  index : Nat
  off : Nat
  len : Nat
  reserved : Nat
deriving DecidableEq, Repr

/-- The section directory (rule R405). -/
def sectionsOf (im : Bytes) : List Section :=
  (List.range (fieldAt im 16 4)).map (fun i =>
    let o := 128 + 24 * i
    ⟨fieldAt im o 2, fieldAt im (o + 2) 2, fieldAt im (o + 8) 8, fieldAt im (o + 16) 8, fieldAt im (o + 4) 4⟩)

/-- Sections of a type. -/
def ofType (ss : List Section) (t : Nat) : List Section := ss.filter (fun x => x.type == t)

/-- Bytes of the first section of a type; none where it is absent. -/
def sectionBytes (im : Bytes) (ss : List Section) (t : Nat) : Bytes :=
  match ofType ss t with
  | [] => []
  | x :: _ => bytesAt im x.off x.len

/-- SHA-384 of an image with its DIGEST field taken as zero (rule R404). -/
def imageDigest (im : Bytes) : Bytes := sha384 (im.take 24 ++ bytesAt [] 0 48 ++ im.drop 72)

/-- The resource descriptor (rule R406). -/
structure Resources where
  stateConfig : Nat
  checkpoints : Nat
  snapshot : Nat
  imagePorts : Nat
  v : Nat
  minWays : Nat
  tsBytes : Nat
  streams : Nat
  maxDuration : Nat
  maxSeq : Nat
  tensorBytes : Nat
deriving DecidableEq, Repr

def resourcesOf (b : Bytes) : Resources :=
  ⟨fieldAt b 0 1, fieldAt b 1 1, fieldAt b 2 1, fieldAt b 3 1, fieldAt b 4 2, fieldAt b 6 1, fieldAt b 8 4, fieldAt b 12 4, fieldAt b 16 4,
   fieldAt b 20 4, fieldAt b 24 8⟩

/-- Signed strides of a record. -/
def stridesAt (b : Bytes) (o size : Nat) : List Int := (List.range 4).map (fun i => signedOf (8 * size) (fieldAt b (o + size * i) size))

/-- A descriptor (rule R166), a pass record (rule R192), a vector record (rule R199), a coordinate record (rule R190). -/
def descOf (b : Bytes) : Desc := { base := fieldAt b 0 5, kind := fieldAt b 5 1, strides := stridesAt b 8 4, tensor := fieldAt b 24 3 }

def passOf (b : Bytes) : PassRec :=
  { k := fieldAt b 0 3 + 1, m := fieldAt b 3 1 % 128 + 1, n := fieldAt b 4 1 % 128 + 1, ch := fieldAt b 5 1 % 4, ch0 := fieldAt b 6 2
    sStrideA := fieldAt b 8 4, gStrideA := fieldAt b 12 4, sStrideB := fieldAt b 16 4, gStrideB := fieldAt b 20 4, chStrides := stridesAt b 24 2 }

def vecOf (b : Bytes) : VecRec :=
  { xsKind := fieldAt b 0 1, xsGen := fieldAt b 1 1 % 2, xsSel := fieldAt b 2 2, xsStride := signedOf 32 (fieldAt b 4 4), xdKind := fieldAt b 8 1
    xdSel := fieldAt b 10 2, xdStride := signedOf 32 (fieldAt b 12 4), dscale := fieldAt b 16 1, imm := signedOf 8 (fieldAt b 17 1)
    scaleTensor := fieldAt b 18 3, aux := fieldAt b 21 1, unit := fieldAt b 22 1 % 16, purpose := fieldAt b 23 1, cdesc := fieldAt b 24 2 }

def coordOf (b : Bytes) : CoordRec :=
  { e0 := fieldAt b 0 5, tensor := fieldAt b 5 3, w := fieldAt b 8 1 + 1, pitch := fieldAt b 12 4, strides := stridesAt b 16 4 }

/-- `n` records of `size` bytes from an offset. -/
def recordsAt {α : Type} (f : Bytes → α) (b : Bytes) (o size n : Nat) : List α := (List.range n).map (fun i => f (bytesAt b (o + size * i) size))

/-- Counts of stream `s` in a virtual tile's header: instructions, descriptors, pass, vector and coordinate records (rule R407). -/
def streamCounts (b : Bytes) (i : Nat) : List Nat :=
  [fieldAt b (16 + 16 * i) 4, fieldAt b (20 + 16 * i) 2, fieldAt b (22 + 16 * i) 2, fieldAt b (24 + 16 * i) 2, fieldAt b (26 + 16 * i) 2]

/-- Bytes of a stream's program and tables. -/
def streamSize (c : List Nat) : Nat := 8 * c.getD 0 0 + 32 * (c.getD 1 0 + c.getD 2 0 + c.getD 3 0 + c.getD 4 0)

/-- Where stream `i` of a virtual tile section begins. -/
def streamStart (b : Bytes) (i : Nat) : Nat := (List.range i).foldl (fun o j => o + streamSize (streamCounts b j)) 64

/-- A stream's program and tables (rule R407). -/
def progOf (b : Bytes) (i : Nat) : StreamProg :=
  let c := streamCounts b i
  let o0 := streamStart b i
  let o1 := o0 + 8 * c.getD 0 0
  let o2 := o1 + 32 * c.getD 1 0
  let o3 := o2 + 32 * c.getD 2 0
  let o4 := o3 + 32 * c.getD 3 0
  { instrs := recordsAt leNat b o0 8 (c.getD 0 0), descs := recordsAt descOf b o1 32 (c.getD 1 0), passes := recordsAt passOf b o2 32 (c.getD 2 0)
    vecs := recordsAt vecOf b o3 32 (c.getD 3 0), coords := recordsAt coordOf b o4 32 (c.getD 4 0) }

/-- A virtual tile section (rule R407). -/
def vtileOf (b : Bytes) : VTileImage :=
  let o := streamStart b 3
  { holders := fieldAt b 8 4 % 2 ^ 22, f := progOf b 0, b := progOf b 1, u := progOf b 2
    cuts := recordsAt (fun x => (fieldAt x 0 2, fieldAt x 2 2, fieldAt x 4 2)) b o 8 (fieldAt b 4 2) }

/-- The length that a virtual tile section must have. -/
def vtileLen (b : Bytes) : Nat := streamStart b 3 + 8 * fieldAt b 4 2

/-- The virtual tiles of the sections of a type, by VTILE. -/
def vtilesOf (im : Bytes) (ss : List Section) (t : Nat) : SMap VTileImage :=
  (ofType ss t).foldl (fun m x => SMap.set m x.index (vtileOf (bytesAt im x.off x.len))) []

/-- Format of a tensor-table entry: codes 0 to 3, and whether it is a weight (rules R54, R408). -/
def fmtOf (code : Nat) (weight : Bool) : Fmt :=
  match code, weight with
  | 0, true => .q4w
  | 0, false => .q4a
  | 1, true => .q8w
  | 1, false => .q8a
  | 2, _ => .h16
  | _, _ => .b32

/-- A tensor-table entry (rule R408); `codes` is the code-table section. -/
def tensorOf (b codes : Bytes) : Tensor :=
  let fl := fieldAt b 5 1
  let dims := min (fieldAt b 6 1) 4
  let ct := fieldAt b 34 2
  { fmt := fmtOf (fieldAt b 3 1) (bit fl 0), role := fieldAt b 4 1, weight := bit fl 0, managed := bit fl 1, perChannel := bit fl 2
    defaultTable := bit fl 3, sequence := bit fl 4, scaleSource := bit fl 5, shape := (List.range dims).map (fun i => fieldAt b (8 + 5 * i) 5)
    chAxis := fieldAt b 7 1, seqAxis := fieldAt b 28 1, seqLen := fieldAt b 30 3 % 2 ^ 20 + 1
    codeTable := if ct = 0xFFFF then [] else (List.range 16).map (fun i => fieldAt codes (32 * ct + 2 * i) 2)
    source := fieldAt b 36 3, channels := fieldAt b 40 4, initial := fieldAt b 44 8 }

/-- The entries of the tensor table as bytes (rule R408). -/
def tensorEntries (b : Bytes) : List Bytes := (List.range (fieldAt b 0 4)).map (fun i => bytesAt b (16 + 64 * i) 64)

/-- The tensor table, each tensor's storage in ascending id from `base` (rules R408, R414). -/
def tensorsFrom (codes : Bytes) (base : Nat) (es : List Bytes) : SMap Tensor :=
  (es.foldl (fun (acc : Nat × SMap Tensor) e =>
    let x := tensorOf e codes
    (acc.1 + storedBytes x, SMap.set acc.2 (fieldAt e 0 3) { x with base := acc.1 })) (base, [])).2

/-- The digest plan (rule R410). -/
def digestPlanOf (b : Bytes) : DigestPlan :=
  let n := fieldAt b 8 4
  let w := fieldAt b 12 4
  { ringDepth := fieldAt b 0 4, k := fieldAt b 4 2, inPassing := bit (fieldAt b 6 1) 0
    order := (List.range n).map (fun i => fieldAt b (16 + 4 * i) 3), weights := (List.range w).map (fun i => fieldAt b (16 + 4 * n + 4 * i) 3) }

/-- A stream declaration (rule R411); where its fields stand in the 32 bytes the spec does not say. -/
def declOf (b : Bytes) : StreamDecl :=
  let f := fun i => Config.declField i b
  { type := f 0 % 4, policyStream := bit (f 1) 0, vtile := f 2 % 1024, landing := f 3 % 2, outbound := bit (f 4) 0, tensor := f 5 % 2 ^ 24
    peerVtile := f 6 % 1024, peerStream := f 7 % 65536, imagePort := f 8 % 16, family := f 9 % 2 ^ 16, offset := signedOf 32 (f 10)
    trainCount := f 11, evalCount := f 12 }

def declsOf (im : Bytes) (ss : List Section) : List StreamDecl :=
  let b := sectionBytes im ss 3
  recordsAt declOf b 0 32 (b.length / 32)

/-- A count of the plan (rule R412). -/
def countSpec (perN v : Nat) : CountSpec := if perN = 0 then .fixed v else .perN (max 1 v)

/-- The collective plan (rules R412, R413); where its fields stand the spec does not say. -/
def planOf (b : Bytes) : CollectivePlan :=
  let f := fun field i => Config.planField field i b
  { nMin := f 0 0, nMax := f 1 0
    families := (List.range (f 2 0 % 65536)).map (fun i => ⟨max 1 (f 3 i), countSpec (f 4 i % 2) (f 5 i)⟩)
    levels := (List.range (f 6 0 % 4)).map (fun i => countSpec (f 7 i % 2) (f 8 i))
    sums := (List.range (f 9 0 % 65536)).map (fun i =>
      ⟨f 10 i, f 11 i, (List.range (f 12 i % 3)).map (fun j => f 13 (4 * i + j)), f 14 i⟩)
    voteFamily := if f 15 0 % 2 = 0 then none else some (f 16 0)
    recordsFamily := if f 17 0 % 2 = 0 then none else some (f 18 0)
    distributes := (List.range (f 19 0 % 65536)).map (fun i => (f 20 i, f 21 i)), raws := (List.range (f 22 0 % 65536)).map (f 23) }

def align4k (a : Nat) : Nat := 4096 * ((a + 4095) / 4096)
def align64 (a : Nat) : Nat := (a + 63) / 64 * 64

/-- The sections that the image area holds, in ascending type and then index, and its size (rule R414). -/
def areaSections (ss : List Section) : List Section :=
  let byIndex := fun (t : Nat) => ((ofType ss t).foldl (fun (m : SMap Section) x => SMap.set m x.index x) []).map (fun p => p.2)
  byIndex 2 ++ byIndex 4 ++ byIndex 6
def imageAreaBytes (ss : List Section) : Nat := (areaSections ss).foldl (fun n x => n + align64 x.len) 0

/-- An image from its bytes (rules R404 to R412); the tensors lie behind the image area. -/
def imageOf (im : Bytes) : Image :=
  let ss := sectionsOf im
  let r := resourcesOf (sectionBytes im ss 1)
  { digest := bytesAt im 24 48, formatVersion := fieldAt im 4 1, minCmdVersion := fieldAt im 6 1, stateConfig := r.stateConfig
    checkpoints := r.checkpoints, snapshot := r.snapshot == 1, imagePorts := r.imagePorts, v := r.v, minWays := r.minWays, tsBytes := r.tsBytes
    streams := r.streams, maxDuration := r.maxDuration, maxSeq := r.maxSeq, tensorBytes := r.tensorBytes
    vtiles := vtilesOf im ss 2, evalTiles := vtilesOf im ss 4, decls := declsOf im ss
    tensors := tensorsFrom (sectionBytes im ss 6) (align4k (imageAreaBytes ss)) (tensorEntries (sectionBytes im ss 5))
    digestPlan := digestPlanOf (sectionBytes im ss 8), plan := planOf (sectionBytes im ss 9)
    initialAt := ((ofType ss 0x0A).head?.map (fun x => x.off)).getD 0 }

end Sys2Proof.Machine
end

