-- ==== Sys2Proof/Machine/Matrix.lean ====
section
/-!
DEFINITION. The matrix engine: `mm`, the spill of its cells, the completion of a pass (rules R113 to R121 of
06_tile_and_matrix_engine.md, R191 to R196 of 09_compute_instructions.md, R77 to R82 of 04_exact_accumulation.md).
-/
namespace Sys2Proof.Machine

/-- Stored format code of an operand (rule R191). -/
def mmFmtOk (code : Nat) (f : Fmt) : Bool :=
  match code with
  | 0 => f == .q4w || f == .q4a
  | 1 => f == .q8w || f == .q8a
  | _ => f == .h16

/-- Where an operand lies (rule R193). -/
structure Operand where
  base : Int
  tr : Bool
  sStride : Nat
  gStride : Nat
  tensor : Tensor
  scale : GenScale

/-- Address and nibble of the element at edge index `e`, contraction position `k` (rules R116, R193). -/
def operandAddr (o : Operand) (e k : Nat) : Int × Nat :=
  let g := stripeGroup o.tensor.fmt
  let stripe := if o.tr then k / 128 * o.gStride + e / g * o.sStride else k / g * o.sStride
  let row := if o.tr then k % 128 else e
  let pos := if o.tr then e % g else k % g
  let inRow : Nat × Nat := match o.tensor.fmt with
    | .q4w | .q4a => (pos / 2, pos % 2)
    | .h16 => (2 * pos, 0)
    | _ => (pos, 0)
  (o.base + ((stripe + row * stripeRow o.tensor.fmt + inRow.1 : Nat) : Int), inRow.2)

/-- First address past the operand's last stripe (rule R193). -/
def operandEnd (o : Operand) (e k : Nat) : Int :=
  let g := stripeGroup o.tensor.fmt
  let last := if o.tr then (k - 1) / 128 * o.gStride + (e - 1) / g * o.sStride else (k - 1) / g * o.sStride
  o.base + ((last + stripeSize o.tensor.fmt : Nat) : Int)

/-- The elements of one row or column of an edge, k from 0 up, each with whether reading it sets SAT. -/
def operandLine (m : Memory) (pw : List Nat) (o : Operand) (kk e : Nat) : List (Value × Bool) :=
  (List.range kk).map (fun k =>
    let a := operandAddr o e k
    elemValue m pw o.tensor o.scale.z a.1.toNat a.2)

/-- Exponent of an operand's quantum (rule R120). -/
def quantumOf (f : Fmt) : Int := if f = .h16 then -39 else -13

/-- What one cell forms: the aligned sum, whether a POISON term came, whether an addend was altered, and the unaligned sum in
units of the two quanta (rules R79, R82, R120). -/
structure CellSum where
  sum : Int := 0
  poison : Bool := false
  range : Bool := false
  plain : Int := 0

/-- Add the products of a row and a column; `delta k` is σ − b of position k. -/
def cellSum (q : Int) (delta : Nat → Int) : Nat → List Value → List Value → CellSum → CellSum
  | k, a :: as, b :: bs, c =>
    let c1 : CellSum := match a, b with
      | .num x _, .num y _ =>
        let p := x.mul y
        let al := alignAddend p (delta k)
        { c with sum := c.sum + al.1, range := c.range || al.2, plain := c.plain + p.manAt q }
      | _, _ => { c with poison := true }
    cellSum q delta (k + 1) as bs c1
  | _, _, _, c => c

/-- Totals of the lines at each contraction position, in quantum units, modulo P (rule R120). -/
def lineTotals (q : Int) : List (List Value) → List Int
  | [] => []
  | l :: ls =>
    let v := l.map (fun x => x.dy.manAt q)
    match ls with
    | [] => v
    | _ => List.zipWith (· + ·) v (lineTotals q ls)

/-- The residue formed from the operands (rule R120): a POISON element counts as zero on its edge, and the rest of its line stays in the totals. -/
def operandResidue (qa qb : Int) (rows cols : List (List Value)) : Nat :=
  let a := lineTotals qa rows
  let b := lineTotals qb cols
  (List.zipWith (fun x y => residue x * residue y) a b).foldl (fun acc p => (acc + p) % checkP) 0

/-- The base exponents of a bank's columns once every outstanding pass into it has begun (rule R118). -/
def pendingBases (c : TileCore) (passes : List MePass) (b : Nat) : SMap Int :=
  passes.foldl (fun bs p =>
    if p.bank = b ∧ p.begun = false then
      p.setBases.foldl (fun m q => if SMap.has m q.1 then m else SMap.set m q.1 q.2) (if p.start then [] else bs)
    else bs) (getBank c b).bases

/-- Channel of contraction position or column 0 (rule R194). -/
def passChannel (p : PassRec) (loops : List LoopFrame) : Int := (p.ch0 : Int) + strideSum loops p.chStrides

/-- What the checks of rules R193 and R194 admit: the operands and the pass. -/
structure MmSetup where
  a : Operand
  b : Operand
  p : PassRec
  c0 : Nat

/-- What the checks of an operand find (rules R164, R167, R193): the operand without its scale, the scale where it is decided, whether the
format suits, whether it is aligned, whether it lies in the store. -/
structure MmOperand where
  o : Operand
  scale : Option GenScale
  suits : Bool
  aligned : Bool
  within : Bool

def mmOperand (s : State) (c : Ctx) (prog : StreamProg) (loops : List LoopFrame) (desc fmt gen : Nat) (tr : Bool)
    (sStride gStride e k : Nat) : Check MmOperand := do
  let d ← needDesc prog.descs desc 0
  let x ← needTensor c d.tensor
  let base := descEff d loops
  let size := stripeSize x.fmt
  let o : Operand := ⟨base, tr, sStride, gStride, x, {}⟩
  .ok { o := o, scale := scaleOf s c d.tensor x gen, suits := mmFmtOk fmt x.fmt
        aligned := base % (size : Int) == 0 && sStride % size == 0 && gStride % size == 0 && (tr || gStride == 0)
        within := decide (0 ≤ base) && decide (operandEnd o e k ≤ 0x800000) }

/-- The checks of an `mm`, which give one code for both operands and the channels (rules R164, R193, R194); none where a scale is not yet
decided (rule R98). -/
def mmSetup (s : State) (c : Ctx) (prog : StreamProg) (loops : List LoopFrame) (o : MmOp) : Check (Option MmSetup) := do
  let p ← needRec prog.passes o.pass
  let a ← mmOperand s c prog loops o.aDesc o.fmtA o.genA o.ta p.sStrideA p.gStrideA p.m p.k
  let b ← mmOperand s c prog loops o.bDesc o.fmtB o.genB o.tb p.sStrideB p.gStrideB p.n p.k
  let x := if p.ch = 1 then a.o.tensor else b.o.tensor
  let c0 := passChannel p loops
  let reach := if p.ch = 3 then p.n else p.k
  let dims := x.shape.length
  let inner := (p.ch == 3) == (if p.ch = 1 then o.ta else o.tb)
  require (a.suits && b.suits && (p.ch == 0
    || (x.weight && x.perChannel && decide (0 ≤ c0) && decide (c0 + reach ≤ x.channels)))) .descRange
  require (a.aligned && b.aligned
    && (p.ch == 0 || (decide (2 ≤ dims) && x.chAxis == (if inner then dims - 1 else dims - 2)))) .illegal
  require (a.within && b.within) .tsRange
  match a.scale, b.scale with
  | some g, some h => .ok (some ⟨{ a.o with scale := g }, { b.o with scale := h }, p, c0.toNat⟩)
  | _, _ => .ok none

/-- Base exponent that a pass sets on column `j` (rule R195). -/
def baseExponent (u : MmSetup) (j : Nat) : Int :=
  let least := fun (g : GenScale) => match g.ch with
    | [] => g.s
    | x :: xs => xs.foldl min x
  match u.p.ch with
  | 0 => u.a.scale.s + u.b.scale.s
  | 1 => u.b.scale.s + least u.a.scale
  | 2 => u.a.scale.s + least u.b.scale
  | _ => u.a.scale.s + GenScaleAt u.b.scale (some (u.c0 + j))

/-- Scale exponent of the term at column `j`, position `k` (rules R55, R195). With CH 0 an operand of a tensor with per-channel scales enters
at its S_CUR, the maximum over its channels, as at the base exponent: the rules give such an operand no s (DESIGN CHOICE, assumption 56). -/
def termScale (u : MmSetup) (j k : Nat) : Int :=
  match u.p.ch with
  | 0 => u.a.scale.s + u.b.scale.s
  | 1 => u.b.scale.s + GenScaleAt u.a.scale (some (u.c0 + k))
  | 2 => u.a.scale.s + GenScaleAt u.b.scale (some (u.c0 + k))
  | _ => u.a.scale.s + GenScaleAt u.b.scale (some (u.c0 + j))

/-- The pass that an `mm` puts into the engine (rule R196). -/
def formPass (core : TileCore) (passes : List MePass) (pw : List Nat) (u : MmSetup) (o : MmOp) : MePass :=
  let rowsS := (List.range u.p.m).map (operandLine core.store pw u.a u.p.k)
  let colsS := (List.range u.p.n).map (operandLine core.store pw u.b u.p.k)
  let rows := rowsS.map (fun l => l.map (fun v => v.1))
  let cols := colsS.map (fun l => l.map (fun v => v.1))
  let qa := quantumOf u.a.tensor.fmt
  let qb := quantumOf u.b.tensor.fmt
  let held := if o.acc then pendingBases core passes o.bank else []
  let cells := (List.range u.p.m).flatMap (fun i => (List.range u.p.n).map (fun j =>
    let b := SMap.get (baseExponent u j) held j
    (128 * i + j, cellSum (qa + qb) (fun k => termScale u j k - b) 0 (rows.getD i []) (cols.getD j []) {})))
  { bank := o.bank, m := u.p.m, n := u.p.n, start := !o.acc
    setBases := (List.range u.p.n).map (fun j => (j, baseExponent u j))
    cells := cells.map (fun p => (p.1, { sum := p.2.sum, poison := p.2.poison }))
    sat := (rowsS ++ colsS).any (fun l => l.any (fun v => v.2))
    poison := (rows ++ cols).any (fun l => l.any (fun v => v.isPoison))
    range := cells.any (fun p => p.2.range)
    lhs := cells.foldl (fun acc p => if p.2.poison then acc else (acc + residue p.2.plain) % checkP) 0
    rhs := operandResidue qa qb rows cols }

/-- Issue cycles of a pass: ceil(K / g), g by the operand pair (rule R114). -/
def passCycles (u : MmSetup) : Nat :=
  let narrow := fun (f : Fmt) => f == .q4w || f == .q4a
  let g := match u.a.tensor.fmt, u.b.tensor.fmt with
    | .h16, .h16 => 2
    | x, y => if narrow x && narrow y then 8 else 4
  (u.p.k + g - 1) / g

/-- MM (rules R118, R196): once the merges into its bank are in and the raw transfers out of it have read, the operands are read and the pass
enters the matrix engine; its cells reach the bank as they spill. -/
def execMm (tile : Nat) (st : KStream) (ecc : List EccHit) (s : State) : Host.Outcome State Fault Refusal :=
  ok (issueAs s tile st (fun i w =>
    match i with
    | .mm o =>
      match ctxOf s tile st with
      | none => some s
      | some c =>
        if !(holdsAll s tile st [tokME, tokBK o.bank]) then some (faultStream s tile st .ownership w)
        else if programLost ecc then some (faultStream s tile st .ifetchEcc w)
        else
          let x := getStream s tile st
          match mmSetup s c (tileProgram s tile st) x.loops o with
          | .error f => some (faultStream s tile st f w)
          | .ok none => some (stallAt s tile st 5)
          | .ok (some u) =>
            if !(bankMerges s tile o.bank).isEmpty || !(bankReads s tile o.bank).isEmpty then some s
            else
            let pl := placeOf s tile st w
            let s1 := eccRead s tile st pl ecc
            let tl := getTile s1 tile
            let p := formPass tl.core tl.passes (poisonedWords ecc) u o
            let s2 := updTile s1 tile (fun y =>
              { y with passes := y.passes ++ [{ p with id := y.nextOp, issuer := st, place := pl }], nextOp := y.nextOp + 1 })
            let s3 := updSuite s2 c.suite (fun su =>
              { su with counts := { su.counts with cyclesNow := su.counts.cyclesNow + passCycles u } })
            some (advance s3 tile st)
    | _ => none))

/-- A pass begins to act on its bank: START clears it, then the unset columns it writes are set (rule R195). -/
def beginPass (c : TileCore) (p : MePass) : TileCore :=
  if p.begun then c
  else
    let b := if p.start then {} else getBank c p.bank
    setBank c p.bank { b with bases := p.setBases.foldl (fun m q => if SMap.has m q.1 then m else SMap.set m q.1 q.2) b.bases }

/-- Spill one cell into its entry (rules R82, R196). -/
def spillCell (c : TileCore) (bank cell : Nat) (x : Cell) : TileCore :=
  setBank c bank (addEntry (getBank c bank) cell (if x.poison then AccForm.a192.poisoned else x.sum))

/-- A POISON cell's addend is the poisoned pattern itself. -/
def spillAll (c : TileCore) (p : MePass) : TileCore :=
  p.cells.foldl (fun c q => spillCell c p.bank q.1 q.2) (beginPass c p)

/-- CELL_SPILL (rules R112, R121): a cell of the oldest pass spills into its bank, whose entry is read, added to and written; `dup` is the
difference of the second adder's result, `ecc` what the code found in the entry. -/
def execCellSpill (tile cell : Nat) (dup : Int) (ecc : List EccHit) (s0 : State) : Host.Outcome State Fault Refusal :=
  let hits := ecc.filter bankHit
  let s := match (getTile s0 tile).passes with
    | p :: _ => if SMap.has p.cells cell then eccRead s0 tile p.issuer p.place hits else s0
    | [] => s0
  match (getTile s tile).passes with
  | [] => ok s
  | p :: ps =>
    whenDo (SMap.has p.cells cell) s
      (updTile s tile (fun y => { y with
        core := spillCell (beginPass y.core p) p.bank cell (SMap.get {} p.cells cell)
        passes := { p with begun := true, cells := SMap.erase p.cells cell,
                           spillMismatch := p.spillMismatch || decide (dup ≠ 0) } :: ps }))

/-- MM_PASS_COMPLETE (rule R196): the final spill of the oldest pass ends; its flags are set and its verdict is to come. -/
def execMmPassComplete (tile : Nat) (s : State) : Host.Outcome State Fault Refusal :=
  match (getTile s tile).passes with
  | [] => ok s
  | p :: ps =>
    let s1 := updTile s tile (fun y => { y with core := spillAll y.core p, passes := ps })
    let s2 := raiseFlags s1 tile p.issuer { sat := p.sat, range := p.range, poison := p.poison }
    ok (addVerdict s2 tile { checker := .me, issuer := p.issuer, lhs := p.lhs, rhs := p.rhs, mismatch := p.spillMismatch, place := p.place })

end Sys2Proof.Machine
end

