-- ==== Sys2Proof/Machine/RealFn.lean ====
section
/-!
DEFINITION. Quotients, roots and the functions of 07_vector_engine.md: the H16 function tables (rules R147, R149), exact at
every rounding, and `exp_b32` and `log_b32` (rule R148). A real value is handed to the conversion of rule R72 as a dyadic
value that no decision of that rule can tell from it: its magnitude cut to 256 fraction bits or to 300 significant bits, with one more bit set
where something was cut (every quantum is at least two to the -167, and D keeps 32 bits of what is discarded). Cut to significant bits, a value
keeps the magnitude that an extent record takes (rule R92).
-/
namespace Sys2Proof

/-- A magnitude of `k` units of two to the -256, with the bit that tells it is not exact. -/
def sticky (neg : Bool) (k : Nat) (exact : Bool) : Dyadic :=
  let m : Nat := 2 * k + bnat (!exact)
  ⟨if neg then -(m : Int) else m, -257⟩

/-- The quotient of two values, `b` not zero: at least 300 significant bits. -/
def realDiv (a b : Dyadic) : Dyadic :=
  let x := a.man.natAbs
  let y := b.man.natAbs
  let sh := 301 + Nat.log2 y
  let q := x * 2 ^ sh / y
  let m : Nat := 2 * q + bnat (x * 2 ^ sh % y != 0)
  ⟨if decide (a.man < 0) != decide (b.man < 0) then -(m : Int) else m, a.exp - b.exp - sh - 1⟩

/-- Bits of the integer square root, from the highest down. -/
def isqrtBits (n : Nat) : Nat → Nat → Nat
  | 0, r => r
  | i + 1, r =>
    let c := r + 2 ^ i
    isqrtBits n i (if c * c ≤ n then c else r)

/-- Integer square root. -/
def isqrt (n : Nat) : Nat := isqrtBits n (Nat.log2 n / 2 + 1) 0

/-- The square root of a value that is not negative. -/
def realSqrt (a : Dyadic) : Dyadic :=
  let sh := a.exp + 512
  let m := a.man.natAbs
  let v := if 0 ≤ sh then m * 2 ^ sh.toNat else m / 2 ^ (-sh).toNat
  let whole := decide (0 ≤ sh) || m % 2 ^ (-sh).toNat == 0
  let k := isqrt v
  sticky false k (whole && k * k == v)

/-- One over the square root of a positive value. -/
def realRsqrt (a : Dyadic) : Dyadic :=
  let m := a.man.natAbs
  let sh := 512 - a.exp
  let n := if 0 ≤ sh then 2 ^ sh.toNat else 1
  let d := if 0 ≤ sh then m else m * 2 ^ (-sh).toNat
  let k := isqrt (n / d)
  sticky false k (k * k * d == n)

/-- The fixed-point integer of a value with `p` fraction bits, rounded toward minus infinity. -/
def fixOf (p : Nat) (a : Dyadic) : Int :=
  let sh := a.exp + p
  if 0 ≤ sh then a.man * ((2 ^ sh.toNat : Nat) : Int) else a.man / ((2 ^ (-sh).toNat : Nat) : Int)

/-- Sum of u + u^3/3 + u^5/5 + ... in fixed point with `p` bits: `fuel` further terms. -/
def atanhTerms (p : Nat) (u2 : Int) : Nat → Nat → Int → Int
  | 0, _, _ => 0
  | fuel + 1, j, pw => pw / (j : Int) + atanhTerms p u2 fuel (j + 2) (pw * u2 / ((2 ^ p : Nat) : Int))

/-- Inverse hyperbolic tangent of a fixed-point value of magnitude at most one third. -/
def atanhFix (p : Nat) (u : Int) : Int := atanhTerms p (u * u / ((2 ^ p : Nat) : Int)) (p / 3 + 8) 1 u

/-- The natural logarithm of two. -/
def ln2Fix (p : Nat) : Int := 2 * atanhFix p (((2 ^ p : Nat) : Int) / 3)

/-- Sum of 1 + r + r^2/2! + ... in fixed point. -/
def expTerms (p : Nat) (r : Int) : Nat → Nat → Int → Int
  | 0, _, t => t
  | fuel + 1, j, t => t + expTerms p r fuel (j + 1) (t * r / ((2 ^ p : Nat) : Int) / ((j + 1 : Nat) : Int))

/-- e to a value of magnitude below 512, in fixed point: the value and the power of two that multiplies it. -/
def expFix (p : Nat) (x : Int) : Int × Int :=
  let l := ln2Fix p
  let n := (2 * x + l) / (2 * l)
  (expTerms p (x - n * l) (p / 4 + 16) 0 ((2 ^ p : Nat) : Int), n)

/-- A fixed-point value times a power of two. -/
def shiftFix (v n : Int) : Int :=
  if 0 ≤ n then v * ((2 ^ n.toNat : Nat) : Int) else v / ((2 ^ (-n).toNat : Nat) : Int)

/-- e to a value, in fixed point. -/
def expAt (p : Nat) (x : Int) : Int := let e := expFix p x; shiftFix e.1 e.2

/-- The natural logarithm of a positive value, in fixed point. -/
def logAt (p : Nat) (a : Dyadic) : Int :=
  let m := a.man.natAbs
  let k := Nat.log2 m
  let one : Int := ((2 ^ p : Nat) : Int)
  let f : Int := ((m * 2 ^ p / 2 ^ k : Nat) : Int)
  2 * atanhFix p ((f - one) * one / (f + one)) + ((k : Int) + a.exp) * ln2Fix p

/-- The natural logarithm of a positive fixed-point value. -/
def logFix (p : Nat) (v : Int) : Int := logAt p ⟨v, -(p : Int)⟩

/-- Arc tangent of one over an integer, by its alternating series. -/
def atanInv (one : Int) (q : Int) : Nat → Nat → Int → Int
  | 0, _, _ => 0
  | fuel + 1, j, t => t / (j : Int) - atanInv one q fuel (j + 2) (t / (q * q))

/-- The circle constant, by Machin's formula. -/
def piFix (p : Nat) : Int :=
  let one : Int := ((2 ^ p : Nat) : Int)
  4 * (4 * atanInv one 5 (p / 4 + 8) 1 (one / 5) - atanInv one 239 (p / 15 + 8) 1 (one / 239))

/-- Density of the standard normal distribution. -/
def phiFix (p : Nat) (x : Int) : Int :=
  let one : Int := ((2 ^ p : Nat) : Int)
  let root : Int := (isqrt ((2 * piFix p * one).toNat) : Nat)
  expAt p (-(x * x / one) / 2) * one / root

/-- Terms x + x^3/3 + x^5/15 + ... of the distribution function. -/
def cdfTerms (p : Nat) (x2 : Int) : Nat → Nat → Int → Int
  | 0, _, _ => 0
  | fuel + 1, j, t => t + cdfTerms p x2 fuel (j + 2) (t * x2 / ((2 ^ p : Nat) : Int) / ((j + 2 : Nat) : Int))

/-- Standard normal distribution function, |x| below 20. -/
def cdfFix (p : Nat) (x : Int) : Int :=
  let one : Int := ((2 ^ p : Nat) : Int)
  one / 2 + phiFix p x * cdfTerms p (x * x / one) (p + 1200) 1 x / one

/-- The functions of rule R147 other than the algebraic ones. -/
inductive RealFn where
  | exp | log | tanh | sigmoid | softplus | geluD | siluD
deriving DecidableEq, Repr

/-- The function in fixed point, within the range that `realFn` hands it. -/
def RealFn.fix (f : RealFn) (p : Nat) (a : Dyadic) : Int :=
  let one : Int := ((2 ^ p : Nat) : Int)
  let x := fixOf p a
  match f with
  | .exp => expAt p x
  | .log => logAt p a
  | .tanh =>
    let e := expAt p (2 * x)
    (e - one) * one / (e + one)
  | .sigmoid => one * one / (one + expAt p (-x))
  | .softplus => if 0 ≤ x then x + logFix p (one + expAt p (-x)) else logFix p (one + expAt p x)
  | .geluD => cdfFix p x + x * phiFix p x / one
  | .siluD =>
    let g := one * one / (one + expAt p (-x))
    g * (one + x * (one - g) / one) / one

/-- A value cut to 300 significant bits where its approximation decides them; else with twice the precision. The approximation of precision `p` is
an integer and the power of two that multiplies it, good to all but the integer's last 384 bits. -/
def settle (f : Nat → Int × Int) : Nat → Nat → Dyadic
  | 0, p => ⟨(f p).1, (f p).2⟩
  | fuel + 1, p =>
    let v := (f p).1
    let k := Nat.log2 v.natAbs
    let e : Int := ((2 ^ 384 : Nat) : Int)
    let u : Int := ((2 ^ (k - 300) : Nat) : Int)
    let lo := (v - e) / u
    if 700 ≤ k ∧ lo = (v + e) / u then ⟨2 * lo + 1, (f p).2 + ((k - 301 : Nat) : Int)⟩ else settle f fuel (2 * p)

/-- e to a value far below zero, or its like, as an integer and a power of two: what it is multiplied by is given in fixed point, from the value
in fixed point and the power itself in fixed point. -/
def expTimes (p : Nat) (x : Int) (f : Int → Int) : Int × Int :=
  let e := expFix p x
  (e.1 * f (shiftFix e.1 e.2) / ((2 ^ p : Nat) : Int), e.2 - p)

/-- Mills' ratio of the normal distribution at `y`, by its continued fraction: y + 1/(y + 2/(y + ...)), `fuel` terms. -/
def millsDen (one y : Int) : Nat → Nat → Int
  | 0, _ => y
  | fuel + 1, j => y + (j : Int) * one * one / millsDen one y fuel (j + 1)

/-- A function whose value tends to zero, where its argument lies far below zero, by the power of e that it follows; EXP far above zero too. -/
def RealFn.far (f : RealFn) (p : Nat) (a : Dyadic) : Int × Int :=
  let one : Int := ((2 ^ p : Nat) : Int)
  let x := fixOf p a
  match f with
  | .sigmoid => expTimes p x (fun t => one * one / (one + t))
  | .softplus => expTimes p x (fun t => one - t / 2 + t * t / one / 3 - t * t / one * t / one / 4)
  | .siluD => expTimes p x (fun t =>
      let r := one * one / (one + t)
      r * (one + x * r / one) / one)
  | .geluD => expTimes p (-(x * x / one) / 2) (fun _ =>
      let root : Int := (isqrt ((2 * piFix p * one).toNat) : Nat)
      (one * one / millsDen one (-x) (p / 2) 1 + x) * one / root)
  | _ => expTimes p x (fun _ => one)

/-- f(x) of rule R147 for x ≠ 0, for LOG x > 0 and x ≠ 1. Where |x| is so large that the value lies closer to a limit other than zero than any
decision can tell, a value on the same side of the limit; where its magnitude leaves the range of an extent word (rule R93), one beyond it. -/
def realFn (f : RealFn) (a : Dyadic) : Dyadic :=
  let bound : Int := match f with
    | .geluD => 20
    | _ => 200
  let last : Int := match f with
    | .geluD => 110
    | _ => 5800
  let big := (Dyadic.ofInt bound).lt a.abs
  let pos := decide (0 < a.man)
  let gone := (Dyadic.ofInt last).lt a.abs
  let far := settle (fun p => f.far p a) 4 2048
  if f = .log ∨ !big then settle (fun p => (f.fix p a, -(p : Int))) 4 1024
  else
    match f, pos with
    | .exp, true => if gone then ⟨1, 9000⟩ else far
    | .tanh, true => ⟨((2 ^ 400 - 1 : Nat) : Int), -400⟩
    | .tanh, false => ⟨-((2 ^ 400 - 1 : Nat) : Int), -400⟩
    | .sigmoid, true => ⟨((2 ^ 400 - 1 : Nat) : Int), -400⟩
    | .softplus, true => a.add ⟨1, -400⟩
    | .geluD, true => ⟨((2 ^ 400 + 1 : Nat) : Int), -400⟩
    | .siluD, true => ⟨((2 ^ 400 + 1 : Nat) : Int), -400⟩
    | .geluD, false => if gone then ⟨-1, -9000⟩ else far
    | .siluD, false => if gone then ⟨-1, -9000⟩ else far
    | .log, _ => a
    | _, false => if gone then ⟨1, -9000⟩ else far

/-- The exact product g × (1 − e^−y) of D_SOFTPLUS, y ≠ 0 and g ≠ 0 (rule R149). -/
def dSoftplus (y g : Dyadic) : Dyadic :=
  if (Dyadic.ofInt 300).lt y.abs then
    if 0 < y.man then g.mul ⟨((2 ^ 400 - 1 : Nat) : Int), -400⟩
    else if (Dyadic.ofInt 5800).lt y.abs then g.mul ⟨-1, 9000⟩
    else
      settle (fun p =>
        let e := expFix p (fixOf p y.neg)
        (g.man * (shiftFix ((2 ^ p : Nat) : Int) (-e.2) - e.1), g.exp + e.2 - p)) 4 2048
  else
    settle (fun p => (g.man * (((2 ^ p : Nat) : Int) - expAt p (fixOf p y.neg)), g.exp - p)) 4 1536

def factorial : Nat → Nat
  | 0 => 1
  | n + 1 => (n + 1) * factorial n

def floorShift (m : Int) (n : Nat) : Int := m / ((2 ^ n : Nat) : Int)

def expHorner (rr : Int) : Nat → Int → Int
  | 0, acc => acc
  | k + 1, acc => expHorner rr k (((2 ^ 62 / factorial k : Nat) : Int) + floorShift (acc * rr) 62)

/-- `exp_b32` of rule R148 before its conversion, with whether it saturates outright. -/
def expB32 (x : Dyadic) : Dyadic × Bool :=
  if (Dyadic.ofInt 128).lt x then (⟨((2 ^ 24 - 1 : Nat) : Int), 104⟩, true)
  else if x.lt (Dyadic.ofInt (-150)) then (Dyadic.zero, false)
  else
    let e := min x.exp (-64)
    let m := x.manAt e
    let w := (-e).toNat
    let n := floorShift (0x171547652B82FE17 * (2 * m) + ((2 ^ (w + 60) : Nat) : Int)) (w + 61)
    let rr := floorShift ((m - 0xB17217F7D1CF79AB * n * ((2 ^ (w - 64) : Nat) : Int)) * ((2 ^ 62 : Nat) : Int)) w
    (⟨expHorner rr 8 ((2 ^ 62 / factorial 8 : Nat) : Int), n - 62⟩, false)

def logHorner (w : Int) : Nat → Int → Int
  | 0, acc => acc
  | j + 1, acc => logHorner w j (((2 ^ 62 / (2 * j + 1) : Nat) : Int) + floorShift (acc * w) 62)

/-- `log_b32` of rule R148 for x > 0, before its conversion. -/
def logB32 (x : Dyadic) : Dyadic :=
  let m0 := x.man.natAbs
  let k0 := Nat.log2 m0
  let past := decide (2 * (2 ^ k0 * 2 ^ k0) < m0 * m0)
  let k := if past then k0 + 1 else k0
  let e := (k : Int) + x.exp
  let one : Int := ((2 ^ k : Nat) : Int)
  let u := ((m0 : Int) - one) * ((2 ^ 62 : Nat) : Int) / ((m0 : Int) + one)
  let w := floorShift (u * u) 62
  let acc := logHorner w 7 ((2 ^ 62 / 15 : Nat) : Int)
  ⟨e * ((0xB17217F7D1CF79AB / 4 : Nat) : Int) + 2 * floorShift (acc * u) 62, -62⟩

end Sys2Proof
end

