-- ==== Sys2Proof/Machine/Vector.lean ====
section
/-!
DEFINITION. The vector engine: operands, destinations and `vop` (rules R132 to R150, R156 to R158 of 07_vector_engine.md,
R197 to R202 of 09_compute_instructions.md).
-/
namespace Sys2Proof.Machine

/-- Type that a DTYPE names (rule R197). -/
def vtypeOf (dtype : Nat) : VType := if dtype = 0 then .h16 else if dtype = 1 then .b32 else .i32

/-- What one lane of an operand gives: its exact value, or for I32 the integer, whether reading it sets SAT (rule R60) or POISON
(rules R68, R69), and, for a bank entry, whether its rounding saturated (rule R73) and its value before it. -/
structure LaneVal where
  v : Value
  sat : Bool := false
  bad : Bool := false
  clip : Bool := false
  exact : Option Value := none

/-- An operand of the vector engine: its type, its tag where it has one, and its lanes (rules R133, R135). -/
structure Source where
  type : VType
  tag : Option Int
  lane : Nat → LaneVal

/-- Value of a lane word of a register (rule R133). -/
def laneValue (r : VReg) (l : Nat) : Value :=
  let w := SMap.get 0 r.lanes l
  match r.type with
  | .h16 => (h16Value w).scale r.tag
  | .b32 => b32Value w
  | .i32 => .num ⟨(w : Int), 0⟩ false

def regSource (t : Tile) (i : Nat) : Source :=
  let r := SMap.get {} t.vregs i
  ⟨r.type, if r.type = .h16 then some r.tag else none, fun l => { v := laneValue r l }⟩

/-- Whether bit `l` of a mask register is set; m0 reads as all ones (rule R132). -/
def maskBit (t : Tile) (m l : Nat) : Bool := m == 0 || bit (SMap.get 0 t.masks m) l

/-- The active lanes (rule R140). -/
def activeLanes (t : Tile) (m c : Nat) : List Nat := (List.range (min c 256)).filter (maskBit t m)

/-- Effective base of a lane's element and whether it lies in the store (rules R110, R136). -/
def laneAddr (f : Fmt) (base stride : Int) (l : Nat) : Int × Nat := linearAt f base (stride * l)

/-- The coordinates of a lane under a coordinate record (rule R146). -/
structure Coords where
  crec : CoordRec
  loops : List LoopFrame

def Coords.index (c : Coords) (l : Nat) : Nat := coordIndex c.crec c.loops l

/-- What an instruction of the vector engine works with. -/
structure VCtx where
  ctx : Ctx
  prog : StreamProg
  loops : List LoopFrame
  tile : Tile
  vr : VecRec
  hasRec : Bool
  pw : List Nat
  coords : Option Coords
  sr : Bool
  act : List Nat

/-- Rounding of a lane (rules R107, R146). -/
def laneMode (v : VCtx) (l : Nat) : Rounding :=
  if v.sr then
    match v.coords with
    | some c => .sr (srWord v.ctx c.crec.tensor (c.index l))
    | none => .rne
  else .rne

/-- Whether the fields of a vector record are in range (rule R199). -/
def vecRecOk (r : VecRec) : Bool :=
  decide (r.xsKind ≤ 3) && decide (r.xsGen ≤ 1) && decide (r.xdKind ≤ 1) && decide (r.dscale ≤ 2) && decide (r.unit ≤ 15)

/-- The record an instruction names, and its coordinates (rules R189, R198, R199). -/
def vecSetup (prog : StreamProg) (loops : List LoopFrame) (vrec : Nat) : Check (VecRec × Bool × Option Coords) := do
  if vrec = 0x3FF then .ok ({}, false, none)
  else
    let r ← needRec prog.vecs vrec
    require (vecRecOk r) .descRange
    if r.cdesc = 0x3FF then .ok (r, true, none)
    else
      let c ← needRec prog.coords r.cdesc
      .ok (r, true, some ⟨c, loops⟩)

/-- The bank a record's source names, where it names one, whether or not the instruction reads it (rules R138, R201, R204); `uses` tells
that it does. -/
def recBank (prog : StreamProg) (loops : List LoopFrame) (r : VecRec) (uses : Bool) : Check (Option (Nat × Nat)) := do
  if r.xsKind == 2 then
    let d ← needDesc prog.descs (r.xsSel % 1024) 2
    let b := descEff d loops
    require (decide (0 ≤ b) && decide (b < 65536)) .descRange
    require (!uses || b % 256 == 0) .illegal
    .ok (some (b.toNat / 16384, b.toNat % 16384))
  else .ok none

/-- A tile-store region of an instruction: descriptor, effective base and tensor, or the untyped region (rules R136, R139). -/
structure Region where
  base : Int
  id : Nat
  tensor : Option Tensor

def regionOf (c : Ctx) (prog : StreamProg) (loops : List LoopFrame) (sel : Nat) : Check Region := do
  let d ← needDesc prog.descs (sel % 1024) 0
  if d.tensor = 0xFFFFFF then .ok ⟨descEff d loops, d.tensor, none⟩
  else
    let x ← needTensor c d.tensor
    .ok ⟨descEff d loops, d.tensor, some x⟩

/-- Alignment of a base to the element size (rule R136). -/
def alignedTo (f : Fmt) (base : Int) : Bool := base % ((elemBytes f : Nat) : Int) == 0

/-- A tile-store operand (rules R136, R137): Q4, Q8 and H16 load as H16 with the tensor's exponent as tag, binary32 as B32, and
the words of an untyped region as I32 (rule R139). -/
def storeSource (s : State) (v : VCtx) : Check (Option Source) := do
  let r ← regionOf v.ctx v.prog v.loops v.vr.xsSel
  match r.tensor with
  | none =>
    require (alignedTo .b32 r.base) .illegal
    require (v.act.all (fun l => inStore .b32 (laneAddr .b32 r.base v.vr.xsStride l).1)) .tsRange
    .ok (some ⟨.i32, none, fun l =>
      { v := .num ⟨(codeAt v.tile.core.store .b32 (laneAddr .b32 r.base v.vr.xsStride l).1.toNat 0 : Int), 0⟩ false }⟩)
  | some x =>
    require (!x.perChannel) .descRange
    require (alignedTo x.fmt r.base) .illegal
    require (v.act.all (fun l => inStore x.fmt (laneAddr x.fmt r.base v.vr.xsStride l).1)) .tsRange
    match scaleOf s v.ctx r.id x v.vr.xsGen with
    | none => .ok none
    | some g =>
      let h16 := decide (x.fmt ≠ .b32)
      .ok (some ⟨if h16 then .h16 else .b32, if h16 then some g.s else none, fun l =>
        let a := laneAddr x.fmt r.base v.vr.xsStride l
        let e := elemValue v.tile.core.store v.pw x g.z a.1.toNat a.2
        { v := if h16 then e.1.scale g.s else e.1, sat := e.2, bad := !h16 && e.1.isPoison }⟩)

/-- An accumulator-bank operand, rounded on read to the destination type at scale `d` (rules R86, R138). A CMP has no destination
scale, and R138 names none for it: its bank operand is rounded to H16 at scale 0 (DESIGN CHOICE, assumption 56). -/
def bankSource (v : VCtx) (bank first dtype : Nat) (d : Int) : Source :=
  let b := getBank v.tile.core bank
  let f : Fmt := if dtype = 0 then .h16 else .b32
  ⟨vtypeOf dtype, none, fun l =>
    let e := entryValue b (first + l)
    let c := readout .a192 e.1 e.2 f (laneMode v l) (if dtype = 0 then d else 0) 0
    { v := if dtype = 0 then (h16Value c.code).scale d else b32Value c.code, sat := c.sat, bad := c.poison, clip := c.sat
      exact := some (accValue .a192 e.1 e.2) }⟩

/-- The lane-broadcast operand (rule R135). -/
def laneSource (v : VCtx) : Source :=
  let s := regSource v.tile (v.vr.xsSel % 32)
  let l0 := bits v.vr.xsSel 5 8
  { s with lane := fun _ => s.lane l0 }

/-- The operand a source specifier names (rule R198); none where a scale is not yet decided. -/
def sourceOf (s : State) (v : VCtx) (spec dtype : Nat) (d : Int) (bank : Option (Nat × Nat)) : Check (Option Source) :=
  if spec < 32 then .ok (some (regSource v.tile spec))
  else
    match v.vr.xsKind, bank with
    | 1, _ => storeSource s v
    | 2, some b => if dtype ≤ 1 then .ok (some (bankSource v b.1 b.2 dtype d)) else .error .illegal
    | 3, _ => .ok (some (laneSource v))
    | _, _ => .error .descRange

/-- Tag of a first operand before it is read, for DSCALE SOURCE (rule R144): none where it has none. -/
def sourceTag (s : State) (v : VCtx) (spec : Nat) : Check (Option Int) :=
  if spec < 32 then .ok (regSource v.tile spec).tag
  else if spec ≠ 32 then .ok none
  else if v.vr.xsKind = 1 then do
    let r ← storeSource s v
    .ok (r.bind (fun x => x.tag))
  else if v.vr.xsKind = 3 then .ok (laneSource v).tag
  else .ok none

/-- Where results go (rule R198): a register, a tile-store region with the scale of its writes, or nowhere. -/
inductive Dest where
  | reg (i : Nat)
  | store (r : Region) (g : GenScale)
  | none

/-- The destination a specifier names; the inner none where a write scale is not yet decided (rules R98, R139). -/
def destOf (s : State) (v : VCtx) (spec : Nat) : Check (Option Dest) :=
  if spec < 32 then .ok (some (.reg spec))
  else if spec = 63 then .ok (some .none)
  else if v.vr.xdKind = 1 then do
    let r ← regionOf v.ctx v.prog v.loops v.vr.xdSel
    match r.tensor with
    | none => .ok (some (.store r {}))
    | some x =>
      require (x.fmt == .h16 || x.fmt == .b32) .descRange
      require (!(x.perChannel && v.coords.isNone)) .descRange
      match scaleCurrent s v.ctx r.id x with
      | none => .ok none
      | some g => .ok (some (.store r g))
  else .error .descRange

/-- The destination scale of an H16 result (rules R139, R141, R144); the inner none where it is not yet decided. -/
def destScale (s : State) (v : VCtx) (dst : Dest) (keep : Bool) (dtype first : Nat) : Check (Option Int) :=
  match dst with
  | .store _ g => .ok (some g.s)
  | .none => .ok (some 0)
  | .reg i =>
    if dtype ≠ 0 then .ok (some 0)
    else if keep then .ok (some (SMap.get {} v.tile.vregs i).tag)
    else if v.vr.dscale = 0 ∧ v.hasRec then .ok (some v.vr.imm)
    else if v.vr.dscale = 1 ∧ v.hasRec then
      match ctxTensor v.ctx v.vr.scaleTensor with
      | none => .error .descRange
      | some x => .ok ((scaleCurrent s v.ctx v.vr.scaleTensor x).map (fun g => g.s))
    else do
      let t ← sourceTag s v first
      match t with
      | some d => .ok (some d)
      | none => .error .illegal

/-- The lanes an instruction writes in a tile-store destination: the active ones, and in ZERO mode every other (rules R136, R141). -/
def storeLanes (v : VCtx) (keep : Bool) : List Nat := if keep then v.act else List.range 256

/-- The checks of a destination (rules R110, R136, R139, R141, R202). -/
def destChecks (v : VCtx) (dst : Dest) (keep : Bool) (dtype : Nat) : Check Unit :=
  match dst with
  | .none => .ok ()
  | .reg i =>
    require (!keep || (SMap.get {} v.tile.vregs i).type == vtypeOf dtype) .illegal
  | .store r _ =>
    match r.tensor with
    | none => do
      require (dtype == 2) .descRange
      require (alignedTo .b32 r.base) .illegal
      require ((storeLanes v keep).all (fun l => inStore .b32 (laneAddr .b32 r.base v.vr.xdStride l).1)) .tsRange
    | some x => do
      require (dtype != 2) .descRange
      require (alignedTo x.fmt r.base) .illegal
      require (v.sr || x.role != 2) .illegal
      require (match v.coords with
        | some c => !v.sr || c.crec.tensor == r.id
        | none => true) .descRange
      require ((storeLanes v keep).all (fun l => inStore x.fmt (laneAddr x.fmt r.base v.vr.xdStride l).1)) .tsRange

/-- One lane's result: an exact value, whether it saturates outright, and, where the operand was a bank entry, the value that the
entry had and whether its rounding saturated; or a code written as it stands. -/
inductive LaneRes where
  | value (v : Value) (sat : Bool) (src : Option Value := none) (clip : Bool := false)
  | code (h16 b32 : Nat)
  | word (w : Nat)

/-- A lane's code in a register (rules R72, R142): code, SAT, POISON. -/
def regCode (dtype : Nat) (d : Int) (m : Rounding) (r : LaneRes) : Nat × Flags :=
  match r with
  | .word w => (w % 2 ^ 32, {})
  | .code h b => (if dtype = 0 then h else b, {})
  | .value x sat _ _ =>
    if dtype = 2 then (x.dy.man.toNat % 2 ^ 32, {})
    else
      let c := convert x (if dtype = 0 then .h16 else .b32) m (if dtype = 0 then d else 0) 0
      (c.code, { sat := c.sat || sat, poison := c.poison })

/-- A state, and the flags an instruction sets. -/
structure Written where
  s : State
  f : Flags

/-- Write a register: active lanes take the results, the others zero or their contents (rule R141). -/
def writeReg (s : State) (t : Nat) (v : VCtx) (i dtype : Nat) (d : Int) (keep : Bool) (res : Nat → LaneRes) : Written :=
  let old := SMap.get {} v.tile.vregs i
  let cells := v.act.map (fun l => (l, regCode dtype d (laneMode v l) (res l)))
  let base : SMap Nat := if keep then old.lanes else []
  let lanes := cells.foldl (fun m c => if c.2.1 = 0 then SMap.erase m c.1 else SMap.set m c.1 c.2.1) base
  let r : VReg := { type := vtypeOf dtype, tag := if dtype = 0 then d else 0, lanes := lanes }
  ⟨updTile s t (fun x => { x with vregs := SMap.set x.vregs i r }), joinFlags (cells.map (fun c => c.2.2))⟩

/-- Store one lane into a tensor's region: memory, extent, flags (rules R92, R139, R143). An element that saturated when its bank
entry was rounded is entered at its value before, and counts once. -/
def storeLane (v : VCtx) (r : Region) (x : Tensor) (g : GenScale) (res : LaneRes) (acc : Memory × Extent × Flags) (l : Nat) :
    Memory × Extent × Flags :=
  let a := laneAddr x.fmt r.base v.vr.xdStride l
  let chan := v.coords.bind (fun c => channelOf x (c.index l))
  match res with
  | .value y sat src clip =>
    let c := convert y x.fmt (laneMode v l) (GenScaleAt g chan) 0
    let full := c.sat || sat || clip
    (setCode acc.1 x.fmt a.1.toNat 0 c.code,
     { enterExtent acc.2.1 (src.getD y) chan with sat := if full then acc.2.1.sat + 1 else acc.2.1.sat },
     orFlags acc.2.2 { sat := full, poison := c.poison })
  | .code h b => (setCode acc.1 x.fmt a.1.toNat 0 (if x.fmt = .h16 then h else b), acc.2.1, acc.2.2)
  | .word w => (setCode acc.1 x.fmt a.1.toNat 0 w, acc.2.1, acc.2.2)

/-- Order in which lanes that write one element (stride 0) land: open, a free value of their number; other strides write each element once. -/
def laneOrder (stride : Int) (ls : List Nat) : List Nat :=
  if stride = 0 ∧ 1 < ls.length then
    let k := Config.freeNat 1 ls.length % ls.length
    ls.drop k ++ ls.take k
  else ls

/-- Write a tile-store destination (rules R136, R139, R141): inactive lanes in ZERO mode are conversions of the value zero. -/
def writeStore (s : State) (t : Nat) (v : VCtx) (r : Region) (g : GenScale) (keep : Bool) (res : Nat → LaneRes) : Written :=
  let lanes := laneOrder v.vr.xdStride (storeLanes v keep)
  let one := fun l => if v.act.contains l then res l else LaneRes.value (.num ⟨0, 0⟩ false) false
  let s0 : State := s
  match r.tensor with
  | none =>
    let m := lanes.foldl (fun m l =>
      Memory.writeN m (laneAddr .b32 r.base v.vr.xdStride l).1.toNat (natLE (regCode 2 0 .rne (one l)).1 4)) v.tile.core.store
    ⟨updTile s0 t (fun y => { y with core := { y.core with store := m } }), {}⟩
  | some x =>
    let o := lanes.foldl (fun acc l => storeLane v r x g (one l) acc l) (v.tile.core.store, {}, {})
    let s1 := updTile s0 t (fun y => { y with core := { y.core with store := o.1 } })
    ⟨recordExtent s1 v.ctx r.id x o.2.1 x.managed (decide (0 < lanes.length)), o.2.2⟩

/-- Write the destination of an instruction. -/
def writeDest (s : State) (t : Nat) (v : VCtx) (dst : Dest) (dtype : Nat) (d : Int) (keep : Bool) (res : Nat → LaneRes) : Written :=
  match dst with
  | .reg i => writeReg s t v i dtype d keep res
  | .store r g => writeStore s t v r g keep res
  | .none => ⟨s, {}⟩

/-- Write a mask register: m0 ignores writes (rules R132, R141). -/
def writeMask (s : State) (t : Nat) (v : VCtx) (i : Nat) (keep : Bool) (res : Nat → Bool) : State :=
  if i = 0 then s
  else
    let old := SMap.get 0 v.tile.masks i
    let w := (List.range 256).foldl (fun acc l =>
      let b := if v.act.contains l then res l else keep && bit old l
      acc + (if b then 2 ^ l else 0)) 0
    updTile s t (fun x => { x with masks := SMap.set x.masks i w })

/-- Whether a number is negative, the sign of a zero included. -/
def negV (v : Value) : Bool :=
  match v with
  | .poison => false
  | .num d nz => decide (d.man < 0) || (decide (d.man = 0) && nz)

/-- A value with its sign as IEEE 754 gives an exact result: `nz` is the sign of a zero. -/
def withZero (d : Dyadic) (nz : Bool) : Value := .num d (decide (d.man = 0) && nz)

def vneg (a : Value) : Value :=
  match a with
  | .poison => .poison
  | .num d nz => .num d.neg (decide (d.man = 0) && !nz)

/-- Sum of two values: an exact zero sum is +0 unless both addends are −0 (rule R142). -/
def vadd (a b : Value) : Value :=
  match a, b with
  | .num x xz, .num y yz => withZero (x.add y) (decide (x.man = 0) && xz && decide (y.man = 0) && yz)
  | _, _ => .poison

def vmul (a b : Value) : Value :=
  match a, b with
  | .num x _, .num y _ => withZero (x.mul y) (negV a != negV b)
  | _, _ => .poison

/-- The larger or the smaller of two values; of two zeros MAX takes +0 and MIN −0 (rule R142). -/
def vmax (a b : Value) (least : Bool) : Value :=
  match a, b with
  | .num x _, .num y _ =>
    if x.man = 0 ∧ y.man = 0 then .num x (if least then negV a || negV b else negV a && negV b)
    else if least then (if x.le y then a else b)
    else (if y.le x then a else b)
  | _, _ => .poison

/-- The largest finite binary32 magnitude with a sign. -/
def maxB32 (neg : Bool) : Value := .num ⟨if neg then -((2 ^ 24 - 1 : Nat) : Int) else ((2 ^ 24 - 1 : Nat) : Int), 104⟩ false

/-- A magnitude beyond every limit, with a sign: it converts to the limit and saturates. Rule R147 gives LOG, RECIP and RSQRT of
zero a code and SAT and no value: what such a lane enters into the extent of a MANAGED tensor is this magnitude (DESIGN CHOICE,
assumption 56). -/
def beyond (neg : Bool) : Value := .num ⟨if neg then -1 else 1, 4096⟩ false

/-- Quotient with the special cases of rule R143. -/
def vdiv (a b : Value) : LaneRes :=
  match a, b with
  | .num x _, .num y _ =>
    let neg := negV a != negV b
    if y.man = 0 then (if x.man = 0 then .value .poison false else .value (maxB32 neg) true)
    else if x.man = 0 then .value (.num x neg) false
    else .value (.num (realDiv x y) false) false
  | _, _ => .value .poison false

/-- Square root (rules R143, R147). -/
def vsqrt (a : Value) : LaneRes :=
  match a with
  | .poison => .value .poison false
  | .num d _ =>
    if d.man = 0 then .value a false
    else if d.man < 0 then .value .poison false
    else .value (.num (realSqrt d) false) false

/-- One half. -/
def half : Value := .num ⟨1, -1⟩ false

/-- A function of rule R147 on an H16 operand. -/
def hFun (op : Nat) (a : Value) : LaneRes :=
  match a with
  | .poison => .value .poison false
  | .num d nz =>
    let zero := decide (d.man = 0)
    let via := fun (f : RealFn) => LaneRes.value (.num (realFn f d) false) false
    if op = 0x07 then vsqrt a
    else if op = 0x08 then (if zero then .value (.num ⟨1, 0⟩ false) false else via .exp)
    else if op = 0x09 then
      (if zero then .value (beyond true) true
       else if d.man < 0 then .value .poison false
       else if (Dyadic.sub d ⟨1, 0⟩).man = 0 then .value (.num ⟨0, 0⟩ false) false
       else via .log)
    else if op = 0x0E then (if zero then .value (beyond nz) true else .value (.num (realDiv ⟨1, 0⟩ d) false) false)
    else if op = 0x0F then
      (if zero then .value (beyond nz) true
       else if d.man < 0 then .value .poison false else .value (.num (realRsqrt d) false) false)
    else if op = 0x10 then (if zero then .value a false else via .tanh)
    else if op = 0x11 then (if zero then .value half false else via .sigmoid)
    else if op = 0x12 then via .softplus
    else if op = 0x13 then (if zero then .value half false else via .geluD)
    else (if zero then .value half false else via .siluD)

/-- B32 EXP and LOG before their final conversion (rule R148). -/
def bFun (op : Nat) (a : Value) : LaneRes :=
  match a with
  | .poison => .value .poison false
  | .num d _ =>
    if op = 0x08 then
      let e := expB32 d
      .value (.num e.1 false) e.2
    else if d.man = 0 then .value (maxB32 true) true
    else if d.man < 0 then .value .poison false
    else .value (.num (logB32 d) false) false

/-- A derivative from the saved output (rule R149): g × d(y). -/
def deriv (op : Nat) (p : Int) (y g : Value) : LaneRes :=
  match y, g with
  | .num dy _, .num dg _ =>
    let one : Value := .num ⟨1, 0⟩ false
    let pos := decide (0 < dy.man)
    if op = 0x18 then .value (vmul g (if pos then one else .num ⟨0, 0⟩ false)) false
    else if op = 0x19 then .value (vmul g (if pos then one else .num ⟨1, p⟩ false)) false
    else if op = 0x1A then .value (vmul g (vmul y (vadd one (vneg y)))) false
    else if op = 0x1B then .value (vmul g (vadd one (vneg (vmul y y)))) false
    else if op = 0x1C then .value (vmul g y) false
    else if dy.man = 0 ∨ dg.man = 0 then .value (.num ⟨0, 0⟩ (negV g != decide (dy.man < 0))) false
    else .value (.num (dSoftplus dy dg) false) false
  | _, _ => .value .poison false

/-- Predicate of a comparison of exact values (rule R156). -/
def comparePred (p : Nat) (a b : Dyadic) : Bool :=
  let eq := decide ((a.sub b).man = 0)
  match p with
  | 0 => eq
  | 1 => !eq
  | 2 => a.lt b
  | 3 => a.le b
  | 4 => b.lt a
  | _ => b.le a

/-- Exact value of a reduction unit's sum (rules R75, R151). -/
def unitValue (u : RedUnit) : Value :=
  if u.kind = 1 ∧ u.type = .b32 then accValue .square u.sum 0
  else if u.type = .b32 then accValue .a320 u.sum 0
  else accValue .a192 u.sum u.base

/-- Exact result of an elementwise operation in one lane (rules R142, R143, R147 to R149, R155, R158). -/
def vopLane (op dtype : Nat) (v : VCtx) (a b c : Value) : LaneRes :=
  match op with
  | 0x01 => if dtype = 2 then .word a.dy.man.toNat else .value a false
  | 0x02 => .value (vadd a b) false
  | 0x03 => .value (vadd a (vneg b)) false
  | 0x04 => .value (vmul a b) false
  | 0x05 => .value (vadd (vmul a b) c) false
  | 0x06 => vdiv a b
  | 0x0A => .value (vmax a b false) false
  | 0x0B => .value (vmax a b true) false
  | 0x0C => .value (if negV a then vneg a else a) false
  | 0x0D => .value (vneg a) false
  | 0x2C =>
    let u := SMap.get {} v.tile.units v.vr.unit
    if u.count = 0 then .code 0 0 else vdiv a (unitValue u)
  | _ =>
    if op = 0x07 then vsqrt a
    else if op = 0x08 ∨ op = 0x09 then (if dtype = 0 then hFun op a else bFun op a)
    else if op ≤ 0x14 then hFun op a
    else deriv op (signedOf 8 v.vr.aux) a b

/-- Whether an I32 lane would become an element of a tensor that is not binary32, a path that does not exist (rules R70, R139). -/
def noPath (op : Nat) (dst : Dest) (ts : List VType) : Bool :=
  op == 0x01 && ts.contains .i32 &&
    (match dst with
     | .store r _ => (r.tensor.map (fun x => decide (x.fmt ≠ .b32))).getD false
     | _ => false)

/-- The operand types that an operation takes (rules R142, R200). -/
def typesOk (op dtype : Nat) (ts : List VType) : Bool :=
  if op = 0x20 then ts.all (fun t => t != .i32 && decide (ts.head? = some t))
  else if op = 0x21 then ts.all (fun t => t == .i32)
  else if op = 0x01 then
    (match dtype with
     | 0 => ts.all (fun t => t != .i32)
     | 1 => true
     | _ => ts.all (fun t => t == .i32))
  else if dtype = 0 then ts.all (fun t => t == .h16)
  else ts.all (fun t => t != .i32)

/-- Whether the record's fields suit the operation (rules R149, R156, R157, R199). -/
def auxOk (op : Nat) (v : VCtx) : Bool :=
  let p := signedOf 8 v.vr.aux
  if op = 0x19 then decide (-16 ≤ p) && decide (p ≤ -1)
  else if op = 0x20 ∨ op = 0x21 then decide (v.vr.aux ≤ 5)
  else if op = 0x29 then decide (v.vr.aux ≤ 3) && (v.vr.purpose == 2 || v.vr.purpose == 4) && v.coords.isSome
  else if op = 0x28 then v.coords.isSome
  else true

/-- The lane of IOTA and DRAW (rules R157, R158). Where p0 + ℓ passes 2^32 − 1, which R158 does not speak of, the I32 lane takes its
low 32 bits (DESIGN CHOICE, assumption 56; `regCode`). -/
def genLane (op : Nat) (v : VCtx) (l : Nat) : LaneRes :=
  match v.coords with
  | none => .word 0
  | some c =>
    if op = 0x28 then .word ((coordEff c.crec c.loops).toNat + l)
    else .word ((generator v.ctx.seed (c.index l) c.crec.tensor v.ctx.step (if v.ctx.eval then 3 else v.vr.purpose)).word v.vr.aux)

/-- The result of a lane with what the read of its operands adds: the value of a bank entry that MOV, ABS and NEG pass on, and a
rounding of an entry that saturated (rules R92, R139, R143). -/
def LaneRes.fromRead (r : LaneRes) (op : Nat) (a : LaneVal) (clip : Bool) : LaneRes :=
  match r with
  | .value v sat _ _ => .value v sat (if op = 0x01 ∨ op = 0x0C ∨ op = 0x0D then a.exact else none) clip
  | r => r

/-- The flags that reading the active lanes of the operands sets (rules R60, R68, R69, R73). -/
def readLanes (v : VCtx) (xs : List Source) : Flags :=
  { sat := v.act.any (fun l => xs.any (fun x => (x.lane l).sat)), poison := v.act.any (fun l => xs.any (fun x => (x.lane l).bad)) }

/-- The operands of a `vop`, in order (rule R201); none where a scale is not yet decided. -/
def vopSources (s : State) (v : VCtx) (o : VopOp) (d : Int) (bank : Option (Nat × Nat)) : Check (Option (List Source)) :=
  [o.sa, o.sb, o.sc].foldlM (fun acc spec =>
    if spec = 63 then .ok acc
    else do
      let x ← sourceOf s v spec o.dtype d bank
      .ok (match acc, x with
        | some l, some y => some (l ++ [y])
        | _, _ => none)) (some [])

/-- A `vop` on operands that are read, to a destination that is checked (rules R142, R155, R156). -/
def vopWrite (s : State) (t : Nat) (v : VCtx) (o : VopOp) (dst : Dest) (d : Int) (xs : List Source) : Check (Option Written) := do
  let lane := fun (i l : Nat) => match xs[i]? with
    | some x => x.lane l
    | none => ({ v := .num ⟨0, 0⟩ false } : LaneVal)
  require (!(o.op == 0x2C) || (SMap.get {} v.tile.units v.vr.unit).kind == 6) .vtype
  if o.op = 0x20 ∨ o.op = 0x21 then
    let p := fun l => (lane 0 l).v.isPoison || (lane 1 l).v.isPoison
    let f := fun l => !(p l) && comparePred v.vr.aux (lane 0 l).v.dy (lane 1 l).v.dy
    .ok (some ⟨writeMask s t v o.dst o.keep f, orFlags (readLanes v xs) { poison := v.act.any p }⟩)
  else
    let res := fun l => (vopLane o.op o.dtype v (lane 0 l).v (lane 1 l).v (lane 2 l).v).fromRead o.op (lane 0 l) (xs.any (fun x => (x.lane l).clip))
    let w := writeDest s t v dst o.dtype d o.keep res
    let empty := o.op == 0x2C && (SMap.get {} v.tile.units v.vr.unit).count == 0
    .ok (some ⟨w.s, orFlags w.f (orFlags (readLanes v xs) { empty := empty })⟩)

/-- The effect of an elementwise operation on registers, masks and the store (rule R201): operands are read, their types are checked,
then the destination scale is taken; none where a scale is not yet decided. -/
def vopEffect (s : State) (t : Nat) (v : VCtx) (o : VopOp) (bank : Option (Nat × Nat)) : Check (Option Written) := do
  require (auxOk o.op v) .descRange
  require (!(o.sr && v.coords.isNone)) .illegal
  if 0x22 ≤ o.op ∧ o.op ≤ 0x24 then
    let f := fun l =>
      let a := maskBit v.tile o.sa l
      let b := maskBit v.tile o.sb l
      if o.op = 0x22 then a && b else if o.op = 0x23 then a || b else !a
    .ok (some ⟨writeMask s t v o.dst o.keep f, {}⟩)
  else
    let first ← vopSources s v o 0 bank
    match first with
    | none => .ok none
    | some xs0 =>
      let ts := xs0.map (fun x => x.type)
      require (ts.isEmpty || typesOk o.op o.dtype ts) .vtype
      let dst ← (if vopToMask o.op then .ok (some .none) else destOf s v o.dst)
      match dst with
      | none => .ok none
      | some dst =>
        require (!(noPath o.op dst ts)) .vtype
        destChecks v dst o.keep o.dtype
        let needs := decide (o.dtype = 0) && !vopToMask o.op && decide (o.sa < 63)
        let d ← (if needs then destScale s v dst o.keep o.dtype o.sa else .ok (some 0))
        match d with
        | none => .ok none
        | some d =>
          if o.op = 0x28 ∨ o.op = 0x29 then .ok (some (writeDest s t v dst 2 0 o.keep (genLane o.op v)))
          else
            let again ← vopSources s v o d bank
            match again with
            | none => .ok none
            | some xs => vopWrite s t v o dst d xs

/-- Everything a `vop` and a `vred` share (rules R132, R201, R204): tokens, the record, the bank's outstanding passes and transfers, ECC,
then the effect, the flags and the verdict to come; `amiss` is what the READ of a unit compared (rule R159). -/
def vectorIssue (s : State) (t : Nat) (k : KStream) (w : Nat) (ecc : List EccHit) (vrec mask c : Nat) (sr checked : Bool)
    (amiss external : Bool) (effect : State → VCtx → Option (Nat × Nat) → Check (Option Written)) : State :=
  match ctxOf s t k with
  | none => s
  | some cx =>
    let x := getStream s t k
    let prog := tileProgram s t k
    if !(holds s t k tokVE) then faultStream s t k .ownership w
    else if programLost ecc then faultStream s t k .ifetchEcc w
    else
      match vecSetup prog x.loops vrec with
      | .error f => faultStream s t k f w
      | .ok (rec, has, coords) =>
        match recBank prog x.loops rec external with
        | .error f => faultStream s t k f w
        | .ok bank =>
          let bankNo := (bank.map (fun b => b.1)).getD 0
          if bank.isSome && !(holds s t k (tokBK bankNo)) then faultStream s t k .ownership w
          else if bank.isSome && external && bankBusy s t bankNo then s
          else
            let pl := placeOf s t k w
            let s1 := eccRead s t k pl ecc
            let tl := getTile s1 t
            let v : VCtx := { ctx := cx, prog := prog, loops := x.loops, tile := tl, vr := rec, hasRec := has,
                              pw := poisonedWords ecc, coords := coords, sr := sr, act := activeLanes tl mask c }
            match effect s1 v bank with
            | .error f => faultStream s t k f w
            | .ok none => stallAt s t k 5
            | .ok (some r) =>
              let s2 := raiseFlags r.s t k r.f
              let s3 := if checked then addVerdict s2 t { checker := .ve, issuer := k, mismatch := amiss, place := pl } else s2
              advance s3 t k

/-- VOP (rule R201). -/
def execVop (tile : Nat) (st : KStream) (ecc : List EccHit) (s : State) : Host.Outcome State Fault Refusal :=
  ok (issueAs s tile st (fun i w =>
    match i with
    | .vop o =>
      let ext := !(vopFromMask o.op) && (o.sa == 32 || o.sb == 32 || o.sc == 32)
      some (vectorIssue s tile st w ecc o.vrec o.mask o.c o.sr true false ext (fun s1 v b => vopEffect s1 tile v o b))
    | _ => none))

end Sys2Proof.Machine
end

