-- ==== Sys2Proof/Machine/VReduce.lean ====
section
/-!
DEFINITION. Reductions: `vred` (rules R151 to R155 of 07_vector_engine.md, R203 and R204 of 09_compute_instructions.md).
-/
namespace Sys2Proof.Machine

/-- Whether a unit of a kind and type is a binary32 square pair (rule R84). -/
def isPair (kind : Nat) (ty : VType) : Bool := kind == 1 && ty == .b32

/-- The form of a sum unit (rule R76). -/
def unitForm (kind : Nat) (ty : VType) : AccForm :=
  if isPair kind ty then .square else if ty = .b32 then .a320 else .a192

/-- A unit as START leaves it: empty, with its base exponent (rule R151). `tag` is the tag of the START operand. R144 gives a bank operand
no tag of its own; it is rounded at the destination scale, and the model takes that scale as the tag of R151, so that its addends and their
squares are exact as R78 and R84 say (DEDUCED, assumption 56). -/
def startUnit (kind : Nat) (ty : VType) (tag : Option Int) : RedUnit :=
  let t := tag.getD 0
  { kind := kind, type := ty, base := if ty = .b32 then 0 else if kind = 1 then 2 * t else if kind = 6 then 0 else t }

/-- Add to a sum unit; its shadow follows on a separate path, from the addend alone (rules R82, R159). -/
def addSum (u : RedUnit) (a : Int) (range : Bool) : RedUnit :=
  { u with sum := accAdd (unitForm u.kind u.type) u.sum a, count := u.count + 1, shadow := (u.shadow + residue a) % checkP
           range := u.range || range }

/-- A POISON element of a sum unit; the shadow takes no addend, and the unit is checked by its poison marks alone (rules R82, R159). -/
def poisonSum (u : RedUnit) : RedUnit :=
  { u with sum := (unitForm u.kind u.type).poisoned, count := u.count + 1 }

/-- Whether the check of rule R159 finds a unit amiss at a READ: the shadow of a sum that is not poisoned differs from its residue, or the
two comparator sets of an extreme hold different selections. -/
def unitMismatch (u : RedUnit) : Bool :=
  if 2 ≤ u.kind ∧ u.kind ≤ 5 then decide (u.held ≠ u.held2) || decide (u.pos ≠ u.pos2)
  else decide (u.sum ≠ (unitForm u.kind u.type).poisoned) && decide (u.shadow ≠ residue u.sum)

/-- Whether a number takes the place of the held one (rule R152). -/
def betterThan (least : Bool) (x y : Dyadic) : Bool := if least then x.lt y else y.lt x

/-- Add an element to a MAX, MIN, ARGMAX or ARGMIN unit (rule R152). -/
def addExtreme (u : RedUnit) (v : Value) (pos : Nat) : RedUnit :=
  let least := u.kind == 3 || u.kind == 5
  let arg := u.kind == 4 || u.kind == 5
  let u1 := { u with count := u.count + 1 }
  match u.held, v with
  | none, _ => { u1 with held := some v, pos := pos }
  | some .poison, .poison => { u1 with pos := min u.pos pos }
  | some .poison, _ => u1
  | some (.num _ _), .poison => { u1 with held := some .poison, pos := pos }
  | some (.num x xz), .num y yz =>
    if betterThan least y x then { u1 with held := some v, pos := pos }
    else if betterThan least x y then u1
    else
      let z := if x.man = 0 then (if least then xz || yz else xz && yz) else xz
      { u1 with held := some (.num x z), pos := if arg then min u.pos pos else u.pos }

/-- Add one element to the second comparator set, which selects on its own (rule R159). -/
def addSecond (u : RedUnit) (v : Value) (pos : Nat) : RedUnit :=
  let w := addExtreme { u with held := u.held2, pos := u.pos2 } v pos
  { u with held2 := w.held, pos2 := w.pos }

/-- Add one element (rules R79, R84, R151, R152). -/
def addElement (u : RedUnit) (v : Value) (pos : Nat) : RedUnit :=
  if 2 ≤ u.kind ∧ u.kind ≤ 5 then addExtreme (addSecond u v pos) v pos
  else
    match v with
    | .poison => poisonSum u
    | .num d _ =>
      if isPair u.kind u.type then
        let a := squareAddend d
        addSum u a.1 a.2
      else if u.type = .b32 then addSum u (d.manAt (-149)) false
      else
        let a := alignAddend (if u.kind = 1 then d.mul d else d) (-u.base)
        addSum u a.1 a.2

/-- e of EXPSUM in one lane (rule R155): rounded to H16 at scale 0, or by `exp_b32`. -/
def expLane (dtype : Nat) (m : Rounding) (x top : Value) : LaneRes × Value × Flags :=
  let diff := vadd x (vneg top)
  let res := if dtype = 0 then hFun 0x08 diff else bFun 0x08 diff
  let c := regCode dtype 0 m res
  (res, if dtype = 0 then h16Value c.1 else b32Value c.1, c.2)

/-- Position base p0 of an instruction (rule R151). -/
def positionBase (v : VCtx) : Nat :=
  match v.coords with
  | some c => (coordEff c.crec c.loops).toNat
  | none => 0

/-- Put a unit back; a square pair takes its odd neighbour too (rule R84). -/
def putUnit (s : State) (t i : Nat) (u : RedUnit) : State :=
  updTile s t (fun x =>
    let m := SMap.set x.units i u
    { x with units := if isPair u.kind u.type then SMap.set m (i + 1) u else m })

/-- START and ACC of every kind but EXPSUM (rule R204). -/
def addLanes (s : State) (t : Nat) (v : VCtx) (o : VredOp) (src : Source) (u0 : RedUnit) : Written :=
  let p0 := positionBase v
  let u := v.act.foldl (fun u l => addElement u (src.lane l).v ((p0 + l) % 2 ^ 32)) u0
  let f := orFlags (readLanes v [src]) { poison := v.act.any (fun l => (src.lane l).v.isPoison), range := u.range && !u0.range }
  ⟨putUnit s t o.unit u, f⟩

/-- START and ACC of EXPSUM (rule R155): with an empty unit a, zeros are written and nothing is added. The unit takes e_i rounded at scale
0; a register kept by KEEP keeps its tag, to which e_i is rounded (rule R141). -/
def addExps (s : State) (t : Nat) (v : VCtx) (o : VredOp) (src : Source) (u0 : RedUnit) : Written :=
  let ua := SMap.get {} v.tile.units v.vr.unit
  let write := fun (st : State) (res : Nat → LaneRes) =>
    if o.dst = 63 then (⟨st, {}⟩ : Written)
    else writeReg st t v o.dst o.dtype (if o.keep && o.dtype == 0 then (SMap.get {} v.tile.vregs o.dst).tag else 0) o.keep res
  let f0 := readLanes v [src]
  if ua.count = 0 then
    let w := write (putUnit s t o.unit u0) (fun _ => .code 0 0)
    ⟨w.s, orFlags w.f f0⟩
  else
    let top := ua.held.getD .poison
    let one := fun l => expLane o.dtype (laneMode v l) (src.lane l).v top
    let u := v.act.foldl (fun u l => addElement u (one l).2.1 0) u0
    let w := write (putUnit s t o.unit u) (fun l => .value (one l).2.1 false)
    let f := joinFlags (v.act.map (fun l => (one l).2.2))
    ⟨w.s, orFlags (orFlags w.f f) (orFlags f0 { range := u.range && !u0.range })⟩

/-- What READ gives in every lane (rules R152 to R154). -/
def readUnit (u : RedUnit) : LaneRes :=
  if u.count = 0 then
    (match u.kind with
     | 2 => .code 0xFFFF 0xFF7FFFFF
     | 3 => .code 0x7FFE 0x7F7FFFFF
     | 4 => .word 0xFFFFFFFF
     | 5 => .word 0xFFFFFFFF
     | _ => .code 0 0)
  else if u.kind = 2 ∨ u.kind = 3 then .value (u.held.getD .poison) false
  else if u.kind = 4 ∨ u.kind = 5 then .word u.pos
  else .value (unitValue u) false

/-- READ (rule R204): the unit is unchanged, so it may be read again. -/
def readOut (s : State) (t : Nat) (v : VCtx) (o : VredOp) : Check (Option Written) := do
  let u := SMap.get {} v.tile.units o.unit
  require (u.kind == o.kind) .vtype
  require (!(isPair u.kind u.type && o.unit % 2 == 1)) .illegal
  require ((o.kind == 4 || o.kind == 5) == (o.dtype == 2)) .illegal
  let dst ← destOf s v o.dst
  match dst with
  | none => .ok none
  | some dst =>
    destChecks v dst o.keep o.dtype
    let d ← destScale s v dst o.keep o.dtype 63
    match d with
    | none => .ok none
    | some d =>
      let w := writeDest s t v dst o.dtype d o.keep (fun _ => readUnit u)
      let poison := v.act.length != 0 && (match u.held with
        | some .poison => true
        | _ => false)
      .ok (some ⟨w.s, orFlags w.f { empty := u.count == 0, poison := poison }⟩)

/-- The effect of a `vred`; none where a scale is not yet decided (rule R204). An EXPSUM whose DTYPE differs from its operand's type, or
whose first unit holds no MAX, has no outcome in R155 and R204: it faults with VTYPE (DESIGN CHOICE, assumption 56). -/
def vredEffect (s : State) (t : Nat) (v : VCtx) (o : VredOp) (bank : Option (Nat × Nat)) : Check (Option Written) := do
  require (!(o.sr && v.coords.isNone)) .illegal
  if o.vmode = 2 then readOut s t v o
  else do
    let d ← (if o.src = 32 ∧ v.vr.xsKind = 2 ∧ o.dtype = 0 then destScale s v (.reg 0) false 0 63 else .ok (some 0))
    match d with
    | none => .ok none
    | some d =>
      let src ← sourceOf s v o.src o.dtype d bank
      match src with
      | none => .ok none
      | some src =>
        let u := SMap.get {} v.tile.units o.unit
        require (src.type != .i32) .vtype
        require (!((o.kind == 4 || o.kind == 5) && v.coords.isNone)) .illegal
        require (!(isPair o.kind src.type && o.unit % 2 == 1)) .illegal
        require (o.vmode == 0 || (u.kind == o.kind && u.type == src.type)) .vtype
        let u0 := if o.vmode = 0 then startUnit o.kind src.type (if src.tag.isNone && bank.isSome && o.src == 32 then some d else src.tag) else u
        if o.kind = 6 then do
          require (vtypeOf o.dtype == src.type) .vtype
          require ((SMap.get {} v.tile.units v.vr.unit).kind == 2) .vtype
          require (!(o.keep && o.dst != 63) || (SMap.get {} v.tile.vregs o.dst).type == vtypeOf o.dtype) .illegal
          .ok (some (addExps s t v o src u0))
        else .ok (some (addLanes s t v o src u0))

/-- VRED (rule R204): the checks of rule R159 apply at each READ. -/
def execVred (tile : Nat) (st : KStream) (ecc : List EccHit) (s : State) : Host.Outcome State Fault Refusal :=
  ok (issueAs s tile st (fun i w =>
    match i with
    | .vred o =>
      some (vectorIssue s tile st w ecc o.vrec o.mask o.c o.sr
        (o.vmode == 2) (o.vmode == 2 && unitMismatch (SMap.get {} (getTile s tile).units o.unit)) (o.src == 32) (fun s1 v b => vredEffect s1 tile v o b))
    | _ => none))

end Sys2Proof.Machine
end

