-- ==== Sys2Proof/Machine/LoadProofs.lean ====
section
/-!
DEFINITION. What the loader proves over every iteration of a program's loops (rule R420 of 18_images_and_the_loader.md): operands,
register types and extents (check OPERAND), draws (RANDOM), sites that round (ROUNDING), tokens (TOKEN_PROOF). The operand proof runs
the checks that a tile repeats at issue (rule R164) at every execution of every instruction.
-/
namespace Sys2Proof.Machine

/-- Every reserved field of an instruction is zero (rules R11, R164). -/
def zeroFields (w : Nat) : Bool :=
  let z := fun lo n => bits w lo n == 0
  match bits w 56 8 with
  | 0x01 => z 0 56
  | 0x10 => z 55 1
  | 0x11 => z 55 1
  | 0x12 => z 4 49
  | 0x18 => z 4 52
  | 0x19 => z 6 50
  | 0x20 => z 0 15
  | 0x31 => z 10 9
  | 0x38 => z 0 5
  | 0x3C => z 42 14 && z 0 8
  | 0x40 => z 48 7 && z 16 8
  | 0x48 => z 36 19
  | 0x50 => z 13 19
  | _ => true

/-- No reserved opcode and no reserved field value (rule R164). What the fields may not hold together is OPERAND. -/
def valuesDefined (w : Nat) : Bool :=
  let f := fun lo n => bits w lo n
  let spec := fun lo => decide (f lo 6 ≤ 32) || f lo 6 == 63
  match f 56 8 with
  | 0x11 => f 53 2 != 3
  | 0x30 => (vopArity (f 50 6)).isSome && spec 44 && spec 38 && spec 32 && spec 26 && f 19 2 != 3 && decide (f 10 9 ≤ 256)
  | 0x31 => f 54 2 != 3 && decide (f 51 3 ≤ 6) && spec 41 && spec 35 && f 28 2 != 3 && decide (f 19 9 ≤ 256)
  | 0x38 => f 54 2 != 3
  | _ => decide (decodeKernel w ≠ .illegal)

/-- Every execution of every instruction in one run of a program, with the loops around it, outermost first (rules R167, R183). The
first argument bounds the depth of the recursion. -/
def runOver : Nat → List Nat → List LoopFrame → List (Nat × List LoopFrame)
  | 0, _, _ => []
  | _ + 1, [], _ => []
  | fuel + 1, w :: ws, fs =>
    match decodeKernel w with
    | .loop trip body =>
      (w, fs) :: (((List.range trip).map (fun i => runOver fuel (ws.take body) (fs ++ [{ trip := trip, idx := i }]))).flatten
        ++ runOver fuel (ws.drop body) fs)
    | _ => (w, fs) :: runOver fuel ws fs

def executions (p : StreamProg) : List (Nat × List LoopFrame) := runOver (p.instrs.length + 1) p.instrs []

/-- Whether a check passes. -/
def checkPasses {α : Type} : Check α → Bool
  | .ok _ => true
  | .error _ => false

/-- The setting in which the loader evaluates operands: no scale is decided yet, and none decides whether an operand is admissible. -/
def proofCtx (x : Image) : Ctx := { suite := 0, image := x, step := 0, gen := 0, eval := true, seed := 0 }

/-- What the loader knows at an instruction: a vector engine whose registers have the types that the program gives them, and what the
kernel has written of it (rule R134). -/
structure Shadow where
  s : State
  regs : List Nat
  masks : List Nat
  units : List Nat

/-- A kernel begins with nothing written (rules R133, R134). -/
def Shadow.fresh : Shadow := ⟨State.reset, [], [], []⟩

/-- Registers that the sources of an instruction read: named ones, and the one a lane broadcast reads. -/
def registersRead (r : VecRec) (specs : List Nat) : List Nat :=
  specs.filter (fun n => decide (n < 32)) ++ (if specs.contains 32 && r.xsKind == 3 then [r.xsSel % 32] else [])

def named (m : Nat) : List Nat := if m = 0 then [] else [m]

/-- Everything read was written earlier by the same kernel (rule R134). -/
def writtenBefore (d : Shadow) (regs masks units : List Nat) : Bool :=
  regs.all d.regs.contains && masks.all d.masks.contains && units.all d.units.contains

/-- The record that an instruction names, and whether it names one (rules R189, R198, R199). -/
def proofRecord (p : StreamProg) (vrec : Nat) : Check (VecRec × Bool) :=
  if vrec = 0x3FF then .ok ({}, false)
  else do
    let r ← needRec p.vecs vrec
    require (vecRecOk r) .descRange
    .ok (r, true)

/-- The engine's setting for a proof: every lane below the count may be active (rule R136). Whether a site names coordinates, whose they
are and which purpose a draw has are later checks (RANDOM, ROUNDING), so all are taken as right here. -/
def proofVCtx (x : Image) (p : StreamProg) (fs : List LoopFrame) (d : Shadow) (r : VecRec × Bool) (dst c : Nat) : VCtx :=
  let target := if dst = 32 ∧ r.1.xdKind = 1 then ((tableGet p.descs r.1.xdSel).map (fun e => e.tensor)).getD 0 else 0
  { ctx := proofCtx x, prog := p, loops := fs, tile := getTile d.s 0, vr := { r.1 with purpose := 2 }, hasRec := r.2, pw := []
    coords := some ⟨{ tensor := target }, []⟩, sr := true, act := List.range (min c 256) }

/-- A `vop`'s operands and types (rules R134 to R144, R200). -/
def proveVop (x : Image) (p : StreamProg) (fs : List LoopFrame) (d : Shadow) (o : VopOp) : Check Shadow := do
  let rec' ← proofRecord p o.vrec
  let r := rec'.1
  let masked := vopFromMask o.op
  let specs := [o.sa, o.sb, o.sc]
  let bank ← recBank p fs r (!masked && specs.contains 32)
  let toMask := vopToMask o.op
  let regs := (if masked then [] else registersRead r specs) ++ (if o.keep && !toMask && decide (o.dst < 32) then [o.dst] else [])
  let masks := named o.mask ++ (if masked then ((specs.take ((vopArity o.op).getD 0)).map named).flatten else [])
    ++ (if o.keep && toMask then named o.dst else [])
  require (writtenBefore d regs masks (if o.op = 0x2C then [r.unit] else [])) .vtype
  match ← vopEffect d.s 0 (proofVCtx x p fs d rec' (if toMask then 63 else o.dst) o.c) o bank with
  | none => .ok d
  | some w => .ok { d with s := w.s, regs := if !toMask && decide (o.dst < 32) then o.dst :: d.regs else d.regs
                           masks := if toMask then o.dst :: d.masks else d.masks }

/-- A `vred`'s operands and types (rules R134 to R144, R203, R204). -/
def proveVred (x : Image) (p : StreamProg) (fs : List LoopFrame) (d : Shadow) (o : VredOp) : Check Shadow := do
  let rec' ← proofRecord p o.vrec
  let r := rec'.1
  let bank ← recBank p fs r (o.src == 32)
  let regs := registersRead r [o.src] ++ (if o.keep && decide (o.dst < 32) then [o.dst] else [])
  let units := (if o.vmode = 0 then [] else [o.unit]) ++ (if o.kind = 6 ∧ o.vmode ≠ 2 then [r.unit] else [])
  require (writtenBefore d regs (named o.mask) units) .vtype
  match ← vredEffect d.s 0 (proofVCtx x p fs d rec' o.dst o.c) o bank with
  | none => .ok d
  | some w => .ok { d with s := w.s, regs := if o.dst < 32 then o.dst :: d.regs else d.regs
                           units := if o.vmode = 2 then d.units else o.unit :: d.units }

/-- A `cvt`'s operands (rules R70, R71, R206, R207). -/
def proveCvt (x : Image) (p : StreamProg) (fs : List LoopFrame) (o : CvtOp) : Check Unit := do
  let dd ← needDesc p.descs o.dDesc 0
  let _ ← cvtSetup State.reset (proofCtx x) { p with coords := [{ tensor := dd.tensor }] } fs { o with sr := true, cDesc := 0 }
  .ok ()

/-- A `qin`'s or `qout`'s operands (rules R167, R169, R170, R254, and R259 Note 2: nothing goes out to an INPUT stream); an undeclared stream
is a later check (STREAMS), and so is whose level a contribution transfer feeds (COLLECTIVE_PLAN). -/
def proveQueue (x : Image) (p : StreamProg) (fs : List LoopFrame) (q : QOp) : Check Unit :=
  match x.decls[q.stream]? with
  | none => .ok ()
  | some d => do
    let mem := decide (d.type ≤ 1)
    require (!(q.out && d.type == 1)) .illegal
    let f ← queueFields (proofCtx x) p fs q mem (if SMap.has x.tensors d.tensor then some (storedBytes (SMap.get {} x.tensors d.tensor)) else none)
    queueVerdict { f with level := true }

/-- One execution of an instruction in the operand proof. -/
def proveAt (x : Image) (p : StreamProg) (d : Shadow) (e : Nat × List LoopFrame) : Check Shadow :=
  match decodeKernel e.1 with
  | .q q => do
    proveQueue x p e.2 q
    .ok d
  | .mm o => do
    let _ ← mmSetup State.reset (proofCtx x) p e.2 o
    .ok d
  | .vop o => proveVop x p e.2 d o
  | .vred o => proveVred x p e.2 d o
  | .cvt o => do
    proveCvt x p e.2 o
    .ok d
  | .dig count sDesc cDesc => do
    let _ ← digSetup (proofCtx x) p e.2 count sDesc cDesc
    .ok d
  | .mark _ _ _ => .ok .fresh
  | .illegal => .error .illegal
  | _ => .ok d

/-- OPERAND, over every iteration of one program. -/
def operandsOk (x : Image) (p : StreamProg) : Bool :=
  p.descs.all descAligned && checkPasses ((executions p).foldlM (proveAt x p) Shadow.fresh)

/-- A draw of `n` elements: its record names a tensor of the table and no index passes 2^40 - 1 (rules R106, R146, R190). -/
def drawOk (x : Image) (p : StreamProg) (fs : List LoopFrame) (cDesc n : Nat) : Bool :=
  match tableGet p.coords cDesc with
  | none => false
  | some r => SMap.has x.tensors r.tensor && decide (0 ≤ coordEff r fs) && decide (coordEff r fs < 2 ^ 40)
      && (List.range n).all (fun l => decide (coordIndex r fs l < 2 ^ 40))

/-- A record that gives positions uses its element base alone, and `n` lanes from it stay within `last` (rules R151, R190). -/
def positionsOk (p : StreamProg) (fs : List LoopFrame) (cDesc n last : Nat) : Bool :=
  match tableGet p.coords cDesc with
  | none => false
  | some r => r.w == 1 && r.pitch == 0 && decide (0 ≤ coordEff r fs) && decide (coordEff r fs + (n - 1 : Nat) ≤ last)

/-- Whether a `cvt` needs coordinates for the channels of its target or its source (rule R208). -/
def channelled (x : Image) (p : StreamProg) (o : CvtOp) : Bool :=
  let per := fun (i : Nat) => ((tableGet p.descs i).map (fun d => (SMap.get {} x.tensors d.tensor : Tensor).perChannel)).getD false
  per o.dDesc || (o.src == 1 && per o.sDesc)

/-- RANDOM, over every iteration of one program (rules R105, R106, R146, R151, R190, R208). -/
def drawsOk (x : Image) (p : StreamProg) : Bool :=
  (executions p).all (fun e => match decodeKernel e.1 with
    | .cvt o =>
      let target := (tableGet p.descs o.dDesc).map (fun d => d.tensor)
      (o.cDesc == 0x3FF && !o.sr && !(channelled x p o))
        || (drawOk x p e.2 o.cDesc (o.rows * o.cols) && decide ((tableGet p.coords o.cDesc).map (fun r => r.tensor) = target))
    | .vop o =>
      let r := (tableGet p.vecs o.vrec).getD {}
      (o.op != 0x29 || r.purpose == 2 || r.purpose == 4)
        && (if o.op = 0x28 then positionsOk p e.2 r.cdesc o.c (2 ^ 40 - 1)
            else (r.cdesc == 0x3FF && !o.sr && o.op != 0x29) || drawOk x p e.2 r.cdesc o.c)
    | .vred o =>
      let r := (tableGet p.vecs o.vrec).getD {}
      if o.vmode ≠ 2 ∧ (o.kind = 4 ∨ o.kind = 5) then positionsOk p e.2 r.cdesc o.c 0xFFFFFFFE
      else (r.cdesc == 0x3FF && !o.sr) || drawOk x p e.2 r.cdesc o.c
    | .dig count _ cDesc => positionsOk p e.2 cDesc count (2 ^ 40 - 1)
    | _ => true)

/-- Whether every vector site that rounds stochastically into the tile store names the coordinates of its destination (rule R202). -/
def sitesNamed (p : StreamProg) : Bool :=
  let same := fun (cDesc dDesc : Nat) => match tableGet p.coords cDesc, tableGet p.descs dDesc with
    | some r, some d => r.tensor == d.tensor
    | _, _ => true
  p.instrs.all (fun w => match decodeKernel w with
    | .vop o => match tableGet p.vecs o.vrec with
      | some r => !(o.sr && o.dst == 32 && !vopToMask o.op && r.xdKind == 1) || same r.cdesc r.xdSel
      | none => true
    | .vred o => match tableGet p.vecs o.vrec with
      | some r => !(o.sr && o.dst == 32 && r.xdKind == 1) || same r.cdesc r.xdSel
      | none => true
    | _ => true)

/-- What one execution does with a token (rules R125, R126). -/
inductive TokenEvent where
  | use (t : Nat)
  | take (t : Nat)
  | pass (t : Nat) (dst : KStream)

/-- The tokens that an instruction uses, hands on or takes (rules R125, R138, R170, R173). -/
def tokenEventsAt (p : StreamProg) (e : Nat × List LoopFrame) : List TokenEvent :=
  let bankOf := fun (i : Nat) => match needDesc p.descs i 2 with
    | .ok d => [TokenEvent.use (tokBK ((descEff d e.2).toNat / 16384 % 4))]
    | .error _ => []
  let source := fun (vrec : Nat) (uses : Bool) => match tableGet p.vecs vrec with
    | some r => if uses && r.xsKind == 2 then bankOf (r.xsSel % 1024) else []
    | none => []
  match decodeKernel e.1 with
  | .q q => .use (landingToken (q.landing + if q.out then 2 else 0)) :: (if q.layout = 2 then bankOf q.tsDesc else [])
  | .wait sel _ => [.use (waitToken sel)]
  | .take t => [.take t]
  | .pass dst t => [.pass t (streamOfCode dst)]
  | .mm o => [.use tokME, .use (tokBK o.bank)]
  | .vop o => .use tokVE :: source o.vrec (!(vopFromMask o.op) && (o.sa == 32 || o.sb == 32 || o.sc == 32))
  | .vred o => .use tokVE :: source o.vrec (o.src == 32)
  | .cvt o => .use tokCU :: (if o.src = 0 then bankOf o.sDesc else [])
  | .dig _ _ _ => [.use tokCU]
  | _ => []

/-- Advance a stream to its next `take` of a token that is not yet in transit to it: the tokens, what is left, and whether it broke
point 1 of rule R128. -/
def runTokens (k : KStream) : List TokenState → List TokenEvent → List TokenState × List TokenEvent × Bool
  | ts, [] => (ts, [], true)
  | ts, .use t :: es => if ts.getD t .none = .held k then runTokens k ts es else (ts, [], false)
  | ts, .pass t dst :: es =>
    if ts.getD t .none = .held k ∧ dst ≠ k then runTokens k (ts.set t (.transit dst)) es else (ts, [], false)
  | ts, .take t :: es =>
    if ts.getD t .none = .held k then (ts, [], false)
    else if ts.getD t .none = .transit k then runTokens k (ts.set t (.held k)) es
    else (ts, .take t :: es, true)

/-- Run the three streams in turn as far as their tokens let them; the first argument bounds the rounds. Every round that is not the
last completes a `take`. -/
def tokenRounds : Nat → List TokenState → List TokenEvent → List TokenEvent → List TokenEvent → Option (List TokenState)
  | 0, ts, f, b, u => if f.isEmpty && b.isEmpty && u.isEmpty then some ts else none
  | n + 1, ts, f, b, u =>
    if f.isEmpty && b.isEmpty && u.isEmpty then some ts
    else
      let rf := runTokens .f ts f
      let rb := runTokens .b rf.1 b
      let ru := runTokens .u rb.1 u
      if rf.2.2 && rb.2.2 && ru.2.2 then tokenRounds n ru.1 rf.2.1 rb.2.1 ru.2.1 else none

/-- TOKEN_PROOF, points 1, 2 and 5 of rule R128, point 3 as far as tokens alone order the streams, and rules R129 and R179: one step
runs to its end marks and leaves every token with its holder at the start. -/
def tokensOk (v : VTileImage) : Bool :=
  let start := holderTokens v.holders
  let ev := fun (p : StreamProg) => ((executions p).map (tokenEventsAt p)).flatten
  let f := ev v.f
  let b := ev v.b
  let u := ev v.u
  decide (tokenRounds (f.length + b.length + u.length + 1) start f b u = some start)

end Sys2Proof.Machine
end

