-- ==== Sys2Proof/Machine/LoadFlow.lean ====
section
/-!
DEFINITION. What the loader proves by following an image's programs through a few steps: orders of tile-store and memory accesses,
landings between tiles, generations, partials, addends, digested blocks, the segment graph (rules R44, R47, R81, R85, R87, R91, R119, R128,
R139, R174, R209, R213, R216, R255, R417 and R440). Every rank runs the same image (rule R36), so one rank's virtual tiles stand for all:
a REMOTE stream meets its peer stream of the same image. Three steps are followed, so that every step after the first has one before and
one after it; more steps repeat them (DEDUCED, assumption 31).
-/
namespace Sys2Proof.Machine

/-- What is known complete: the number of operations of a stream on an engine, keyed 9 × stream + engine; engines 0 to 6 as in `wait`, 7
and 8 for what an outbound landing has read (rules R126, R172, R173). -/
abbrev Clock := SMap Nat

def joinClock (a b : Clock) : Clock := b.foldl (fun m q => SMap.set m q.1 (max q.2 (SMap.get 0 m q.1))) a

/-- What a stream knows complete: through its own waits and tokens, through tile streams as well, and at most, with REMOTE streams and
waits that leave transfers open. -/
structure Know where
  chain : Clock := []
  sure : Clock := []
  loose : Clock := []
deriving DecidableEq, Repr

def Know.join (a b : Know) : Know := ⟨joinClock a.chain b.chain, joinClock a.sure b.sure, joinClock a.loose b.loose⟩

/-- What a transfer of a tile or remote stream brings of its sender's knowledge. -/
def Know.carried (b : Know) (remote : Bool) : Know := ⟨[], if remote then [] else b.sure, b.loose⟩

def Know.suspect (a : Know) (key n : Nat) : Know := { a with loose := joinClock a.loose [(key, n)] }
def Know.learn (a : Know) (key n : Nat) : Know := ⟨joinClock a.chain [(key, n)], joinClock a.sure [(key, n)], joinClock a.loose [(key, n)]⟩

/-- Bytes `lo` to `hi` - 1 of a tile store or of a tensor's memory: whose elements they hold, the step in which those were formed and the
step in which a program last put them there (0 for none), raw I32 words, never written, the offset of their memory image from their
address where a LINEAR `qin` brought them, the memory write they are of, and the segment that wrote them. -/
structure Piece where
  lo : Int
  hi : Int
  tensor : Nat := 0xFFFFFF
  step : Nat := 0
  put : Nat := 0
  raw : Bool := false
  blank : Bool := false
  origin : Option Int := none
  version : Nat := 0
  seg : Nat × Nat := (0, 0)
deriving DecidableEq, Repr

/-- What stands in some ranges, pieces newest first; `blank` is what was never written. -/
def piecesAt (blank : Piece) : List Piece → List (Int × Int) → List Piece
  | [], gaps => gaps.map (fun g => { blank with lo := g.1, hi := g.2 })
  | p :: ps, gaps =>
    gaps.filterMap (fun g => if max g.1 p.lo < min g.2 p.hi then some { p with lo := max g.1 p.lo, hi := min g.2 p.hi } else none)
      ++ piecesAt blank ps (((gaps.map (fun g => [(g.1, min g.2 p.lo), (max g.1 p.hi, g.2)])).flatten).filter (fun g => decide (g.1 < g.2)))

def Piece.moved (p : Piece) (d : Int) : Piece := { p with lo := p.lo + d, hi := p.hi + d, origin := p.origin.map (fun o => o - d) }

/-- An access to bytes by an operation of a stream, and its number among the stream's operations on the engine. -/
structure FlowAccess where
  space : Nat
  lo : Int
  hi : Int
  write : Bool
  stream : Nat
  engine : Nat
  no : Nat
  step : Nat := 0
  serial : Nat := 0
deriving DecidableEq, Repr

def FlowAccess.meets (a b : FlowAccess) : Bool := a.space == b.space && decide (a.lo < b.hi) && decide (b.lo < a.hi)

/-- Addends that an operation put into entries of a bank: entries `lo` to `hi` - 1 that lie in the first rows and columns, how many each,
the operand tensors of the pass, whether it sets base exponents, the stream, the step. -/
structure BankAdd where
  lo : Nat
  hi : Nat
  rows : Nat := 128
  cols : Nat := 128
  n : Nat
  pair : Nat × Nat
  sets : Bool := true
  part : Bool := false
  stream : Nat
  step : Nat
deriving DecidableEq, Repr

def BankAdd.covers (a : BankAdd) (e : Nat) : Bool :=
  decide (a.lo ≤ e) && decide (e < a.hi) && decide (e / 128 < a.rows) && decide (e % 128 < a.cols)
def BankAdd.setsColumn (a : BankAdd) (c : Nat) : Bool :=
  a.sets && decide (c < a.cols) && (decide (128 ≤ a.hi - a.lo) || (List.range (a.hi - a.lo)).any (fun i => (a.lo + i) % 128 == c))

/-- A bank: what was added since it was last zero, newest first, whether a clearing readout made it zero, and what stood before. -/
structure FlowBank where
  adds : List BankAdd := []
  cleared : Bool := false
  before : List BankAdd := []
deriving DecidableEq, Repr

def FlowBank.count (b : FlowBank) (e : Nat) : Nat := sumNat ((b.adds.filter (fun a => a.covers e)).map (fun a => a.n))

/-- The operand tensors that an entry's base exponent comes from: those of the first operation that set its column (rule R195). -/
def FlowBank.pair (b : FlowBank) (e : Nat) : Option (Nat × Nat) :=
  ((b.adds.reverse.find? (fun a => a.setsColumn (e % 128)))).map (fun a => a.pair)

/-- Whether a read needs an entry that was written before the bank was cleared (rule R209). -/
def FlowBank.stale (b : FlowBank) (e : Nat) : Bool :=
  b.cleared && !(b.adds.any (fun a => a.covers e)) && b.before.any (fun a => a.covers e)

/-- A queued transfer. -/
structure FlowTransfer where
  stream : Nat
  q : QOp
  ts : Int
  sb : Int
  tensor : Nat
  step : Nat
  seg : Nat × Nat
  know : Know
  no : Nat
  serial : Nat
  started : Nat := 0
  done : Nat := 0
deriving DecidableEq, Repr

/-- What a transaction carries: pieces from 0 to 511, or entries of a bank with their addends and operand tensors. -/
structure Payload where
  pieces : List Piece := []
  entries : List (Nat × Option (Nat × Nat)) := []
  know : Know := {}
  seg : Nat × Nat := (0, 0)
deriving DecidableEq, Repr

/-- A posted slot: the receiving virtual tile, landing, the transfer by issuer and number, and which of its transactions. -/
structure FlowSlot where
  vtile : Nat
  landing : Nat
  stream : Nat
  no : Nat
  index : Nat
deriving DecidableEq, Repr

structure FlowTile where
  tokens : List TokenState := []
  with' : SMap Know := []
  queues : SMap (List FlowTransfer) := []
  brought : SMap Know := []
  store : List Piece := []
  banks : SMap FlowBank := []
  units : SMap (Nat × Bool) := []
  bankUse : List (Nat × KStream × Nat) := []
deriving DecidableEq, Repr

structure FlowStream where
  rest : List (Nat × Nat × List LoopFrame) := []
  issued : SMap Nat := []
  banked : SMap Nat := []
  know : Know := {}
  kernel : Nat := 0
  seg : Nat := 0
  cutsPast : Nat := 0
deriving DecidableEq, Repr

/-- The whole rank. `finds` are the refusals found, status and virtual tile; a status above 0xFFFF is one that the image may or may not earn. -/
structure Flow where
  tiles : SMap FlowTile := []
  streams : SMap FlowStream := []
  memory : SMap (List Piece) := []
  stores : List FlowAccess := []
  memories : List FlowAccess := []
  slots : SMap (List FlowSlot) := []
  buffered : SMap (List Payload) := []
  digs : List (Nat × Nat × Piece) := []
  wrote : List (Nat × Nat) := []
  gradients : List (Nat × Nat × Nat × Nat × Nat) := []
  edges : List ((Nat × Nat) × (Nat × Nat)) := []
  serial : Nat := 1
  finds : List (Nat × Nat) := []
deriving DecidableEq, Repr

/-- What is followed: the image, the programs, whether virtual tiles fold, whether it is the evaluation programs. -/
structure FlowCtx where
  x : Image
  tiles : SMap VTileImage
  fold : Bool := false
  eval : Bool := false

def streamNo (v : Nat) (k : KStream) : Nat := 3 * v + (match k with | .f => 0 | .b => 1 | .u => 2)
def openFind : Nat := 0x10000

def Flow.tile (fl : Flow) (v : Nat) : FlowTile := SMap.get {} fl.tiles v
def Flow.setTile (fl : Flow) (v : Nat) (t : FlowTile) : Flow := { fl with tiles := SMap.set fl.tiles v t }
def Flow.stream (fl : Flow) (g : Nat) : FlowStream := SMap.get {} fl.streams g
def Flow.setStream (fl : Flow) (g : Nat) (y : FlowStream) : Flow := { fl with streams := SMap.set fl.streams g y }
def Flow.find (fl : Flow) (bad : Bool) (status v : Nat) : Flow := if bad then { fl with finds := fl.finds ++ [(status, v)] } else fl
def Flow.bank (fl : Flow) (v b : Nat) : FlowBank := SMap.get {} (fl.tile v).banks b
def Flow.setBank (fl : Flow) (v b : Nat) (y : FlowBank) : Flow := fl.setTile v { fl.tile v with banks := SMap.set (fl.tile v).banks b y }
def Flow.queue (fl : Flow) (v l : Nat) : List FlowTransfer := SMap.get [] (fl.tile v).queues l
def Flow.setQueue (fl : Flow) (v l : Nat) (q : List FlowTransfer) : Flow := fl.setTile v { fl.tile v with queues := SMap.set (fl.tile v).queues l q }

/-- Bytes of a virtual tile's store, and of a tensor's memory. -/
def Flow.inStore (fl : Flow) (v : Nat) (gaps : List (Int × Int)) : List Piece :=
  piecesAt { lo := 0, hi := 0, blank := true } (fl.tile v).store (gaps.filter (fun g => decide (g.1 < g.2)))
def Flow.inMemory (fl : Flow) (t : Nat) (lo hi : Int) : List Piece :=
  (piecesAt { lo := 0, hi := 0, tensor := t } (SMap.get [] fl.memory t) [(lo, hi)]).map (fun p => { p with origin := some 0 })
def Flow.putStore (fl : Flow) (v : Nat) (ps : List Piece) : Flow := fl.setTile v { fl.tile v with store := ps ++ (fl.tile v).store }

/-- One more operation of a stream on an engine; its number. -/
def Flow.issue (fl : Flow) (g e : Nat) : Flow × Nat :=
  let y := fl.stream g
  let n := SMap.get 0 y.issued e
  (fl.setStream g { y with issued := SMap.set y.issued e (n + 1) }, n)

def ClockKey (g e : Nat) : Nat := 9 * g + e

/-- The order of tile-store accesses (rules R128 point 4, R174): an earlier access by another engine that shares a byte, one of the two a
write, is known complete: within a stream by a `wait`, between streams by tokens. -/
def Flow.access (fl : Flow) (v g e no : Nat) (write : Bool) (spans : List (Int × Int)) : Flow :=
  let know := (fl.stream g).know
  let mine : List FlowAccess := (spans.filter (fun p => decide (p.1 < p.2))).map (fun p => { space := v, lo := p.1, hi := p.2, write := write, stream := g, engine := e, no := no })
  let against := fun (a b : FlowAccess) => a.meets b && (a.write || write) && !(a.stream == g && a.engine == e)
  let known := fun (c : Clock) (a : FlowAccess) => decide (a.no < SMap.get 0 c (ClockKey a.stream a.engine))
  let clash := fl.stores.filter (fun a => mine.any (against a) && !(known know.chain a))
  let status := fun (a : FlowAccess) => (if a.stream = g then 0x010D else 0x010C) + (if known know.loose a then openFind else 0)
  let fl1 := clash.foldl (fun f a => f.find true (status a) v) fl
  { fl1 with stores := mine ++ fl1.stores }

/-- The order of memory accesses (rules R174, R255): a read and a write that share a byte. -/
def Flow.memAccess (fl : Flow) (v g e no t : Nat) (write : Bool) (lo hi : Int) (step : Nat) : Flow :=
  let know := (fl.stream g).know
  let mine : FlowAccess := { space := t, lo := lo, hi := hi, write := write, stream := g, engine := e, no := no, step := step, serial := fl.serial }
  let known := fun (c : Clock) (a : FlowAccess) => decide (a.no < SMap.get 0 c (ClockKey a.stream a.engine))
  let clash := fl.memories.filter (fun a => a.meets mine && (a.write != write) && !(known know.sure a))
  let fl1 := clash.foldl (fun f a => f.find true (0x010D + (if known know.loose a then openFind else 0)) v) fl
  { fl1 with memories := mine :: fl1.memories, serial := fl1.serial + 1 }

/-- Whether a training program writes a tensor. -/
def everWritten (x : Image) (t : Nat) : Bool :=
  x.vtiles.any (fun q => [q.2.f, q.2.b, q.2.u].any (fun p => p.instrs.any (fun w => match decodeKernel w with
    | .q o => o.out && (x.decls[o.stream]?.map (fun d => decide (d.type ≤ 1) && d.tensor == t)).getD false
    | _ => false)))

/-- What a read of a tensor's elements finds wrong in a training step: not yet written in the step (rule R440), or a TEMP of an earlier
step (rule R216). -/
def Flow.fresh (c : FlowCtx) (fl : Flow) (v t step : Nat) (ps : List Piece) : Flow :=
  let y : Tensor := SMap.get {} c.x.tensors t
  let lasting := y.role == 0 || y.role == 3 || y.role == 4 || y.role == 5 || (y.initial != 2 ^ 64 - 1 && !(everWritten c.x t))
  let own := ps.filter (fun p => p.tensor == t && !p.blank)
  let old := own.filter (fun p => decide (p.put < step))
  if c.eval || !(SMap.has c.x.tensors t) then fl
  else (fl.find (y.role == 6 && old.any (fun p => decide (1 ≤ p.put))) 0x0104 v).find (!lasting && (own.isEmpty || !old.isEmpty)) 0x010D v

/-- The generation of a reference to a MANAGED tensor (rule R91): CURRENT elements are of this step; EARLIER ones all of the latest step
before it in which the tensor was written. -/
def Flow.generation (c : FlowCtx) (fl : Flow) (v t gen step : Nat) (ps : List Piece) : Flow :=
  let y : Tensor := SMap.get {} c.x.tensors t
  let own := (ps.filter (fun p => p.tensor == t && !p.blank)).map (fun p => p.step)
  let last := (fl.wrote.filter (fun q => q.1 == t && decide (q.2 < step))).foldl (fun m q => max m q.2) 0
  fl.find (y.managed && own.any (fun s => decide (s ≠ (if gen = 0 then step else last)))) 0x010D v

/-- A reference of an instruction to tile-store bytes: the engine's access, raw words that no vector load reads, the tensor's generation
and freshness. -/
def Flow.refer (c : FlowCtx) (fl : Flow) (v g e no step : Nat) (t : Nat) (gen : Option Nat) (vector : Bool) (spans : List (Int × Int)) : Flow :=
  let ps := fl.inStore v spans
  let fl1 := (fl.access v g e no false spans).find (!vector && ps.any (fun p => p.raw)) 0x0107 v
  if t = 0xFFFFFF then fl1
  else
    let fl2 := fl1.fresh c v t step ps
    match gen with
    | none => fl2
    | some n => fl2.generation c v t n step ps

/-- A result in the tile store. -/
def Flow.deposit (fl : Flow) (v g e no step seg : Nat) (t : Nat) (spans : List (Int × Int)) : Flow :=
  let fl1 := fl.access v g e no true spans
  let fl2 := fl1.putStore v ((spans.filter (fun p => decide (p.1 < p.2))).map (fun p =>
    { lo := p.1, hi := p.2, tensor := t, step := step, put := step, raw := t == 0xFFFFFF, seg := (v, seg) }))
  if t = 0xFFFFFF then fl2 else { fl2 with wrote := (t, step) :: fl2.wrote }

/-- Stripes that an operand of a pass reads (rule R193). -/
def operandSpans (f : Fmt) (base : Int) (tr : Bool) (sStride gStride e k : Nat) : List (Int × Int) :=
  let g := stripeGroup f
  let at' := fun (d : Nat) => (base + (d : Int), base + ((d + stripeSize f : Nat) : Int))
  if tr then ((List.range ((k + 127) / 128)).map (fun i => (List.range ((e + g - 1) / g)).map (fun j => at' (i * gStride + j * sStride)))).flatten
  else (List.range ((k + g - 1) / g)).map (fun i => at' (i * sStride))

/-- Bytes of the lanes of a vector reference (rule R136). -/
def laneSpans (f : Fmt) (base stride : Int) (n : Nat) : List (Int × Int) :=
  (List.range n).map (fun l => let a := (laneAddr f base stride l).1; (a, a + ((elemBytes f : Nat) : Int)))

/-- Base and tensor of a descriptor of a kind, where the instruction names one. -/
def flowDesc (p : StreamProg) (fs : List LoopFrame) (i kind : Nat) : Option (Int × Nat) :=
  (tableGet p.descs i).bind (fun d => if d.kind = kind then some (descEff d fs, d.tensor) else none)

/-- An operation on a bank by a stream: one bank is not gathered by two streams (rule R128 point 5), nor held by two in kernels of one id
(rule R87, DEDUCED, assumption 31). -/
def Flow.useBank (fl : Flow) (v b : Nat) (k : KStream) (gathers : Bool) : Flow :=
  let t := fl.tile v
  let g := streamNo v k
  let id := (fl.stream g).kernel
  let fl1 := fl.setTile v { t with bankUse := (b, k, id) :: t.bankUse }
  (fl1.find (gathers && (fl.bank v b).adds.any (fun a => a.stream != g)) 0x010C v).find
    (t.bankUse.any (fun q => q.1 == b && decide (q.2.1 ≠ k) && q.2.2 == id)) 0x010D v

/-- Addends in entries of a bank stay within the bound of A192; a gather that goes on from step to step stays within it over every step
there is (rules R41, R75, R81). -/
def Flow.bounded (fl : Flow) (v b : Nat) (new : BankAdd) : Flow :=
  let y := fl.bank v b
  let inStep : Nat → Nat → Nat := fun e s => sumNat ((y.adds.filter (fun a => a.covers e && a.step == s)).map (fun a => a.n))
  let tooMany : Bool := ((List.range (new.hi - new.lo)).map (fun i => new.lo + i)).any (fun (e : Nat) => decide (2 ^ 47 < y.count e)
    || (decide (new.step = 3) && decide (0 < inStep e 1) && decide ((2 ^ 47 : Nat) < 2 ^ 32 * inStep e 2)))
  fl.find tooMany 0x010E v

def Flow.add (fl : Flow) (v b : Nat) (a : BankAdd) : Flow :=
  let y := fl.bank v b
  (fl.setBank v b { y with adds := a :: y.adds }).bounded v b a

/-- A readout of entries: none was left behind by a clear (rule R209). -/
def Flow.readBank (fl : Flow) (v b : Nat) (es : List Nat) : Flow := fl.find (es.any (fl.bank v b).stale) 0x0107 v

/-- A raw partial that meets an entry: the column is set (rules R85, R209), by the same operand tensors (rule R85); a partial with no addends is
zero at any exponent. Of a partial that memory brought neither is followed. -/
def Flow.merge (fl : Flow) (v b g step e : Nat) (part : Option (Nat × Option (Nat × Nat))) : Flow :=
  let y := fl.bank v b
  let unset := (y.pair e).isNone
  let fl1 := fl.find (unset && y.cleared) 0x0107 v
  match part with
  | none => fl1.find true (openFind + 0x0110) v |>.find true (openFind + 0x010E) v
  | some p => (fl1.find (!(unset && y.cleared) && decide (0 < p.1) && (y.pair e != p.2 || p.2.isNone)) 0x0110 v).add v b
      { lo := e, hi := e + 1, n := p.1, pair := p.2.getD (0, 0), sets := false, part := true, stream := g, step := step }

/-- Entries whose first byte a transaction of a raw transfer carries (rule R170). -/
def rawEntries (i : Nat) : List Nat := (List.range 64).map (fun j => (512 * i + 23) / 24 + j) |>.filter (fun e => decide (24 * e < 512 * (i + 1)))

/-- What transaction `i` of an outbound transfer carries. -/
def Flow.payload (fl : Flow) (v : Nat) (tr : FlowTransfer) (i : Nat) : Payload :=
  if tr.q.layout = 2 then
    let b := fl.bank v (tr.ts.toNat / 16384 % 4)
    { entries := (rawEntries i).map (fun e => let n := tr.ts.toNat % 16384 + e; (b.count n, b.pair n)), know := tr.know, seg := tr.seg }
  else
    let lo := tr.ts + ((512 * i : Nat) : Int)
    { pieces := (fl.inStore v [(lo, lo + 512)]).map (fun p => p.moved (-lo)), know := tr.know, seg := tr.seg }

/-- A transaction's bytes arrive (rules R168, R170, R254, R324); `fromMemory` where they come from memory. -/
def Flow.deliver (c : FlowCtx) (fl : Flow) (v l : Nat) (tr : FlowTransfer) (i : Nat) (fromMemory : Bool) (w : Payload) : Flow :=
  let lo := ((512 * i : Nat) : Int)
  match tr.q.layout with
  | 0 => fl.putStore v (w.pieces.map (fun p => let m := p.moved (tr.ts + lo); { m with origin := if fromMemory then m.origin else none }))
  | 1 =>
    let y : Tensor := SMap.get {} c.x.tensors tr.tensor
    fl.putStore v ((List.range 512).filterMap (fun (o : Nat) =>
      (w.pieces.find? (fun p => decide (p.lo ≤ (o : Int)) && decide ((o : Int) < p.hi))).map (fun p =>
        let a := stripeAt y.fmt (max 1 (y.shape.getLast?.getD 1)) tr.ts.toNat (512 * i + o)
        { p with lo := (a : Int), hi := (a : Int) + 1, origin := none })))
  | _ =>
    let b := tr.ts.toNat / 16384 % 4
    let at' := tr.ts.toNat % 16384
    if tr.tensor = 0xFFFFFF then
      let es := rawEntries i
      (List.range es.length).foldl (fun (f : Flow) (j : Nat) => f.merge v b tr.stream tr.step (at' + es.getD j 0) (if fromMemory then none else some (w.entries.getD j (0, none)))) fl
    else fl.add v b { lo := at' + 256 * i, hi := at' + 256 * i + 256, n := 1, pair := (tr.tensor, 0x1000000 + l), stream := tr.stream, step := tr.step }

/-- A transaction of a transfer is done: with the last one the transfer leaves the queue, and what the landing brought is known to who waits. -/
def Flow.done (fl : Flow) (v l stream no : Nat) (know : Know) : Flow :=
  let t := fl.tile v
  let q := (fl.queue v l).map (fun y => if y.stream = stream ∧ y.no = no then { y with done := y.done + 1 } else y)
  let key := 4 * stream + l
  (fl.setTile v { t with brought := SMap.set t.brought key ((SMap.get {} t.brought key).join know) }).setQueue v l
    (q.filter (fun y => decide (y.done < y.q.count)))

/-- A landing starts its next transaction where it may (rules R168, R171, R252, R418). -/
def Flow.startOne (c : FlowCtx) (fl : Flow) (v l : Nat) : Option Flow :=
  let q := fl.queue v l
  match q.find? (fun y => decide (y.started < y.q.count)) with
  | none => none
  | some tr =>
    let d := (c.x.decls[tr.q.stream]?).getD {}
    let flying := sumNat (q.map (fun y => y.started - y.done))
    let onEntry := sumNat ((q.filter (fun y => y.q.stream == tr.q.stream)).map (fun y => y.started - y.done))
    let i := tr.started
    let lo := tr.sb + ((512 * i : Nat) : Int)
    let f1 := fl.setQueue v l (q.map (fun y => if y.stream = tr.stream ∧ y.no = tr.no then { y with started := y.started + 1 } else y))
    if 256 ≤ flying ∨ 32 ≤ onEntry then none
    else if d.type ≤ 1 then
      if tr.q.out then
        let w := fl.payload v tr i
        let ps : List Piece := if tr.q.layout = 2 then [{ lo := lo, hi := lo + 512, tensor := d.tensor, step := tr.step }] else w.pieces.map (fun p =>
          let m := p.moved lo
          if p.tensor = d.tensor ∧ p.blank = false then m else { m with tensor := d.tensor, step := if p.blank then 0 else p.step })
        let ps1 := ps.map (fun p => { p with put := tr.step, version := tr.serial, seg := tr.seg, blank := false, origin := none })
        let f2 := ({ f1 with memory := SMap.set f1.memory d.tensor (ps1 ++ SMap.get [] f1.memory d.tensor) } : Flow)
        some ((f2.find (w.pieces.any (fun p => p.raw)) 0x0107 v).done v l tr.stream tr.no {})
      else
        let ps : List Piece := if d.type = 1 then [({ lo := lo, hi := lo + 512, tensor := d.tensor, step := tr.step, put := tr.step } : Piece)] else fl.inMemory d.tensor lo (lo + 512)
        let f2 := f1.fresh c v d.tensor tr.step ps
        let f3 : Flow := { f2 with edges := (ps.filter (fun (p : Piece) => p.put == tr.step && d.type == 0)).map (fun (p : Piece) => (p.seg, tr.seg)) ++ f2.edges }
        some ((f3.deliver c v l tr i true { pieces := ps.map (fun (p : Piece) => p.moved (-lo)) }).done v l tr.stream tr.no {})
    else
      let remote := d.type == 3
      if tr.q.out then
        let w := fl.payload v tr i
        let raw := f1.find (w.pieces.any (fun p => p.raw)) 0x0107 v
        match SMap.get [] fl.slots d.peerStream with
        | [] =>
          if c.fold then
            some (({ raw with buffered := SMap.set raw.buffered d.peerStream (SMap.get [] raw.buffered d.peerStream ++ [w]) } : Flow).done v l tr.stream tr.no {})
          else none
        | sl :: more =>
          match (fl.queue sl.vtile sl.landing).find? (fun y => decide (y.stream = sl.stream ∧ y.no = sl.no)) with
          | none => none
          | some there =>
            let f2 := { raw with slots := SMap.set raw.slots d.peerStream more, edges := (tr.seg, there.seg) :: raw.edges }
            let f3 := (f2.deliver c sl.vtile sl.landing there sl.index false w).done sl.vtile sl.landing sl.stream sl.no (w.know.carried remote)
            some (f3.done v l tr.stream tr.no (there.know.carried remote))
      else
        match SMap.get [] fl.buffered tr.q.stream with
        | [] => some { f1 with slots := SMap.set f1.slots tr.q.stream (SMap.get [] f1.slots tr.q.stream ++ [⟨v, l, tr.stream, tr.no, i⟩]) }
        | w :: more =>
          let f2 := { f1 with buffered := SMap.set f1.buffered tr.q.stream more, edges := (w.seg, tr.seg) :: f1.edges }
          some ((f2.deliver c v l tr i false w).done v l tr.stream tr.no (w.know.carried remote))

/-- The next instruction of a stream. -/
def Flow.next (fl : Flow) (g : Nat) : Option (Nat × KInst × List LoopFrame) :=
  ((fl.stream g).rest.head?).map (fun e => (e.1, decodeKernel e.2.1, e.2.2))

/-- Whether a mark is a fold cut of its stream (rules R407, R416); every END mark is one. -/
def cutMark (v : VTileImage) (k : KStream) (i : KInst) : Bool :=
  match i with
  | .mark last _ id => last || v.cuts.any (fun q => (match k with | .f => q.1 | .b => q.2.1 | .u => q.2.2) == id)
  | _ => false

/-- Whether every operation issued on a token's resource has completed, in the sense of rule R126; engines complete at once here. -/
def Flow.idle (fl : Flow) (v tok : Nat) : Bool :=
  if tok = 3 ∨ tok = 4 then (fl.queue v (tok - 3)).isEmpty
  else if tok = 5 ∨ tok = 6 then (fl.queue v (tok - 3)).all (fun y => decide (y.started = y.q.count))
  else if 7 ≤ tok then [0, 1].all (fun l => (fl.queue v l).all (fun y => y.q.layout != 2 || y.ts.toNat / 16384 % 4 != tok - 7))
      && [2, 3].all (fun l => (fl.queue v l).all (fun y => y.q.layout != 2 || y.ts.toNat / 16384 % 4 != tok - 7 || decide (y.started = y.q.count)))
  else true

/-- Whether the next instruction of a stream may issue: its tokens, its landing, its waits, its cut (rules R125, R126, R168, R173, R178, R416). -/
def Flow.mayIssue (c : FlowCtx) (fl : Flow) (v : Nat) (k : KStream) : Bool :=
  let im : VTileImage := SMap.get {} c.tiles v
  let g := streamNo v k
  let t := fl.tile v
  let prog := fun (j : KStream) => match j with | .f => im.f | .b => im.b | .u => im.u
  let ownOpen := fun (l : Nat) => ((fl.queue v l).filter (fun y => y.stream == g)).length
  match (fl.stream g).rest with
  | [] => false
  | e :: _ =>
    let i := decodeKernel e.2.1
    let tokens := (tokenEventsAt (prog k) e.2).all (fun ev => match ev with
      | .use tok => t.tokens.getD tok .none == .held k
      | .take tok => t.tokens.getD tok .none == .transit k && fl.idle v tok
      | .pass tok dst => t.tokens.getD tok .none == .held k && decide (dst ≠ k))
    tokens && (match i with
      | .q o => decide ((fl.queue v (o.landing + if o.out then 2 else 0)).length < 16)
      | .wait sel n => decide (3 < sel) || decide (ownOpen sel ≤ n)
      | .mark _ _ _ =>
        (List.range 4).all (fun l => ownOpen l == 0)
          && (!(c.fold && cutMark im k i) || [KStream.f, .b, .u].all (fun j =>
            let y := fl.stream (streamNo v j)
            decide ((fl.stream g).cutsPast < y.cutsPast) || ((fl.next (streamNo v j)).map (fun n => cutMark im j n.2.1)).getD true))
      | _ => true)

/-- What an engine's instruction does with the store and the banks (rules R138, R193 to R195, R201, R204, R206 to R213). -/
def Flow.compute (c : FlowCtx) (fl : Flow) (p : StreamProg) (v : Nat) (k : KStream) (step : Nat) (i : KInst) (fs : List LoopFrame) : Flow :=
  let g := streamNo v k
  let seg := (fl.stream g).seg
  let fmt := fun (t : Nat) => (SMap.get {} c.x.tensors t : Tensor).fmt
  let onBank := fun (f : Flow) (b e no : Nat) => let y := f.stream g; f.setStream g { y with banked := SMap.set y.banked (4 * b + (e - 4)) (no + 1) }
  let source := fun (f : Flow) (no : Nat) (r : VecRec) (n : Nat) (uses : Bool) =>
    if uses && r.xsKind == 1 then
      match flowDesc p fs (r.xsSel % 1024) 0 with
      | none => f
      | some d => f.refer c v g 5 no step d.2 (some r.xsGen) true (laneSpans (if d.2 = 0xFFFFFF then .b32 else fmt d.2) d.1 r.xsStride n)
    else if uses && r.xsKind == 2 then
      match flowDesc p fs (r.xsSel % 1024) 2 with
      | none => f
      | some d =>
        let b := d.1.toNat / 16384 % 4
        onBank ((f.useBank v b k false).readBank v b ((List.range n).map (fun l => d.1.toNat % 16384 + l))) b 5 no
    else f
  let result := fun (f : Flow) (no : Nat) (r : VecRec) (n : Nat) =>
    match flowDesc p fs (r.xdSel % 1024) 0 with
    | none => f
    | some d => f.deposit v g 5 no step seg d.2 (laneSpans (if d.2 = 0xFFFFFF then .b32 else fmt d.2) d.1 r.xdStride n)
  match i with
  | .mm o =>
    let q := fl.issue g 4
    let r : PassRec := (tableGet p.passes o.pass).getD {}
    let side := fun (f : Flow) (desc gen : Nat) (tr : Bool) (ss gs e : Nat) => match flowDesc p fs desc 0 with
      | none => f
      | some d => f.refer c v g 4 q.2 step d.2 (some gen) false (operandSpans (fmt d.2) d.1 tr ss gs e r.k)
    let f1 := side q.1 o.aDesc o.genA o.ta r.sStrideA r.gStrideA r.m
    let f2 := side f1 o.bDesc o.genB o.tb r.sStrideB r.gStrideB r.n
    let f3 := onBank (f2.useBank v o.bank k o.acc) o.bank 4 q.2
    let name := fun (desc : Nat) => ((tableGet p.descs desc).map (fun d => d.tensor)).getD 0xFFFFFF
    let f4 := if o.acc then f3 else f3.setBank v o.bank {}
    f4.add v o.bank { lo := 0, hi := 16384, rows := r.m, cols := r.n, n := r.k, pair := (name o.aDesc, name o.bDesc), stream := g, step := step }
  | .vop o =>
    let q := fl.issue g 5
    let r : VecRec := (tableGet p.vecs o.vrec).getD {}
    let f1 := source q.1 q.2 r o.c (!(vopFromMask o.op) && (o.sa == 32 || o.sb == 32 || o.sc == 32))
    if o.dst == 32 && !(vopToMask o.op) && r.xdKind == 1 then result f1 q.2 r o.c else f1
  | .vred o =>
    let q := fl.issue g 5
    let r : VecRec := (tableGet p.vecs o.vrec).getD {}
    let f1 := source q.1 q.2 r o.c (o.src == 32)
    let t := f1.tile v
    let had := SMap.get (0, false) t.units o.unit
    let wide := o.dtype == 1
    let n := (if o.vmode = 1 then had.1 else 0) + o.c
    let f2 := if o.vmode = 2 then f1
      else (f1.setTile v { t with units := SMap.set t.units o.unit (n, wide) }).find
        ((o.kind == 0 || o.kind == 1 || o.kind == 6) && decide ((if wide then 2 ^ 42 else 2 ^ 47) < n)) 0x010E v
    if o.dst == 32 && r.xdKind == 1 then result f2 q.2 r o.c else f2
  | .cvt o =>
    let q := fl.issue g 6
    match flowDesc p fs o.dDesc 0 with
    | none => q.1
    | some d =>
      let n := o.rows * o.cols
      let f1 := match o.src with
        | 0 => match flowDesc p fs o.sDesc 2 with
          | none => q.1
          | some b =>
            let no := b.1.toNat / 16384 % 4
            let es := ((List.range o.rows).map (fun r => (List.range o.cols).map (fun j => b.1.toNat % 16384 + 128 * r + j))).flatten
            let y := q.1.bank v no
            let role := (SMap.get {} c.x.tensors d.2 : Tensor).role
            let index := (List.range n).filterMap (fun l => (tableGet p.coords o.cDesc).map (fun r => coordIndex r fs l))
            let twice := q.1.gradients.any (fun a => a.1 == d.2 && a.2.1 == step && index.contains a.2.2.1 && (a.2.2.2.1 != v || a.2.2.2.2 != no))
            let f2 := onBank ((q.1.useBank v no k false).readBank v no es) no 6 q.2
            let f3 := f2.find (role == 2 && (y.adds.any (fun a => a.part) || twice)) (openFind + 0x010D) v
            let f4 := if role = 2 then { f3 with gradients := index.map (fun l => (d.2, step, l, v, no)) ++ f3.gradients } else f3
            if o.clr then f4.setBank v no { cleared := true, before := y.adds ++ y.before } else f4
        | 1 => match flowDesc p fs o.sDesc 0 with
          | none => q.1
          | some b => q.1.refer c v g 6 q.2 step b.2 (some o.gen) false [(b.1, b.1 + (linearBytes (fmt b.2) n : Nat))]
        | _ => match flowDesc p fs o.sDesc 0 with
          | none => q.1
          | some b => q.1.refer c v g 6 q.2 step b.2 none true [(b.1, b.1 + (40 * n : Nat))]
      f1.deposit v g 6 q.2 step seg d.2 [(d.1, d.1 + (cvtBytes o (fmt d.2) : Nat))]
  | .dig count sDesc cDesc =>
    let q := fl.issue g 6
    match flowDesc p fs sDesc 0, tableGet p.coords cDesc with
    | some d, some r =>
      let e0 := coordEff r fs
      let span := (d.1, d.1 + ((64 * count : Nat) : Int))
      let ps := q.1.inStore v [span]
      let f1 := (q.1.refer c v g 6 q.2 step d.2 none false [span]).find
        (ps.any (fun x => x.blank || x.tensor != d.2 || decide (x.origin ≠ some (64 * e0 - d.1)))) 0x0107 v
      { f1 with digs := ps.map (fun x => (step, g, x.moved (64 * e0 - d.1))) ++ f1.digs }
    | _, _ => q.1
  | _ => fl

/-- A stream issues its next instruction. -/
def Flow.issueNext (c : FlowCtx) (fl : Flow) (v : Nat) (k : KStream) : Flow :=
  let im : VTileImage := SMap.get {} c.tiles v
  let p := match k with | .f => im.f | .b => im.b | .u => im.u
  let g := streamNo v k
  match (fl.stream g).rest with
  | [] => fl
  | e :: rest =>
    let i := decodeKernel e.2.1
    let fs := e.2.2
    let f0 := fl.setStream g { fl.stream g with rest := rest }
    let y := f0.stream g
    let t := f0.tile v
    let count := fun (en : Nat) => SMap.get 0 y.issued en
    match i with
    | .take tok =>
      let know := y.know.join (SMap.get {} t.with' tok)
      let brought := if tok = 3 ∨ tok = 4 then [KStream.f, .b, .u].foldl (fun m j => m.join (SMap.get {} t.brought (4 * streamNo v j + (tok - 3)))) know else know
      (f0.setStream g { y with know := brought }).setTile v { t with tokens := t.tokens.set tok (.held k) }
    | .pass dst tok =>
      let key := ClockKey g
      let know := if tok ≤ 2 then y.know.learn (key (4 + tok)) (count (4 + tok))
        else if tok ≤ 4 then y.know.learn (key (tok - 3)) (count (tok - 3))
        else if tok ≤ 6 then y.know.learn (key (tok + 2)) (count (tok + 2))
        else [4, 5, 6].foldl (fun m en => m.learn (key en) (SMap.get 0 y.banked (4 * (tok - 7) + (en - 4)))) y.know
      f0.setTile v { t with tokens := t.tokens.set tok (.transit (streamOfCode dst)), with' := SMap.set t.with' tok know }
    | .wait sel n =>
      let key := ClockKey g sel
      if 0 < n then f0.setStream g { y with know := y.know.suspect key (count sel - n) }
      else
        let k1 := (y.know.learn key (count sel)).join (if sel ≤ 3 then SMap.get {} t.brought (4 * g + sel) else {})
        f0.setStream g { y with know := if sel = 2 ∨ sel = 3 then k1.learn (ClockKey g (sel + 5)) (count (sel + 5)) else k1 }
    | .mark last _ id =>
      let k1 := (List.range 9).foldl (fun m en => m.learn (ClockKey g en) (count en)) y.know
      let k2 := (List.range 4).foldl (fun m l => m.join (SMap.get {} t.brought (4 * g + l))) k1
      f0.setStream g { y with know := k2, kernel := id, cutsPast := y.cutsPast + bnat (cutMark im k i)
                              seg := if last then 0 else y.seg + bnat (cutMark im k i) }
    | .q o =>
      let l := o.landing + if o.out then 2 else 0
      let d := (c.x.decls[o.stream]?).getD {}
      match flowDesc p fs o.tsDesc (if o.layout = 2 then 2 else 0) with
      | none => f0
      | some ts =>
        let sb := ((flowDesc p fs o.sDesc 1).map (fun q => q.1)).getD 0
        let f1 := (f0.issue g l).1
        let f2 := if o.out then (f1.issue g (l + 5)).1 else f1
        let z : Tensor := SMap.get {} c.x.tensors ts.2
        let size := if o.layout = 1 then stripeExtent z.fmt (z.shape.getLast?.getD 0) else 512 * o.count
        let f3 := if o.layout = 2 then
            let b := ts.1.toNat / 16384 % 4
            let f := f2.useBank v b k (!o.out)
            if o.out then f.readBank v b ((List.range (o.count / 3 * 64)).map (fun j => ts.1.toNat % 16384 + j)) else f
          else f2.access v g (if o.out then l + 5 else l) (if o.out then count (l + 5) else count l) (!o.out) [(ts.1, ts.1 + (size : Nat))]
        let f4 := if d.type = 0 then f3.memAccess v g l (count l) d.tensor o.out sb (sb + ((512 * o.count : Nat) : Int)) e.1 else f3
        let tr : FlowTransfer := { stream := g, q := o, ts := ts.1, sb := sb, tensor := ts.2, step := e.1, seg := (v, y.seg), know := y.know, no := count l, serial := f3.serial }
        f4.setQueue v l (f4.queue v l ++ [tr])
    | _ => f0.compute c p v k e.1 i fs

/-- Landings work as far as they can; the first argument bounds the transactions. -/
def Flow.work (c : FlowCtx) : Nat → Flow → Flow
  | 0, fl => fl
  | n + 1, fl =>
    match (c.tiles.map (fun q => (List.range 4).map (fun l => (q.1, l)))).flatten.findSome? (fun q => fl.startOne c q.1 q.2) with
    | none => fl
    | some f1 => Flow.work c n f1

/-- Streams issue in turn as far as they can; the first argument bounds the instructions. -/
def Flow.run (c : FlowCtx) : Nat → Flow → Flow
  | 0, fl => fl
  | n + 1, fl =>
    match (c.tiles.map (fun q => [(q.1, KStream.f), (q.1, .b), (q.1, .u)])).flatten.find? (fun q => fl.mayIssue c q.1 q.2) with
    | none => fl
    | some q =>
      let f1 := fl.issueNext c q.1 q.2
      let open' := sumNat ((f1.tiles.map (fun t => t.2.queues.map (fun y => sumNat (y.2.map (fun tr => tr.q.count))))).flatten)
      Flow.run c n (f1.work c open')

/-- The rank at the start of the followed steps. -/
def Flow.begin (c : FlowCtx) (steps : List Nat) (memory : SMap (List Piece)) : Flow :=
  let run := fun (p : StreamProg) => (steps.map (fun u => (executions p).map (fun e => (u, e)))).flatten
  { memory := memory
    tiles := c.tiles.map (fun q => (q.1, { tokens := holderTokens q.2.holders }))
    streams := ((c.tiles.map (fun q => [(streamNo q.1 .f, ({ rest := run q.2.f } : FlowStream)), (streamNo q.1 .b, { rest := run q.2.b }),
      (streamNo q.1 .u, { rest := run q.2.u })])).flatten).foldl (fun m q => SMap.set m q.1 q.2) [] }

def Flow.through (c : FlowCtx) (steps : List Nat) (memory : SMap (List Piece)) : Flow :=
  let f := Flow.begin c steps memory
  f.run c (sumNat (f.streams.map (fun y => y.2.rest.length)) + 1)

/-- Virtual tiles with a stream that stalls for ever. -/
def Flow.stalled (fl : Flow) : List Nat := (fl.streams.filter (fun y => !y.2.rest.isEmpty)).map (fun y => y.1 / 3)

/-- Digested blocks that a later write of the step replaces (rule R213). -/
def Flow.overtaken (fl : Flow) : List Nat :=
  (fl.digs.filter (fun d => fl.memories.any (fun a => a.write && a.space == d.2.2.tensor && a.step == d.1 && decide (a.lo < d.2.2.hi)
    && decide (d.2.2.lo < a.hi) && decide (d.2.2.version < a.serial)))).map (fun d => d.2.1 / 3)

/-- Whether every block of a weight is digested once in a step, in passing or by the U stream's `dig` passes (rules R42, R47). -/
def Flow.digestsWhole (x : Image) (fl : Flow) (t : Nat) : Bool :=
  let blocks := storedBytes (SMap.get {} x.tensors t) / 64
  let times := fun (b : Nat) => if x.digestPlan.inPassing then
      (fl.memories.filter (fun a => a.write && a.space == t && a.step == 2 && decide (a.lo ≤ 64 * (b : Int)) && decide (64 * (b : Int) < a.hi))).length
    else (fl.digs.filter (fun d => d.1 == 2 && d.2.1 % 3 == 2 && d.2.2.tensor == t && decide (d.2.2.lo ≤ 64 * (b : Int)) && decide (64 * (b : Int) < d.2.2.hi))).length
  (List.range blocks).all (fun b => times b == 1)

/-- Whether one step's `qout`s write a block of a distributed tensor twice, as a reader that also writes the range does (rule R326; DEDUCED,
assumption 31). -/
def Flow.copiedTwice (x : Image) (fl : Flow) (t : Nat) : Bool :=
  (List.range (storedBytes (SMap.get {} x.tensors t) / 64)).any (fun (b : Nat) => decide (1 < (fl.memories.filter (fun a =>
    a.write && a.space == t && a.step == 2 && decide (a.lo ≤ 64 * (b : Int)) && decide (64 * (b : Int) < a.hi))).length))

/-- Whether a directed graph has no cycle: segments without a predecessor are taken away until none is left. The first argument bounds the
rounds. -/
def acyclic : Nat → List ((Nat × Nat) × (Nat × Nat)) → Bool
  | 0, es => es.isEmpty
  | n + 1, es => es.isEmpty || acyclic n (es.filter (fun e => es.any (fun d => d.2 == e.1)))

/-- The segments of a virtual tile in one step: one more than its cuts that execute (rule R416). -/
def segmentCount (v : VTileImage) : Nat := 1 + ((executions v.f).filter (fun e => match decodeKernel e.1 with
  | .mark false _ id => v.cuts.any (fun q => q.1 == id)
  | _ => false)).length

/-- The segment graph of the job (rule R417). -/
def segmentEdges (x : Image) : List ((Nat × Nat) × (Nat × Nat)) :=
  let fl := Flow.through { x := x, tiles := x.vtiles, fold := true } [1] []
  let inside : List ((Nat × Nat) × (Nat × Nat)) :=
    (x.vtiles.map (fun (q : Nat × VTileImage) => (List.range (segmentCount q.2 - 1)).map (fun i => ((q.1, i), (q.1, i + 1))))).flatten
  (inside ++ fl.edges.filter (fun e => e.1 != e.2)).eraseDups

/-- FOLD (rule R417): a cut waits on what comes after it, or the segment graph has a cycle. -/
def foldBad (x : Image) : Bool :=
  let es := segmentEdges x
  !((Flow.through { x := x, tiles := x.vtiles, fold := true } [1] []).stalled.isEmpty && acyclic es.length es)

/-- Level of a segment: the length of the longest path that reaches it (rule R417); the first argument bounds it. -/
def segmentLevel (es : List ((Nat × Nat) × (Nat × Nat))) : Nat → Nat × Nat → Nat
  | 0, _ => 0
  | n + 1, g => (es.filter (fun e => e.2 == g)).foldl (fun m e => max m (1 + segmentLevel es n e.1)) 0

/-- Tile-store bytes that an execution refers to, each with the tensor it names them by, 0xFFFFFF for none. -/
def storeRefs (x : Image) (p : StreamProg) (e : Nat × List LoopFrame) : List (Nat × Int × Int) :=
  let fs := e.2
  let fmt := fun (t : Nat) => if t = 0xFFFFFF then .b32 else (SMap.get {} x.tensors t : Tensor).fmt
  let under := fun (i : Nat) (f : Int → Nat → List (Int × Int)) => match flowDesc p fs i 0 with
    | none => []
    | some d => (f d.1 d.2).map (fun q => (d.2, q.1, q.2))
  let lanes := fun (sel : Nat) (stride : Int) (n : Nat) => under (sel % 1024) (fun b t => laneSpans (fmt t) b stride n)
  let vector := fun (vrec n : Nat) (reads writes : Bool) =>
    let r : VecRec := (tableGet p.vecs vrec).getD {}
    (if reads && r.xsKind == 1 then lanes r.xsSel r.xsStride n else []) ++ (if writes && r.xdKind == 1 then lanes r.xdSel r.xdStride n else [])
  match decodeKernel e.1 with
  | .mm o =>
    let r : PassRec := (tableGet p.passes o.pass).getD {}
    under o.aDesc (fun b t => operandSpans (fmt t) b o.ta r.sStrideA r.gStrideA r.m r.k)
      ++ under o.bDesc (fun b t => operandSpans (fmt t) b o.tb r.sStrideB r.gStrideB r.n r.k)
  | .vop o => vector o.vrec o.c (!(vopFromMask o.op) && (o.sa == 32 || o.sb == 32 || o.sc == 32)) (o.dst == 32 && !(vopToMask o.op))
  | .vred o => vector o.vrec o.c (o.src == 32) (o.dst == 32)
  | .cvt o =>
    let n := o.rows * o.cols
    (if o.src = 0 then [] else under o.sDesc (fun b t => [(b, b + ((if o.src = 1 then linearBytes (fmt t) n else 40 * n : Nat) : Int))]))
      ++ under o.dDesc (fun b t => [(b, b + ((cvtBytes o (fmt t) : Nat) : Int))])
  | .dig count sDesc _ => under sDesc (fun b _ => [(b, b + ((64 * count : Nat) : Int))])
  | .q o =>
    if o.layout = 2 then [] else under o.tsDesc (fun b t =>
      let z : Tensor := SMap.get {} x.tensors t
      [(b, b + ((if o.layout = 1 then stripeExtent z.fmt (z.shape.getLast?.getD 0) else 512 * o.count : Nat) : Int))])
  | _ => []

/-- Every reference of a virtual tile's programs. -/
def tileRefs (x : Image) (v : VTileImage) : List (Nat × Int × Int) :=
  ([v.f, v.b, v.u].map (fun p => ((executions p).map (storeRefs x p)).flatten)).flatten

/-- The largest tile-store use of any virtual tile: the bytes up to the highest that it refers to, which are what a save keeps (rules R406,
R441; DEDUCED, assumption 31). -/
def tsUse (x : Image) : Nat :=
  ((x.vtiles ++ x.evalTiles).map (fun q => (tileRefs x q.2).foldl (fun m r => max m r.2.2.toNat) 0)).foldl max 0

/-- Whether a vector store of untyped words meets a region that the same virtual tile refers to as a tensor's (rule R139). -/
def rawMeetsTensor (x : Image) (v : VTileImage) : Bool :=
  let refs := tileRefs x v
  let stores := ([v.f, v.b, v.u].map (fun p => ((executions p).map (fun e => match decodeKernel e.1 with
    | .vop _ => (storeRefs x p e).filter (fun r => r.1 == 0xFFFFFF)
    | .vred _ => (storeRefs x p e).filter (fun r => r.1 == 0xFFFFFF)
    | _ => [])).flatten)).flatten
  stores.any (fun a => refs.any (fun b => b.1 != 0xFFFFFF && decide (a.2.1 < b.2.2) && decide (b.2.1 < a.2.2)))

end Sys2Proof.Machine
end

