-- ==== Sys2Proof/Machine/LoadChecks.lean ====
section
/-!
DEFINITION. What the loader checks of an image (rules R404 to R422 of 18_images_and_the_loader.md). The parts of
checks that follow data through the whole job are `Config.loadProof`: notes/assumptions/31.md says which parts of which check.
-/
namespace Sys2Proof.Machine

/-- Whether every byte of a range is zero. -/
def zeroAt (b : Bytes) (o n : Nat) : Bool := (bytesAt b o n).all (fun x => x == 0#8)

/-- Bits set in a way mask. -/
def popCount16 (m : Nat) : Nat := ((List.range 16).filter (bit m)).length

/-- Whether two sections share a byte. -/
def sectionsMeet (x y : Section) : Bool := decide (x.off < y.off + y.len) && decide (y.off < x.off + x.len)

/-- Whether no two of a list are related. -/
def pairwise {α : Type} (bad : α → α → Bool) : List α → Bool
  | [] => true
  | x :: xs => xs.all (fun y => !(bad x y)) && pairwise bad xs

/-- The directory is well formed (rule R405): known types in their counts, aligned, inside, apart. -/
def directoryOk (im : Bytes) (ss : List Section) (v version : Nat) : Bool :=
  let one := [1, 3, 5, 7, 8, 9]
  let tileOnce := fun (t : Nat) (need : Bool) => (List.range v).all (fun i =>
    let c := ((ofType ss t).filter (fun x => x.index == i)).length
    if need then c == 1 else decide (c ≤ 1))
  ss.all (fun x => decide (1 ≤ x.type) && decide (x.type ≤ 10) && x.off % 64 == 0 && decide (128 + 24 * ss.length ≤ x.off)
      && decide (x.off + x.len ≤ im.length) && (if x.type = 2 ∨ x.type = 4 then decide (x.index < v) else x.index == 0))
    && one.all (fun t => (ofType ss t).length == 1) && decide ((ofType ss 6).length ≤ 1) && decide ((ofType ss 10).length ≤ 1)
    && tileOnce 2 true && tileOnce 4 false && (version != 1 || (ofType ss 4).isEmpty) && pairwise sectionsMeet ss

/-- Instruction words with the number of times each executes in one run and its loop depth (rules R177, R183). -/
def walkLoops (pos : Nat) (stack : List (Nat × Nat)) : List Nat → List (Nat × Nat × Nat)
  | [] => []
  | w :: ws =>
    let st := stack.filter (fun e => decide (pos < e.1))
    let st1 := match decodeKernel w with
      | .loop trip body => (pos + 1 + body, trip) :: st
      | _ => st
    (w, st.foldl (fun m e => m * e.2) 1, st.length) :: walkLoops (pos + 1) st1 ws

/-- Loops nest inside each other and inside the program, at most four deep (rule R183). -/
def loopsOk (pos total : Nat) (stack : List Nat) : List Nat → Bool
  | [] => true
  | w :: ws =>
    let st := stack.filter (fun e => decide (pos < e))
    match decodeKernel w with
    | .loop _ body =>
      let stop := pos + 1 + body
      decide (st.length < 4) && decide (stop < total) && (match st with
        | [] => true
        | e :: _ => decide (stop ≤ e)) && loopsOk (pos + 1) total (stop :: st) ws
    | _ => loopsOk (pos + 1) total st ws

def isOpenMark (w : Nat) : Bool := match decodeKernel w with
  | .mark false _ _ => true
  | _ => false
def isEndMark (w : Nat) : Bool := match decodeKernel w with
  | .mark true _ _ => true
  | _ => false

/-- Kernel ids and durations of a program's marks. -/
def marksOf (p : StreamProg) : List (Nat × Nat) :=
  p.instrs.filterMap (fun w => match decodeKernel w with
    | .mark false d k => some (k, d)
    | _ => none)

/-- Every `bellwait` stands directly after an opening mark (rule R182). -/
def bellwaitsOk (before : Bool) : List Nat → Bool
  | [] => true
  | w :: ws => (match decodeKernel w with
    | .bellwait _ _ _ => before
    | _ => true) && bellwaitsOk (isOpenMark w) ws

/-- A vector record's fields beside its kinds lie in range, zero where its kinds give them no meaning (rules R189, R199). -/
def vecFieldsOk (v : VecRec) : Bool :=
  decide (v.xsKind ≤ 3) && decide (v.xdKind ≤ 1) && decide (v.dscale ≤ 2) && (v.xsKind == 1 || v.xsStride == 0)
    && (match v.xsKind with
      | 1 => decide (v.xsSel < 1024)
      | 2 => decide (v.xsSel < 1024)
      | 3 => decide (v.xsSel < 8192)
      | _ => true)

/-- AUX and PURPOSE of a record lie in the range of the operation that names it, zero where it takes none (rules R189, R199). -/
def recordUseOk (p : StreamProg) (w : Nat) : Bool :=
  let fits := fun (r op : Nat) => match tableGet p.vecs r with
    | some v => (op == 0x29 || v.purpose == 0) && (if op = 0x19 then decide (0xF0 ≤ v.aux) && decide (v.aux ≤ 0xFF)
        else decide (v.aux ≤ (if op = 0x20 ∨ op = 0x21 then 5 else if op = 0x29 then 3 else 0)))
    | none => true
  match decodeKernel w with
  | .vop o => fits o.vrec o.op
  | .vred o => fits o.vrec 0
  | _ => true

/-- A step program (rules R164, R177, R182, R183, R189). -/
def programOk (p : StreamProg) : Bool :=
  let ws := p.instrs
  decide (1 ≤ ws.length) && decide (ws.length ≤ 2 ^ 24) && (ws.head?.map isOpenMark).getD false && (ws.getLast?.map isEndMark).getD false
    && (ws.filter isEndMark).length == 1 && ws.all valuesDefined && loopsOk 0 ws.length [] ws
    && bellwaitsOk false ws && pairwise (fun x y => x.1 == y.1) (marksOf p)
    && (walkLoops 0 [] ws).all (fun q => !(isOpenMark q.1) || decide (q.2.1 ≤ 2 ^ 32))
    && [p.descs.length, p.passes.length, p.vecs.length, p.coords.length].all (fun n => decide (n ≤ 1023))
    && p.descs.all (fun d => decide (d.kind ≤ 2)) && p.vecs.all vecFieldsOk && ws.all (recordUseOk p)

/-- Fold cuts name kernels of their streams, outside every loop (rules R407, R416). -/
def cutsOk (v : VTileImage) : Bool :=
  let at1 := fun (p : StreamProg) (k : Nat) => (walkLoops 0 [] p.instrs).any (fun q => q.2.2 == 0 && (match decodeKernel q.1 with
    | .mark false _ j => j == k
    | _ => false))
  v.cuts.all (fun c => at1 v.f c.1 && at1 v.b c.2.1 && at1 v.u c.2.2)

/-- Tensor of a descriptor index. -/
def descTensor (p : StreamProg) (i : Nat) : Nat := ((tableGet p.descs i).map (fun d => d.tensor)).getD 0xFFFFFF

/-- Tensors that a program's conversion sites write, and whether the site rounds stochastically (rules R139, R205, R217). -/
def sitesOf (p : StreamProg) : List (Nat × Bool) :=
  let xd := fun (r : Nat) (sr : Bool) => match tableGet p.vecs r with
    | some v => if v.xdKind = 1 then some (descTensor p v.xdSel, sr) else none
    | none => none
  p.instrs.filterMap (fun w => match decodeKernel w with
    | .cvt o => some (descTensor p o.dDesc, o.sr)
    | .vop o => if o.dst = 32 then xd o.vrec o.sr else none
    | .vred o => if o.dst = 32 then xd o.vrec o.sr else none
    | _ => none)

/-- Tensors that a program reads from the tile store, with the generation, 0 CURRENT or 1 EARLIER (rules R91, R193, R199, R205). -/
def readsOf (p : StreamProg) : List (Nat × Nat) :=
  let xs := fun (r : Nat) => match tableGet p.vecs r with
    | some v => if v.xsKind = 1 then [(descTensor p v.xsSel, v.xsGen)] else []
    | none => []
  (p.instrs.map (fun w => match decodeKernel w with
    | .mm o => [(descTensor p o.aDesc, o.genA), (descTensor p o.bDesc, o.genB)]
    | .cvt o => if o.src ≠ 0 then [(descTensor p o.sDesc, o.gen)] else []
    | .vop o => xs o.vrec
    | .vred o => xs o.vrec
    | _ => [])).flatten

/-- Transactions that a program issues on a stream in one run (rules R171, R411). -/
def issuedOn (p : StreamProg) (stream : Nat) : Nat :=
  (walkLoops 0 [] p.instrs).foldl (fun n q => match decodeKernel q.1 with
    | .q o => if o.stream = stream then n + o.count * q.2.1 else n
    | _ => n) 0

def streamsOf (v : VTileImage) : List StreamProg := [v.f, v.b, v.u]

/-- The three streams' programs of an image's training tiles. -/
def trainPrograms (x : Image) : List StreamProg := (x.vtiles.map (fun q => streamsOf q.2)).flatten
def evalPrograms (x : Image) : List StreamProg := (x.evalTiles.map (fun q => streamsOf q.2)).flatten

/-- Role of a tensor; 8 for none. -/
def roleOf (x : Image) (t : Nat) : Nat := if SMap.has x.tensors t then (SMap.get {} x.tensors t : Tensor).role else 8
def isStateRole (r : Nat) : Bool := r == 3 || r == 4 || r == 5

/-- The header of a virtual tile's section agrees with its directory entry (rules R405, R407). -/
def tileSectionOk (im : Bytes) (s : Section) : Bool :=
  let b := bytesAt im s.off s.len
  decide (64 ≤ s.len) && fieldAt b 0 2 == s.index && vtileLen b == s.len

/-- FORMAT (rules R404 to R406). -/
def formatBad (im : Bytes) (ss : List Section) (x : Image) : Bool :=
  let r := resourcesOf (sectionBytes im ss 1)
  let declared :=
    r.v == (ofType ss 2).length && r.streams == x.decls.length && decide (32 ∣ (sectionBytes im ss 3).length)
      && r.tsBytes == tsUse x
      && r.maxDuration == ((trainPrograms x ++ evalPrograms x).map (fun p => (marksOf p).foldl (fun m q => max m q.2) 0)).foldl max 0
      && r.maxSeq == (x.tensors.map (fun t => let y : Tensor := t.2; if y.sequence then y.seqLen else 0)).foldl max 0
      && r.tensorBytes == sumNat (x.tensors.map (fun t => storedBytes t.2))
      && r.imagePorts == (x.decls.filter (fun d => d.type == 3)).foldl (fun m d => max m (d.imagePort + 1)) 0
  let ranges := decide (r.stateConfig ≤ 1) && decide (1 ≤ r.checkpoints) && decide (r.checkpoints ≤ 16) && decide (r.snapshot ≤ 1)
    && decide (r.imagePorts ≤ 16) && decide (1 ≤ r.v) && decide (r.v ≤ 1024) && decide (r.minWays ≤ 16) && decide (1 ≤ r.streams)
    && decide (r.streams ≤ 65536) && decide (r.maxSeq ≤ 2 ^ 20) && decide (r.tsBytes ≤ 8388608)
  let tiles := (ofType ss 2 ++ ofType ss 4).all (tileSectionOk im)
  !(decide (im.take 4 = asciiBytes "DRTN") && fieldAt im 8 8 == im.length && decide (1 ≤ ss.length) && decide (ss.length ≤ 65536)
    && decide (128 + 24 * ss.length ≤ im.length) && directoryOk im ss r.v (fieldAt im 4 1) && decide (bytesAt im 24 48 = imageDigest im)
    && ranges && tiles && declared)

/-- Reserved bytes and instruction fields of a virtual tile section (rules R164, R166, R190, R192, R199, R407). -/
def vtileReserved (b : Bytes) : Bool :=
  let tables := fun (i : Nat) =>
    let c := streamCounts b i
    let o0 := streamStart b i + 8 * c.getD 0 0
    let o1 := o0 + 32 * c.getD 1 0
    let o2 := o1 + 32 * c.getD 2 0
    let o3 := o2 + 32 * c.getD 3 0
    (recordsAt (fun d => zeroAt d 6 2 && zeroAt d 27 5) b o0 32 (c.getD 1 0)).all id
      && (recordsAt (fun d => decide (fieldAt d 3 1 < 128) && decide (fieldAt d 4 1 < 128) && decide (fieldAt d 5 1 < 4)) b o1 32 (c.getD 2 0)).all id
      && (recordsAt (fun d => decide (fieldAt d 1 1 < 2) && zeroAt d 9 1 && decide (fieldAt d 10 2 < 1024) && decide (fieldAt d 22 1 < 16)
          && decide (fieldAt d 24 2 < 1024) && zeroAt d 26 6) b o2 32 (c.getD 3 0)).all id
      && (recordsAt (fun d => zeroAt d 9 3) b o3 32 (c.getD 4 0)).all id
  let words := fun (i : Nat) => (recordsAt (fun d => zeroFields (leNat d)) b (streamStart b i) 8 ((streamCounts b i).getD 0 0)).all id
  zeroAt b 2 2 && zeroAt b 6 2 && (List.range 3).all words && decide (fieldAt b 8 4 < 2 ^ 22) && zeroAt b 12 4 && (List.range 3).all (fun i => zeroAt b (28 + 16 * i) 4)
    && (List.range 3).all tables && (recordsAt (fun d => zeroAt d 6 2) b (streamStart b 3) 8 (fieldAt b 4 2)).all id

/-- The entries of a scale-table section with their bytes; the first argument bounds their number. -/
def scaleEntriesOf : Nat → Bytes → List Bytes
  | 0, _ => []
  | fuel + 1, bs =>
    match bs with
    | [] => []
    | _ =>
      let size := scaleEntrySize (bit (fieldAt bs 3 1) 2) (fieldAt bs 12 4)
      bs.take size :: scaleEntriesOf fuel (bs.drop (align64 size))

/-- The reserved bits of a scale-table entry are zero (rules R11, R96). -/
def scaleReservedOk (e : Bytes) : Bool := decide (fieldAt e 3 1 < 16) && zeroAt e 22 2 && zeroAt e 28 4

/-- RESERVED (rule R11), over the sections whose layout the spec gives. -/
def reservedBadImage (im : Bytes) (ss : List Section) : Bool :=
  let r := sectionBytes im ss 1
  let plan := sectionBytes im ss 8
  let ids := fieldAt plan 8 4 + fieldAt plan 12 4
  let scales := sectionBytes im ss 7
  !(zeroAt im 7 1 && zeroAt im 20 4 && zeroAt im 72 56 && ss.all (fun x => x.reserved == 0) && zeroAt r 7 1 && zeroAt r 32 32
    && (ofType ss 2 ++ ofType ss 4).all (fun s => vtileReserved (bytesAt im s.off s.len))
    && zeroAt (sectionBytes im ss 5) 4 12
    && (tensorEntries (sectionBytes im ss 5)).all (fun e => decide (fieldAt e 5 1 < 64) && zeroAt e 29 1 && decide (fieldAt e 30 3 < 2 ^ 20) && zeroAt e 33 1
        && zeroAt e 39 1 && zeroAt e 52 12)
    && (List.range ((sectionBytes im ss 6).length / 2)).all (fun i => decide (fieldAt (sectionBytes im ss 6) (2 * i) 2 < 4096))
    && (scaleEntriesOf (scales.length / 64 + 1) scales).all scaleReservedOk
    && decide (fieldAt plan 6 1 < 2) && zeroAt plan 7 1 && (List.range ids).all (fun i => zeroAt plan (19 + 4 * i) 1))

/-- A tensor-table entry is admissible (rules R54, R55, R57, R89, R216, R408). -/
def tensorOk (tables initial : Nat) (e : Bytes) (x : Tensor) : Bool :=
  let dims := fieldAt e 6 1
  let q := x.fmt == .q4w || x.fmt == .q4a || x.fmt == .q8w || x.fmt == .q8a
  let ct := fieldAt e 34 2
  let roleFormat := match x.role with
    | 2 => x.fmt == .h16
    | 3 => x.fmt == .q4w || x.fmt == .q8w || x.fmt == .h16
    | 4 => x.fmt == .h16 || x.fmt == .b32
    | 5 => x.fmt == .h16 || x.fmt == .b32
    | _ => true
  decide (fieldAt e 0 3 < 0xFFFFFE) && decide (fieldAt e 3 1 ≤ 3) && decide (x.role ≤ 7) && decide (1 ≤ dims) && decide (dims ≤ 4)
    && x.shape.all (fun d => decide (1 ≤ d)) && (List.range 4).all (fun i => decide (i < dims) || fieldAt e (8 + 5 * i) 5 == 0)
    && decide (x.shape.foldl (· * ·) 1 ≤ 2 ^ 40) && (!x.weight || q)
    && (if x.perChannel then x.weight && decide (x.chAxis < dims) && x.channels == x.shape.getD x.chAxis 0 && decide (x.channels ≤ 65536)
        else x.channels == 1)
    && (if x.fmt = .q4w ∧ !x.defaultTable then decide (ct < tables) else ct == 0xFFFF) && (!x.defaultTable || x.fmt == .q4w)
    && !(x.managed && (x.fmt == .b32 || (x.fmt == .q4w && !x.defaultTable) || x.role == 0 || x.role == 7))
    && roleFormat && (x.initial == 2 ^ 64 - 1 || decide (x.initial + linearBytes x.fmt (x.shape.foldl (· * ·) 1) ≤ initial))

/-- Tensors whose memory a program reads by `qin`, or writes by `qout` (rule R171). -/
def queuedTensors (x : Image) (p : StreamProg) (out : Bool) : List Nat :=
  p.instrs.filterMap (fun w => match decodeKernel w with
    | .q o => (x.decls[o.stream]?).bind (fun d => if o.out = out ∧ d.type ≤ 1 then some d.tensor else none)
    | _ => none)

/-- Whether a site or a reference breaks the write rule of a role (rule R216): INPUT is the host's, ACTIVATION that of F and B in
training, EVAL an evaluation program's; a TEMP is not read by an EARLIER reference (what other reads find is `flowFinds`). What F and B write of state tensors is STATE_CONFIG
(notes/assumptions/32.md). -/
def writeRuleBroken (x : Image) : Bool :=
  let writes := fun (ps : List StreamProg) (bad : Nat → Bool) =>
    ps.any (fun p => ((sitesOf p).map (fun q => q.1) ++ queuedTensors x p true).any (fun t => bad (roleOf x t)))
  writes (trainPrograms x) (fun r => r == 0 || r == 7) || writes (x.vtiles.map (fun q => q.2.u)) (fun r => r == 1)
    || writes (evalPrograms x) (fun r => r == 0 || r == 1)
    || (trainPrograms x).any (fun p => (readsOf p).any (fun q => roleOf x q.1 == 6 && q.2 == 1))

/-- TENSOR_TABLE (rules R54, R55, R57, R89, R216, R408, R440). -/
def tensorTableBad (im : Bytes) (ss : List Section) (x : Image) : Bool :=
  let es := tensorEntries (sectionBytes im ss 5)
  let tables := (sectionBytes im ss 6).length / 32
  let rising := fun (l : List Nat) => SMap.sorted (l.map (fun i => (i, ())))
  let sites := (trainPrograms x).map sitesOf
  let written := fun (t : Nat) => sites.any (fun l => l.any (fun q => q.1 == t))
  !(rising (es.map (fun e => fieldAt e 0 3))
    && es.all (fun e => tensorOk tables (sectionBytes im ss 10).length e (SMap.get {} x.tensors (fieldAt e 0 3)))
    && x.tensors.all (fun p => let y : Tensor := p.2; !y.managed || written p.1) && !(writeRuleBroken x)
    && decide ((x.tensors.filter (fun p => isStateRole (p.2 : Tensor).role)).length ≤ 4064))

/-- Exponents of a per-channel tensor span at most 24 (rule R80). -/
def spanOk (l : List Int) : Bool := l.all (fun a => l.all (fun b => decide (a - b ≤ 24)))

/-- A scale-table entry's fields lie in their ranges and fit its tensor (rules R80, R96). -/
def scaleEntryOk (x : Image) (b : Bytes) : Bool :=
  let t := fieldAt b 0 3
  let y : Tensor := SMap.get {} x.tensors t
  let e := scaleEntryOfBytes y.fmt b
  let zmax := if y.fmt = .q4a then 15 else if y.fmt = .q8a then 255 else 0
  decide (b.length = scaleEntrySize e.perChannel e.channels) && SMap.has x.tensors t && decide (y.fmt ≠ .b32)
    && e.managed == y.managed && e.perChannel == y.perChannel
    && bit (fieldAt b 3 1) 3 == y.fmt.isAct && decide (1 ≤ e.histDepth) && decide (e.histDepth ≤ 32) && decide (e.margin ≤ 3)
    && e.channels == y.channels && decide (e.zCur ≤ zmax) && decide (e.zEarlier ≤ zmax) && spanOk e.chCur && spanOk e.chEarlier

/-- The padding of a per-channel entry's exponent arrays is zero (rule R96). -/
def scalePaddingOk (e : Bytes) : Bool :=
  let c := fieldAt e 12 4
  let w := (c + 15) / 16 * 16
  !(bit (fieldAt e 3 1) 2) || (zeroAt e (32 + c) (w - c) && zeroAt e (32 + w + c) (w - c))

/-- SCALE_TABLE (rules R80, R96): the initial table is the decision for step 1. -/
def scaleTableBad (im : Bytes) (ss : List Section) (x : Image) : Bool :=
  let b := sectionBytes im ss 7
  let es := scaleEntriesOf (b.length / 64 + 1) b
  let initial := fun (e : Bytes) =>
    let ringAt := 32 + (if bit (fieldAt e 3 1) 2 then 2 * ((fieldAt e 12 4 + 15) / 16 * 16) else 0)
    fieldAt e 16 4 == 1 && fieldAt e 24 4 == 0 && zeroAt e ringAt (e.length - ringAt)
  !(es.all (scaleEntryOk x) && es.all scalePaddingOk && es.all initial && pairwise (fun a c => fieldAt a 0 3 == fieldAt c 0 3) es
    && x.tensors.all (fun p => let y : Tensor := p.2; decide (y.fmt = .b32) || es.any (fun e => fieldAt e 0 3 == p.1)))

/-- PROGRAM (rules R164, R165, R176, R177, R182, R183, R189, R407, R416). -/
def programBad (x : Image) : Bool :=
  !((trainPrograms x).all programOk && (evalPrograms x).all programOk && x.vtiles.all (fun q => cutsOk q.2))

/-- Whether `n` elements of a tensor that a coordinate record names, or the positions that it gives, reach a position of 2^20 on the
tensor's sequence axis; an index past an axis that is not the outermost counts on within it (rules R190, R228; DEDUCED, assumption 31). -/
def positionReached (x : Image) (p : StreamProg) (fs : List LoopFrame) (cDesc n : Nat) (positions : Bool) : Bool :=
  match tableGet p.coords cDesc with
  | none => false
  | some r =>
    let y : Tensor := SMap.get {} x.tensors r.tensor
    let inner := (y.shape.drop (y.seqAxis + 1)).foldl (· * ·) 1
    let along := fun (i : Nat) => if y.seqAxis = 0 then i / max 1 inner else i / max 1 inner % max 1 y.seqLen
    SMap.has x.tensors r.tensor && y.sequence && (if positions then decide (2 ^ 20 ≤ coordEff r fs + ((n : Nat) : Int) - 1)
      else (List.range n).any (fun l => decide (2 ^ 20 ≤ along (coordIndex r fs l))))

/-- SEQUENCE, over every iteration (rule R228): the positions of coordinate records, of IOTA and of reductions, and an input window longer than
the sequence of the tensor it feeds, which a `qin` of an INPUT stream names at TSDESC (DEDUCED, assumption 31). -/
def sequencesBad (x : Image) (p : StreamProg) : Bool :=
  (executions p).any (fun e => match decodeKernel e.1 with
    | .cvt o => positionReached x p e.2 o.cDesc (o.rows * o.cols) false
    | .vop o => positionReached x p e.2 ((tableGet p.vecs o.vrec).getD {}).cdesc o.c (o.op == 0x28)
    | .vred o => positionReached x p e.2 ((tableGet p.vecs o.vrec).getD {}).cdesc o.c (o.vmode != 2 && (o.kind == 4 || o.kind == 5))
    | .q o => match x.decls[o.stream]?, flowDesc p e.2 o.tsDesc 0 with
      | some d, some t =>
        let a : Tensor := SMap.get {} x.tensors d.tensor
        let b : Tensor := SMap.get {} x.tensors t.2
        d.type == 1 && a.sequence && b.sequence && decide (b.seqLen < a.seqLen)
      | _, _ => false
    | _ => false)

/-- SEQUENCE (rule R228), the parts that the tables show. -/
def sequenceBad (x : Image) : Bool :=
  x.tensors.any (fun p => let y : Tensor := p.2
    y.sequence && (decide (y.shape.length ≤ y.seqAxis) || y.shape.getD y.seqAxis 0 != y.seqLen || decide (x.maxSeq < y.seqLen)))

/-- ROUNDING (rules R202, R217, R224): gradients round stochastically, and in NARROW every state tensor. -/
def roundingBad (x : Image) : Bool :=
  let must := fun (t : Nat) => roleOf x t == 2 || (x.stateConfig == 0 && isStateRole (roleOf x t))
  (trainPrograms x).any (fun p => (sitesOf p).any (fun q => !q.2 && must q.1))

/-- ROUNDING, the naming of coordinates (rule R202). -/
def coordinatesBad (x : Image) : Bool := !((trainPrograms x ++ evalPrograms x).all sitesNamed)

/-- OPERAND over every program (rules R70, R71, R134, R136 to R141, R144, R167, R170, R193, R194, R200, R206, R207, R213, R254). -/
def operandBad (x : Image) : Bool := !((trainPrograms x ++ evalPrograms x).all (operandsOk x))

/-- RANDOM over every program (rules R105, R106, R146, R190). -/
def randomBad (x : Image) : Bool := !((trainPrograms x ++ evalPrograms x).all (drawsOk x))

/-- STATE_CONFIG (rules R218, R223). -/
def stateConfigBad (x : Image) : Bool :=
  let fb := (x.vtiles.map (fun q => [q.2.f, q.2.b])).flatten
  x.tensors.any (fun p => let y : Tensor := p.2; (y.role == 4 || y.role == 5) && decide (y.fmt ≠ (if x.stateConfig = 0 then .h16 else .b32)))
    || fb.any (fun p => ((sitesOf p).map (fun q => q.1) ++ queuedTensors x p true).any (fun t => isStateRole (roleOf x t)) || (readsOf p).any (fun q => isStateRole (roleOf x q.1) && q.2 == 0))

/-- TOKEN_PROOF (rules R125, R128, R129, R179, R407): no token is coded 0b11, and one step's tokens run to its end. -/
def tokensBad (x : Image) : Bool :=
  (x.vtiles ++ x.evalTiles).any (fun q => (List.range 11).any (fun i => bits (q.2 : VTileImage).holders (2 * i) 2 == 3) || !(tokensOk q.2))

/-- DIGEST_PLAN (rules R47, R410). -/
def digestPlanBad (x : Image) : Bool :=
  let d := x.digestPlan
  !(decide (16 ≤ d.ringDepth) && decide (d.ringDepth ≤ 65536) && decide (d.k ≤ 4096) && d.order.length == x.tensors.length
    && x.tensors.all (fun p => d.order.contains p.1) && (d.order ++ d.weights).all (fun t => SMap.has x.tensors t))

/-- Levels whose contribution tensor is `t` (rule R324). -/
def levelsFed (x : Image) (t : Nat) : Nat := ((x.plan.sums.map sumLevels).flatten.filter (fun p => p.1 == t)).length

/-- A contribution transfer of a tensor that is not the contribution tensor of exactly one level of one SUM (rule R324). -/
def contributionBad (x : Image) (p : StreamProg) : Bool :=
  p.instrs.any (fun w => match decodeKernel w with
    | .q o => o.layout == 2 && !o.out && descTensor p o.tsDesc != 0xFFFFFF && levelsFed x (descTensor p o.tsDesc) != 1
    | _ => false)

/-- COLLECTIVE_PLAN, the parts of rules R322 to R324 and R412 that the plan's own indices, the tensor table and the programs show: every member
writes the contribution, H16 or binary32, and every level writes a tensor of its own. -/
def planBad (x : Image) : Bool :=
  let p := x.plan
  let fam := fun (f : Nat) => decide (f < p.families.length)
  let tensor := fun (t : Nat) => SMap.has x.tensors t
  let writes := fun (t : Nat) => (trainPrograms x).any (fun q => (sitesOf q).any (fun r => r.1 == t) || (queuedTensors x q true).contains t)
  let wide := fun (t : Nat) => let y : Tensor := SMap.get {} x.tensors t; y.fmt == .h16 || y.fmt == .b32
  !((trainPrograms x).all (fun q => !(contributionBad x q))
    && p.sums.all (fun q => wide q.contribution && writes q.contribution && pairwise (fun a b => a == b) (q.contribution :: q.intermediates ++ [q.output]))
    && decide (1 ≤ p.nMin) && decide (p.nMin ≤ p.nMax) && decide (1 ≤ p.levels.length) && decide (p.levels.length ≤ 3)
    && p.sums.all (fun q => fam q.family && tensor q.contribution && tensor q.output && q.intermediates.all tensor
        && q.intermediates.length + 1 == p.levels.length)
    && (p.voteFamily.map fam).getD true && (p.recordsFamily.map fam).getD true
    && p.distributes.all (fun q => fam q.1 && tensor q.2) && p.raws.all fam)

/-- EVAL_PROGRAM (rules R230, R231). -/
def evalBad (x : Image) : Bool :=
  let kernels := fun (v : VTileImage) => (streamsOf v).map (fun p => (marksOf p).map (fun q => q.1))
  let shared := x.evalTiles.any (fun q =>
    let a := kernels q.2
    let b := kernels (SMap.get {} x.vtiles q.1)
    (List.range 3).any (fun i => (a.getD i []).any (fun k => (b.getD i []).contains k)))
  let passing := fun (t : Nat) => roleOf x t == 1 || roleOf x t == 2 || roleOf x t == 6
  (evalPrograms x).any (fun p => (sitesOf p).any (fun q => q.1 != 0xFFFFFF && roleOf x q.1 != 7)
      || (queuedTensors x p true).any (fun t => roleOf x t != 7) || (queuedTensors x p false).any passing
      || (readsOf p).any (fun q => passing q.1 || (isStateRole (roleOf x q.1) && q.2 == 0)))
    || (trainPrograms x).any (fun p => (readsOf p).any (fun q => roleOf x q.1 == 7) || (queuedTensors x p false).any (fun t => roleOf x t == 7)) || shared
    || x.tensors.any (fun p => let y : Tensor := p.2; y.scaleSource && (y.role != 7 || roleOf x y.source == 7 || roleOf x y.source == 8))

/-- Every `qin` and `qout` of a virtual tile names a stream declared for that tile, landing and direction (rules R164, R260). -/
def queuesBound (x : Image) (q : Nat × VTileImage) : Bool :=
  (streamsOf q.2).all (fun p => p.instrs.all (fun w => match decodeKernel w with
    | .q o => (x.decls[o.stream]?.map (fun d => d.vtile == q.1 && d.landing == o.landing && d.outbound == o.out)).getD false
    | _ => true))

/-- STREAMS (rules R258, R260): stream numbers fit the range, and a declaration names a virtual tile and peers that exist. -/
def streamsBad (su : Suite) (x : Image) : Bool :=
  !((x.vtiles ++ x.evalTiles).all (queuesBound x) && decide (x.streams ≤ 1024 * su.res.blocks) && x.decls.all (fun d => decide (d.vtile < x.v)
    && (if d.type ≤ 1 then SMap.has x.tensors d.tensor else decide (d.peerStream < x.streams))))

/-- A stream's declared counts are not those the programs issue, or differ at its two ends (rules R171, R411). -/
def creditBad (x : Image) (i : Nat) : Bool :=
  let issued := fun (m : SMap VTileImage) (v : Nat) => sumNat ((streamsOf (SMap.get {} m v)).map (fun p => issuedOn p i))
  match x.decls[i]? with
  | none => false
  | some d => d.trainCount != issued x.vtiles d.vtile || d.evalCount != issued x.evalTiles d.vtile
      || (decide (2 ≤ d.type) && (match x.decls[d.peerStream]? with
        | none => true
        | some e => e.trainCount != d.trainCount || e.evalCount != d.evalCount || e.outbound == d.outbound))

/-- CREDITS (rules R171, R411). -/
def creditsBad (x : Image) : Bool := (List.range x.decls.length).any (creditBad x)

/-- Sizes of the areas of a suite in order (rule R414); `fold` gives the fold buffers' bytes. -/
def areaSizes (im : Bytes) (ss : List Section) (x : Image) (buffers : Nat) : List Nat :=
  let scale := (sectionBytes im ss 7).length
  let state := sumNat ((stateTensors x).map (fun p => storedBytes p.2))
  [imageAreaBytes ss, x.tensorBytes, scale, x.digestPlan.ringDepth * (x.tensors.length + 3) * 48, 2 ^ 24, 10027008 * x.v + buffers,
   if x.snapshot then 2 * (state + scale) else 0, x.checkpoints * (state + scale + headerSize)]

/-- Bases of areas that start on 4 KiB boundaries, and the end of the last. -/
def areaBases (sizes : List Nat) : List Nat :=
  (sizes.foldl (fun (acc : Nat × List Nat) z => (align4k acc.1 + z, acc.2 ++ [align4k acc.1])) (0, [])).2
    ++ [(sizes.foldl (fun a z => align4k a + z) 0)]

/-- Bytes of the fold buffers of a map (rule R418): entries whose consumer lies on a folded tile. -/
def bufferBytes (x : Image) (m : SMap Nat) : Nat :=
  let folded := fun (v : Nat) => decide (1 < (m.filter (fun q => q.2 == SMap.get 0 m v)).length)
  sumNat (x.decls.map (fun d => if (d.type == 2 || d.type == 3) && !d.outbound && folded d.vtile then 512 * max d.trainCount d.evalCount else 0))

/-- The checks that a resume repeats (rules R415, R417, R421, R422): 21 to 28, in order, for `l` usable tiles and `cap` bytes. `sizes` are
the areas' sizes. -/
def placeFailure (s : State) (n : Nat) (su : Suite) (x : Image) (raw : Bytes) (l : List Nat) (cap : Nat) (sizes : List Nat) : Option Nat :=
  let bases := areaBases sizes
  let wings := (su.res.pcs.map (fun p => p / 64)).eraseDups
  if l.length = 0 ∨ 16 < foldFactor x.v l.length then some 0x0115
  else if x.v > l.length ∧ foldBad x then some 0x0116
  else if 8388608 < x.tsBytes then some 0x0117
  else if cap < bases.getD 5 0 then some 0x0118
  else if cap < bases.getD 8 0 then some 0x0119
  else if wings.any (fun w => decide (popCount16 (SMap.get 0 su.res.ways w) < x.minWays)) then some 0x011A
  else if su.res.ports.length < x.imagePorts then some 0x011B
  else if routesFail s n { su with job := {} } x (gridMap x.v l) su.res.pcs then some 0x011C
  else none

/-- What following the training programs through three steps and then the evaluation programs through one finds, status and virtual tile. A
stream that stalls for ever counts only where sends and posts match, since it is a cycle that rule R128 refuses. -/
def flowFinds (x : Image) : List (Nat × Nat) :=
  let fl := Flow.through { x := x, tiles := x.vtiles } [1, 2, 3] []
  let fe := Flow.through { x := x, tiles := x.evalTiles, eval := true } [4] fl.memory
  let late := fun (f : Flow) => (if creditsBad x then [] else f.stalled.map (fun v => (0x010C, v))) ++ f.overtaken.map (fun v => (0x0107, v))
  let shards := if 1 < x.plan.nMax then openFind else 0
  fl.finds ++ late fl ++ fe.finds ++ late fe
    ++ (if x.digestPlan.k = 0 then [] else (x.digestPlan.weights.filter (fun t => !(fl.digestsWhole x t))).map (fun _ => (shards + 0x010F, 0xFFFF)))
    ++ (x.plan.distributes.filter (fun d => fl.copiedTwice x d.2)).map (fun _ => (0x0110, 0xFFFF))
    ++ ((x.vtiles ++ x.evalTiles).filter (fun q => rawMeetsTensor x q.2)).map (fun q => (openFind + 0x0107, q.1))

/-- Whether a refusal was found; where the image may or may not earn it, `free` says. -/
def foundBad (finds : List (Nat × Nat)) (status : Nat) (free : Bool) : Bool :=
  finds.any (fun f => f.1 == status) || (free && finds.any (fun f => f.1 == openFind + status))

/-- Whether a program of a plan that admits several ranks writes a state tensor: which rank then writes which element is the plan's matter
(rules R225, R326, R328), which its layout does not show. -/
def sharedState (x : Image) : Bool :=
  decide (1 < x.plan.nMax) && (trainPrograms x).any (fun p => ((sitesOf p).map (fun q => q.1) ++ queuedTensors x p true).any (fun t => isStateRole (roleOf x t)))

/-- The virtual tile that a refusal's check is tied to, 0xFFFF where it is tied to none (rule R421): the first of the image whose own
section, program or stream fails. `none` stands for a check that only a free bit fails. -/
def refusedTile (su : Suite) (x : Image) (raw : Bytes) (status : Nat) : Option Nat :=
  let followed := ((flowFinds x).find? (fun f => f.1 == status || f.1 == openFind + status)).map (fun f => f.2)
  let ss := sectionsOf raw
  let inSection := fun (bad : Section → Bool) => ((ofType ss 2 ++ ofType ss 4).find? bad).map (fun s => s.index)
  let tile := fun (bad : Nat × VTileImage → Bool) => ((x.vtiles ++ x.evalTiles).find? bad).map (fun q => q.1)
  let program := fun (ok : StreamProg → Bool) => tile (fun q => (streamsOf q.2).any (fun p => !(ok p)))
  let must := fun (t : Nat) => roleOf x t == 2 || (x.stateConfig == 0 && isStateRole (roleOf x t))
  match status with
  | 0x0101 => some ((inSection (fun s => !(tileSectionOk raw s))).getD 0xFFFF)
  | 0x0103 => some ((inSection (fun s => vtileReserved (bytesAt raw s.off s.len) == false)).getD 0xFFFF)
  | 0x0106 => tile (fun q => !((streamsOf q.2).all programOk) || !(cutsOk q.2))
  | 0x0107 => (program (operandsOk x)).or followed
  | 0x0109 => program (drawsOk x)
  | 0x010A => ((x.vtiles.find? (fun q => (streamsOf q.2).any (fun p => (sitesOf p).any (fun c => !c.2 && must c.1)))).map (fun q => q.1)).or
      (program sitesNamed)
  | 0x010B =>
    let writes := fun (p : StreamProg) => ((sitesOf p).map (fun c => c.1) ++ queuedTensors x p true).any (fun t => isStateRole (roleOf x t))
      || (readsOf p).any (fun c => isStateRole (roleOf x c.1) && c.2 == 0)
    (x.vtiles.find? (fun q => writes q.2.f || writes q.2.b)).map (fun q => q.1)
      |>.or (if stateConfigBad x then some 0xFFFF else none)
  | 0x0104 => if tensorTableBad raw ss x then some 0xFFFF else followed
  | 0x010C => (tile (fun q => tokensBad { x with vtiles := [q], evalTiles := [] })).or followed
  | 0x0108 => if sequenceBad x then some 0xFFFF else program (fun p => !(sequencesBad x p))
  | 0x010D => followed
  | 0x010E => followed
  | 0x010F => if digestPlanBad x then some 0xFFFF else followed
  | 0x0110 => if planBad x then some 0xFFFF else followed
  | 0x0111 => (tile (fun q => evalBad { x with vtiles := x.vtiles.filter (fun r => r.1 == q.1), evalTiles := x.evalTiles.filter (fun r => r.1 == q.1)
                                               tensors := SMap.mapVals x.tensors (fun _ y => { y with scaleSource := false }) })).or (some 0xFFFF)
  | 0x0112 => (tile (fun q => (streamsOf q.2).any (fun p => (marksOf p).any (fun m => decide (su.slice.grace < m.2))))).or (some 0xFFFF)
  | 0x0113 => (tile (fun q => !(queuesBound x q))).or (some 0xFFFF)
  | 0x0114 => (x.decls.zipIdx.find? (fun d => creditBad x d.2)).map (fun d => d.1.vtile)
  | 0x011C => none
  | _ => some 0xFFFF

/-- The load checks in order (rule R421): the status of the first that fails. `r` is the session that carried the command. -/
def loadFailure (s : State) (n : Nat) (r : Ring) (raw : Bytes) : Option Nat :=
  let su := getSuite s n
  let ss := sectionsOf raw
  let x := imageOf raw
  let l := suiteTiles s n
  let proof := fun (k : Nat) => Config.loadProof k raw
  let found := fun (status k : Nat) => foundBad (flowFinds x) status (proof k)
  let checks : List (Nat × (Unit → Bool)) :=
    [(0x0101, fun _ => formatBad raw ss x),
     (0x0102, fun _ => !(r.imageVersions.contains (fieldAt raw 4 1)) || !(r.digestVersions.contains (fieldAt raw 5 1)) || decide (r.cmdVersion < fieldAt raw 6 1)),
     (0x0103, fun _ => reservedBadImage raw ss), (0x0104, fun _ => tensorTableBad raw ss x || (!(programBad x) && found 0x0104 4)),
     (0x0105, fun _ => scaleTableBad raw ss x),
     (0x0106, fun _ => programBad x), (0x0107, fun _ => operandBad x || found 0x0107 7),
     (0x0108, fun _ => sequenceBad x || (trainPrograms x ++ evalPrograms x).any (sequencesBad x)),
     (0x0109, fun _ => randomBad x), (0x010A, fun _ => roundingBad x || coordinatesBad x),
     (0x010B, fun _ => stateConfigBad x || (sharedState x && proof 11)), (0x010C, fun _ => tokensBad x || found 0x010C 12),
     (0x010D, fun _ => found 0x010D 13), (0x010E, fun _ => found 0x010E 14), (0x010F, fun _ => digestPlanBad x || found 0x010F 15),
     (0x0110, fun _ => planBad x || found 0x0110 16),
     (0x0111, fun _ => evalBad x), (0x0112, fun _ => decide (su.slice.grace < x.maxDuration)),
     (0x0113, fun _ => streamsBad su x), (0x0114, fun _ => creditsBad x)]
  match checks.find? (fun c => c.2 ()) with
  | some c => some c.1
  | none => placeFailure s n su x raw l (su.res.pcs.length * pcCapacity s) (areaSizes raw ss x (bufferBytes x (gridMap x.v l)))

end Sys2Proof.Machine
end

