-- ==== Sys2Proof/Machine/CmdSuite.lean ====
section
/-!
DEFINITION. Commands of class 0x02: suites, images and input bindings (rules R394, R403, R409, R414, R421 to R426, R458, R460).
-/
namespace Sys2Proof.Machine

/-- Tiles of a wing. -/
def wingTiles (w : Nat) : List Nat := (List.range 10).map (fun j => w * 10 + j)

/-- A usable spare that is held back (rule R460). -/
def idleSpare (s : State) (t : Nat) : Bool :=
  usableTile s t && !(s.fuse.tiles.contains t) && !(getTile s t).health.inService && (getTile s t).suite.isNone

/-- Spares take the places of retired grade tiles, wing by wing (rule R458): the pairs of a retired tile and its spare. -/
def sparePairs (s : State) (w : Nat) : List (Nat × Nat) :=
  let lost := (wingTiles w).filter (fun t => s.fuse.tiles.contains t && (getTile s t).health.retired)
  let used := ((wingTiles w).filter (fun t => !(s.fuse.tiles.contains t) && (getTile s t).health.inService)).length
  (lost.drop used).zip ((wingTiles w).filter (idleSpare s))

/-- Put spares in service (rule R458); a suite `n` that holds the retired tile holds the spare in its place. -/
def settleSpares (s : State) (n : Option Nat) : State :=
  ((s.fuse.wings.map (sparePairs s)).flatten).foldl (fun st p =>
    let s1 := updTile st p.2 (fun x => { x with health := { x.health with inService := true } })
    match n with
    | none => s1
    | some m => updSuite s1 m (fun su => { su with res := { su.res with tiles := su.res.tiles.map (fun t => if t = p.1 then p.2 else t) } })) s

/-- Bits of an `n`-byte field, rising. -/
def setBits (b : Bytes) (o n : Nat) : List Nat := (List.range (8 * n)).filter (bit (fieldAt b o n))

/-- What CREATE_SUITE asks for (rule R394). -/
def askedRes (body : Bytes) : SuiteRes :=
  { tiles := setBits body 0 10, pcs := setBits body 12 64, granted := setBits body 12 64, blocks := fieldAt body 92 1
    ways := (List.range 8).filterMap (fun w => if fieldAt body (76 + 2 * w) 2 = 0 then none else some (w, fieldAt body (76 + 2 * w) 2))
    ports := (List.range 16).filterMap (fun p => if fieldAt body (96 + p) 1 = 0 then none else some (p, fieldAt body (96 + p) 1)) }

/-- The lowest block from which `k` blocks of entries are free (rule R258). -/
def freeBlocks (s : State) (k : Nat) : Option Nat :=
  let taken := fun (b : Nat) => s.suites.any (fun p => decide (p.2.res.baseBlock ≤ b) && decide (b < p.2.res.baseBlock + p.2.res.blocks))
  (List.range 64).find? (fun b => decide (b + k ≤ 64) && (List.range k).all (fun i => !(taken (b + i))))

/-- Port slots that suites hold, in units of 16. -/
def heldShares (s : State) (p : Nat) : Nat := sumNat (s.suites.map (fun q => ((q.2.res.ports.find? (fun x => x.1 == p)).map (fun x => x.2)).getD 0))

/-- The first resource that cannot be given (rules R389, R394, R425, R426): STATUS and DETAIL. -/
def resourceBad (s : State) (r : SuiteRes) : Option (Nat × Nat) :=
  let others := s.suites.map (fun p => p.2)
  match r.tiles.find? (fun t => !(inService s t)), r.pcs.find? (fun p => !(usablePc s p)), r.ports.find? (fun p => !(portPresent s p.1)) with
  | some t, _, _ => some (0x0306, t)
  | none, some p, _ => some (0x0306, p)
  | none, none, some p => some (0x0306, p.1)
  | none, none, none =>
    if others.any (fun o => o.slice.slice == 0 && o.res.tiles.any r.tiles.contains) then some (0x0305, 1)
    else if others.any (fun o => o.res.granted.any r.granted.contains) then some (0x0305, 2)
    else if others.any (fun o => o.res.ways.any (fun w => (SMap.get 0 r.ways w.1) &&& w.2 != 0)) then some (0x0305, 3)
    else if (freeBlocks s r.blocks).isNone then some (0x0305, 4)
    else if r.ports.any (fun p => decide (16 < heldShares s p.1 + p.2)) then some (0x0305, 5)
    else none

/-- Owners of the ways of a suite (rules R248, R251): a change of owner writes back and invalidates. -/
def takeWays (s : State) (n : Nat) (ways : SMap Nat) : State :=
  ways.foldl (fun st w => updWing st w.1 (fun x => { x with
    wayOwner := ((List.range 16).filter (bit w.2)).foldl (fun m i => SMap.set m i n) x.wayOwner })) s

/-- SLICE_BELLS of a suite that shares tiles (rule R426): the smallest of those it shares with. -/
def sharedSlice (s : State) (r : SuiteRes) : Nat :=
  ((s.suites.filter (fun p => p.2.res.tiles.any r.tiles.contains)).map (fun p => p.2.slice.slice)).foldl (fun m x => if m = 0 then x else min m x) 0

/-- CREATE_SUITE (rules R258, R268, R394, R425, R426). -/
def execCreateSuite (src : Src) (tag : Nat) (s : State) : Host.Outcome State Fault Refusal :=
  runCommand 0x0200 src tag s (fun st _ _ n body =>
    if (getSuite st n).state ≠ .absent then deny st 0x0304 0
    else
      let s1 := settleSpares st none
      let r := askedRes body
      match resourceBad s1 r with
      | some (x, d) => deny s1 x d
      | none =>
        let base := (freeBlocks s1 r.blocks).getD 0
        let su : Suite := { state := .empty, res := { r with baseBlock := base }, slice := { slice := sharedSlice s1 r } }
        done (suiteEvent (takeWays (setSuite s1 n su) n r.ways) n 0x0380 (natLE n 1 ++ natLE 0xFF 1 ++ natLE 0 1 ++ natLE 0 5)) (natLE (1024 * base) 4))

/-- Whether a job that the top manager holds names a suite of this module (rule R403). -/
def namedInJob (s : State) (n : Nat) : Bool :=
  s.mgr.jobs.any (fun p => p.2.started && ((p.2.ranks.map (fun r => r.2)) ++ p.2.spares).any (fun m => m.1 == ownId s && m.2 == n))

/-- A suite goes, and with it its virtual function's session (rules R251, R394, R425, R458). -/
def removeSuite (s0 : State) (n : Nat) : State :=
  let s := settlePcs s0 n
  let pcs := (getSuite s n).res.granted
  let s1 := unseatAll (freeEntries s n) n
  let s2 : State := { s1 with
    suites := SMap.erase s1.suites n
    bell := { s1.bell with events := s1.bell.events.filter (fun e => e.suite != n) }
    wings := SMap.mapVals s1.wings (fun _ w => { w with
      wayOwner := w.wayOwner.filter (fun o => o.2 != n), lines := w.lines.filter (fun l => !(pcs.contains (linePc l.1))) }) }
  updRing s2 (n + 1) (fun r => { r with session := false, features := 0, held := [] })

/-- Errors of dirty lines met while the ways of a deleted suite are written back (rule R256): the bytes are lost, and the record is against
the way; the suite no longer exists, and nothing of it is poisoned. -/
def lostWriteBacks (s : State) (n : Nat) (obs : List MemObs) (after : State) : State :=
  obs.foldl (fun st o => match o with
    | .cacheDirtyUe w line way off => if obsOfSuite s n o && holdsLine s w line true then cacheDirtyLost st w line way off 0 {} false else st
    | _ => st) after

/-- DELETE_SUITE (rules R251, R256, R394, R403). -/
def execDeleteSuite (src : Src) (tag : Nat) (obs : List MemObs) (s : State) : Host.Outcome State Fault Refusal :=
  runCommand 0x0201 src tag s (fun st _ _ n _ =>
    let x := (getSuite st n).state
    if (x = .empty ∨ x = .loaded) ∧ namedInJob st n = false then done (lostWriteBacks st n obs (removeSuite st n)) [] else denyState st n)

/-- Record the latest load status (rule R424). -/
def setLoad (s : State) (n status detail loc : Nat) : State :=
  updSuite s n (fun su => { su with load := { su.load with status := status, detail := detail, location := loc } })

/-- LOAD_IMAGE starts (rules R394, R421): the image already loaded is discarded; the rest is BULK_COMMAND_COMPLETE. -/
def execLoadImage (src : Src) (tag : Nat) (s : State) : Host.Outcome State Fault Refusal :=
  runCommand 0x0202 src tag s (fun st _ _ n _ =>
    let x := (getSuite st n).state
    if x = .empty ∨ x = .loaded then later (updSuite (unseatAll st n) n (fun su => { su with image := none, routes := [] })) else denyState st n)

/-- Copy the image area (rule R414). -/
def copyImageArea (s : State) (n : Nat) (raw : Bytes) (ss : List Section) : State :=
  ((areaSections ss).foldl (fun (acc : Nat × State) x => (acc.1 + align64 x.len, suiteSetBytes acc.2 n acc.1 (bytesAt raw x.off x.len))) (0, s)).2

/-- Give every tensor its initial contents, or zero (rules R32, R408). -/
def initTensors (s : State) (n : Nat) (raw : Bytes) (im : Image) : State :=
  im.tensors.foldl (fun st p =>
    let x : Tensor := p.2
    let cleared := suiteClear st n x.base (storedBytes x)
    if x.initial = 2 ^ 64 - 1 then cleared
    else suiteSetBytes cleared n x.base (bytesAt raw (im.initialAt + x.initial) (linearBytes x.fmt (x.shape.foldl (· * ·) 1)))) s

/-- The suite after an accepted load (rules R394, R414 to R416, R424): resources and slices stay, all else is as the image says. -/
def loadedSuite (s : State) (n : Nat) (raw : Bytes) : Suite :=
  let su := getSuite s n
  let ss := sectionsOf raw
  let im := imageOf raw
  let l := suiteTiles s n
  let m := gridMap im.v l
  let bases := areaBases (areaSizes raw ss im (bufferBytes im m))
  { state := su.state, res := su.res, image := some im, vmap := m, fold := foldFactor im.v l.length
    scale := scaleTableOf im ((sectionBytes raw ss 7).length / 64 + 1) (sectionBytes raw ss 7)
    slice := { su.slice with resumeAsked := false, waitingSlice := false }
    counts := { su.counts with clamp := 0, adapt := 0, satTotal := 0, satStep := 0 }
    timeoutMs := su.timeoutMs, inputTimeoutS := su.inputTimeoutS
    areas := (List.range bases.length).map (fun i => (i, bases.getD i 0))
    load := { su.load with saveBase := bases.getD 5 0, ptiles := l.length } }

/-- The virtual tiles take their places as the image starts, tokens assigned (rules R110, R130, R415), where no other suite's are
resident. -/
def seatLoaded (s : State) (n : Nat) (im : Image) : State :=
  let m := (getSuite s n).vmap
  (suiteTiles s n).foldl (fun st t =>
    match m.filter (fun q => q.2 == t) with
    | [] => st
    | (v, _) :: rest =>
      if (getTile st t).suite.isNone then updTile st t (fun x => seat x n v (rest.length + 1) (freshCore (SMap.get {} im.vtiles v) 1)) else st) s

/-- The reply of a load refusal (rule R421). -/
def loadRefused (s : State) (src : Src) (tag n status : Nat) (raw : Bytes) : State :=
  let check := status - 0x0100
  let off := Config.loadPlace 1 check raw % 2 ^ 64
  let detail := (refusedTile (getSuite s n) (imageOf raw) raw status).getD (Config.loadPlace 0 check raw % 2 ^ 16)
  finish (setLoad (emptySuite s n) n status detail off) src tag status detail (natLE off 8 ++ natLE (Config.loadPlace 2 check raw) 4)

/-- LOAD_IMAGE completes (rules R390, R394, R421). -/
def finishLoad (s : State) (src : Src) (w : Waiting) : State :=
  let n := targetOf src w.pkt
  let body := bodyOf w.pkt
  let a := fieldAt body 0 8
  let len := fieldAt body 8 8
  let fail := fun (st : Nat) => finish (setLoad (emptySuite s n) n st 0 (2 ^ 64 - 1)) src w.pkt.tag st 0 []
  if hostFails s a len then fail 0x0402
  else
    let raw := hostBytes s a len
    if imageDigest raw ≠ bytesAt body 16 48 then fail 0x0403
    else
      let s0 := settlePcs (settleSpares s (some n)) n
      let s1 := updSuite s0 n (fun su => { su with res := { su.res with pcs := plannedPcs s0 n } })
      match loadFailure s1 n (getRing s (ringKey src)) raw with
      | some st => loadRefused s1 src w.pkt.tag n st raw
      | none =>
        let su := loadedSuite s1 n raw
        let im := imageOf raw
        let s2 := dirtyLines (initTensors (copyImageArea (setSuite (freeEntries s1 n) n su) n raw (sectionsOf raw)) n raw im) n 0
          (su.res.pcs.length * pcCapacity s1)
        let s3 := setSuiteState (bindEntries s2 n {}) n .loaded
        finish (setLoad (seatLoaded s3 n im) n 0 0 (2 ^ 64 - 1)) src w.pkt.tag 0 0
          (natLE im.v 4 ++ natLE (suiteTiles s1 n).length 4 ++ natLE su.fold 1 ++ natLE 0 3)

/-- The entries of a BIND_INPUTS payload (rule R394). -/
def askedBindings (body : Bytes) : List Binding :=
  (List.range (fieldAt body 50 2)).map (fun i =>
    let o := 56 + 16 * i
    { tensor := fieldAt body o 3, kind := fieldAt body 48 1, base := fieldAt body (o + 4) 5, len := fieldAt body (o + 9) 5 })

def regionsMeet (x y : Binding) : Bool := decide (x.base < y.base + y.len) && decide (y.base < x.base + x.len)

/-- Whether programs of a kind read an INPUT tensor (rule R409): a stream of it carries transactions in them. -/
def inputRead (im : Image) (t kind : Nat) : Bool :=
  im.decls.any (fun d => d.type == 1 && d.tensor == t && decide (0 < (if kind = 0 then d.trainCount else d.evalCount)))

/-- Whether bindings break rule R409: `kept` are the bindings of the other kind. -/
def bindingsBad (s : State) (n : Nat) (im : Image) (bs kept : List Binding) : Bool :=
  let su := getSuite s n
  let cap := su.res.pcs.length * pcCapacity s
  let bad := fun (b : Binding) =>
    let x : Tensor := SMap.get {} im.tensors b.tensor
    let w := storedBytes x
    !(SMap.has im.tensors b.tensor && x.role == 0 && inputRead im b.tensor b.kind && decide (0 < w) && b.len % w == 0 && decide (2 * w ≤ b.len)
      && decide (SMap.get 0 su.areas 8 ≤ b.base) && decide (b.base + b.len ≤ cap))
  bs.any bad || !(pairwise regionsMeet (bs ++ kept)) || !(pairwise (fun x y => x.tensor == y.tensor) bs)

/-- The INPUT entries take the regions of the training bindings (rules R261, R394). -/
def bindRegions (s : State) (n : Nat) : State :=
  (suiteEntries s n).foldl (fun st e => updEntry st e (fun x =>
    if x.type = typeInput then
      match bindingOf (getSuite s n) x.tensor 0 with
      | some b => { x with regionBase := b.base, regionLen := b.len }
      | none => x
    else x)) s

/-- Replace the bindings of a kind (rules R394, R403): a window that runs keeps its own until it ends. -/
def setBindings (s : State) (n kind : Nat) (bs kept : List Binding) (manifest : Bytes) : State :=
  let su := getSuite s n
  if kind = 0 then
    bindRegions (setSuite s n { su with bindings := bs ++ kept, job := { su.job with rankManifest := manifest } }) n
  else if (su.window.map (fun w => w.started)).getD false then setSuite s n { su with evalNext := some (kept ++ bs) }
  else setSuite s n { su with bindings := kept ++ bs }

/-- BIND_INPUTS (rules R394, R403, R409, R422, R424). -/
def execBindInputs (src : Src) (tag : Nat) (s : State) : Host.Outcome State Fault Refusal :=
  runCommand 0x0203 src tag s (fun st _ _ n body =>
    let su := getSuite st n
    let kind := fieldAt body 48 1
    let open1 := su.state = .loaded ∨ (kind = 1 ∧ (su.state = .running ∨ su.state = .preempted))
    match (if open1 then su.image else none) with
    | none => denyState st n
    | some im =>
      let bs := askedBindings body
      let kept := (su.evalNext.getD su.bindings).filter (fun b => b.kind != kind)
      if bindingsBad st n im bs kept then deny (setLoad st n 0x0120 0 (2 ^ 64 - 1)) 0x0120 0
      else done (setLoad (setBindings st n kind bs kept (bytesAt body 0 48)) n 0 0 (2 ^ 64 - 1)) [])

/-- INPUT_WRITE starts (rule R394): the binding and the range are checked; the copy is BULK_COMMAND_COMPLETE. -/
def execInputWrite (src : Src) (tag : Nat) (s : State) : Host.Outcome State Fault Refusal :=
  runCommand 0x0204 src tag s (fun st _ p n body =>
    let su := getSuite st n
    if ¬(su.state = .loaded ∨ su.state = .running ∨ su.state = .preempted) then denyState st n
    else
      match bindingOf su (fieldAt body 0 3) (fieldAt body 3 1) with
      | none => deny st 0x030F 0
      | some b => if b.len < fieldAt body 8 8 + fieldAt body 24 8 then deny st 0x020A (40 + envLen p) else later st)

/-- INPUT_WRITE completes (rules R246, R256, R390, R394). -/
def finishInputWrite (s : State) (src : Src) (w : Waiting) : State :=
  let n := targetOf src w.pkt
  let body := bodyOf w.pkt
  let a := fieldAt body 16 8
  let len := fieldAt body 24 8
  match bindingOf (getSuite s n) (fieldAt body 0 3) (fieldAt body 3 1) with
  | none => finish s src w.pkt.tag 0x030F 0 []
  | some b =>
    if hostFails s a len then finish s src w.pkt.tag 0x0402 0 []
    else finish (dirtyLines (suiteSetBytes s n (b.base + fieldAt body 8 8) (hostBytes s a len)) n (b.base + fieldAt body 8 8) len) src w.pkt.tag 0 0 (natLE len 8)

end Sys2Proof.Machine
end

