-- ==== Sys2Proof/Machine/Firmware.lean ====
section
/-!
DEFINITION. Firmware slots, staging and activation (rules R484 to R488, R491 of 21_bringup_reset_and_firmware.md). Slots are 0 A and
1 B; STAGE is 0 none, 1 receiving, 2 verified, 3 failed.
-/
namespace Sys2Proof.Machine

def slotOfFw (f : Firmware) (i : Nat) : FwSlot := if i = 0 then f.slotA else f.slotB
def setFwSlot (f : Firmware) (i : Nat) (x : FwSlot) : Firmware := if i = 0 then { f with slotA := x } else { f with slotB := x }

/-- SHA-384 of a slot's image (rules R399, R490); zero where the slot holds none. -/
def slotDigest (f : Firmware) (i : Nat) : Bytes :=
  let x := slotOfFw f i
  if !x.valid then bytesAt [] 0 48 else if x.image = [] then bytesAt (Config.factoryDigest i) 0 48 else sha384 x.image

/-- The minimum security version accepted (rules R485, R486). -/
def minSvn (s : State) : Nat := max s.fuse.minSvn s.fw.fwMinSvn

/-- Post FW_STATE (rule R401). -/
def fwState (s : State) (stage : Nat) : State := deviceEvent s 0x0780 (natLE stage 1 ++ natLE 0 3 ++ natLE (fwVersion s.fw) 4)

/-- Blocks of the staged image, and those still missing, rising (rules R487, R399). -/
def stagedBlocks (f : Firmware) : Nat := (f.stagedLength + 4095) / 4096
def missingBlocks (f : Firmware) : List Nat :=
  if f.stage = 1 then (List.range (stagedBlocks f)).filter (fun b => !(SMap.has f.blocks b)) else []

/-- The bytes of a staged image. -/
def stagedBytes (f : Firmware) : Bytes :=
  ((List.range (stagedBlocks f)).map (fun b => SMap.get [] f.blocks b)).flatten.take f.stagedLength

/-- Whether an image verifies (rules R484, R485): header fields in range, reserved bytes zero, a key with a fused hash that is not
revoked, the security version, and the signature over the bytes with the signature field taken as zero. Keys and curve arithmetic
are the free value `Config.verifies`. -/
def imageVerifies (s : State) (im : Bytes) : Bool :=
  let zero := fun (o n : Nat) => (bytesAt im o n).all (fun b => b == 0#8)
  bytesAt im 0 4 == [0x41#8, 0x5A#8, 0x46#8, 0x57#8] && fieldAt im 4 1 == 1 && decide (fieldAt im 5 1 ≤ 3) && decide (fieldAt im 6 1 ≤ 63)
    && zero 7 1 && zero 64 64 && zero 224 3872 && fieldAt im 12 4 == im.length && decide (4096 ≤ im.length) && decide (im.length ≤ 2 ^ 24)
    && decide (minSvn s ≤ fieldAt im 6 1)
    && Config.verifies (bytesAt im 5 1 ++ bytesAt im 128 96) (sha384 (im.take 128 ++ bytesAt [] 0 96 ++ im.drop 224))

/-- The last block of a staged image has arrived (rule R487): its digest and its signature decide the stage. -/
def finishStage (s : State) : State :=
  let f := s.fw
  if f.stage = 1 ∧ missingBlocks f = [] then
    let im := stagedBytes f
    let good := decide (sha384 im = f.stagedDigest) && imageVerifies s im
    let f1 := { f with stage := if good then 2 else 3, stagedSvn := fieldAt im 6 1 }
    let f2 := if good then setFwSlot f1 (1 - f.active) { valid := true, version := fieldAt im 8 4, svn := fieldAt im 6 1, image := im } else f1
    fwState { s with fw := f2 } f2.stage
  else s

/-- FW_ACTIVATION_TIMEOUT (rule R488): the Hall returns to the previous slot, sets REVERTED and reports the stage as failed. -/
def execFwActivationTimeout (s : State) : Host.Outcome State Fault Refusal :=
  let s1 := atticFault s (fun a => { a with fwReverted := true })
  whenDo (s.fw.inActivation && !s.fw.fellBack) s
    (fwState { s1 with fw := { s1.fw with fellBack := true, reverted := true, stage := 3 } } 3)

/-- FW_CONFIRMATION (rule R486): after 600 s of service the slot is recorded as active and the minimum security version rises. -/
def execFwConfirmation (s : State) : Host.Outcome State Fault Refusal :=
  let f := s.fw
  let s1 := atticFault s (fun a => { a with fwActive := f.active, fwConfirmed := true, fwReverted := f.reverted })
  whenDo (f.serving && !f.inActivation && !f.confirmed && decide (f.servedBell + 600000000 ≤ s.bell.count)) s
    { s1 with fw := { s1.fw with confirmed := true, fwMinSvn := max f.fwMinSvn (slotOfFw f f.active).svn } }

end Sys2Proof.Machine
end

