-- ==== Sys2Proof/Machine/CmdMisc.lean ====
section
/-!
DEFINITION. Commands of classes 0x06 to 0x09 and 0x0F: faults and signatures, firmware, the bell, power, Lanterns and diagnostics (rules R354,
R399, R400, R449, R462, R486 to R488, R310 of the chapters they belong to).
-/
namespace Sys2Proof.Machine

/-- Records that a command with target `n` sees (rule R449). -/
def visible (s : State) (n : Nat) : List FaultRec := if n = 0xFF then s.faults.held else s.faults.held.filter (fun r => r.suite == n)

/-- FAULT_LIST (rule R449). -/
def execFaultList (src : Src) (tag : Nat) (s : State) : Host.Outcome State Fault Refusal :=
  runCommand 0x0600 src tag s (fun st _ _ n body =>
    let v := visible st n
    let first := ((v.find? (fun r => decide (fieldAt body 0 4 ≤ r.index))).map (fun r => r.index)).getD st.faults.next
    let oldest := (v.head?.map (fun r => r.index)).getD st.faults.next
    done st (natLE first 4 ++ natLE v.length 4 ++ natLE oldest 4))

/-- FAULT_READ (rules R446, R449). -/
def execFaultRead (src : Src) (tag : Nat) (s : State) : Host.Outcome State Fault Refusal :=
  runCommand 0x0601 src tag s (fun st _ _ n body =>
    match (visible st n).find? (fun r => r.index == fieldAt body 0 4) with
    | none => deny st 0x030F 0
    | some r => done st (recordBytes r))

/-- The signature that SIGNATURE_READ finds (rules R399, R462): the module's own by record INDEX, else a collected one by its place. -/
def signatureAt (s : State) (i : Nat) : Option Bytes :=
  match s.faults.signatures.find? (fun p => p.1 == i) with
  | some p => some p.2
  | none => s.faults.collected[i]?

/-- SIGNATURE_READ (rules R399, R462). -/
def execSignatureRead (src : Src) (tag : Nat) (s : State) : Host.Outcome State Fault Refusal :=
  runCommand 0x0602 src tag s (fun st _ _ _ body =>
    match signatureAt st (fieldAt body 0 4) with
    | none => deny st 0x030F 0
    | some b => done st (natLE b.length 4 ++ (b.drop (fieldAt body 4 4)).take 4056))

/-- The top manager keeps a collected signature (rule R462): 65,536, the oldest dropped and counted. -/
def collect (s : State) (sg : Bytes) : State :=
  let l := s.faults.collected ++ [sg]
  let full := decide (65536 < l.length)
  { s with faults := { s.faults with
      collected := if full then l.drop 1 else l, lost := if full then satInc 16 s.faults.lost else s.faults.lost } }

/-- Send the signatures recorded since a bell to the top manager (rule R399): each as a SIGNATURE_READ reply that nobody asked for. -/
def sendSignatures (s : State) (since : Nat) : State :=
  let mine := s.faults.signatures.filter (fun p => match s.faults.held.find? (fun r => r.index == p.1) with
    | some r => decide (since ≤ r.bell)
    | none => true)
  mine.foldl (fun st p =>
    if isTop st then collect st p.2
    else sendCommand st st.mgr.parentPort 0 0x0602 0xFF 9 (natLE 0 4 ++ natLE p.2.length 4 ++ p.2)) s

/-- Tags that the next `k` packets of this module take. -/
def nextTags (s : State) (k : Nat) : List Nat := (List.range k).map (fun i => (s.mgr.nextTag + i) % 2 ^ 32)

/-- Begin to gather the answers of a command (rules R378, R391). -/
def openGather (s : State) (b : Broadcast) : State := { s with mgr := { s.mgr with broadcasts := s.mgr.broadcasts ++ [b] } }

/-- SIGNATURE_COLLECT (rules R399, R462): the subtree is asked by a broadcast, unless this command is itself one. -/
def execSignatureCollect (src : Src) (tag : Nat) (s : State) : Host.Outcome State Fault Refusal :=
  runCommand 0x0603 src tag s (fun st sr p _ body =>
    let since := fieldAt body 0 8
    let direct := st.mgr.workers.filter (fun w => !w.lost)
    if isBroadcast p then done (sendSignatures st since) []
    else if st.mgr.role ≠ 2 ∧ st.mgr.role ≠ 3 then deny st 0x030A st.mgr.role
    else if direct = [] then done (sendSignatures st since) []
    else
      let s1 := sendToWorkers (sendSignatures st since) 0x0603 0xFF 0x0C (natLE since 8)
      later (openGather s1 { src := sr, tag := p.tag, waiting := nextTags (sendSignatures st since) direct.length, since := st.bell.count }))

/-- FAULT_ACK (rules R399, R449): NOT_FOUND where no visible record is held at or below the index. -/
def execFaultAck (src : Src) (tag : Nat) (s : State) : Host.Outcome State Fault Refusal :=
  runCommand 0x0604 src tag s (fun st _ _ n body =>
    let up := fieldAt body 0 4
    if (visible st n).any (fun r => decide (r.index ≤ up)) then
      done { st with faults := { st.faults with held := st.faults.held.map (fun r =>
        if r.index ≤ up ∧ (n = 0xFF ∨ r.suite = n) then { r with acked := true } else r) } } []
    else deny st 0x030F 0)

/-- FW_STAGE (rule R487): the inactive slot is erased; the digest of the active image stages at once. -/
def execFwStage (src : Src) (tag : Nat) (s : State) : Host.Outcome State Fault Refusal :=
  runCommand 0x0700 src tag s (fun st _ _ n body =>
    let f := st.fw
    let d := bytesAt body 0 48
    if f.actPending then denyState st n
    else
      let f1 := { f with stagedVersion := fieldAt body 52 4, stagedLength := fieldAt body 48 4, stagedDigest := d, blocks := [], halves := [] }
      if d = slotDigest f f.active then done (fwState { st with fw := { f1 with stage := 2 } } 2) []
      else done (finishStage (fwState { st with fw := { (setFwSlot f1 (1 - f.active) {}) with stage := 1 } } 1)) [])

/-- A half of a staged block arrives (rule R487): with both halves the CRC decides. -/
def putHalf (s : State) (b part crc : Nat) (data : Bytes) : State :=
  let f := s.fw
  let h := SMap.set f.halves (2 * b + part) data
  if SMap.has h (2 * b) && SMap.has h (2 * b + 1) then
    let whole := SMap.get [] h (2 * b) ++ SMap.get [] h (2 * b + 1)
    let left := SMap.erase (SMap.erase h (2 * b)) (2 * b + 1)
    finishStage { s with fw := { f with
      halves := left, blocks := if crc32 whole = crc then SMap.set f.blocks b whole else f.blocks } }
  else { s with fw := { f with halves := h } }

/-- FW_BLOCK (rule R487): unanswered; one outside the staged image, or with no stage in progress, is discarded and counted. -/
def execFwBlock (src : Src) (tag : Nat) (s : State) : Host.Outcome State Fault Refusal :=
  runCommand 0x0701 src tag s (fun st _ _ _ body =>
    let b := fieldAt body 0 4
    if st.fw.stage = 1 ∧ b < stagedBlocks st.fw then done (putHalf st b (fieldAt body 4 1) (fieldAt body 8 4) (bytesAt body 12 2048)) []
    else deny st 0x030F 0)

/-- FW_MISSING (rule R399). -/
def execFwMissing (src : Src) (tag : Nat) (s : State) : Host.Outcome State Fault Refusal :=
  runCommand 0x0702 src tag s (fun st _ _ _ _ =>
    let m := missingBlocks st.fw
    done st (natLE m.length 4 ++ natLE (maskOf m) 512))

/-- Halts named by command that have not come (rule R335), as events. -/
def haltEvents (s : State) : List BellEvent :=
  (s.suites.filterMap (fun p => p.2.job.haltBell.map (fun h =>
    ({ id := p.2.job.haltEvent, bell := h, opcode := 0x0507, suite := p.1, step := p.2.job.haltStep } : BellEvent))))

/-- Events scheduled by command and not fired (rule R354). -/
def pendingEvents (s : State) : List BellEvent := s.bell.events ++ haltEvents s

/-- Schedule an event (rule R354): none where 1,024 are pending; a count already passed fires it on receipt. -/
def scheduleEvent (s : State) (e : BellEvent) : Option (State × BellEvent) :=
  if 1024 ≤ (pendingEvents s).length then none
  else
    let x := { e with id := s.bell.nextEvent, bell := max e.bell s.bell.count }
    some ({ s with bell := { s.bell with events := s.bell.events ++ [x], nextEvent := (s.bell.nextEvent + 1) % 2 ^ 32 } }, x)

/-- BELL and EVENT_ID of a scheduling command's reply. -/
def eventReply (e : BellEvent) : Bytes := natLE e.bell 8 ++ natLE e.id 4

/-- Schedule an event and reply, or refuse with LIMIT (rules R354, R389). -/
def scheduleAndReply (s : State) (e : BellEvent) : Effect :=
  match scheduleEvent s e with
  | none => deny s 0x0308 1024
  | some (t, x) => done t (eventReply x)

/-- Count of missing blocks as DETAIL of FW_INCOMPLETE. -/
def missingDetail (f : Firmware) : Nat := min 0xFFFF (missingBlocks f).length

/-- FW_ACTIVATE (rules R399, R487, R488, R491): one event; the active image stays where its own digest was staged. -/
def execFwActivate (src : Src) (tag : Nat) (s : State) : Host.Outcome State Fault Refusal :=
  runCommand 0x0703 src tag s (fun st _ _ _ body =>
    let f := st.fw
    let d := bytesAt body 0 48
    let b := fieldAt body 48 8
    if (f.stage ≠ 2 ∧ f.stage ≠ 3) ∨ d ≠ f.stagedDigest then deny st 0x030E (missingDetail f)
    else if f.stage = 2 ∧ d = slotDigest f f.active then done st (natLE (max b st.bell.count) 8 ++ natLE 0 4)
    else if f.stage = 3 then
      if sha384 (stagedBytes f) = d then deny st 0x0404 0 else deny st 0x030E 0
    else
      let s1 : State := { st with bell := { st.bell with events := st.bell.events.filter (fun e => e.opcode != 0x0703) } }
      match scheduleEvent s1 { bell := b, opcode := 0x0703 } with
      | none => deny st 0x0308 1024
      | some (t, x) => done { t with fw := { f with actPending := true, actBell := x.bell } } (eventReply x))

/-- FW_STATUS (rule R398's table). -/
def execFwStatus (src : Src) (tag : Nat) (s : State) : Host.Outcome State Fault Refusal :=
  runCommand 0x0704 src tag s (fun st _ _ _ _ =>
    let f := st.fw
    done st (natLE f.active 1 ++ natLE f.stage 1 ++ natLE 0 2 ++ natLE (fwVersion f) 4 ++ natLE f.stagedVersion 4 ++ slotDigest f f.active))

/-- BELL_GET (rules R351, R364). -/
def execBellGet (src : Src) (tag : Nat) (s : State) : Host.Outcome State Fault Refusal :=
  runCommand 0x0800 src tag s (fun st _ _ _ _ =>
    done st (natLE st.bell.count 8 ++ natLE (bellStateCode st.bell.state) 1 ++ natLE st.bell.source 1 ++ natLE 0 2
      ++ natLE (unsignedOf 32 st.bell.offset) 4))

/-- Insert an event by its number. -/
def insertEvent (e : BellEvent) : List BellEvent → List BellEvent
  | [] => [e]
  | x :: xs => if e.id < x.id then e :: x :: xs else x :: insertEvent e xs

/-- Events that a command with target `n` sees, by number. -/
def seenEvents (s : State) (n : Nat) : List BellEvent :=
  ((pendingEvents s).filter (fun e => n == 0xFF || e.suite == n)).foldl (fun l e => insertEvent e l) []

/-- EVENT_LIST (rule R398's table). -/
def execEventList (src : Src) (tag : Nat) (s : State) : Host.Outcome State Fault Refusal :=
  runCommand 0x0801 src tag s (fun st _ _ n body =>
    let l := ((seenEvents st n).filter (fun e => decide (fieldAt body 0 4 ≤ e.id))).take 254
    done st (natLE l.length 2 ++ natLE 0 2
      ++ (l.map (fun e => natLE e.bell 8 ++ natLE e.opcode 2 ++ natLE e.suite 1 ++ natLE 0 1 ++ natLE e.id 4)).flatten))

/-- EVENT_CANCEL (rules R399, R403): a due event fires, and a halt or gang pre-emption stays. -/
def execEventCancel (src : Src) (tag : Nat) (s : State) : Host.Outcome State Fault Refusal :=
  runCommand 0x0803 src tag s (fun st _ _ n body =>
    match (seenEvents st n).find? (fun e => e.id == fieldAt body 0 4 && decide (st.bell.count < e.bell)) with
    | none => deny st 0x030F 0
    | some e =>
      if e.opcode = 0x0507 ∨ e.opcode = 0x0506 then denyState st n
      else
        let s1 := popEvent st e.id
        done (if e.opcode = 0x0703 then { s1 with fw := { s1.fw with actPending := false, actBell := 2 ^ 64 - 1 } } else s1) [])

/-- POWER_INFO (rule R398's table): MIN_MV restarts with the read. -/
def execPowerInfo (src : Src) (tag : Nat) (s : State) : Host.Outcome State Fault Refusal :=
  runCommand 0x0900 src tag s (fun st _ _ _ _ =>
    let c := st.cup
    done { st with cup := { c with readMin := 0xFFFF } }
      (natLE c.inputMv 4 ++ natLE c.inputMa 4 ++ natLE c.readMin 4 ++ natLE (unsignedOf 16 c.maxTemp) 2 ++ natLE 0 2 ++ natLE c.energyUj 8))

/-- TILE_CLOCK_CAP (rules R399, R496): a suite names its own tiles only. -/
def execTileClockCap (src : Src) (tag : Nat) (s : State) : Host.Outcome State Fault Refusal :=
  runCommand 0x0901 src tag s (fun st _ p n body =>
    let l := setBits body 0 10
    if n ≠ 0xFF ∧ l.any (fun t => !((getSuite st n).res.tiles.contains t)) then deny st 0x020A (16 + envLen p)
    else done (l.foldl (fun q t => updGov q t (fun g => { g with ceilingMhz := fieldAt body 10 2 })) st) [])

/-- SUPPLY_POLICY (rules R398, R498). -/
def execSupplyPolicy (src : Src) (tag : Nat) (s : State) : Host.Outcome State Fault Refusal :=
  runCommand 0x0902 src tag s (fun st _ _ _ body => done { st with cup := { st.cup with warnClampMhz := fieldAt body 0 2 } } [])

/-- Ports a Lantern feeds and ports that use it, as LANT_PORTS (rule R313). -/
def lanternMasks (s : State) (l : Nat) : Nat × Nat :=
  let x := (getLantern s l).state
  (if x = 0 then 0 else maskOf ((lanternPorts l).filter (fun p => !((getPort s p).miswired.contains (feedFrom p l)))),
   if x = 0 then 0 else maskOf ((lanternPorts l).filter (fun p => (getPort s p).feed == feedFrom p l)))

/-- LANTERN_INFO (rules R313, R398). -/
def execLanternInfo (src : Src) (tag : Nat) (s : State) : Host.Outcome State Fault Refusal :=
  runCommand 0x0903 src tag s (fun st _ _ _ body =>
    let l := fieldAt body 0 1
    let x := getLantern st l
    done st (natLE x.state 1 ++ natLE 0 3 ++ natLE x.serial 8 ++ natLE x.hours 4 ++ natLE (unsignedOf 16 x.decline) 2 ++ natLE x.remaining 2
      ++ natLE (lanternMasks st l).2 2 ++ natLE (lanternMasks st l).1 2))

/-- LANTERN_RELEASE's effect (rules R310, R311, R399): its ports go over to their other feed, then it goes dark. -/
def releaseEffect (s : State) (l : Nat) (force : Bool) : Effect :=
  let using1 := (lanternPorts l).filter (fun p => portPresent s p && ((getPort s p).feed == feedFrom p l))
  let stuck := using1.filter (fun p => !(feedLit s p (1 - feedFrom p l)) || (getPort s p).miswired.contains (1 - feedFrom p l))
  match (if force then none else stuck.head?) with
  | some p => deny s 0x030D p
  | none =>
    let s1 := (using1.filter (fun p => !(stuck.contains p))).foldl (fun st p =>
      countSwitch (updPort st p (fun x => { x with feed := 1 - feedFrom p l, switching := none, planned := satInc 16 x.planned })) p) s
    done (if (getLantern s l).state = 0 then s1 else darken s1 l 4) (natLE stuck.length 2)

/-- LANTERN_RELEASE (rules R310, R311, R399). -/
def execLanternRelease (src : Src) (tag : Nat) (s : State) : Host.Outcome State Fault Refusal :=
  runCommand 0x0904 src tag s (fun st _ _ _ body => releaseEffect st (fieldAt body 0 1) (bit (fieldAt body 1 1) 0))

/-- LANTERN_CHECK (rule R399): answered by the authentication and health check that follow; an empty slot has neither. -/
def execLanternCheck (src : Src) (tag : Nat) (s : State) : Host.Outcome State Fault Refusal :=
  runCommand 0x0905 src tag s (fun st sr p _ body =>
    let l := fieldAt body 0 1
    if (getLantern st l).state = 0 then done st (natLE 0 4) else wait st sr p.tag [l])

/-- TENSOR_READ starts (rule R400); the copy is BULK_COMMAND_COMPLETE. -/
def execTensorRead (src : Src) (tag : Nat) (s : State) : Host.Outcome State Fault Refusal :=
  runCommand 0x0F00 src tag s (fun st _ _ n body =>
    let su := getSuite st n
    match (if su.state = .loaded ∨ su.state = .preempted ∨ su.state = .faulted then su.image else none) with
    | none => denyState st n
    | some im =>
      let x : Tensor := SMap.get {} im.tensors (fieldAt body 0 3)
      if SMap.has im.tensors (fieldAt body 0 3) ∧ fieldAt body 8 8 + fieldAt body 24 8 ≤ storedBytes x then later st else deny st 0x030F 0)

/-- TENSOR_READ completes (rules R390, R400): bytes of the tensor's logical stored image. -/
def finishTensorRead (s : State) (src : Src) (w : Waiting) : State :=
  let n := targetOf src w.pkt
  let body := bodyOf w.pkt
  let a := fieldAt body 16 8
  let len := fieldAt body 24 8
  let base := (((getSuite s n).image).map (fun im => (SMap.get {} im.tensors (fieldAt body 0 3) : Tensor).base)).getD 0
  if hostFails s a len then finish s src w.pkt.tag 0x0402 0 []
  else finish (hostWrite s a (suiteBytes s n (base + fieldAt body 8 8) len)) src w.pkt.tag 0 0 (natLE len 8)

end Sys2Proof.Machine
end

