-- ==== Sys2Proof/Machine/CmdDiag.lean ====
section
/-!
DEFINITION. Commands of class 0x0F: stream contexts, port retraining and the known-answer kernel (rules R261, R285, R400, R475).
-/
namespace Sys2Proof.Machine

/-- Codes of the entry states (rule R262). -/
def entryCode : EntryState → Nat
  | .free => 0
  | .unbound => 1
  | .bound => 2
  | .timedOut => 3
  | .disabled => 4

/-- A stream context (rule R261). -/
def contextBytes (x : StreamEntry) : Bytes :=
  let flags := 64 * bnat x.tclassInput + 32 * (x.landing % 2) + 16 * bnat x.outbound + 8 * bnat x.policyStream + x.suite
  natLE (16 * x.type + entryCode x.state) 1 ++ natLE flags 1 ++ natLE x.vtile 2 ++ natLE x.ptile 1 ++ natLE x.port 1 ++ natLE x.route 2
    ++ natLE x.regionBase 5 ++ natLE 0 3 ++ natLE x.regionLen 5 ++ natLE 0 3 ++ natLE x.peerRank 4 ++ natLE x.peerEntry 2 ++ natLE 0 2
    ++ natLE x.seqNext 4 ++ natLE x.seqOldest 4 ++ natLE x.inFlight.length 1 ++ natLE 0 3 ++ natLE x.absorbed 4 ++ natLE x.late 4 ++ natLE 0 12

/-- The context of an entry of a suite's range: one the image does not bind is FREE. -/
def contextOf (s : State) (n e : Nat) : Bytes :=
  let x := getEntry s e
  contextBytes (if x.state = .free then { x with suite := n } else x)

/-- STREAM_READ (rules R261, R398): contexts from an offset in the suite's range. -/
def execStreamRead (src : Src) (tag : Nat) (s : State) : Host.Outcome State Fault Refusal :=
  runCommand 0x0F01 src tag s (fun st _ _ n body =>
    let su := getSuite st n
    let first := fieldAt body 0 2
    let k := fieldAt body 2 2
    if 1024 * su.res.blocks < first + k then deny st 0x030F 0
    else done st ((List.range k).map (fun i => contextOf st n (entryOf su (first + i)))).flatten)

/-- Whether a RUNNING suite holds a share of a port. -/
def portInUse (s : State) (p : Nat) : Bool :=
  s.suites.any (fun q => executing q.2 && q.2.res.ports.any (fun x => x.1 == p))

/-- PORT_RETRAIN (rules R285, R400): a port that is not UP trains as at bring-up; the reply comes with the training's end. -/
def execPortRetrain (src : Src) (tag : Nat) (s : State) : Host.Outcome State Fault Refusal :=
  runCommand 0x0F02 src tag s (fun st sr p _ body =>
    let q := fieldAt body 0 1
    if !(portPresent st q) || (getPort st q).disabled then deny st 0x0306 q
    else if portInUse st q then deny st 0x0310 q
    else
      let kind := if (getPort st q).state = portUp then fieldAt body 1 1 else 2
      wait (updPort (startRetrain st q kind) q (fun x => { x with mayWiden := true })) sr p.tag [q])

/-- KNOWN_ANSWER (rules R400, R475): usable tiles that no suite holds run the kernel; each run ends by itself. -/
def execKnownAnswer (src : Src) (tag : Nat) (s : State) : Host.Outcome State Fault Refusal :=
  runCommand 0x0F03 src tag s (fun st sr p _ body =>
    let l := setBits body 0 10
    match l.find? (fun t => !(usableTile st t)), l.find? (tileHeld st) with
    | some t, _ => deny st 0x0306 t
    | none, some t => deny st 0x0310 t
    | none, none =>
      if l = [] then done st (natLE 0 10)
      else
        let s1 := l.foldl (fun q t => updTile q t (fun x => { x with health := { x.health with karDue := true } })) st
        wait s1 sr p.tag [maskOf l, 0])

end Sys2Proof.Machine
end

