-- ==== Sys2Proof/Machine/CmdExec.lean ====
section
/-!
DEFINITION. Commands of class 0x03: starting, pre-empting, resuming and stopping suites and jobs (rules R321, R391, R395, R402, R422, R429,
R433, R437 to R439, R442). A START or RESUME of a job with ranks on other modules goes in two rounds: the maps, then the lineage commit.
-/
namespace Sys2Proof.Machine

/-- Whether this module takes job commands (rule R391): the top manager, or an UNATTACHED module. -/
def takesJobs (s : State) : Bool := s.mgr.role == 2 || s.mgr.role == 0

/-- An UNATTACHED module that acts as top manager takes module id 0 (rule R391). -/
def actAsTop (s : State) : State := if s.mgr.role = 0 then { s with mgr := { s.mgr with moduleId := 0 } } else s

/-- Merge the reply fields of a member into a job command's own (rules R391, R395): the lowest STEP, or the first event. -/
def mergeHead (op : Nat) (old new : Bytes) : Bytes :=
  if old = [] then new else if op = 0x0303 then natLE (min (fieldAt old 0 4) (fieldAt new 0 4)) 4 else old

/-- Send a job command to every rank (rule R391): a suite of this module acts at once, by `own`, or is awaited; another module is sent
the command and awaited. A module that cannot be placed fails with NO_ROUTE. -/
def toMembers (s : State) (b0 : Broadcast) (ms : List (Nat × Nat)) (op flags : Nat) (payload : Bytes) (own : State → Nat → Effect) : State × Broadcast :=
  ms.foldl (fun (acc : State × Broadcast) m =>
    if m.1 = ownId acc.1 then
      match own acc.1 m.2 with
      | (st, none) => (st, { acc.2 with waiting := acc.2.waiting ++ [suiteTag m.2] })
      | (st, some (x, d, f)) => (st, { (gatherAdd acc.2 m.1 x d) with head := if x = 0 then mergeHead op acc.2.head f else acc.2.head })
    else if below acc.1 m.1 then
      (sendToModule acc.1 m.1 op m.2 flags payload, { acc.2 with waiting := acc.2.waiting ++ [acc.1.mgr.nextTag] })
    else (acc.1, gatherAdd acc.2 m.1 0x0302 0)) (s, b0)

/-- Hold what is gathered, or close it where nothing is awaited. -/
def settleGather (x : State × Broadcast) : State := if x.2.waiting = [] then closeGather (openGather x.1 x.2) x.2 else openGather x.1 x.2

/-- A job command to every rank of a job (rule R391). -/
def jobCommand (s : State) (src : Src) (p : Packet) (no op : Nat) (payload : Bytes) (own : State → Nat → Effect) : Effect :=
  if !(takesJobs s) then deny s 0x030A s.mgr.role
  else if !(SMap.has s.mgr.jobs no) then deny s 0x030F 0
  else
    let since := s.bell.count
    later (settleGather (toMembers (actAsTop s) { src := src, tag := p.tag, since := since } ((getJob s no).ranks.map (fun r => r.2)) op
      (8 + 2 * bnat (bit p.flags 1)) payload own))

/-- Whether a suite holds a rank of a job with more than one rank (rule R438). -/
def multiRank (su : Suite) : Bool := su.job.rank.isSome && decide (1 < su.job.nRanks)

/-- The lineage id (rule R36). -/
def lineageId (image manifest : Bytes) (seed n : Nat) (levels : List Nat) : Bytes :=
  bytesAt (sha384 (asciiBytes "AZLN" ++ bytesAt image 0 48 ++ bytesAt manifest 0 48 ++ natLE seed 8 ++ natLE n 4 ++ natLE levels.length 1
    ++ ((List.range 3).map (fun i => natLE (levels.getD i 0) 2)).flatten)) 0 16

/-- The job manifest digest (rule R49). -/
def jobManifest (j : Job) : Bytes := sha384 ((List.range j.nRanks).map (fun r => bytesAt (SMap.get [] j.manifests r) 0 48)).flatten

/-- The image digest of a job: no packet tells a manager without a suite of it, so it is a free value of the job manifest. -/
def jobDigest (s : State) (j : Job) : Bytes :=
  ((jobImage s j).map (fun i => i.digest)).getD (bytesAt (Config.answer 0x0300 (leNat (jobManifest j))) 0 48)

/-- Whether a divisor of a count divides the rank count, and the count is at least 1 (rule R413). -/
def countFits (c : CountSpec) (n : Nat) : Bool :=
  decide (1 ≤ countOf c n) && (match c with
    | .fixed _ => true
    | .perN d => decide (0 < d) && n % d == 0)

/-- Whether a plan admits a rank count (rule R413). -/
def planAdmits (p : CollectivePlan) (n : Nat) : Bool :=
  decide (p.nMin ≤ n) && decide (n ≤ p.nMax) && p.families.all (fun f => countFits f.count n) && p.levels.all (fun c => countFits c n)
    && p.sums.all (fun q => match p.families[q.family]? with
      | some f => decide ((p.levels.map (fun c => countOf c n)).foldl (· * ·) 1 = countOf f.count n)
      | none => true)

/-- Refusals of START and RESUME in MODE 1 that this module can see (rules R321, R422, R438): STATUS and DETAIL. -/
def jobRefusal (s : State) (j : Job) (n : Nat) (levels : Option (List Nat)) : Option (Nat × Nat) :=
  let mine := (ownMembers s j).map (fun m => m.2)
  let suites := mine.map (getSuite s)
  let k := j.ranks.length
  if k = 0 ∨ k ≠ n ∨ !((List.range k).all (SMap.has j.ranks)) then some (0x030B, min k 0xFFFF)
  else
    match mine.find? (fun m => decide ((getSuite s m).state ≠ .loaded)) with
    | some m => some (0x0301, stateDetail s m)
    | none =>
      if suites.any (fun su => decide (su.image.map (fun i => i.digest) ≠ (jobImage s j).map (fun i => i.digest))) then some (0x0123, 0)
      else if levels = some [] then some (0x0121, 0)
      else if (match jobImage s j with
        | some im => !(planAdmits im.plan n) || (match levels with
          | some l => decide (l ≠ im.plan.levels.map (fun c => countOf c n))
          | none => false)
        | none => false) then some (0x0121, 0)
      else if 1 < n ∧ suites.any (fun su => su.slice.slice != 0 || su.slice.nextSlice.isSome) then some (0x0301, stateDetail s (mine.headD 0xFF))
      else if !((jobMembers j).all (fun m => m.2.1 == ownId s || below s m.2.1)) then some (0x0405, 0)
      else if !(routesExist s j) then some (0x0122, 0)
      else (mine.findSome? (mapFailure s)).map (fun c => (c, 0))

/-- A rank that no longer is one: its suite keeps its declared manifest (rule R394). -/
def dropRank (s : State) (n : Nat) : State := updSuite s n (fun su => { su with job := { rankManifest := su.job.rankManifest } })

/-- The round of maps (rules R321, R398): suites of this module take theirs; each other member is sent its own, and the reply to the last is
awaited under its tag, noted with the member's place. A RESUME follows in the same round. -/
def mapRound (s : State) (no : Nat) (b0 : Broadcast) (resume : Bytes) : State × Broadcast :=
  let j := getJob s no
  let ids := j.ranks.map (fun r => natLE r.2.1 4)
  let lineage := if j.startAt = 1 then [] else j.old
  ((jobMembers j).zipIdx).foldl (fun (acc : State × Broadcast) q =>
    let m := q.1
    let maps := jobMapPayloads lineage m.1 j.nRanks 0 1008 ids ++ jobMapPayloads lineage m.1 j.nRanks 1 504 (routeTable acc.1 j m.2.1)
    if m.2.1 = ownId acc.1 then
      let st := maps.foldl (fun x p => takeJobMap x m.2.2 p) acc.1
      (if q.2 < j.nRanks then updJob st no (fun y => { y with manifests := SMap.set y.manifests m.1 (bytesAt (getSuite st m.2.2).job.rankManifest 0 48) })
       else st, acc.2)
    else
      let st := maps.foldl (fun x p => sendToModule x m.2.1 0x050B m.2.2 8 p) acc.1
      let last := st.mgr.nextTag - 1
      let note := fun (y : State) (t k : Nat) => { y with mgr := { y.mgr with asked := SMap.set y.mgr.asked t [0x0300, q.2, no, k] } }
      let st1 := note st last 0
      if resume = [] ∨ j.nRanks ≤ q.2 then (st1, { acc.2 with waiting := acc.2.waiting ++ [last] })
      else (note (sendToModule st1 m.2.1 0x0302 m.2.2 8 resume) st1.mgr.nextTag 1,
            { acc.2 with waiting := acc.2.waiting ++ [last, st1.mgr.nextTag] })) (s, b0)

/-- A suite of this module takes its place in a job (rules R321, R329, R342). -/
def takeRank (s : State) (n r : Nat) (j : Job) (spare : Bool) : State :=
  updSuite (if spare then s else discardFrom s n j.startAt) n (fun su =>
    { su with
      runRecord := if j.startAt = 1 then [] else su.runRecord
      job := { su.job with
        rank := if spare then none else some r, nRanks := j.nRanks, levels := j.levels, seed := j.seed, lineage := j.lineage, manifest := jobManifest j
        snapshot := j.snapshot, voted := 0, started := true, mapReceived := true, committedMap := true
        broken := if j.cause = 0 then none else some (j.old, j.startAt - 1, j.cause) } })

/-- The lineage commit (rules R36, R37, R321): the lineage is computed, or kept by a resume without a break; it is recorded and sent. -/
def commitRound (s : State) (no : Nat) (b0 : Broadcast) : State × Broadcast :=
  let jr := getJob s no
  let j0 : Job := { jr with image := jobDigest s jr }
  let fresh := lineageId j0.image (jobManifest j0) j0.seed j0.nRanks j0.levels
  let j : Job := { j0 with
    lineage := if j0.startAt = 1 ∨ j0.cause ≠ 0 then fresh else j0.old
    started := true, taking := [], poisonedBy := [], lost := [], expelled := [], haltBell := none, votes := [], voteBell := none, votedStep := 0
    disagreeStep := 0, disagreeGroups := [], runRecord := if j0.startAt = 1 then [] else j0.runRecord }
  let s1 := setJob { s with mgr := dropMerges s.mgr no j.startAt } no j
  let s2 := ((jobMembers j).zipIdx).foldl (fun st q => if q.1.2.1 = ownId st then takeRank st q.1.2.2 q.1.1 j (decide (j.nRanks ≤ q.2)) else st) s1
  let s3 := if j.startAt = 1 then
      addJobRecord s2 no (cborMap [(0, some (cborUint 0)), lineageItem j.lineage, (3, some (cborUint s.bell.count)), (8, some (cborUint j.nRanks)),
        (9, some (cborArray (j.levels.map cborUint))), (10, some (cborBytes (bytesAt j.image 0 48))), (11, some (cborBytes (jobManifest j)))])
    else if j.cause ≠ 0 then
      addJobRecord s2 no (cborMap [(0, some (cborUint 2)), lineageItem j.lineage, (2, some (cborUint (j.startAt - 1))),
        (8, some (cborBytes (bytesAt j.old 0 16))), (9, some (cborUint j.cause))])
    else s2
  ((jobMembers j).zipIdx).foldl (fun (acc : State × Broadcast) q =>
    let m := q.1
    if m.2.1 = ownId acc.1 then acc
    else
      let t := acc.1.mgr.nextTag
      let st := sendToModule acc.1 m.2.1 0x050B m.2.2 8 (jobMapPayload j.lineage m.1 j.nRanks 0 0 2 true [])
      ({ st with mgr := { st.mgr with asked := SMap.set st.mgr.asked t [0x0300, q.2, no, 2] } }, { acc.2 with waiting := acc.2.waiting ++ [t] }))
    (s3, { b0 with head := bytesAt j.lineage 0 16 })

/-- Forget a gathering and the answers it awaits. -/
def dropGather (s : State) (b : Broadcast) : State :=
  { s with mgr := { s.mgr with
      broadcasts := s.mgr.broadcasts.filter (fun x => decide (x.src ≠ b.src ∨ x.tag ≠ b.tag))
      asked := s.mgr.asked.filter (fun q => !(b.waiting.contains q.1)) } }

/-- A START or RESUME of a job fails or is ended (rules R321, R402): every rank is LOADED. -/
def failStart (s : State) (no : Nat) (b : Broadcast) (status detail : Nat) : State :=
  let j := getJob s no
  let s1 := (ownMembers s j).foldl (fun st m => dropRank st m.2) (dropGather s b)
  let s2 := if b.head = [] then s1
    else j.ranks.foldl (fun st r => if r.2.1 = ownId st then st else sendToModule st r.2.1 0x0303 r.2.2 0x0A [1#8, 0#8, 0#8, 0#8]) s1
  finish (updJob s2 no (fun x => { x with started := false })) b.src b.tag status detail []

/-- Every rank has reported ready: the job starts, and the command replies with the LINEAGE and the counts (rules R321, R391). -/
def finishStart (s : State) (no : Nat) (b : Broadcast) : State :=
  let j := getJob s no
  let own := (j.ranks.filter (fun r => r.2.1 == ownId s)).map (fun r => r.2.2)
  closeGather (own.foldl (fun st n => launch st n j.startAt (decide (j.startAt ≠ 1))) s) { b with okCount := j.nRanks, head := bytesAt j.lineage 0 16 }

/-- A START or RESUME goes on once all answers of its round are in. -/
def advanceStart (s : State) (no : Nat) (b : Broadcast) : State :=
  if b.waiting ≠ [] then { s with mgr := { s.mgr with broadcasts := s.mgr.broadcasts.map (fun x => if x.src = b.src ∧ x.tag = b.tag then b else x) } }
  else
    match b.failed.head? with
    | some f => failStart s no b f.2.1 f.2.2
    | none =>
      if b.head ≠ [] then finishStart s no b
      else
        let x := commitRound s no b
        if x.2.waiting = [] then finishStart x.1 no x.2
        else { x.1 with mgr := { x.1.mgr with broadcasts := x.1.mgr.broadcasts.map (fun y => if y.src = b.src ∧ y.tag = b.tag then x.2 else y) } }

/-- Begin the rounds of a START or RESUME. -/
def beginStart (s : State) (src : Src) (tag no : Nat) (resume : Bytes) : State :=
  let x := mapRound s no { src := src, tag := tag, since := s.bell.count } resume
  advanceStart (openGather x.1 x.2) no x.2

/-- The level sizes a START gives (rule R395): none of those up to L is 0, each above L is; else there are none, which no plan admits. -/
def givenLevels (body : Bytes) : List Nat :=
  let g := (List.range 3).map (fun i => fieldAt body (8 + 2 * i) 2)
  let l := fieldAt body 2 1
  if (g.take l).all (fun x => x != 0) && (g.drop l).all (fun x => x == 0) then g.take l else []

/-- START's effect (rules R321, R391, R395, R422). -/
def startEffect (s : State) (src : Src) (p : Packet) (n : Nat) (body : Bytes) : Effect :=
  let no := fieldAt body 0 1
  let j := getJob s no
  if !(takesJobs s) then deny s 0x030A s.mgr.role
  else if j.started || s.mgr.broadcasts.any (fun b => decide (b.src = src) && b.tag == p.tag) then denyState s n
  else
    match (if j.ranks = [] then some (0x030B, 0) else jobRefusal s j (fieldAt body 4 4) (some (givenLevels body))) with
    | some (x, d) => deny s x d
    | none =>
      let j1 : Job := { j with
        nRanks := fieldAt body 4 4, levels := givenLevels body, seed := fieldAt body 16 8, snapshot := bit (fieldAt body 1 1) 0
        startAt := 1, cause := 0, old := [], image := [], manifests := [] }
      later (beginStart (setJob (actAsTop s) no j1) src p.tag no [])

/-- START (rules R321, R395). -/
def execStart (src : Src) (tag : Nat) (s : State) : Host.Outcome State Fault Refusal :=
  runCommand 0x0300 src tag s (fun st sr p n body => startEffect st sr p n body)

/-- Schedule the gang event of a suite (rules R355, R439). -/
def gangEvent (s : State) (n action bell : Nat) : Option (State × BellEvent) := scheduleEvent s { bell := bell, opcode := 0x0506, suite := n, arg := action }

/-- The top manager pre-empts or resumes a job as a gang (rules R438, R439), for a PREEMPT or RESUME of one of its ranks. -/
def gangJob (s : State) (no action bell : Nat) : State :=
  (getJob s no).ranks.foldl (fun st r =>
    if r.2.1 = ownId st then ((gangEvent st r.2.2 action bell).map (fun x => x.1)).getD st
    else sendToModule st r.2.1 0x0506 r.2.2 0x0A (natLE no 1 ++ natLE action 1 ++ natLE 0 6 ++ natLE bell 8)) s

/-- The job of this top manager in which a module's suite is a rank. -/
def jobWithRank (s : State) (m n : Nat) : Option Nat :=
  (s.mgr.jobs.find? (fun q => q.2.started && decide (1 < q.2.nRanks) && q.2.ranks.any (fun r => r.2 == (m, n)))).map (fun q => q.1)

/-- Pre-empt or resume a rank's suite as part of its job (rule R438): the top manager calls the gang; another Hall asks it to. -/
def gangForward (s : State) (src : Src) (p : Packet) (n op action : Nat) : Effect :=
  if isTop s then
    match jobWithRank s (ownId s) n with
    | some no => wait (gangJob s no action (s.bell.count + s.mgr.haltLead)) src p.tag [action]
    | none => denyState s n
  else
    let t := s.mgr.nextTag
    let s1 := sendCommand s s.mgr.parentPort 0 op n (8 + 2 * bnat (op == 0x0301)) (if op = 0x0302 then natLE 0 16 else [])
    wait { s1 with mgr := { s1.mgr with asked := SMap.set s1.mgr.asked t [op, ringKey src, p.tag] } } src p.tag [action]

/-- Whether a command for a suite is forwarded by the Hall of another module's rank (rule R438), and the job it concerns. -/
def forwardedFor (s : State) (p : Packet) : Option Nat :=
  let m := fieldAt p.payload 4 4
  if isRelayed p && isTop s && m != ownId s then jobWithRank s m p.suite else none

/-- PREEMPT (rules R395, R402, R433, R438). -/
def execPreempt (src : Src) (tag : Nat) (s : State) : Host.Outcome State Fault Refusal :=
  runCommand 0x0301 src tag s (fun st sr p n _ =>
    match forwardedFor st p with
    | some no => done (gangJob st no 0 (st.bell.count + st.mgr.haltLead)) (natLE 0 4)
    | none =>
      let su := getSuite st n
      if su.state ≠ .running then denyState st n
      else if multiRank su then gangForward st sr p n 0x0301 0
      else
        let s1 := if su.slice.stopping then st else requestPreempt st n
        later (updSuite s1 n (fun x => { x with slice := { x.slice with waitingSlice := false, rotation := false } })))

/-- A suite asks to be restored (rules R429, R437): one of a busy tile group returns to the rotation. -/
def askResume (s : State) (n : Nat) : State :=
  if groupBusy s n then
    updSuite s n (fun su => { su with slice := { su.slice with waitingSlice := true, rotation := true, resumeBell := s.bell.count } })
  else requestResume s n

/-- The per-channel exponents of a checkpoint's scale table span at most 24 (rule R80). -/
def scalesSpan (scale : SMap ScaleEntry) : Bool := scale.all (fun p => spanOk p.2.chCur && spanOk p.2.chEarlier)

/-- The checkpoint of a step that a suite can be restored from (rules R80, R422, R442): else STATUS. -/
def checkpointFor (su : Suite) (im : Image) (step : Nat) : Except Nat Checkpoint :=
  match su.checkpoints.find? (fun c => c.step == step) with
  | none => .error 0x030F
  | some c =>
    if c.complete && scalesSpan c.scale && decide (bytesAt c.header 216 48 = contentDigest (checkpointBytes im c)) then .ok c else .error 0x0124

/-- A rank is restored from its checkpoint by the top manager's RESUME (rules R395, R440): the reply carries the checkpoint's lineage. -/
def resumeRank (s : State) (n step : Nat) : Effect :=
  let su := getSuite s n
  match (if su.state = .loaded then su.image else none) with
  | none => denyState s n
  | some im =>
    match checkpointFor su im step, resumeFailure s n with
    | .error e, _ => deny s e 0
    | .ok _, some e => deny s e 0
    | .ok c, none => done (updSuite (restoreCheckpoint (replan s n) n c) n (fun x => { x with startAt := step + 1 })) (bytesAt c.lineage 0 16)

/-- The cause of a lineage break (rule R38): that of the RESUME, and bit 3 on fewer ranks than the checkpoint's job had. -/
def breakCause (header : Bytes) (asked n : Nat) : Nat := if n < fieldAt header 136 4 then asked ||| 8 else asked

/-- A rank's own part of a RESUME that the top manager sends (rules R37, R38, R395): its seed, and what broke its lineage. -/
def resumeRemote (s : State) (n : Nat) (body : Bytes) : Effect :=
  let step := fieldAt body 4 4
  match resumeRank s n step with
  | (s1, some (0, d, l)) =>
    let h := (((getSuite s n).checkpoints.find? (fun c => c.step == step)).map (fun c => c.header)).getD []
    let cause := breakCause h (fieldAt body 2 1) (getSuite s n).job.nRanks
    (updSuite s1 n (fun x => { x with job := { x.job with
      seed := if bit cause 2 then fieldAt body 8 8 else fieldAt h 128 8, broken := if cause = 0 then none else some (l, step, cause) } }),
     some (0, d, l))
  | e => e

/-- Restore the ranks of this module; the first failure, and the lineages of their checkpoints. -/
def resumeOwn (s : State) (ns : List Nat) (step : Nat) : State × Option (Nat × Nat) × List Bytes :=
  ns.foldl (fun acc n => match acc.2.1 with
    | some _ => acc
    | none => match resumeRank acc.1 n step with
      | (st, some (0, _, l)) => (st, none, acc.2.2 ++ [l])
      | (st, some (x, d, _)) => (st, some (x, d), acc.2.2)
      | (st, none) => (st, none, acc.2.2)) (s, none, [])

/-- RESUME in MODE 1 at the top manager (rules R37, R38, R395, R422, R442). -/
def resumeJob (s : State) (src : Src) (p : Packet) (body : Bytes) : Effect :=
  let no := fieldAt body 1 1
  let j := getJob s no
  let n := j.ranks.length
  let step := fieldAt body 4 4
  if !(takesJobs s) then deny s 0x030A s.mgr.role
  else if s.mgr.broadcasts.any (fun b => decide (b.src = src) && b.tag == p.tag) then denyState s 0xFF
  else
    match jobRefusal s j n none with
    | some (x, d) => deny s x d
    | none =>
      let own := (j.ranks.filter (fun r => r.2.1 == ownId s)).map (fun r => r.2.2)
      let heads := (own.head?.bind (fun m => (getSuite s m).checkpoints.find? (fun c => c.step == step))).map (fun c => c.header)
      let levels := ((jobImage s j).map (fun im => im.plan.levels.map (fun c => countOf c n))).getD j.levels
      let cause := breakCause (heads.getD []) (fieldAt body 2 1) n
      match resumeOwn s own step with
      | (_, some (x, d), _) => deny s x d
      | (s1, none, ls) =>
        let l := ls.headD []
        let known := if j.lineage = [] then l else bytesAt j.lineage 0 16
        if decide (cause = 0) && ls.any (fun y => decide (y ≠ known)) then deny s 0x030C 0
        else
          let j1 : Job := { j with
            nRanks := n, levels := levels, seed := if bit cause 2 then fieldAt body 8 8 else (heads.map (fun h => fieldAt h 128 8)).getD j.seed
            startAt := step + 1, cause := cause, old := if l = [] then known else l, image := [], manifests := [] }
          later (beginStart (setJob (actAsTop s1) no j1) src p.tag no (bytesAt body 0 16))

/-- RESUME in MODE 0 of a suite (rules R395, R422, R429, R437). -/
def resumeSuite (s : State) (src : Src) (p : Packet) (n : Nat) : Effect :=
  let su := getSuite s n
  if su.state ≠ .preempted then denyState s n
  else if multiRank su then gangForward s src p n 0x0302 1
  else
    match resumeFailure (updSuite s n (fun x => { x with excluded := [] })) n with
    | some e => deny (setLoad s n e 0 (2 ^ 64 - 1)) e 0
    | none => later (setLoad (askResume s n) n 0 0 (2 ^ 64 - 1))

/-- RESUME (rules R37, R395, R422, R437, R438, R442). -/
def execResume (src : Src) (tag : Nat) (s : State) : Host.Outcome State Fault Refusal :=
  runCommand 0x0302 src tag s (fun st sr p n body =>
    let mode := fieldAt body 0 1
    match forwardedFor st p with
    | some no => done (gangJob st no 1 (st.bell.count + st.mgr.haltLead)) (natLE 0 16)
    | none =>
      if n = 0xFF then (if mode = 1 then resumeJob st sr p body else deny st 0x020A (16 + envLen p))
      else if mode = 0 then resumeSuite st sr p n
      else match sr with
        | .link _ => resumeRemote st n body
        | .ring _ => deny st 0x020A (16 + envLen p))

/-- The lowest step that a suite has completed (rule R395). -/
def lastCompleted (s : State) (n : Nat) : Nat := lowestStep s n - 1

/-- STOP in MODE 1 of a suite (rules R335, R395): it halts and is then LOADED. -/
def stopNow (s : State) (n : Nat) : State :=
  nameHalt (updSuite s n (fun su => { su with job := { su.job with stopHalt := true, rank := some (su.job.rank.getD 0) } })) n s.bell.count (openStep s n)

/-- The START or RESUME of a job that is executing. -/
def startingOf (s : State) (no : Nat) : Option Broadcast :=
  s.mgr.broadcasts.find? (fun b => match (getRing s (ringKey b.src)).queue.find? (fun w => w.executing && w.pkt.tag == b.tag) with
    | some w => (w.pkt.opcode == 0x0300 && fieldAt (bodyOf w.pkt) 0 1 == no) || (w.pkt.opcode == 0x0302 && fieldAt (bodyOf w.pkt) 1 1 == no)
    | none => false)

/-- The job whose START or RESUME is executing and in which a suite of this module is a rank. -/
def startingWith (s : State) (n : Nat) : Option (Nat × Broadcast) :=
  s.mgr.jobs.findSome? (fun q => if q.2.ranks.any (fun r => r.2 == (ownId s, n)) then (startingOf s q.1).map (fun b => (q.1, b)) else none)

/-- STOP of a suite (rules R395, R402). -/
def stopSuite (s : State) (src : Src) (p : Packet) (n mode : Nat) : Effect :=
  let su := getSuite s n
  let loads := s.rings.any (fun q => q.2.queue.any (fun w => w.executing && w.pkt.opcode == 0x0202 && targetOf (keySrc q.1) w.pkt == n))
  match startingWith s n with
  | some (no, b) => done (failStart s no b 0x0309 0x0303) (natLE 0 4)
  | none =>
    if loads then done (abortWhere s 0x0303 (fun sr w => w.pkt.opcode == 0x0202 && targetOf sr w.pkt == n)) (natLE 0 4)
    else if su.state = .preempted then
      let last := lastCompleted s n
      done (stopSaved s n) (natLE last 4)
    else if su.state ≠ .running then denyState s n
    else if mode = 0 then wait (stopAtGate s n) src p.tag [highestEntered s n]
    else
      let s1 := abortWhere s 0x0303 (fun sr w => w.pkt.opcode == 0x0301 && targetOf sr w.pkt == n)
      wait (stopNow s1 n) src p.tag [lastCompleted s n]

/-- The stop of a job goes into its run record (rule R463). -/
def recordStop (s : State) (no step : Nat) : State :=
  let j := getJob s no
  addJobRecord s no (cborMap [(0, some (cborUint 6)), lineageItem j.lineage, (2, some (cborUint step)), (3, some (cborUint s.bell.count)),
    (8, some (cborUint 0))])

/-- STOP in MODE 0 of a suite for its job: awaited, with the step it will have completed. -/
def stopMember (s : State) (n : Nat) : Effect :=
  let su := getSuite s n
  if su.state = .running then later (stopAtGate s n)
  else if su.state = .preempted then
    let last := lastCompleted s n
    done (stopSaved s n) (natLE last 4)
  else denyState s n

/-- Steps that the suites of a job on this module will have completed after a stop in a mode. -/
def stopSteps (s : State) (no mode : Nat) : List Nat :=
  ((getJob s no).ranks.filter (fun r => r.2.1 == ownId s)).map (fun r =>
    if mode = 0 ∧ (getSuite s r.2.2).state = .running then highestEntered s r.2.2 else lastCompleted s r.2.2)

/-- The step at which a job halts now: after the lowest completed on this module; a manager without a rank is not told. -/
def haltStepNow (s : State) (no : Nat) : Nat :=
  match stopSteps s no 1 with
  | [] => Config.freeNat 9 s.free % 2 ^ 32
  | x :: xs => xs.foldl min x + 1

/-- STOP of a job (rules R391, R395, R402): in MODE 1 by HALT_AT_BELL, after a STOP verdict that keeps the ranks from restoring. -/
def stopJobCommand (s : State) (src : Src) (p : Packet) (body : Bytes) : Effect :=
  let no := fieldAt body 1 1
  let mode := fieldAt body 0 1
  let j := getJob s no
  match startingOf s no with
  | some b =>
    let s1 := failStart s no b 0x0309 0x0303
    done s1 (bytesAt (natLE 0 4) 0 32 ++ natLE j.ranks.length 4 ++ natLE 0 8)
  | none =>
    if !(takesJobs s) then deny s 0x030A s.mgr.role
    else if !(SMap.has s.mgr.jobs no) then deny s 0x030F 0
    else if !j.started then denyState s 0xFF
    else
      let head := match stopSteps s no mode with
        | [] => []
        | x :: xs => natLE (xs.foldl min x) 4
      let b : Broadcast := { src := src, tag := p.tag, since := s.bell.count, head := head }
      let members := j.ranks.map (fun r => r.2)
      let step := haltStepNow s no
      let s1 := recordStop s no step
      if mode = 0 then
        later (settleGather (toMembers (updJob s1 no (fun x => { x with started := false })) b members 0x0303 0x0A (bytesAt body 0 4) stopMember))
      else
        let h := s.bell.count + s.mgr.haltLead
        let s2 := updJob (sendVerdict { s1 with free := s.free + 1 } no (step - 1) 3) no (fun x => { x with started := false })
        later (settleGather (toMembers s2 b members 0x0507 0x0A
          (bytesAt j.lineage 0 16 ++ natLE step 4 ++ natLE 0 4 ++ natLE h 8) (fun st n =>
            if (getSuite st n).state = .running ∨ (getSuite st n).state = .preempted then later (nameHalt st n h step) else denyState st n)))

/-- STOP (rules R395, R402, R403). -/
def execStop (src : Src) (tag : Nat) (s : State) : Host.Outcome State Fault Refusal :=
  runCommand 0x0303 src tag s (fun st sr p n body =>
    if n = 0xFF then stopJobCommand st sr p body else stopSuite st sr p n (fieldAt body 0 1))

/-- Module and suite of entry `i` of a JOB_RANKS or SPARE_ASSIGN payload. -/
def memberAt (body : Bytes) (i : Nat) : Nat × Nat := (fieldAt body (8 + 8 * i) 4, fieldAt body (12 + 8 * i) 1)

/-- JOB_RANKS (rules R391, R395). -/
def execJobRanks (src : Src) (tag : Nat) (s : State) : Host.Outcome State Fault Refusal :=
  runCommand 0x0304 src tag s (fun st _ _ n body =>
    let no := fieldAt body 0 1
    let j := getJob st no
    let first := fieldAt body 4 4
    let k := fieldAt body 2 2
    if !(takesJobs st) then deny st 0x030A st.mgr.role
    else if j.started || (startingOf st no).isSome then denyState st n
    else if 1048576 < first + k then deny st 0x0308 0xFFFF
    else
      let old := if bit (fieldAt body 1 1) 0 then [] else j.ranks
      let ranks := (List.range k).foldl (fun m i => SMap.set m (first + i) (memberAt body i)) old
      done (setJob (actAsTop st) no { j with ranks := ranks }) (natLE ranks.length 4))

/-- Schedule an event that takes the state after a step (rules R31, R354, R396): STEP_PASSED where U has passed on. -/
def stepEvent (s : State) (n opcode step bell : Nat) : Effect :=
  if uPassed s n (step + 1) then deny s 0x0307 0
  else scheduleAndReply s { bell := bell, opcode := opcode, suite := n, step := step }

/-- EVAL_AT of a suite. -/
def evalAt (s : State) (n : Nat) (body : Bytes) : Effect :=
  if (getSuite s n).state = .running then stepEvent s n 0x0305 (fieldAt body 0 4) (fieldAt body 8 8) else denyState s n

/-- EVAL_AT (rules R232, R391, R395). -/
def execEvalAt (src : Src) (tag : Nat) (s : State) : Host.Outcome State Fault Refusal :=
  runCommand 0x0305 src tag s (fun st sr p n body =>
    if n = 0xFF then jobCommand st sr p (fieldAt body 4 1) 0x0305 (bytesAt body 0 16) (fun q m => evalAt q m body) else evalAt st n body)

/-- SLICE_SET (rules R395, R423, R426, R429, R438). -/
def execSliceSet (src : Src) (tag : Nat) (s : State) : Host.Outcome State Fault Refusal :=
  runCommand 0x0306 src tag s (fun st _ p n body =>
    let su := getSuite st n
    let slice := fieldAt body 0 4
    let grace := if fieldAt body 4 4 = 0 then 250000 else fieldAt body 4 4
    if slice = 0 ∧ 1 < (tileGroup st n).length then deny st 0x020A 0
    else if slice ≠ 0 ∧ multiRank su = true then deny st 0x020A (16 + envLen p)
    else if (match su.image with
      | some im => decide (grace < im.maxDuration)
      | none => false) then deny st 0x020A (20 + envLen p)
    else
      let inProgress := decide (su.state = .running) && su.slice.slice != 0
      let s1 := updSuite st n (fun x => { x with slice := { x.slice with
        grace := grace, slice := if inProgress then x.slice.slice else slice, nextSlice := if inProgress then some slice else none } })
      done (if su.state = .running ∧ inProgress = false then beginSlice s1 n else s1) [])

end Sys2Proof.Machine
end

