-- ==== Sys2Proof/Machine/CmdCheck.lean ====
section
/-!
DEFINITION. Commands of class 0x04: checkpoints, digests and run records (rules R48, R391, R396, R397, R402, R441, R442). The transfers of the bulk
commands are BULK_COMMAND_COMPLETE.
-/
namespace Sys2Proof.Machine

/-- CHECKPOINT_AT of a suite. -/
def checkpointAt (s : State) (n : Nat) (body : Bytes) : Effect :=
  let x := (getSuite s n).state
  if x = .running ∨ x = .loaded then stepEvent s n 0x0400 (fieldAt body 0 4) (fieldAt body 8 8) else denyState s n

/-- CHECKPOINT_AT (rules R391, R396, R441). -/
def execCheckpointAt (src : Src) (tag : Nat) (s : State) : Host.Outcome State Fault Refusal :=
  runCommand 0x0400 src tag s (fun st sr p n body =>
    if n = 0xFF then jobCommand st sr p (fieldAt body 4 1) 0x0400 (bytesAt body 0 16) (fun q m => checkpointAt q m body) else checkpointAt st n body)

/-- Size of a suite's checkpoints in bytes (rule R441). -/
def checkpointSize (im : Image) (c : Checkpoint) : Nat := scaleOffset im + (scaleTableBytes c.scale).length

/-- CHECKPOINT_LIST (rule R396's table). -/
def execCheckpointList (src : Src) (tag : Nat) (s : State) : Host.Outcome State Fault Refusal :=
  runCommand 0x0401 src tag s (fun st _ _ n _ =>
    let su := getSuite st n
    match su.image with
    | none => denyState st n
    | some im =>
      let l := su.checkpoints.take 127
      done st (natLE l.length 2 ++ natLE 0 2 ++ (l.map (fun c =>
        natLE c.step 4 ++ natLE (bnat c.vouched + 2 * bnat c.complete) 4 ++ bytesAt c.lineage 0 16 ++ natLE (checkpointSize im c) 8)).flatten))

/-- CHECKPOINT_READ starts (rule R396's table). -/
def execCheckpointRead (src : Src) (tag : Nat) (s : State) : Host.Outcome State Fault Refusal :=
  runCommand 0x0402 src tag s (fun st _ _ n body =>
    let su := getSuite st n
    if su.image.isNone then denyState st n
    else if su.checkpoints.any (fun c => c.step == fieldAt body 0 4) then later st else deny st 0x030F 0)

/-- CHECKPOINT_READ completes (rules R390, R441): the bytes that the checkpoint has from OFFSET. -/
def finishCheckpointRead (s : State) (src : Src) (w : Waiting) : State :=
  let su := getSuite s (targetOf src w.pkt)
  let body := bodyOf w.pkt
  let a := fieldAt body 16 8
  match su.image, su.checkpoints.find? (fun c => c.step == fieldAt body 0 4) with
  | some im, some c =>
    let bs := ((checkpointBytes im c).drop (fieldAt body 8 8)).take (fieldAt body 24 8)
    if hostFails s a bs.length then finish s src w.pkt.tag 0x0402 0 [] else finish (hostWrite s a bs) src w.pkt.tag 0 0 (natLE bs.length 8)
  | _, _ => finish s src w.pkt.tag 0x030F 0 []

/-- CHECKPOINT_WRITE starts (rule R396): the checkpoint area has room, or a checkpoint that is not vouched. -/
def execCheckpointWrite (src : Src) (tag : Nat) (s : State) : Host.Outcome State Fault Refusal :=
  runCommand 0x0403 src tag s (fun st _ _ n body =>
    let su := getSuite st n
    match (if su.state = .loaded then su.image else none) with
    | none => denyState st n
    | some im =>
      let others := { su with checkpoints := su.checkpoints.filter (fun c => c.step != fieldAt body 0 4) }
      if (checkpointSlot others im).isNone then denyState st n else later st)

/-- The last bytes of a checkpoint have come (rules R396, R441): its digest and lineage decide. -/
def listCheckpoint (s : State) (n step : Nat) (im : Image) (m : Memory) : State × Bool :=
  let su := getSuite s n
  let total := leNat (Memory.readN m 200 5) + leNat (Memory.readN m 205 5)
  let su1 := { su with receiving := SMap.erase su.receiving step }
  let others := { su1 with checkpoints := su1.checkpoints.filter (fun c => c.step != step) }
  match checkpointOf im (Memory.readN m 0 total), checkpointSlot others im with
  | some c, some (slot, rest) =>
    let good := c.step == step && (su.job.lineage == [] || decide (bytesAt su.job.lineage 0 16 = c.lineage))
    if good then (setSuite s n { su1 with checkpoints := rest ++ [{ c with slot := slot }] }, true) else (setSuite s n su1, false)
  | _, _ => (setSuite s n su1, false)

/-- CHECKPOINT_WRITE completes (rules R390, R396). -/
def finishCheckpointWrite (s : State) (src : Src) (w : Waiting) : State :=
  let n := targetOf src w.pkt
  let body := bodyOf w.pkt
  let a := fieldAt body 16 8
  let len := fieldAt body 24 8
  let step := fieldAt body 0 4
  let su := getSuite s n
  match su.image with
  | none => finish s src w.pkt.tag 0x0301 (stateDetail s n) []
  | some im =>
    if hostFails s a len then finish s src w.pkt.tag 0x0402 0 []
    else
      let m := Memory.writeN (SMap.get [] su.receiving step) (fieldAt body 8 8) (hostBytes s a len)
      let s1 := setSuite s n { su with receiving := SMap.set su.receiving step m }
      if bit (fieldAt body 4 1) 0 then
        match listCheckpoint s1 n step im m with
        | (s2, true) => finish s2 src w.pkt.tag 0 0 (natLE len 8)
        | (s2, false) => finish s2 src w.pkt.tag 0x0403 0 []
      else finish s1 src w.pkt.tag 0 0 (natLE len 8)

/-- DIGEST_READ starts (rule R397). -/
def execDigestRead (src : Src) (tag : Nat) (s : State) : Host.Outcome State Fault Refusal :=
  runCommand 0x0404 src tag s (fun st _ _ n _ => if (getSuite st n).image.isNone then denyState st n else later st)

/-- Insert a digest slot by its step. -/
def insertSlot (d : DigestSlot) : List DigestSlot → List DigestSlot
  | [] => [d]
  | x :: xs => if d.step < x.step then d :: x :: xs else x :: insertSlot d xs

/-- Digest slots by rising step. -/
def slotsByStep (m : SMap DigestSlot) : List DigestSlot := m.foldl (fun l p => insertSlot p.2 l) []

/-- Records of a slot in rising tensor id, the evaluation flag record right after the training flag record (rule R397). -/
def slotRecords (d : DigestSlot) : List Bytes :=
  ((d.recs.filter (fun r => decide (r.1 ≤ flagKey))) ++ (d.recs.filter (fun r => r.1 == evalFlagKey)) ++ (d.recs.filter (fun r => r.1 == inputKey))).map
    (fun r => r.2)

/-- DIGEST_READ completes (rules R48, R390, R397): as many whole records as LENGTH holds. -/
def finishDigestRead (s : State) (src : Src) (w : Waiting) : State :=
  let su := getSuite s (targetOf src w.pkt)
  let body := bodyOf w.pkt
  let a := fieldAt body 8 8
  let first := fieldAt body 0 4
  let slots := slotsByStep su.ring
  let l := ((slots.filter (fun d => decide (first ≤ d.step) && decide (d.step < first + fieldAt body 4 4))).map slotRecords).flatten.take
    (fieldAt body 16 8 / 48)
  let bs := l.flatten
  if hostFails s a bs.length then finish s src w.pkt.tag 0x0402 0 []
  else finish (hostWrite s a bs) src w.pkt.tag 0 0 (natLE l.length 4 ++ natLE ((slots.head?.map (fun d => d.step)).getD 0) 4)

/-- RUN_RECORD_READ starts (rules R391, R396): sent to no rank. -/
def execRunRecordRead (src : Src) (tag : Nat) (s : State) : Host.Outcome State Fault Refusal :=
  runCommand 0x0405 src tag s (fun st _ _ _ body =>
    if !(takesJobs st) then deny st 0x030A st.mgr.role
    else if SMap.has st.mgr.jobs (fieldAt body 0 1) then later (actAsTop st) else deny st 0x030F 0)

/-- RUN_RECORD_READ completes (rules R390, R463). -/
def finishRunRecordRead (s : State) (src : Src) (w : Waiting) : State :=
  let body := bodyOf w.pkt
  let a := fieldAt body 16 8
  let r := (getJob s (fieldAt body 0 1)).runRecord
  let bs := (r.drop (fieldAt body 8 8)).take (fieldAt body 24 8)
  if hostFails s a bs.length then finish s src w.pkt.tag 0x0402 0 []
  else finish (hostWrite s a bs) src w.pkt.tag 0 0 (natLE bs.length 8 ++ natLE r.length 8)

/-- BULK_COMMAND_COMPLETE (rules R240, R390): the transfer of an executing bulk command takes place and it replies. -/
def execBulkCommandComplete (src : Src) (tag : Nat) (obs : List MemObs) (s0 : State) : Host.Outcome State Fault Refusal :=
  match (getRing s0 (ringKey src)).queue.find? (fun w => w.executing && w.pkt.tag == tag) with
  | none => ok s0
  | some w =>
    let reads := w.pkt.opcode == 0x0402 || w.pkt.opcode == 0x0404 || w.pkt.opcode == 0x0F00
    let s := if reads then readObs s0 (targetOf src w.pkt) obs else s0
    match w.pkt.opcode with
    | 0x0202 => ok (finishLoad s src w)
    | 0x0204 => ok (finishInputWrite s src w)
    | 0x0402 => ok (finishCheckpointRead s src w)
    | 0x0403 => ok (finishCheckpointWrite s src w)
    | 0x0404 => ok (finishDigestRead s src w)
    | 0x0405 => ok (finishRunRecordRead s src w)
    | 0x0F00 => ok (finishTensorRead s src w)
    | _ => ok s

end Sys2Proof.Machine
end

