-- ==== Sys2Proof/Machine/CmdMgr.lean ====
section
/-!
DEFINITION. Commands of class 0x05 and BELL_SLOT_SET: roles and attachment, spares, expulsion, takeover, gangs, halts, votes, maps and
records (rules R314 to R340 of 14_managers_replicas_and_collectives.md, R356, R391, R392, R398, R439).
-/
namespace Sys2Proof.Machine

/-- Whether this module manages others (rule R314). -/
def manages (s : State) : Bool := s.mgr.role == 2 || s.mgr.role == 3

/-- Whether a suite of this module holds a rank. -/
def holdsRank (s : State) : Bool := s.suites.any (fun p => decide (p.2.state ≠ .absent) && p.2.job.rank.isSome)

/-- MANAGER_ROLE's effect (rules R314, R316): a module takes the role with id 0, or gives it up and is UNATTACHED. -/
def managerRole (s : State) (take : Nat) : Effect :=
  let refused := s.mgr.role == 1 || s.mgr.role == 3 || holdsRank s
    || (take != 1 && s.mgr.role == 2 && (!s.mgr.workers.isEmpty || !s.mgr.jobs.isEmpty))
  if refused then deny s 0x030A s.mgr.role
  else
    let s1 : State := { s with mgr := if take = 1 then { s.mgr with role := 2, depth := 0, moduleId := 0 }
                                      else if s.mgr.role = 2 then { s.mgr with role := 0, moduleId := 0xFFFFFFFF } else s.mgr }
    done s1 (natLE s1.mgr.moduleId 4)

/-- MANAGER_ROLE (rule R314). -/
def execManagerRole (src : Src) (tag : Nat) (s : State) : Host.Outcome State Fault Refusal :=
  runCommand 0x0500 src tag s (fun st _ _ _ body => managerRole st (fieldAt body 0 1))

/-- The HELLO payload of a manager (rules R379, R380). -/
def managerHello (s : State) : Bytes :=
  (supported.map (fun m => natLE m 4)).flatten ++ natLE 0x3F 8 ++ natLE 1 1 ++ natLE 0 3 ++ natLE (ownId s) 4

/-- Await the answer to this module's next packet: what it continues. -/
def askNext (s : State) (note : List Nat) : State :=
  { s with mgr := { s.mgr with asked := SMap.set s.mgr.asked s.mgr.nextTag note } }

/-- Send a HELLO on a port, from a manager or from a Hall that relays an attach request (rules R317, R379). -/
def sendHello (s : State) (port : Nat) : State :=
  let s1 := sendMgmt s port (packetBytes { opcode := 0, version := 3, flags := 0, suite := 0xFF, tag := s.mgr.nextTag, payload := managerHello s })
  { s1 with mgr := { s1.mgr with nextTag := (s.mgr.nextTag + 1) % 2 ^ 32 } }

/-- Open this module's side of a session from a HELLO reply's fields (rule R379). -/
def openFrom (s : State) (port : Nat) (fields : Bytes) (peer : Nat) : State :=
  updRing s (16 + port) (fun r => { r with
    session := true, cmdVersion := fieldAt fields 0 1, imageVersions := [fieldAt fields 1 1], digestVersions := [fieldAt fields 2 1],
    features := fieldAt fields 4 8, sessions := r.sessions + 1, peer := peer })

/-- The ids that this module knows to be taken (rule R316). -/
def knownIds (s : State) : List Nat :=
  0 :: ownId s :: s.mgr.parent :: (s.mgr.workers.map (fun w => w.module) ++ s.mgr.placed.map (fun q => q.1))

/-- The module id that an attach offers (rules R316, R317): the top manager's next; a sub-manager is not told how it learns one, which is a free
value that no module it knows has. -/
def offeredId (s : State) : Nat × State :=
  if s.mgr.role = 2 then (s.mgr.nextModule, s)
  else
    let d := draw s
    let l := knownIds s
    let tries := (List.range (l.length + 1)).map (fun i => 1 + (Config.freeNat 10 d.1 + i) % (2 ^ 32 - 2))
    ((tries.find? (fun m => !(l.contains m))).getD 0xFFFFFFFE, d.2)

/-- The manager's part of WORKER_ATTACH (rules R315, R317): the limits, then a HELLO along the first port of the path. -/
def beginAttach (s : State) (src : Src) (tag : Nat) (body : Bytes) : Effect :=
  let port := fieldAt body 1 1
  if !(manages s) then deny s 0x030A s.mgr.role
  else if 2 < s.mgr.depth then deny s 0x0308 3
  else if 1024 ≤ s.mgr.workers.length then deny s 0x0308 1024
  else if !(portPresent s port) || ((getPort s port).state != portUp && (getPort s port).state != portMgmtOnly) then deny s 0x0405 0
  else
    let s1 := openGather s { src := src, tag := tag, waiting := [s.mgr.nextTag], since := s.bell.count }
    later (sendHello (askNext s1 [0x0000, ringKey src, tag]) port)

/-- The candidate's part of WORKER_ATTACH (rules R315 to R317, R286): it accepts the id and the manager, or keeps its id on a new path. -/
def acceptAttach (s : State) (port : Nat) (p : Packet) : Effect :=
  let parent := fieldAt p.payload 4 4
  let attached := s.mgr.role == 1 || s.mgr.role == 3
  let answer := fun (st : State) => done (sendMgmt st port (capacityBytes st)) (natLE st.mgr.moduleId 4 ++ identityBytes st)
  if s.dev ≠ .ready ∧ s.dev ≠ .running then denyState s 0xFF
  else if attached then
    if s.mgr.parent = parent then
      answer { s with mgr := { s.mgr with parentPort := port }, bell := { s.bell with port := if s.bell.source = 3 then port else s.bell.port } }
    else deny s 0x030A s.mgr.role
  else if s.mgr.role = 2 ∧ s.mgr.workers ≠ [] then deny s 0x030A s.mgr.role
  else if holdsRank s then denyState s 0xFF
  else
    let d := draw s
    let depth := if parent = 0 then 1 else 2 + Config.freeNat 6 d.1 % 2
    let m : Manager := { s.mgr with
      role := if s.mgr.role = 2 then 3 else 1, moduleId := fieldAt p.payload 0 4, parent := parent, parentPort := port, depth := depth, jobs := [],
      heard := some s.bell.count }
    answer (startBelfry { (if parent = 0 then s else d.2) with mgr := m })

/-- WORKER_ATTACH (rule R317): at a manager, or at the end of the path. -/
def execWorkerAttach (src : Src) (tag : Nat) (s : State) : Host.Outcome State Fault Refusal :=
  runCommand 0x0501 src tag s (fun st sr p _ body =>
    match sr with
    | .link q => if isRelayed p = false ∨ fieldAt p.payload 0 4 = ownId st then beginAttach st sr tag body else acceptAttach st q p
    | .ring _ => beginAttach st sr tag body)

/-- A worker leaves its manager (rule R398): it is UNATTACHED, or a top manager where it has workers; its session ends. -/
def leaveManager (s : State) : State :=
  let m : Manager := { s.mgr with
    role := if s.mgr.role = 3 then 2 else 0, depth := 0, moduleId := if s.mgr.role = 3 then 0 else 0xFFFFFFFF, parent := 0xFFFFFFFF, parentPort := 0, heard := none }
  startBelfry { s with mgr := m }

/-- A manager forgets a worker that it has detached; their session ends (rules R379, R398). -/
def forgetWorker (s : State) (m port : Nat) : State :=
  updRing { s with mgr := { s.mgr with
    workers := s.mgr.workers.filter (fun x => x.module != m)
    placed := s.mgr.placed.filter (fun q => q.2 != port)
    tables := SMap.erase s.mgr.tables m } } (16 + port) (fun r => { r with session := false })

/-- WORKER_DETACH's effect (rules R316, R317, R379, R398): the top manager knows whether the module holds a rank; a sub-manager awaits the
module's own answer. -/
def detachEffect (s : State) (src : Src) (tag m : Nat) : Effect :=
  if !(manages s) then deny s 0x030A s.mgr.role
  else
    match s.mgr.workers.find? (fun w => w.module == m) with
    | none => deny s 0x030F 0
    | some w =>
      if s.mgr.jobs.any (fun q => q.2.ranks.any (fun r => r.2.1 == m)) then deny s 0x030A s.mgr.role
      else
        let ask := sendCommand s w.port m 0x0502 0xFF 8 (natLE m 4)
        if s.mgr.role = 2 ∨ w.lost = true then done (forgetWorker ask m w.port) []
        else later (openGather (sendCommand (askNext s [0x0502, ringKey src, tag, m, w.port]) w.port m 0x0502 0xFF 8 (natLE m 4))
          { src := src, tag := tag, waiting := [s.mgr.nextTag], since := s.bell.count })

/-- WORKER_DETACH (rules R317, R398); a worker that its manager detaches takes its leave, unless it holds a rank. -/
def execWorkerDetach (src : Src) (tag : Nat) (s : State) : Host.Outcome State Fault Refusal :=
  runCommand 0x0502 src tag s (fun st sr _ _ body =>
    let m := fieldAt body 0 4
    if (st.mgr.role = 1 ∨ st.mgr.role = 3) ∧ sr = .link st.mgr.parentPort ∧ m = ownId st then
      if holdsRank st then deny st 0x030A st.mgr.role
      else done (updRing (leaveManager st) (16 + st.mgr.parentPort) (fun r => { r with session := false })) []
    else detachEffect st sr tag m)

/-- Whether a module lies in this hierarchy, as seen from here. -/
def knownModule (s : State) (m : Nat) : Bool := m == ownId s || below s m

/-- SPARE_ASSIGN's effect at the top manager (rules R391, R398): the spares, and the command to each spare on another module. -/
def spareEffect (s : State) (src : Src) (p : Packet) (body : Bytes) : Effect :=
  let no := fieldAt body 0 1
  let new := (List.range (fieldAt body 2 2)).map (memberAt body)
  let j := getJob s no
  let spares := ((if bit (fieldAt body 1 1) 0 then [] else j.spares) ++ new).eraseDups
  if !(takesJobs s) then deny s 0x030A s.mgr.role
  else if !(SMap.has s.mgr.jobs no) || !(new.all (fun m => knownModule s m.1)) then deny s 0x030F 0
  else if 1024 < spares.length then deny s 0x0308 1024
  else
    let count := natLE spares.length 4
    later (settleGather (toMembers (setJob (actAsTop s) no { j with spares := spares })
      { src := src, tag := p.tag, since := s.bell.count, head := count } spares 0x0503 8 body (fun st _ => done st count)))

/-- SPARE_ASSIGN (rule R398); a spare that the top manager names acknowledges it. -/
def execSpareAssign (src : Src) (tag : Nat) (s : State) : Host.Outcome State Fault Refusal :=
  runCommand 0x0503 src tag s (fun st sr p n body =>
    if n ≠ 0xFF then done st (natLE (fieldAt body 2 2) 4) else spareEffect st sr p body)

/-- The ranks that an EXPEL names. -/
def expelledRanks (body : Bytes) : List Nat := ((List.range (fieldAt body 8 2)).map (fun i => fieldAt body (12 + 4 * i) 4)).eraseDups

/-- Module of the replica that a spare copies from (rule R331): the lowest rank of the group that stays. -/
def replicaOf (s : State) (j : Job) (rs : List Nat) (r : Nat) : Nat :=
  let stay := (((voteGroups s j).find? (fun g => g.contains r)).getD []).filter (fun q => !(rs.contains q))
  (SMap.get (0xFFFFFFFF, 0xFF) j.ranks (stay.headD r)).1

/-- EXPEL's effect at the top manager (rules R331, R332, R398). -/
def expelEffect (s : State) (src : Src) (p : Packet) (body : Bytes) : Effect :=
  let no := fieldAt body 0 1
  let step := fieldAt body 4 4
  let rs := expelledRanks body
  let j := getJob s no
  if !(takesJobs s) then deny s 0x030A s.mgr.role
  else if !(SMap.has s.mgr.jobs no) || !(rs.all (SMap.has j.ranks)) then deny s 0x030F 0
  else if !j.started then denyState s 0xFF
  else if j.spares.length < rs.length then deny (stopJob s no (step + 1) 0x0600) 0x0308 (min j.spares.length 0xFFFF)
  else
    let s1 := haltInPlace s no step
    let away := (j.ranks.filter (fun r => r.2.1 != ownId s)).length
    let b : Broadcast := { src := src, tag := p.tag, waiting := nextTags s1 away, okCount := j.ranks.length - away, since := s.bell.count }
    later (settleGather (rs.foldl (fun st r => assignSpare st no r step 0 (replicaOf s j rs r)) (sendExpels s1 no step rs), b))

/-- EXPEL (rules R331, R398); at a rank, the suite leaves its job where its rank is named. -/
def execExpel (src : Src) (tag : Nat) (s : State) : Host.Outcome State Fault Refusal :=
  runCommand 0x0504 src tag s (fun st sr p n body =>
    if n = 0xFF then expelEffect st sr p body
    else
      match (getSuite st n).job.rank with
      | some r => done (if (expelledRanks body).contains r then leaveJob st n else st) []
      | none => done st [])

/-- Whether a LINEAGE field names another lineage than the suite's (rule R392). -/
def otherLineage (su : Suite) (lineage : Bytes) : Bool :=
  su.job.lineage != [] && decide (bytesAt su.job.lineage 0 16 ≠ lineage)

/-- TAKEOVER (rules R331, R338, R398): the spare begins, and replies once it has the rank. -/
def execTakeover (src : Src) (tag : Nat) (s : State) : Host.Outcome State Fault Refusal :=
  runCommand 0x0505 src tag s (fun st sr _ n body =>
    let su := getSuite st n
    if otherLineage su (bytesAt body 0 16) then deny st 0x030C 0
    else if su.state ≠ .loaded ∨ su.job.rank.isSome ∨ su.job.takeover.isSome then denyState st n
    else if !(takeoverReady su body) then deny st 0x030F 0
    else wait (beginTakeover st n (bytesAt body 0 36)) sr tag [])

/-- Schedule a gang event of a suite (rules R354, R439). -/
def gangRank (s : State) (n action bell : Nat) : Effect :=
  match gangEvent s n action bell with
  | none => deny s 0x0308 1024
  | some x => later x.1

/-- GANG_AT_BELL (rules R391, R398, R439): replies when the suites have reached the new state. -/
def execGangAtBell (src : Src) (tag : Nat) (s : State) : Host.Outcome State Fault Refusal :=
  runCommand 0x0506 src tag s (fun st sr p n body =>
    let no := fieldAt body 0 1
    let action := fieldAt body 1 1
    let bell := fieldAt body 8 8
    if n = 0xFF then
      if !(takesJobs st) then deny st 0x030A st.mgr.role
      else if !(SMap.has st.mgr.jobs no) then deny st 0x030F 0
      else
        let ranks := (getJob st no).ranks.map (fun r => r.2)
        let head := if ranks.any (fun r => r.1 == ownId st) then eventReply { bell := max bell st.bell.count, id := st.bell.nextEvent } else []
        later (settleGather (toMembers (setNote (actAsTop st) sr tag [action])
          { src := sr, tag := p.tag, since := max bell st.bell.count, head := head } ranks 0x0506 (8 + 2 * bnat (bit p.flags 1))
          (bytesAt body 0 16) (fun q m => gangRank q m action bell)))
    else if (getSuite st n).job.rank.isNone then denyState st n
    else
      match gangEvent st n action bell with
      | none => deny st 0x0308 1024
      | some x => wait x.1 sr tag [action, x.2.bell, x.2.id])

/-- HALT_AT_BELL (rules R335, R340, R392): replies once the suite has halted at H. -/
def execHaltAtBell (src : Src) (tag : Nat) (s : State) : Host.Outcome State Fault Refusal :=
  runCommand 0x0507 src tag s (fun st sr _ n body =>
    let su := getSuite st n
    if otherLineage su (bytesAt body 0 16) then deny st 0x030C 0
    else if su.job.rank.isNone ∨ (su.state ≠ .running ∧ su.state ≠ .preempted ∧ su.state ≠ .draining) then denyState st n
    else wait (nameHalt st n (fieldAt body 24 8) (fieldAt body 16 4)) sr tag [su.counts.absorbed])

/-- A poison notice reaches the top manager with the owner record's module and INDEX (rules R334, R335, R338). -/
def topNotice (s : State) (lineage : Bytes) (rank step : Nat) (o : Nat × Nat) : State :=
  let s1 := noticeAtTop (blame s lineage o) lineage rank step
  match jobOf s1 lineage with
  | none => s1
  | some (no, _) => haltJob s1 no step

/-- POISON_NOTICE (rule R334): managers relay it to the top manager. -/
def execPoisonNotice (src : Src) (tag : Nat) (s : State) : Host.Outcome State Fault Refusal :=
  runCommand 0x0508 src tag s (fun st _ _ _ body =>
    if !(manages st) then deny st 0x030A st.mgr.role
    else if isTop st then done (topNotice st (bytesAt body 0 16) (fieldAt body 16 4) (fieldAt body 20 4) (fieldAt body 24 4, fieldAt body 28 4)) []
    else done (sendToManager st 0x0508 0xFF true (bytesAt body 0 32)) [])

/-- VOTE_RECORD (rule R329): sub-managers forward it unchanged. -/
def execVoteRecord (src : Src) (tag : Nat) (s : State) : Host.Outcome State Fault Refusal :=
  runCommand 0x0509 src tag s (fun st _ _ _ body =>
    if !(manages st) then deny st 0x030A st.mgr.role
    else if isTop st then done (receiveVote st (bytesAt body 0 40)) []
    else done (sendToManager st 0x0509 0xFF false (bytesAt body 0 40)) [])

/-- VERDICT (rules R330 to R333, R392). -/
def execVerdict (src : Src) (tag : Nat) (s : State) : Host.Outcome State Fault Refusal :=
  runCommand 0x050A src tag s (fun st _ _ n body =>
    let su := getSuite st n
    if otherLineage su (bytesAt body 0 16) then deny st 0x030C 0
    else if su.job.rank.isNone then denyState st n
    else done (takeVerdict st n (fieldAt body 16 4) (fieldAt body 20 1)) [])

/-- A rank of another module's job takes the lineage and starts (rules R36, R321): no packet tells it the seed of a START, whether it keeps
snapshots, or the job manifest; each is a free value of the lineage id, which is a digest of them. -/
def commitRank (s : State) (n : Nat) (body : Bytes) : State :=
  let id := leNat (bytesAt body 0 16)
  let su := getSuite s n
  let start := su.startAt
  let nr := fieldAt body 20 4
  let levels := (su.image.map (fun im => im.plan.levels.map (fun c => countOf c nr))).getD []
  let s1 := takeJobMap (discardFrom s n start) n body
  launch (updSuite s1 n (fun x => { x with
    runRecord := if start = 1 then [] else x.runRecord
    job := { x.job with
      levels := levels, seed := if start = 1 then Config.freeNat 7 id % 2 ^ 64 else x.job.seed, snapshot := decide (Config.freeNat 8 id % 2 = 1)
      manifest := bytesAt (Config.answer 0x050B id) 0 48, voted := 0, started := true, mapReceived := true, committedMap := true
      broken := if start = 1 then none else x.job.broken } })) n start (decide (start ≠ 1))

/-- JOB_MAP's effect at a rank or spare (rules R321, R392, R398). -/
def mapEffect (s : State) (n : Nat) (body : Bytes) : Effect :=
  let su := getSuite s n
  let lineage := bytesAt body 0 16
  let kind := fieldAt body 30 1
  let spare := fieldAt body 16 4 == 0xFFFFFFFF
  let lastRoutes := kind == 1 && bit (fieldAt body 31 1) 0
  let same := su.job.lineage != [] && decide (bytesAt su.job.lineage 0 16 = lineage)
  if su.image.isNone then denyState s n
  else if !same && decide (su.state ≠ .loaded) then (if su.job.lineage = [] then denyState s n else deny s 0x030C 0)
  else if kind = 2 then
    if !su.job.mapReceived then denyState s n
    else if same && decide (su.state ≠ .loaded) then denyState s n
    else done (if spare then takeJobMap s n body else commitRank s n body) []
  else
    let s1 := takeJobMap s n body
    let s2 := if kind = 0 ∧ fieldAt body 24 4 = 0 ∧ su.state = .loaded then updSuite s1 n (fun x => { x with startAt := 1 }) else s1
    if !lastRoutes then done s2 []
    else
      let shape := su.image.all (fun im => planAdmits im.plan (fieldAt body 20 4))
      match (if !shape then some 0x0121
             else if !(transitFits s2 n ((getSuite s2 n).job.routes.map (fun r => r.2))) then some 0x0122
             else if su.state = .loaded then mapFailure s2 n else none) with
      | some c => deny s2 c 0
      | none => done s2 (if spare then List.replicate 48 0#8 else bytesAt (getSuite s2 n).job.rankManifest 0 48)

/-- JOB_MAP (rules R321, R398). -/
def execJobMap (src : Src) (tag : Nat) (s : State) : Host.Outcome State Fault Refusal :=
  runCommand 0x050B src tag s (fun st _ _ n body => mapEffect st n body)

/-- RECORDS (rules R327, R392): merged at the top manager, forwarded by a sub-manager, or delivered to a rank. -/
def execRecords (src : Src) (tag : Nat) (s : State) : Host.Outcome State Fault Refusal :=
  runCommand 0x050C src tag s (fun st _ _ n body =>
    if n = 0xFF then
      if !(manages st) then deny st 0x030A st.mgr.role
      else if isTop st then done (mergeAtTop st body) []
      else done (sendToManager st 0x050C 0xFF false body) []
    else if (getSuite st n).job.rank.isNone then denyState st n
    else if otherLineage (getSuite st n) (bytesAt body 0 16) then deny st 0x030C 0
    else done (takeRecords st n body) [])

/-- Schedule a bell slot value of a suite (rule R356). -/
def slotEvent (s : State) (n : Nat) (body : Bytes) : Effect :=
  scheduleAndReply s { bell := fieldAt body 16 8, opcode := 0x0802, suite := n, arg := fieldAt body 0 1, value := fieldAt body 8 8 }

/-- BELL_SLOT_SET (rules R356, R391). -/
def execBellSlotSet (src : Src) (tag : Nat) (s : State) : Host.Outcome State Fault Refusal :=
  runCommand 0x0802 src tag s (fun st sr p n body =>
    if n = 0xFF then jobCommand st sr p (fieldAt body 1 1) 0x0802 (bytesAt body 0 24) (fun q m => slotEvent q m body) else slotEvent st n body)

end Sys2Proof.Machine
end

