-- ==== Sys2Proof/Machine/Fabric.lean ====
section
/-!
DEFINITION. The management channel: packets from neighbouring modules, relays, replies and broadcasts (rules R298, R317, R318, R376 to R379
of 13_spires_lanterns_and_fabric_links.md, 14_managers_replicas_and_collectives.md and 16_command_packets.md, R383, R385, R391).
-/
namespace Sys2Proof.Machine

/-- Whether a packet is an attach request on its way along the path (rule R317). -/
def isAttaching (s : State) (p : Packet) : Bool :=
  p.opcode == 0x0501 && fieldAt p.payload 0 4 != ownId s && !(below s (fieldAt p.payload 0 4))

/-- The port by which a packet for another module leaves (rules R317, R318, R377): down a management path, back along a relayed path, or up. -/
def nextPort (s : State) (src : Src) (p : Packet) : Option Nat :=
  let dest := fieldAt p.payload 0 4
  let back := match src with
    | .link q => (s.mgr.relays.find? (fun r => r.2 == q)).map (fun r => r.1)
    | .ring _ => none
  if isAttaching s p then (match src with
    | .link _ => some (fieldAt (bodyOf p) (2 + fieldAt p.payload 12 1) 1)
    | .ring _ => none)
  else
    match s.mgr.workers.find? (fun w => w.module == dest) with
    | some w => some w.port
    | none =>
      if SMap.has s.mgr.placed dest then some (SMap.get 0 s.mgr.placed dest)
      else if back.isSome then back
      else if s.mgr.role = 1 ∨ s.mgr.role = 3 then some s.mgr.parentPort else none

/-- An envelope with one relay more (rule R377). -/
def relayEnvelope (e : Bytes) : Bytes := bytesAt e 0 12 ++ natLE (fieldAt e 12 1 + 1) 1 ++ natLE 0 3

/-- Send a packet on as a new packet with the next tag (rule R377). -/
def sendRelay (s : State) (p : Packet) (port : Nat) : State :=
  let q : Packet := { p with version := linkCommandVersion s port, tag := s.mgr.nextTag, payload := relayEnvelope (p.payload.take 16) ++ p.payload.drop 16 }
  let s1 := sendMgmt s port (packetBytes q)
  { s1 with mgr := { s1.mgr with nextTag := (s.mgr.nextTag + 1) % 2 ^ 32, relayed := satInc 16 s1.mgr.relayed } }

/-- Change the waiting command `w` of a ring or link. -/
def editWaiting (s : State) (src : Src) (w : Waiting) (f : Waiting → Waiting) : State :=
  updRing s (ringKey src) (fun r => { r with queue := r.queue.map (fun x => if x = w then f x else x) })

/-- Take a waiting command out of its queue. -/
def dropWaiting (s : State) (src : Src) (w : Waiting) : State :=
  updRing s (ringKey src) (fun r => { r with queue := dropFirst (fun x => decide (x = w)) r.queue })

/-- Relay a packet on a port (rules R377, R378): it waits for the reply under its new tag; an unanswered one waits for none. -/
def relayOn (s : State) (src : Src) (w : Waiting) (port : Nat) : State :=
  let s1 := sendRelay s w.pkt port
  if isSilent w.pkt (bodyOf w.pkt) then dropWaiting s1 src w
  else editWaiting s1 src w (fun x => { x with executing := true, note := [s.mgr.nextTag] })

/-- Relay a packet for another module, or answer it with NO_ROUTE (rules R317, R376, R377). On a link without a session an attach request
waits for a HELLO. -/
def relayPacket (s : State) (src : Src) (w : Waiting) : State :=
  match (if fieldAt w.pkt.payload 12 1 < 6 then nextPort s src w.pkt else none) with
  | none =>
    if isSilent w.pkt (bodyOf w.pkt) then dropWaiting s src w
    else finish (editWaiting s src w (fun x => { x with executing := true })) src w.pkt.tag 0x0302 0 []
  | some port =>
    if isAttaching s w.pkt && !(getRing s (16 + port)).session then
      sendHello (askNext (editWaiting s src w (fun x => { x with executing := true })) [0x0000, ringKey src, w.pkt.tag]) port
    else relayOn s src w port

/-- Relay a broadcast to the direct workers and gather their replies with this module's own (rule R378). -/
def relayBroadcast (s : State) (src : Src) (w : Waiting) : State :=
  let direct := s.mgr.workers.filter (fun x => !x.lost)
  let s1 := direct.foldl (fun st x => sendRelay st w.pkt x.port) s
  let s2 := editWaiting s1 src w (fun x => { x with relayed := true })
  if isSilent w.pkt (bodyOf w.pkt) ∨ direct = [] then s2
  else openGather s2 { src := src, tag := w.pkt.tag, waiting := nextTags s direct.length ++ [ownTag], since := s.bell.count }

/-- RELAYED_PACKET (rules R377, R378): a packet that is not for this module goes on; a broadcast goes to the direct workers too. -/
def execRelayedPacket (src : Src) (tag : Nat) (s : State) : Host.Outcome State Fault Refusal :=
  match (getRing s (ringKey src)).queue.find? (fun w => w.pkt.tag == tag && isRelayed w.pkt && !w.executing && w.reply.isNone) with
  | none => .next s
  | some w =>
    let here := isHere s src w.pkt
    whenDo (startable s src w && s.fw.serving && (!here || (isBroadcast w.pkt && !w.relayed))) s
      (if here then relayBroadcast s src w else relayPacket s src w)

/-- What a reply brings: STATUS, DETAIL and the fields behind them (rule R368). -/
structure ReplyIn where
  status : Nat
  detail : Nat
  fields : Bytes
  module : Nat
deriving DecidableEq, Repr

def readReply (p : Packet) (port : Nat) (s : State) : ReplyIn :=
  let x := bodyOf p
  let near := ((s.mgr.workers.find? (fun w => w.port == port)).map (fun w => w.module)).getD 0xFFFFFFFF
  { status := fieldAt x 0 2, detail := fieldAt x 2 2, fields := x.drop 4, module := if isRelayed p then fieldAt p.payload 4 4 else near }

/-- Send a reply on to where its command came from (rule R377): a relayed attach that succeeded opens the path (rules R317, R347). -/
def passReply (s : State) (src : Src) (w : Waiting) (p : Packet) (port : Nat) (r : ReplyIn) : State :=
  let bs := packetBytes { p with version := w.pkt.version, tag := w.pkt.tag, payload := relayEnvelope (p.payload.take 16) ++ p.payload.drop 16 }
  let s1 := finishBytes s src w bs
  match src with
  | .link q =>
    if w.pkt.opcode = 0x0501 ∧ r.status = 0 then
      { s1 with mgr := { s1.mgr with relays := (s1.mgr.relays ++ [(q, port)]).eraseDups, placed := SMap.set s1.mgr.placed (fieldAt r.fields 0 4) port } }
    else s1
  | .ring _ => s1

/-- The executing command of a ring or link with a tag. -/
def executingOf (s : State) (src : Src) (tag : Nat) : Option Waiting :=
  (getRing s (ringKey src)).queue.find? (fun w => w.executing && w.pkt.tag == tag)

/-- End what is gathered for a command and reply with a status. -/
def endAsk (s : State) (src : Src) (tag status detail : Nat) (fields : Bytes) : State :=
  let s1 := match s.mgr.broadcasts.find? (fun b => decide (b.src = src) && b.tag == tag) with
    | some b => dropGather s b
    | none => s
  finish s1 src tag status detail fields

/-- A HELLO reply (rules R317, R379): the session opens, and the attach request goes out, or on. -/
def afterHello (s : State) (src : Src) (tag port : Nat) (r : ReplyIn) : State :=
  match executingOf s src tag with
  | none => s
  | some w =>
    if r.status ≠ 0 then endAsk s src tag r.status r.detail []
    else
      let s1 := openFrom s port r.fields r.module
      match s1.mgr.broadcasts.find? (fun b => decide (b.src = src) && b.tag == tag) with
      | none => relayOn s1 src w port
      | some b =>
        let o := offeredId s1
        let t := s1.mgr.nextTag
        let s2 := openGather (dropGather o.2 b) { b with waiting := [t] }
        sendCommand (askNext s2 [0x0501, ringKey src, tag, o.1]) port o.1 0x0501 0xFF 8 (bytesAt (bodyOf w.pkt) 0 8)

/-- An attach reply (rule R317): the worker joins the manager's list, or moves to its new path. -/
def afterAttach (s : State) (src : Src) (tag port offered : Nat) (r : ReplyIn) : State :=
  if r.status ≠ 0 then endAsk s src tag r.status r.detail []
  else
    let body := ((executingOf s src tag).map (fun w => bodyOf w.pkt)).getD []
    let m := fieldAt r.fields 0 4
    let x : WorkerInfo := { module := m, path := bytesAt body 1 (fieldAt body 0 1), port := port, lastSeen := s.bell.count }
    let known := s.mgr.workers.any (fun w => w.module == m)
    let s1 : State := { s with mgr := { s.mgr with
      workers := if known then s.mgr.workers.map (fun w => if w.module = m then x else w) else s.mgr.workers ++ [x]
      nextModule := if m = offered ∧ s.mgr.role = 2 then s.mgr.nextModule + 1 else s.mgr.nextModule } }
    endAsk s1 src tag 0 0 (bytesAt r.fields 0 36)

/-- A worker's answer to a sub-manager's WORKER_DETACH (rules R317, R398). -/
def afterDetach (s : State) (src : Src) (tag m port : Nat) (r : ReplyIn) : State :=
  if r.status = 0 then endAsk (forgetWorker s m port) src tag 0 0 [] else endAsk s src tag r.status r.detail []

/-- A reply in a round of START or RESUME (rules R37, R321). -/
def afterRound (s : State) (t idx no kind : Nat) (r : ReplyIn) : State :=
  match s.mgr.broadcasts.find? (fun b => b.waiting.contains t) with
  | none => s
  | some b =>
    let b1 := { b with waiting := b.waiting.filter (fun x => x != t) }
    let j := getJob s no
    let lineage := bytesAt r.fields 0 16
    let bad : Option (Nat × Nat) :=
      if r.status ≠ 0 then some (r.status, r.detail)
      else if kind = 1 ∧ j.cause = 0 ∧ j.old ≠ [] ∧ bytesAt j.old 0 16 ≠ lineage then some (0x030C, 0) else none
    match bad with
    | some e => advanceStart s no { b1 with failCount := b1.failCount + 1, failed := insertFailed (idx, e.1, e.2) b1.failed }
    | none =>
      let s1 := if kind = 0 ∧ idx < j.nRanks then updJob s no (fun x => { x with manifests := SMap.set x.manifests idx (bytesAt r.fields 0 48) })
        else if kind = 1 ∧ j.old = [] then updJob s no (fun x => { x with old := lineage }) else s
      advanceStart s1 no b1

/-- An answer that this module has asked for. -/
def afterAsk (s0 : State) (t port : Nat) (note : List Nat) (r : ReplyIn) : State :=
  let s : State := { s0 with mgr := { s0.mgr with asked := SMap.erase s0.mgr.asked t } }
  let a := fun (i : Nat) => note.getD i 0
  match a 0 with
  | 0x0000 => afterHello s (keySrc (a 1)) (a 2) port r
  | 0x0501 => afterAttach s (keySrc (a 1)) (a 2) port (a 3) r
  | 0x0502 => afterDetach s (keySrc (a 1)) (a 2) (a 3) (a 4) r
  | 0x0300 => afterRound s t (a 1) (a 2) (a 3) r
  | 0x0505 =>
    if r.status = 0 then takeoverDone s (a 1) (a 2) (a 3)
    else if r.status = 0x0401 then takeoverLost s (a 1) (a 2) (a 3) (a 4) (a 5)
    else takeoverFailed s (a 1) (a 2) (a 3) (a 4)
  | _ => if r.status = 0 then s else finish s (keySrc (a 1)) (a 2) r.status r.detail []

/-- Enter a worker's or rank's reply into what is gathered (rules R378, R391): an aggregate is merged, any other counts as one. -/
def gatherReply (b : Broadcast) (w : Waiting) (r : ReplyIn) : Broadcast :=
  if (isBroadcast w.pkt || w.pkt.opcode == 0x0603) && decide (12 ≤ r.fields.length) then
    let entries := (List.range ((r.fields.length - 12) / 8)).map (fun i =>
      (fieldAt r.fields (12 + 8 * i) 4, fieldAt r.fields (16 + 8 * i) 2, fieldAt r.fields (18 + 8 * i) 2))
    { b with okCount := b.okCount + fieldAt r.fields 0 4, failCount := b.failCount + fieldAt r.fields 4 4, silent := b.silent + fieldAt r.fields 8 4,
             failed := (entries.foldl (fun l e => insertFailed e l) b.failed).take 500 }
  else { (gatherAdd b r.module r.status r.detail) with head := if r.status = 0 then mergeHead w.pkt.opcode b.head r.fields else b.head }

/-- Commands that this module sends of its own and whose answers it does not use. -/
def unheeded (op : Nat) : Bool := [0x0001, 0x0303, 0x0502, 0x0504, 0x0506, 0x0507, 0x0508, 0x050A, 0x050B].contains op

/-- A signature on its way to the top manager (rules R399, R462). -/
def passSignature (s : State) (fields : Bytes) : State :=
  if isTop s then collect s (fields.drop 4)
  else
    sendCommand s s.mgr.parentPort 0 0x0602 0xFF 9 (natLE 0 4 ++ fields)

/-- A reply arrives (rules R377, R378, R385): it is what this module asked for, what it gathers, a reply to pass on, or late. -/
def takeReply (s : State) (port : Nat) (p : Packet) : State :=
  let r := readReply p port s
  let t := p.tag
  if SMap.has s.mgr.asked t then afterAsk s t port (SMap.get [] s.mgr.asked t) r
  else
    match s.mgr.broadcasts.find? (fun b => b.waiting.contains t) with
    | some b =>
      (match (getRing s (ringKey b.src)).queue.find? (fun w => w.pkt.tag == b.tag) with
      | some w => gatherResult s b.src b.tag t (fun g => gatherReply g w r)
      | none => s)
    | none =>
      match s.rings.findSome? (fun q => (q.2.queue.find? (fun w => w.executing && decide (w.note = [t]) && !(isHere s (keySrc q.1) w.pkt))).map
          (fun w => (keySrc q.1, w))) with
      | some x => passReply s x.1 x.2 p port r
      | none =>
        if p.opcode = 0x0602 then passSignature s r.fields
        else if unheeded p.opcode then s
        else { s with mgr := { s.mgr with lateReplies := satInc 16 s.mgr.lateReplies } }

/-- A module hears from the module at the far end of a port, its manager or a worker, and learns which modules lie beyond it (rules R318, R319). -/
def hearFrom (s : State) (port : Nat) (p : Packet) : State :=
  let ws := s.mgr.workers
  let src := fieldAt p.payload 4 4
  let worker := ws.any (fun w => w.port == port)
  let learn := worker && isRelayed p && src != ownId s && !(ws.any (fun w => w.module == src))
  { s with mgr := { s.mgr with
      heard := if (s.mgr.role == 1 || s.mgr.role == 3) && s.mgr.parentPort == port then some s.bell.count else s.mgr.heard
      workers := ws.map (fun w => if w.port = port ∧ (isRelayed p = false ∨ src = w.module) then { w with lastSeen := s.bell.count } else w)
      placed := if learn then SMap.set s.mgr.placed src port else s.mgr.placed } }

/-- A management packet is received whole (rules R298, R369, R383). -/
def takePacket (s : State) (port : Nat) (raw : Bytes) : State :=
  let p := parsePacket raw
  let good := decide (16 ≤ raw.length) && decide (fieldAt raw 12 4 = crc32 (raw.take 12 ++ p.payload))
  if s.fw.inActivation then { s with fw := { s.fw with heldPackets := s.fw.heldPackets ++ [(port, raw)] } }
  else if bit p.flags 0 then (if good then takeReply (hearFrom s port p) port p else s)
  else receivePacket (if good then hearFrom s port p else s) (.link port) raw

/-- The LINK_CREDIT record that returns the MGMT buffers in which a packet's segments came (rules R294, R296). -/
def mgmtCredit (packet : Bytes) : Bytes := controlRec 5 (max 1 ((packet.length + 511) / 512)) 4 0 0

/-- MGMT_PACKET (rules R296, R298): the buffers of its segments are free again, and the packet is taken. -/
def execMgmtPacket (port : Nat) (packet : Bytes) (s : State) : Host.Outcome State Fault Refusal :=
  let up := (getPort s port).state == portUp || (getPort s port).state == portMgmtOnly
  whenDo (decide (s.dev ≠ .off) && portPresent s port && up && (s.fw.serving || s.fw.inActivation || port == 0)) s
    (takePacket (sendControl s port (mgmtCredit packet)) port packet)

/-- The wait for the answers that a command gathers (rules R378, R389, R391), in bells. -/
def gatherWait (s : State) (w : Waiting) : Nat :=
  if isBroadcast w.pkt || w.pkt.opcode == 0x0603 then 250000 * (4 - s.mgr.depth) else 1000000

/-- BROADCAST_REPLY_TIMEOUT (rules R378, R389, R391): those that have not answered count as silent; a command that needs them all ends with
NO_ANSWER. -/
def execBroadcastReplyTimeout (tag : Nat) (s : State) : Host.Outcome State Fault Refusal :=
  match s.mgr.broadcasts.find? (fun b => b.tag == tag) with
  | none => .next s
  | some b =>
    match executingOf s b.src tag with
    | none => .next s
    | some w =>
      let s1 : State := { s with mgr := { s.mgr with asked := s.mgr.asked.filter (fun q => !(b.waiting.contains q.1)) } }
      let job := b.waiting.findSome? (fun t => if SMap.has s.mgr.asked t then some ((SMap.get [] s.mgr.asked t).getD 2 0) else none)
      whenDo (decide (b.since + gatherWait s w ≤ s.bell.count)) s
        (if w.pkt.opcode = 0x0501 ∨ w.pkt.opcode = 0x0502 then endAsk s b.src tag 0x0405 0 []
         else if w.pkt.opcode = 0x0300 ∨ w.pkt.opcode = 0x0302 then failStart s (job.getD 0) b 0x0405 0
         else closeGather s1 { b with waiting := [], silent := b.silent + b.waiting.length })

end Sys2Proof.Machine
end

