-- ==== Sys2Proof/Machine/Registers.lean ====
section
/-!
DEFINITION. Registers: what each reads in the physical function and in a virtual one, RC reads, _LO latches and writes (rules R9, R10, R102,
R130, R188, R257, R278, R279, R312, R313, R341, R342, R364, R365, R386, R424, R445, R468, R469, R492, R515 to R517, R518 to R536 of
23_register_reference.md). Addresses are offsets in BAR0 of the physical function.
-/
namespace Sys2Proof.Machine

/-- A field of a value: `v` at bit `lo`, cut to `w` bits. -/
def fld (lo w v : Nat) : Nat := v % 2 ^ w * 2 ^ lo

/-- A signed value in `w` bits. -/
def tc (w : Nat) (i : Int) : Nat := (i % (2 ^ w : Nat)).toNat

def lo32 (v : Nat) : Nat := v % 2 ^ 32
def hi32 (v : Nat) : Nat := v / 2 ^ 32 % 2 ^ 32

/-- Word `i` of a mask of the members of a list. -/
def maskWord (l : List Nat) (i : Nat) : Nat := bits (maskOf l) (32 * i) 32

/-- Identity and device registers (rule R529). -/
def idReg (s : State) (a : Nat) : Nat :=
  match a with
  | 0x000 => lo32 s.fuse.serial
  | 0x004 => hi32 s.fuse.serial
  | 0x008 => fld 24 8 2 + fld 8 8 s.fuse.stepping + fld 0 8 s.fuse.grade
  | 0x00C => fld 16 16 s.attic.repairMap.length + fld 0 16 s.attic.repairVersion
  | 0x010 => maskWord s.fuse.tiles 0
  | 0x014 => maskWord s.fuse.tiles 1
  | 0x018 => maskWord s.fuse.tiles 2
  | 0x01C => fld 8 16 (maskOf (presentPorts s)) + fld 0 8 (maskOf s.fuse.wings)
  | 0x020 => fld 8 4 s.fuse.gradeTiles + fld 0 8 s.fuse.stackGib
  | 0x100 =>
    let ns := List.range 8
    fld 16 8 (maskOf (ns.filter (fun n => decide ((getSuite s n).state = .running))))
      + fld 8 8 (maskOf (ns.filter (fun n => decide ((getSuite s n).state ≠ .absent)))) + fld 0 4 (devStateCode s.dev)
  | 0x104 => maskWord ((List.range 80).filter (usableTile s)) 0
  | 0x108 => maskWord ((List.range 80).filter (usableTile s)) 1
  | 0x10C => maskWord ((List.range 80).filter (usableTile s)) 2
  | 0x110 => maskOf ((presentPorts s).filter (fun p => (getPort s p).state == portUp))
  | _ => 0

/-- HALL_EN of a suite (rule R517). -/
def energyReg (s : State) (n o : Nat) : Nat :=
  let c := (getSuite s n).counts
  if (getSuite s n).state = .absent then 0
  else
    match o with
    | 0x00 => lo32 c.energyUj
    | 0x04 => hi32 c.energyUj
    | 0x08 => lo32 c.cycles
    | 0x0C => hi32 c.cycles
    | 0x10 => lo32 c.epo
    | _ => 0

/-- Whether a suite holds an image (the states in which the reset values of its scale and stream registers do not apply). -/
def imaged (s : State) (n : Nat) : Bool := decide ((getSuite s n).state ≠ .absent) && decide ((getSuite s n).state ≠ .empty)

/-- The highest step for which every MANAGED tensor of a suite has its decision (rule R102). -/
def decidedSteps (su : Suite) : Nat :=
  match (su.scale.filter (fun e => e.2.managed)).map (fun e => e.2.decidedStep) with
  | [] => 0xFFFFFFFF
  | x :: xs => xs.foldl min x

/-- HALL_SCL of a suite (rule R102). -/
def scaleReg (s : State) (n o : Nat) : Nat :=
  let su := getSuite s n
  let base := SMap.get 0 su.areas 2
  match o with
  | 0x00 => fld 8 2 1 + fld 0 6 16
  | 0x04 => 0
  | _ =>
    if !(imaged s n) then 0
    else
      match o with
      | 0x08 => lo32 (decidedSteps su)
      | 0x0C => fld 16 16 su.counts.clamp + fld 0 16 su.counts.adapt
      | 0x10 => lo32 su.counts.satTotal
      | 0x14 => lo32 base
      | 0x18 => hi32 base
      | _ => 0

/-- HALL_STR of a suite (rules R258, R278): the range shows while the suite exists. -/
def streamReg (s : State) (n o : Nat) : Nat :=
  let su := getSuite s n
  let live := imaged s n
  match o with
  | 0x00 => fld 16 7 su.res.blocks + fld 0 6 su.res.baseBlock
  | 0x04 => if live then fld 0 10 su.timeoutMs else 1
  | 0x08 => if live then fld 0 10 su.inputTimeoutS else 10
  | 0x0C => if live then lo32 su.readyStep else 0
  | 0x10 => if live then fld 16 16 su.counts.notices + fld 0 16 su.counts.timeouts else 0
  | 0x14 => if live then min 0xFFFFFFFF (su.counts.absorbed - su.counts.absorbedRead) else 0
  | 0x18 => if live then lo32 su.counts.late else 0
  | _ => 0

/-- Workers that are spares of a job (rule R341). -/
def spareWorkers (s : State) : Nat :=
  (s.mgr.workers.filter (fun w => s.mgr.jobs.any (fun j => j.2.spares.any (fun x => x.1 == w.module)))).length

/-- HALL_MGR (rule R341). -/
def mgrReg (s : State) (o : Nat) : Nat :=
  let m := s.mgr
  let role := if s.dev = .testing then 0 else m.role
  match o with
  | 0x00 => fld 4 2 m.depth + fld 3 1 (bnat m.strapGiven) + fld 0 2 role
  | 0x04 => lo32 m.moduleId
  | 0x08 => lo32 m.parent
  | 0x0C => fld 16 11 (spareWorkers s) + fld 0 11 m.workers.length
  | 0x10 => fld 0 16 m.haltLead
  | 0x14 => lo32 m.voteTimeout
  | 0x18 => fld 16 16 m.relayed + fld 0 16 m.lost
  | 0x1C => fld 16 16 m.lateReplies + fld 0 16 m.unanswered
  | _ => 0

/-- The highest step that a suite of this module has settled (rule R339): completed, with no checker verdict of it still to come. -/
def settledStep (s : State) (n : Nat) : Nat :=
  let waiting := (s.tiles.filter (fun t => t.2.suite == some n)).map (fun t => t.2.verdicts.map (fun v => v.place.step))
  let open1 := (s.faults.resolutions.filter (fun r => r.suite == n && !r.eval)).map (fun r => r.step)
  (waiting.flatten ++ open1).foldl (fun m u => min m (u - 1)) (lastStep s n)

/-- The committed step of a suite's job (rule R339): how far ranks on other modules have settled is not told to this one. -/
def committedStep (s : State) (n : Nat) : Nat :=
  let su := getSuite s n
  let mine := suitesOf s su.job.lineage
  let here := (mine.map (settledStep s)).foldl min (settledStep s n) - 1
  if su.job.nRanks ≤ mine.length then here else min here (Config.freeNat 11 s.free)

/-- HALL_JOB of a suite (rule R342). -/
def jobReg (s : State) (n o : Nat) : Nat :=
  let j := (getSuite s n).job
  match j.rank with
  | none => if o = 0 then 0xFFFFFFFF else 0
  | some r =>
    match o with
    | 0x00 => lo32 r
    | 0x04 => lo32 j.nRanks
    | 0x08 => lo32 (committedStep s n)
    | 0x0C => lo32 j.voted
    | 0x10 => lo32 j.restore
    | 0x14 => fld 24 8 j.expels + fld 16 8 j.takeovers + fld 8 8 j.rollbacks + fld 0 8 j.disagree
    | 0x18 => bnat j.snapshot
    | _ => 0

/-- HALL_RING of a function (rule R386); the reset values apply while PCIe disables the function. -/
def ringReg (s : State) (f o : Nat) : Nat :=
  let r := getRing s f
  let started := r.queue.filter (fun w => w.urgent && w.executing)
  match o with
  | 0x00 => fld 16 11 r.vector + fld 1 1 (bnat r.irqEn) + fld 0 1 (bnat r.enable)
  | 0x04 => fld 16 16 r.eventsLost + fld 8 8 r.error + fld 1 1 (bnat r.session) + fld 0 1 (bnat r.stopped)
  | 0x08 => lo32 r.sqBase
  | 0x0C => hi32 r.sqBase
  | 0x10 => lo32 r.cqBase
  | 0x14 => hi32 r.cqBase
  | 0x18 => lo32 r.shadow
  | 0x1C => hi32 r.shadow
  | 0x20 => fld 16 4 r.cqLog2 + fld 0 4 r.sqLog2
  | 0x24 => fld 0 12 r.sqTail
  | 0x28 => fld 0 12 r.sqHead
  | 0x2C => fld 0 12 r.cqHead
  | 0x30 => fld 0 12 r.cqTail
  | 0x34 => fld 16 13 started.length + fld 0 13 r.queue.length
  | _ => 0

/-- HALL_LOAD of a suite (rule R424). -/
def loadReg (s : State) (n o : Nat) : Nat :=
  let su := getSuite s n
  let l := if su.state = .absent then ({} : LoadReg) else su.load
  match o with
  | 0x00 => fld 16 16 l.status + fld 0 16 l.detail
  | 0x04 => lo32 l.location
  | 0x08 => hi32 l.location
  | 0x0C =>
    (match su.image with
    | none => 0
    | some im => fld 24 5 su.fold + fld 17 7 l.ptiles + fld 0 11 im.v)
  | 0x10 => if su.image.isSome then lo32 l.saveBase else 0
  | 0x14 => if su.image.isSome then hi32 l.saveBase else 0
  | _ => 0

/-- Whether a pre-emption of a suite is deferred (rule R435): it is in progress, and something outside the suite has still to arrive. -/
def deferred (s : State) (n : Nat) : Bool :=
  (getSuite s n).slice.stopping && (suiteEntries s n).any (fun e =>
    let x := getEntry s e
    (x.type == typeRemote || x.tclassInput) && (!x.inFlight.isEmpty || unstarted s e != 0))

/-- HALL_SUITE of a suite (rule R445). -/
def suiteReg (s : State) (n o : Nat) : Nat :=
  let su := getSuite s n
  let c := su.slice
  if su.state = .absent then (if o = 0 then 0xFF else if o = 8 then 250000 else 0)
  else
    match o with
    | 0x00 => fld 16 8 (maskOf (tileGroup s n)) + fld 15 1 (bnat (decide (su.state = .preempted) && c.waitingSlice)) + fld 14 1 (bnat (deferred s n))
        + fld 13 1 (bnat c.stopping) + fld 0 8 (suiteStateCode su.state)
    | 0x04 => lo32 c.slice
    | 0x08 => lo32 c.grace
    | 0x0C => lo32 c.carry
    | 0x10 => fld 16 16 su.counts.preempts + fld 0 16 su.counts.releases
    | 0x14 => fld 16 16 (min su.counts.restoreBells 0xFFFF) + fld 0 16 (min su.counts.saveBells 0xFFFF)
    | 0x18 => lo32 (((su.checkpoints.filter (fun k => k.complete)).map (fun k => k.step)).foldl max 0)
    | _ => 0

/-- HALL_FAULT and HALL_AVAIL (rule R468). -/
def faultReg (s : State) (o : Nat) : Nat :=
  let l := s.faults
  match o with
  | 0x00 => lo32 l.next
  | 0x04 => fld 16 13 (l.held.filter (fun r => !r.acked)).length + fld 0 13 l.held.length
  | 0x08 => fld 16 16 l.poisons + fld 0 16 l.lost
  | 0x0C => fld 24 8 l.transient + fld 16 8 l.permanent + fld 8 8 l.checker + fld 0 8 l.unresolved
  | 0x10 => lo32 (s.attic.measuredUs / 1000000)
  | 0x14 => lo32 s.attic.downUs
  | 0x18 => hi32 s.attic.downUs
  | _ => 0

/-- HALL_BRINGUP, HALL_RESET and HALL_FW (rule R492). -/
def bringupReg (s : State) (o : Nat) : Nat :=
  let f := s.fw
  let a := s.attic
  match o with
  | 0x00 => fld 16 16 a.bringupCode + fld 3 1 (bnat (decide (s.dev = .waking) || decide (s.dev = .testing))) + fld 2 1 (bnat s.bringup.forcedFull)
      + fld 0 2 a.bringupKind
  | 0x04 => lo32 a.bringupMs
  | 0x08 => fld 4 4 a.resetLevel + fld 0 4 a.resetCause
  | 0x0C => fld 16 16 a.coldResets + fld 0 16 a.warmResets
  | 0x10 => fld 16 16 s.bringup.suiteResets + fld 8 8 s.bringup.wingResets + fld 0 8 s.bringup.tileResets
  | 0x14 => fld 6 2 f.stage + fld 5 1 (bnat f.actPending) + fld 4 1 (bnat f.reverted) + fld 3 1 (bnat f.confirmed)
      + fld 2 1 (bnat (slotOfFw f (1 - f.active)).valid) + fld 0 1 f.active
  | 0x18 => lo32 (fwVersion f)
  | 0x1C => lo32 f.stagedVersion
  | 0x20 => fld 0 13 (missingBlocks f).length
  | 0x24 => fld 8 6 (minSvn s) + fld 0 6 (slotOfFw f f.active).svn
  | 0x28 => lo32 f.actBell
  | 0x2C => hi32 f.actBell
  | _ => 0

/-- The HALL block (rule R528). -/
def hallReg (s : State) (a : Nat) : Nat :=
  if a < 0x200 then idReg s a
  else if 0x7000 ≤ a ∧ a < 0x7100 then energyReg s ((a - 0x7000) / 0x20) (a % 0x20)
  else if 0x8000 ≤ a ∧ a < 0x8200 then scaleReg s ((a - 0x8000) / 0x40) (a % 0x40)
  else if 0x9000 ≤ a ∧ a < 0x9200 then streamReg s ((a - 0x9000) / 0x40) (a % 0x40)
  else if 0xA000 ≤ a ∧ a < 0xA020 then mgrReg s (a % 0x20)
  else if 0xA100 ≤ a ∧ a < 0xA300 then jobReg s ((a - 0xA100) / 0x40) (a % 0x40)
  else if 0xB000 ≤ a ∧ a < 0xB240 then ringReg s ((a - 0xB000) / 0x40) (a % 0x40)
  else if 0xC000 ≤ a ∧ a < 0xC200 then loadReg s ((a - 0xC000) / 0x40) (a % 0x40)
  else if 0xD000 ≤ a ∧ a < 0xD200 then suiteReg s ((a - 0xD000) / 0x40) (a % 0x40)
  else if 0xE000 ≤ a ∧ a < 0xE01C then faultReg s (a % 0x20)
  else if 0xF000 ≤ a ∧ a < 0xF030 then bringupReg s (a % 0x40)
  else 0

/-- The BELL block (rule R364). -/
def bellReg (s : State) (o : Nat) : Nat :=
  let b := s.bell
  if 0x100 ≤ o ∧ o < 0x500 then
    let v := SMap.get (2 ^ 64 - 1) (getSuite s ((o - 0x100) / 0x80)).slots (o % 0x80 / 8)
    if o % 8 = 0 then lo32 v else hi32 v
  else
    match o with
    | 0x00 => lo32 b.count
    | 0x04 => hi32 b.count
    | 0x08 => fld 13 1 (bnat b.refValid) + fld 12 1 (bnat b.refPresent) + fld 8 4 (if b.source = 3 then b.port else 0) + fld 4 2 b.source
        + fld 0 2 (bellStateCode b.state)
    | 0x0C => if hasManager s then tc 32 b.offset else 0
    | 0x10 => if hasManager s then tc 32 b.pathDelay else 0
    | 0x14 => tc 16 b.freqAdj
    | 0x18 => fld 16 16 b.steps + fld 0 16 b.holdovers
    | 0x1C => lo32 b.telemetry
    | 0x20 => fld 0 11 (pendingEvents s).length
    | 0x24 => bnat b.outEn
    | _ => 0

/-- The CUPOLA mirror block (rule R515); dips, warnings and throttles are counted at once. -/
def cupReg (s : State) (o : Nat) : Nat :=
  let m := s.cup.mirror
  if 0x100 ≤ o ∧ o < 0x200 then tc 12 (SMap.get (-2048) m.temps ((o - 0x100) / 4))
  else if 0x200 ≤ o ∧ o < 0x250 then fld 0 16 (SMap.get 0 m.rails ((o - 0x200) / 4))
  else
    match o with
    | 0x00 => fld 9 1 (bnat m.wear) + fld 8 1 m.bank + fld 4 1 (bnat m.overvolt) + fld 3 1 (bnat m.coolantHot) + fld 2 1 (bnat m.throttle)
        + fld 1 1 (bnat m.warn)
    | 0x04 => fld 16 16 (m.inputMa / 10) + fld 0 16 m.inputMv
    | 0x08 => fld 0 16 m.minMv
    | 0x0C => fld 0 16 m.supplyLast
    | 0x10 => lo32 m.supplyDur
    | 0x14 => fld 16 16 s.cup.warns + fld 0 16 s.cup.dips
    | 0x18 => fld 24 8 s.cup.throttles + fld 16 8 m.maxSensor + fld 0 12 (tc 12 m.maxTemp)
    | 0x1C => lo32 m.lifetime
    | 0x20 => hi32 m.lifetime
    | 0x24 => fld 16 16 m.brownouts + fld 0 16 m.shutdowns
    | 0x28 => lo32 m.seq
    | 0x2C => lo32 m.writes0
    | 0x30 => lo32 m.writes1
    | 0x34 => lo32 m.energyUj
    | 0x38 => hi32 m.energyUj
    | 0x3C => lo32 m.commonUj
    | 0x40 => hi32 m.commonUj
    | 0x44 => fld 0 4 m.present
    | _ => 0

/-- Fewest spare rows in a bank of a stack (rule R257). -/
def sparesMin (s : State) (w : Nat) : Nat :=
  let x := getWing s w
  if x.trained && x.tested then (x.spares.map (fun p => p.2)).foldl min (Config.freeNat 3 w) else 0

/-- Owners of eight ways of a wing's cache (rule R257). -/
def wayOwners (s : State) (w first : Nat) : Nat :=
  (List.range 8).foldl (fun v i => v + fld (4 * i) 4 (SMap.get 0xF (getWing s w).wayOwner (first + i))) 0

/-- A WING block's registers at their reset values (rules R521, R533): fuse values, and counts and owners that a wing reset keeps, stay. -/
def wingReg (s : State) (w o : Nat) : Nat :=
  let x := getWing s w
  let live := !x.inReset
  if !(wingPresent s w) then (if o = 0x2000 ∨ o = 0x2004 then 0xFFFFFFFF else 0)
  else if 0x1100 ≤ o ∧ o < 0x1200 then
    let pc := 64 * w + (o - 0x1100) / 4
    if live then fld 31 1 (bnat (s.attic.pcsRetired.contains pc)) + fld 24 7 (SMap.get 0 x.ue (pc % 64)) + fld 0 24 (SMap.get 0 x.ce (pc % 64)) else 0
  else
    match o with
    | 0x0000 => fld 24 4 (if live then ((List.range 10).filter (fun i => usableTile s (10 * w + i))).length else 0) + fld 20 4 s.fuse.gradeTiles
        + fld 3 1 (bnat (live && wingAvailable s w)) + fld 2 1 (bnat x.inReset) + fld 1 1 (w / 4) + 1
    | 0x1000 => if live then fld 16 8 ((s.attic.pcsRetired.filter (fun p => p / 64 == w)).length) + fld 8 8 (if s.bringup.fusesRead then s.fuse.stackGib else 0)
        + fld 3 1 (bnat x.throttle) + fld 2 1 (bnat x.repairActive.isSome) + fld 1 1 (bnat (x.trained && x.tested)) + 1 else 0
    | 0x1004 => if live then fld 14 2 x.refreshMult + fld 0 12 (tc 12 x.temp) else 0
    | 0x1008 => fld 16 8 (if live then 100 * x.scrubProgress / pcCapacity s else 0) + fld 0 16 x.scrubPasses
    | 0x100C => if live then fld 16 16 x.onlineRepairs + fld 0 16 (sparesMin s w) else 0
    | 0x2000 => wayOwners s w 0
    | 0x2004 => wayOwners s w 8
    | 0x2008 => if live then fld 16 16 x.cacheDirtyUe + fld 0 16 x.cacheCorrected else 0
    | 0x2010 => if live then lo32 x.hits else 0
    | 0x2014 => if live then lo32 x.misses else 0
    | 0x3000 => fld 16 16 x.slotViol + fld 0 16 x.tagViol
    | 0x3004 => fld 16 16 x.cdcOverrun + fld 8 8 x.cdcTimeouts + fld 0 8 x.cdcResyncs
    | 0x3100 => lo32 x.energyUj
    | 0x3104 => hi32 x.energyUj
    | _ => 0

/-- A register of a stream (rule R188): 0 KSW, 1 KERNEL, 2 STEP, 3 OCC. -/
def streamStateReg (x : KState) (which : Nat) : Nat :=
  match which with
  | 0 => kswWord x
  | 1 => fld 16 16 x.occurrence + (x.kernel.getD 0xFFFF) % 2 ^ 16
  | 2 => lo32 x.step
  | _ => lo32 x.occurrence

/-- The stream register at an offset of a TILE block: its stream and kind. -/
def streamRegAt (o : Nat) : Option (KStream × Nat) :=
  let k := if o % 16 = 0 then KStream.f else if o % 16 = 4 then .b else .u
  if 12 ≤ o % 16 then none
  else if o / 16 = 0x31 then some (k, 0) else if o / 16 = 0x32 then some (k, 1) else if o / 16 = 0x33 then some (k, 2)
  else if o / 16 = 0x37 then some (k, 3) else none

/-- Whether a register of a TILE block shows what is resident (rule R526). -/
def residentReg (o : Nat) : Bool := o == 0x300 || (streamRegAt o).isSome

/-- TILE_STATUS (rule R532); `shown` says whether the resident virtual tile is shown. -/
def tileStatus (s : State) (t : Nat) (shown : Bool) : Nat :=
  let x := getTile s t
  let live := shown && !x.health.inReset && x.suite.isSome
  fld 21 11 (if live then x.vtile else 0x7FF) + fld 16 5 (if live then x.fold else 0) + fld 4 4 (if live then x.suite.getD 0xF else 0xF)
    + fld 3 1 (bnat x.health.inReset) + fld 2 1 (bnat (x.health.disabled && !x.health.inReset)) + fld 1 1 (bnat (inService s t && !x.health.inReset)) + 1

/-- TILE_HEALTH (rule R469): live through a reset. -/
def tileHealth (s : State) (t : Nat) : Nat :=
  let h := (getTile s t).health
  fld 8 4 (min 15 (eventsIn30 s.attic (SMap.get [] s.attic.tileHist t))) + fld 4 1 (bnat (s.suites.any (fun q => q.2.excluded.contains t)))
    + fld 3 1 (bnat h.karFail) + fld 2 1 (bnat (!(s.fuse.tiles.contains t) && !h.inService && !h.retired)) + fld 1 1 (bnat h.pendingRetire)
    + fld 0 1 (bnat h.retired)

/-- What holds a tile's clock below 2.30 GHz (rules R496, R532). -/
def governorBits (s : State) (t : Nat) : Nat :=
  let g := (getTile s t).gov
  fld 16 16 g.downSteps + fld 5 1 (bnat g.paused) + fld 4 1 (bnat (s.cup.warn && decide (s.cup.warnClampMhz < 2300)))
    + fld 3 1 (bnat (g.ceilingMhz != 0 && decide (g.ceilingMhz < 2300))) + fld 2 1 (bnat (g.tempSteps != 0)) + fld 1 1 (bnat (g.currentSteps != 0))
    + fld 0 1 (bnat (g.droop || g.droopBell == some s.bell.count))

/-- What a TILE register that shows the resident virtual tile reads where none is shown. -/
def residentReset (o : Nat) : Nat :=
  match streamRegAt o with
  | some (_, 1) => 0xFFFF
  | some _ => 0
  | none => 0x3FFFFF

/-- The TILE block (rules R130, R188, R365, R469, R516, R521, R532). -/
def tileReg (s : State) (t o : Nat) : Nat :=
  let x := getTile s t
  let live := !x.health.inReset
  if !(wingPresent s (t / 10)) then 0
  else if residentReg o then
    if !live then residentReset o
    else
      match streamRegAt o with
      | some (k, i) => streamStateReg (x.core.stream k) i
      | none => holderWord x.core.tokens
  else
    match o with
    | 0x000 => tileStatus s t true
    | 0x004 => if live then fld 16 16 x.gov.ceilingMhz + fld 0 16 (tileMhz s t) else 0
    | 0x008 => if live then governorBits s t else 0
    | 0x00C => if live then fld 16 16 x.counts.tsCorrected + fld 0 16 x.counts.ibufCorrected else 0
    | 0x010 => if live then fld 16 16 x.counts.disagreements + fld 0 16 x.counts.thirdRuns else 0
    | 0x340 => if live then fld 16 16 x.counts.cdcOverrun + fld 8 8 x.counts.cdcTimeouts + fld 0 8 x.counts.cdcResyncs else 0
    | 0x350 => tileHealth s t
    | 0x360 => lo32 x.gov.energyUj
    | 0x364 => hi32 x.gov.energyUj
    | _ => 0

/-- Slots of a port held by four suites (rule R534). -/
def portShares (s : State) (p first : Nat) : Nat :=
  (List.range 4).foldl (fun v i => v + fld (8 * i) 5 (sumNat (((getSuite s (first + i)).res.ports.filter (fun q => q.1 == p)).map (fun q => q.2)))) 0

/-- The SPIRE block (rules R312, R365, R516, R534). -/
def spireReg (s : State) (p o : Nat) : Nat :=
  let x := getPort s p
  let e := SMap.get {} s.portExtra p
  let here := portPresent s p
  if o = 0x14 then (if here then lo32 x.farModule else 0xFFFFFFFF)
  else if 0x100 ≤ o ∧ o < 0x148 then
    (match (if here then x.feedPower.find? (fun q => q.1 == (o - 0x100) / 4) else none) with
    | some q => tc 16 q.2
    | none => 0x8000)
  else if !here then 0
  else
    match o with
    | 0x00 => fld 20 4 x.linkVersion + fld 16 2 x.feed + fld 12 2 x.rxWidth + fld 8 2 x.txWidth + fld 0 4 x.state
    | 0x04 => fld 0 18 x.laneTx
    | 0x08 => fld 0 18 x.laneRx
    | 0x0C => fld 0 18 x.failTx
    | 0x10 => fld 0 18 x.failRx
    | 0x18 => fld 0 4 x.farPort
    | 0x1C => portShares s p 0
    | 0x20 => fld 16 16 x.replays + fld 0 16 x.crcErr
    | 0x24 => lo32 x.fecCorr
    | 0x28 => lo32 x.fecUncorr
    | 0x2C => fld 16 16 x.fullRetrains + fld 0 16 x.fastRetrains
    | 0x30 => fld 16 16 x.notOwned + fld 0 16 x.otherDiscard
    | 0x34 => fld 16 16 x.unplanned + fld 0 16 x.planned
    | 0x38 => fld 16 16 e.cdcOverrun + fld 8 8 e.cdcTimeouts + fld 0 8 e.cdcResyncs
    | 0x3C => portShares s p 4
    | 0x40 => fld 16 13 x.peak + fld 0 13 (portInFlight s p)
    | 0x200 => lo32 e.energyUj
    | 0x204 => hi32 e.energyUj
    | _ => 0

/-- The LANTERN mirror block (rules R313, R535). -/
def lanternReg (s : State) (l o : Nat) : Nat :=
  let x := getLantern s l
  let m := x.mirror
  if 0x40 ≤ o ∧ o < 0x64 then fld 0 16 (tc 16 (SMap.get 0 m.waves ((o - 0x40) / 4)))
  else
    match o with
    | 0x00 => fld 0 4 m.state
    | 0x04 => lo32 m.serial
    | 0x08 => hi32 m.serial
    | 0x0C => lo32 m.hours
    | 0x10 => fld 16 16 m.remaining + fld 0 16 (tc 16 m.decline)
    | 0x14 => fld 16 16 m.fed + fld 0 16 m.active
    | 0x18 => lo32 m.model
    | 0x1C => fld 16 16 (if x.state = 0 then 0 else x.authFails) + fld 0 16 m.ageMin
    | 0x20 => fld 16 16 (min m.installs 0xFFFF) + fld 0 16 (min m.switchovers 0xFFFF)
    | _ => 0

/-- The MSI-X table and pending bits of a function (rules R518, R527): what lies between and past them is reserved. -/
def msixReg (s : State) (f o : Nat) : Nat :=
  if o < 16 * msixEntries f then msixWord s f o
  else if o = 0x8000 ∨ o = 0x8004 then maskWord (getRing s f).irqPending ((o - 0x8000) / 4)
  else 0

/-- What the register at an offset holds now (rules R518, R519). -/
def liveReg (s : State) (a : Nat) : Nat :=
  if a % 4 ≠ 0 then 0xFFFFFFFF
  else if a < 0x10000 then hallReg s a
  else if a < 0x20000 then bellReg s (a - 0x10000)
  else if a < 0x30000 then cupReg s (a - 0x20000)
  else if 0x100000 ≤ a ∧ a < 0x900000 then wingReg s (a / 0x100000 - 1) (a % 0x100000)
  else if 0x1000000 ≤ a ∧ a < 0x1500000 then tileReg s ((a - 0x1000000) / 0x10000) (a % 0x10000)
  else if 0x1800000 ≤ a ∧ a < 0x1900000 then spireReg s ((a - 0x1800000) / 0x10000) (a % 0x10000)
  else if 0x1C00000 ≤ a ∧ a < 0x1C00400 then lanternReg s ((a - 0x1C00000) / 0x100) (a % 0x100)
  else if 0x1E00000 ≤ a ∧ a < 0x1E08008 then msixReg s 0 (a - 0x1E00000)
  else 0

/-- Whether the Hall's firmware maintains the register at an offset (rule R518). -/
def hallKept (a : Nat) : Bool := decide (a < 0x10000) || (decide (0x20000 ≤ a) && decide (a < 0x30000)) || (decide (0x1C00000 ≤ a) && decide (a < 0x1C00400))

/-- Offsets of the registers that the Hall's firmware maintains. -/
def hallOffsets : List Nat :=
  let words := fun (base n : Nat) => (List.range n).map (fun i => base + 4 * i)
  words 0 9 ++ words 0x100 5 ++ words 0x7000 64 ++ words 0x8000 128 ++ words 0x9000 128 ++ words 0xA000 8 ++ words 0xA100 128 ++ words 0xB000 144
    ++ words 0xC000 128 ++ words 0xD000 128 ++ words 0xE000 7 ++ words 0xF000 12 ++ words 0x20000 18 ++ words 0x20100 64 ++ words 0x20200 20
    ++ words 0x1C00000 256

/-- What they hold as a firmware activation begins (rule R523). -/
def holdRegs (s : State) : SMap Nat := hallOffsets.map (fun a => (a, liveReg s a))

/-- What a register reads (rules R520, R523): while a firmware activation runs, the Hall's registers hold what they had as it began. -/
def regValue (s : State) (a : Nat) : Nat :=
  if s.dev = .waking then 0xFFFFFFFF
  else if s.fw.inActivation && hallKept a then SMap.get 0 s.fw.heldRegs a else liveReg s a

/-- The PF offset that a virtual function's offset shows, for suite `n` (rule R525). -/
def vfOffset (s : State) (n a : Nat) : Option Nat :=
  let t := (a - 0x1000000) / 0x10000
  let o := a % 0x10000
  if a < 0x24 ∨ a = 0x100 ∨ a = 0x10000 ∨ a = 0x10004 then some a
  else if 0x7000 ≤ a ∧ a < 0x7020 then some (a + 0x20 * n)
  else if (0x8000 ≤ a ∧ a < 0x8040) ∨ (0x9000 ≤ a ∧ a < 0x9040) ∨ (0xA100 ≤ a ∧ a < 0xA140) ∨ (0xC000 ≤ a ∧ a < 0xC040) ∨ (0xD000 ≤ a ∧ a < 0xD040) then
    some (a + 0x40 * n)
  else if 0xB000 ≤ a ∧ a < 0xB040 then some (a + 0x40 * (n + 1))
  else if 0x10100 ≤ a ∧ a < 0x10180 then some (a + 0x80 * n)
  else if 0x1000000 ≤ a ∧ a < 0x1500000 ∧ (getSuite s n).res.tiles.contains t = true ∧ (o = 0 ∨ o = 4 ∨ residentReg o = true) then some a
  else none

/-- What a register reads in a function (rules R10, R525, R526). -/
def funcValue (s : State) (f a : Nat) : Nat :=
  if a % 4 ≠ 0 ∨ s.dev = .waking then 0xFFFFFFFF
  else if f = 0 then regValue s a
  else if 0x1E00000 ≤ a ∧ a < 0x1E08008 then msixReg s f (a - 0x1E00000)
  else
    match vfOffset s (f - 1) a with
    | none => 0
    | some b =>
      if 0x1000000 ≤ b ∧ b < 0x1500000 then
        let t := (b - 0x1000000) / 0x10000
        let mine := (getTile s t).suite == some (f - 1)
        if b % 0x10000 = 0 then (if wingPresent s (t / 10) then tileStatus s t mine else 0)
        else if residentReg (b % 0x10000) && !mine then residentReset (b % 0x10000)
        else regValue s b
      else regValue s b

/-- The PF offset behind an access of a function. -/
def pfOffset (s : State) (f a : Nat) : Option Nat := if f = 0 then some a else vfOffset s (f - 1) a

/-- Whether a register pair's low word lies at an offset; its high word (rule R522). -/
def highOf (a : Nat) : Option Nat :=
  let at4 := fun (base step count : Nat) (os : List Nat) =>
    decide (base ≤ a) && decide (a < base + step * count) && os.contains ((a - base) % step)
  if a = 0 ∨ a = 0xE014 ∨ a = 0xF028 ∨ a = 0x10000 ∨ a = 0x2001C ∨ a = 0x20034 ∨ a = 0x2003C then some (a + 4)
  else if at4 0x7000 0x20 8 [0, 8] || at4 0x8000 0x40 8 [0x14] || at4 0xB000 0x40 9 [0x08, 0x10, 0x18] || at4 0xC000 0x40 8 [0x04, 0x10]
      || at4 0x10100 8 128 [0] || at4 0x100000 0x100000 8 [0x2000, 0x3100] || at4 0x1000000 0x10000 80 [0x360] || at4 0x1800000 0x10000 16 [0x200]
      || at4 0x1C00000 0x100 4 [4] then some (a + 4)
  else if at4 0x1800000 0x10000 16 [0x1C] then some (a + 0x20)
  else none

/-- What a read of a register gives a function (rule R522): the high word of a pair as that function's last read of the low word latched
it. -/
def readValue (s : State) (f a : Nat) : Nat :=
  if s.dev ≠ .waking ∧ SMap.has s.bnd.latches (2 ^ 32 * f + a) then SMap.get 0 s.bnd.latches (2 ^ 32 * f + a) else funcValue s f a

/-- A field that a read clears (rule R9): its place, what it counts, and setting that. -/
structure RcField where
  lo : Nat
  width : Nat
  get : State → Nat
  put : State → Nat → State

/-- RC fields of a suite's register groups and of the Hall's others. -/
def hallRc (a : Nat) : List RcField :=
  let n := a % 0x1000 / 0x40
  let m := (a - 0xA100) / 0x40
  let counts := fun (lo w : Nat) (g : SuiteCounts → Nat) (p : SuiteCounts → Nat → SuiteCounts) =>
    ({ lo := lo, width := w, get := fun s => g (getSuite s n).counts
       put := fun s v => updSuite s n (fun su => { su with counts := p su.counts v }) } : RcField)
  let job := fun (lo : Nat) (g : JobState → Nat) (p : JobState → Nat → JobState) =>
    ({ lo := lo, width := 8, get := fun s => g (getSuite s m).job, put := fun s v => updSuite s m (fun su => { su with job := p su.job v }) } : RcField)
  let mgr := fun (lo : Nat) (g : Manager → Nat) (p : Manager → Nat → Manager) =>
    ({ lo := lo, width := 16, get := fun s => g s.mgr, put := fun s v => { s with mgr := p s.mgr v } } : RcField)
  let flt := fun (lo w : Nat) (g : FaultLog → Nat) (p : FaultLog → Nat → FaultLog) =>
    ({ lo := lo, width := w, get := fun s => g s.faults, put := fun s v => { s with faults := p s.faults v } } : RcField)
  let brg := fun (lo w : Nat) (g : Bringup → Nat) (p : Bringup → Nat → Bringup) =>
    ({ lo := lo, width := w, get := fun s => g s.bringup, put := fun s v => { s with bringup := p s.bringup v } } : RcField)
  if 0x8000 ≤ a ∧ a < 0x8200 ∧ a % 0x40 = 0x0C then
    [counts 16 16 (fun c => c.clamp) (fun c v => { c with clamp := v }), counts 0 16 (fun c => c.adapt) (fun c v => { c with adapt := v })]
  else if 0x9000 ≤ a ∧ a < 0x9200 then
    match a % 0x40 with
    | 0x10 => [counts 16 16 (fun c => c.notices) (fun c v => { c with notices := v }), counts 0 16 (fun c => c.timeouts) (fun c v => { c with timeouts := v })]
    | 0x14 => [counts 0 32 (fun c => min 0xFFFFFFFF (c.absorbed - c.absorbedRead)) (fun c v => { c with absorbedRead := c.absorbed - v })]
    | 0x18 => [counts 0 32 (fun c => c.late) (fun c v => { c with late := v })]
    | _ => []
  else if a = 0xA018 then [mgr 16 (fun x => x.relayed) (fun x v => { x with relayed := v }), mgr 0 (fun x => x.lost) (fun x v => { x with lost := v })]
  else if a = 0xA01C then
    [mgr 16 (fun x => x.lateReplies) (fun x v => { x with lateReplies := v }), mgr 0 (fun x => x.unanswered) (fun x v => { x with unanswered := v })]
  else if 0xA100 ≤ a ∧ a < 0xA300 ∧ (a - 0xA100) % 0x40 = 0x14 then
    [job 24 (fun x => x.expels) (fun x v => { x with expels := v }), job 16 (fun x => x.takeovers) (fun x v => { x with takeovers := v }),
     job 8 (fun x => x.rollbacks) (fun x v => { x with rollbacks := v }), job 0 (fun x => x.disagree) (fun x v => { x with disagree := v })]
  else if 0xB000 ≤ a ∧ a < 0xB240 ∧ a % 0x40 = 0x04 then
    [{ lo := 16, width := 16, get := fun s => (getRing s n).eventsLost, put := fun s v => updRing s n (fun r => { r with eventsLost := v }) }]
  else if 0xD000 ≤ a ∧ a < 0xD200 ∧ a % 0x40 = 0x10 then
    [counts 16 16 (fun c => c.preempts) (fun c v => { c with preempts := v }), counts 0 16 (fun c => c.releases) (fun c v => { c with releases := v })]
  else if a = 0xE008 then [flt 16 16 (fun x => x.poisons) (fun x v => { x with poisons := v }), flt 0 16 (fun x => x.lost) (fun x v => { x with lost := v })]
  else if a = 0xE00C then
    [flt 24 8 (fun x => x.transient) (fun x v => { x with transient := v }), flt 16 8 (fun x => x.permanent) (fun x v => { x with permanent := v }),
     flt 8 8 (fun x => x.checker) (fun x v => { x with checker := v }), flt 0 8 (fun x => x.unresolved) (fun x v => { x with unresolved := v })]
  else if a = 0xF010 then
    [brg 16 16 (fun x => x.suiteResets) (fun x v => { x with suiteResets := v }), brg 8 8 (fun x => x.wingResets) (fun x v => { x with wingResets := v }),
     brg 0 8 (fun x => x.tileResets) (fun x v => { x with tileResets := v })]
  else []

/-- RC fields of a TILE, a WING and a SPIRE block. -/
def tileRc (t o : Nat) : List RcField :=
  let f := fun (lo w : Nat) (g : TileCounts → Nat) (p : TileCounts → Nat → TileCounts) =>
    ({ lo := lo, width := w, get := fun s => g (getTile s t).counts, put := fun s v => updTile s t (fun x => { x with counts := p x.counts v }) } : RcField)
  match o with
  | 0x008 => [{ lo := 16, width := 16, get := fun s => (getTile s t).gov.downSteps, put := fun s v => updTile s t (fun x => { x with gov := { x.gov with downSteps := v } }) }]
  | 0x00C => [f 16 16 (fun c => c.tsCorrected) (fun c v => { c with tsCorrected := v }), f 0 16 (fun c => c.ibufCorrected) (fun c v => { c with ibufCorrected := v })]
  | 0x010 => [f 16 16 (fun c => c.disagreements) (fun c v => { c with disagreements := v }), f 0 16 (fun c => c.thirdRuns) (fun c v => { c with thirdRuns := v })]
  | 0x340 => [f 16 16 (fun c => c.cdcOverrun) (fun c v => { c with cdcOverrun := v }), f 8 8 (fun c => c.cdcTimeouts) (fun c v => { c with cdcTimeouts := v }),
              f 0 8 (fun c => c.cdcResyncs) (fun c v => { c with cdcResyncs := v })]
  | _ => []

def wingRc (w o : Nat) : List RcField :=
  let f := fun (lo wd : Nat) (g : Wing → Nat) (p : Wing → Nat → Wing) =>
    ({ lo := lo, width := wd, get := fun s => g (getWing s w), put := fun s v => updWing s w (fun x => p x v) } : RcField)
  let pc := (o - 0x1100) / 4
  if 0x1100 ≤ o ∧ o < 0x1200 then
    [f 24 7 (fun x => SMap.get 0 x.ue pc) (fun x v => { x with ue := SMap.set x.ue pc v }), f 0 24 (fun x => SMap.get 0 x.ce pc) (fun x v => { x with ce := SMap.set x.ce pc v })]
  else
    match o with
    | 0x100C => [f 16 16 (fun x => x.onlineRepairs) (fun x v => { x with onlineRepairs := v })]
    | 0x2008 => [f 16 16 (fun x => x.cacheDirtyUe) (fun x v => { x with cacheDirtyUe := v }), f 0 16 (fun x => x.cacheCorrected) (fun x v => { x with cacheCorrected := v })]
    | 0x2010 => [f 0 32 (fun x => x.hits) (fun x v => { x with hits := v })]
    | 0x2014 => [f 0 32 (fun x => x.misses) (fun x v => { x with misses := v })]
    | 0x3000 => [f 16 16 (fun x => x.slotViol) (fun x v => { x with slotViol := v }), f 0 16 (fun x => x.tagViol) (fun x v => { x with tagViol := v })]
    | 0x3004 => [f 16 16 (fun x => x.cdcOverrun) (fun x v => { x with cdcOverrun := v }), f 8 8 (fun x => x.cdcTimeouts) (fun x v => { x with cdcTimeouts := v }),
                 f 0 8 (fun x => x.cdcResyncs) (fun x v => { x with cdcResyncs := v })]
    | _ => []

def spireRc (p o : Nat) : List RcField :=
  let f := fun (lo w : Nat) (g : Port → Nat) (q : Port → Nat → Port) =>
    ({ lo := lo, width := w, get := fun s => g (getPort s p), put := fun s v => updPort s p (fun x => q x v) } : RcField)
  let e := fun (lo w : Nat) (g : PortExtra → Nat) (q : PortExtra → Nat → PortExtra) =>
    ({ lo := lo, width := w, get := fun s => g (SMap.get {} s.portExtra p), put := fun s v => { s with portExtra := SMap.modify {} s.portExtra p (fun x => q x v) } } : RcField)
  match o with
  | 0x20 => [f 16 16 (fun x => x.replays) (fun x v => { x with replays := v }), f 0 16 (fun x => x.crcErr) (fun x v => { x with crcErr := v })]
  | 0x24 => [f 0 32 (fun x => x.fecCorr) (fun x v => { x with fecCorr := v })]
  | 0x28 => [f 0 32 (fun x => x.fecUncorr) (fun x v => { x with fecUncorr := v })]
  | 0x2C => [f 16 16 (fun x => x.fullRetrains) (fun x v => { x with fullRetrains := v }), f 0 16 (fun x => x.fastRetrains) (fun x v => { x with fastRetrains := v })]
  | 0x30 => [f 16 16 (fun x => x.notOwned) (fun x v => { x with notOwned := v }), f 0 16 (fun x => x.otherDiscard) (fun x v => { x with otherDiscard := v })]
  | 0x34 => [f 16 16 (fun x => x.unplanned) (fun x v => { x with unplanned := v }), f 0 16 (fun x => x.planned) (fun x v => { x with planned := v })]
  | 0x38 => [e 16 16 (fun x => x.cdcOverrun) (fun x v => { x with cdcOverrun := v }), e 8 8 (fun x => x.cdcTimeouts) (fun x v => { x with cdcTimeouts := v }),
             e 0 8 (fun x => x.cdcResyncs) (fun x v => { x with cdcResyncs := v })]
  | 0x40 => [f 16 13 (fun x => x.peak) (fun x v => { x with peak := v })]
  | _ => []

/-- The RC fields of the register at an offset (rule R9). -/
def rcFields (a : Nat) : List RcField :=
  let cup := fun (lo w : Nat) (g : Cupola → Nat) (p : Cupola → Nat → Cupola) =>
    ({ lo := lo, width := w, get := fun s => g s.cup, put := fun s v => { s with cup := p s.cup v } } : RcField)
  if a % 4 ≠ 0 then []
  else if a < 0x10000 then hallRc a
  else if a = 0x10018 then
    [{ lo := 16, width := 16, get := fun s => s.bell.steps, put := fun s v => { s with bell := { s.bell with steps := v } } },
     { lo := 0, width := 16, get := fun s => s.bell.holdovers, put := fun s v => { s with bell := { s.bell with holdovers := v } } }]
  else if a = 0x20014 then [cup 16 16 (fun x => x.warns) (fun x v => { x with warns := v }), cup 0 16 (fun x => x.dips) (fun x v => { x with dips := v })]
  else if a = 0x20018 then [cup 24 8 (fun x => x.throttles) (fun x v => { x with throttles := v })]
  else if 0x100000 ≤ a ∧ a < 0x900000 then wingRc (a / 0x100000 - 1) (a % 0x100000)
  else if 0x1000000 ≤ a ∧ a < 0x1500000 then tileRc ((a - 0x1000000) / 0x10000) (a % 0x10000)
  else if 0x1800000 ≤ a ∧ a < 0x1900000 then spireRc ((a - 0x1800000) / 0x10000) (a % 0x10000)
  else if 0x1C00000 ≤ a ∧ a < 0x1C00400 ∧ a % 0x100 = 0x1C then
    let l := (a - 0x1C00000) / 0x100
    [{ lo := 16, width := 16, get := fun s => (getLantern s l).authFails, put := fun s v => updLantern s l (fun x => { x with authFails := v }) }]
  else []

/-- Whether the block of a register is in reset, so that a read clears nothing and a write has no effect (rule R521). -/
def blockInReset (s : State) (a : Nat) : Bool :=
  if 0x100000 ≤ a ∧ a < 0x900000 then (getWing s (a / 0x100000 - 1)).inReset && decide (a % 0x100000 < 0x3000)
  else if 0x1000000 ≤ a ∧ a < 0x1500000 then (getTile s ((a - 0x1000000) / 0x10000)).health.inReset
  else false

/-- Clear the RC fields of a register (rules R9, R523): while a firmware activation runs, the value held is cleared and what has come
since stays. -/
def clearRc (s : State) (a : Nat) : State :=
  let fs := rcFields a
  if s.fw.inActivation && hallKept a then
    let held := SMap.get 0 s.fw.heldRegs a
    let s1 := fs.foldl (fun st f => f.put st (f.get st - bits held f.lo f.width)) s
    { s1 with fw := { s1.fw with heldRegs := SMap.set s1.fw.heldRegs a (fs.foldl (fun v f => v - fld f.lo f.width (bits held f.lo f.width)) held) } }
  else fs.foldl (fun st f => f.put st 0) s

/-- Whether a register access of a function completes (rules R518, R520, R543, R548). -/
def accessible (s : State) (f a : Nat) : Bool :=
  decide (s.dev ≠ .off) && decide (s.dev ≠ .standby) && !s.bnd.perst && !(s.bnd.d3hot.contains f) && decide (f < 9)
    && decide (a < 0x2000000)

/-- The completion of a register read. -/
def complete (s : State) (f v : Nat) : State := send s (.completion f) .read (natLE v 4)

/-- The completion of an access of another size than 32 bits, or off its alignment (rule R10): all ones, and nothing else. -/
def completeOnes (s : State) (f size : Nat) : State := send s (.completion f) .read (List.replicate size 255#8)

/-- RC_READ (rules R9, R10, R520, R521, R523, R524). -/
def execRcRead (fn addr size : Nat) (s : State) : Host.Outcome State Fault Refusal :=
  let s1 := match pfOffset s fn addr with
    | some a => if s.dev = .waking ∨ blockInReset s a = true then s else clearRc s a
    | none => s
  whenDo (accessible s fn addr) s (if size ≠ 4 then completeOnes s fn size else complete s1 fn (readValue s fn addr))

/-- LO_READ_LATCH (rules R10, R522): the read returns the low word and latches the high word for the function that read it. -/
def execLoReadLatch (fn addr size : Nat) (s : State) : Host.Outcome State Fault Refusal :=
  let s1 := match pfOffset s fn addr with
    | some a =>
      (match (if s.dev = .waking ∨ addr % 4 ≠ 0 then none else highOf a) with
      | some h =>
        let va := addr + (h - a)
        { s with bnd := { s.bnd with latches := SMap.set s.bnd.latches (2 ^ 32 * fn + va) (funcValue s fn va) } }
      | none => s)
    | none => s
  whenDo (accessible s fn addr) s (if size ≠ 4 then completeOnes s fn size else complete s1 fn (readValue s fn addr))

/-- A write of a base, shadow or size register of a ring (rules R371, R386): only while ENABLE is 0. -/
def writeRingSetup (r : Ring) (o v : Nat) : Ring :=
  if r.enable then r
  else
    match o with
    | 0x08 => { r with sqBase := 2 ^ 32 * (hi32 r.sqBase) + 4096 * (v / 4096) }
    | 0x0C => { r with sqBase := 2 ^ 32 * v + lo32 r.sqBase }
    | 0x10 => { r with cqBase := 2 ^ 32 * (hi32 r.cqBase) + 4096 * (v / 4096) }
    | 0x14 => { r with cqBase := 2 ^ 32 * v + lo32 r.cqBase }
    | 0x18 => { r with shadow := 2 ^ 32 * (hi32 r.shadow) + v / 8 * 8 }
    | 0x1C => { r with shadow := 2 ^ 32 * v + lo32 r.shadow }
    | 0x20 =>
      let sq := bits v 0 4
      let cq := bits v 16 4
      { r with sqLog2 := if 4 ≤ sq ∧ sq ≤ 12 then sq else r.sqLog2, cqLog2 := if 4 ≤ cq ∧ cq ≤ 12 then cq else r.cqLog2 }
    | _ => r

/-- A write of a ring register of function `f` (rules R371 to R374, R386). -/
def writeRing (s : State) (f o v : Nat) : State :=
  match o with
  | 0x00 => if bit v 0 then ringOn s f v else ringOff s f v
  | 0x24 => ringTail s f v
  | 0x2C => ringHead s f v
  | _ => updRing s f (fun r => writeRingSetup r o v)

/-- A write of a register at a PF offset takes effect (rules R278, R341, R364, R386, R515, R530): only the writable fields, in range. -/
def storeReg (s : State) (a v0 : Nat) : State :=
  let v := lo32 v0
  let n := a % 0x1000 / 0x40
  if 0x9000 ≤ a ∧ a < 0x9200 then
    if !(imaged s n) then s
    else
      match a % 0x40 with
      | 0x04 => if 1 ≤ bits v 0 10 ∧ bits v 0 10 ≤ 1000 then updSuite s n (fun su => { su with timeoutMs := bits v 0 10 }) else s
      | 0x08 => if 1 ≤ bits v 0 10 ∧ bits v 0 10 ≤ 600 then updSuite s n (fun su => { su with inputTimeoutS := bits v 0 10 }) else s
      | 0x0C => writeReady s n v
      | _ => s
  else if a = 0xA010 then (if 100 ≤ bits v 0 16 then { s with mgr := { s.mgr with haltLead := bits v 0 16 } } else s)
  else if a = 0xA014 then (if 1000 ≤ v then { s with mgr := { s.mgr with voteTimeout := v } } else s)
  else if 0xB000 ≤ a ∧ a < 0xB240 then writeRing s ((a - 0xB000) / 0x40) (a % 0x40) v
  else if a = 0x1001C then (if 1000 ≤ v ∧ v ≤ 60000000 then { s with bell := { s.bell with telemetry := v } } else s)
  else if a = 0x10024 then { s with bell := { s.bell with outEn := bit v 0 } }
  else if a = 0x20008 then (if bit v 16 then { s with cup := { s.cup with minMv := s.cup.rawMv } } else s)
  else s

/-- A write to a function's BAR (rules R523, R525): the virtual function's BELL and identity registers are read-only there. -/
def writeFunc (s : State) (f addr v : Nat) : State :=
  if 0x1E00000 ≤ addr ∧ addr < 0x1E08000 then writeMsix s f (addr - 0x1E00000) v
  else
    match pfOffset s f addr with
    | none => s
    | some a =>
      if f ≠ 0 ∧ 0x10000 ≤ a then s
      else if s.fw.inActivation && hallKept a then { s with fw := { s.fw with keptWrites := s.fw.keptWrites ++ [(f, a, v)] } }
      else storeReg s a v

/-- REGISTER_WRITE (rules R9, R10, R519 to R521, R530). -/
def execRegisterWrite (fn addr value size : Nat) (s : State) : Host.Outcome State Fault Refusal :=
  let dead := decide (size ≠ 4) || decide (addr % 4 ≠ 0) || decide (s.dev = .waking)
    || (match pfOffset s fn addr with
        | some a => blockInReset s a
        | none => false)
  whenDo (accessible s fn addr) s (if dead then s else writeFunc s fn addr value)

end Sys2Proof.Machine
end

