-- ==== Sys2Proof/Machine/Boundary.lean ====
section
/-!
DEFINITION. The module's boundary: the PCIe endpoint, the test access port and the management interface (rules R543, R546 to R548 of
24_module_electrical_and_mechanical.md, R462 of 20_faults_checkers_and_signatures.md, R477, R490 of 21_bringup_reset_and_firmware.md).
A message on the management interface is its MCTP message type and what it carries; the framing that MCTP, PLDM and SPDM add is theirs.
-/
namespace Sys2Proof.Machine

/-- The endpoint and the rings of every function reset (rules R385, R543). -/
def endpointReset (s : State) : State :=
  { s with
    rings := SMap.mapVals s.rings (fun k r => if k < 16 then { sessions := r.sessions } else r)
    bnd := { s.bnd with d3hot := [], msix := [], latches := [] } }

/-- Whether the endpoint is powered (rule R543). -/
def endpointOn (s : State) : Bool := decide (s.dev ≠ .off) && decide (s.dev ≠ .standby)

/-- PERST_ASSERT (rule R543). -/
def execPerstAssert (s : State) : Host.Outcome State Fault Refusal :=
  let s1 := if endpointOn s then endpointReset s else s
  whenDo (!s.bnd.perst) s { s1 with bnd := { s1.bnd with perst := true } }

/-- PERST_DEASSERT (rule R543): the endpoint may train. -/
def execPerstDeassert (s : State) : Host.Outcome State Fault Refusal :=
  whenDo s.bnd.perst s { s with bnd := { s.bnd with perst := false } }

/-- LINK_DOWN (rule R543). -/
def execLinkDown (s : State) : Host.Outcome State Fault Refusal :=
  whenDo (endpointOn s && !s.bnd.perst) s (endpointReset s)

/-- D3HOT (rule R548): the function's ring processing stops. -/
def execD3hot (fn : Nat) (s : State) : Host.Outcome State Fault Refusal :=
  whenDo (endpointOn s && !s.bnd.perst && decide (fn < 9) && !(s.bnd.d3hot.contains fn)) s
    { s with bnd := { s.bnd with d3hot := s.bnd.d3hot ++ [fn] } }

/-- D0 (rule R548): ring processing goes on; replies that waited are posted. -/
def execD0 (fn : Nat) (s : State) : Host.Outcome State Fault Refusal :=
  let s1 : State := { s with bnd := { s.bnd with d3hot := s.bnd.d3hot.filter (fun x => x != fn) } }
  whenDo (s.bnd.d3hot.contains fn) s (postWaiting (readSlots s1 fn 4096) (.ring fn))

/-- BYPASS (rule R547): the bypass register is between TDI and TDO. -/
def selectBypass (s : State) : State := { s with bnd := { s.bnd with jtagInstr := 0, bypassBit := false, extest := false } }

def execBypass (s : State) : Host.Outcome State Fault Refusal := whenDo (decide (s.dev ≠ .off)) s (selectBypass s)

/-- Cells of the boundary-scan register (rules R544, R545, R547): the positions of R545's signals but those of PCIe. -/
def boundaryCells : Nat := 27

/-- SAMPLE_PRELOAD (rule R547): in FAULTED the boundary-scan register takes the connector positions; else as BYPASS. -/
def execSamplePreload (pins : List Nat) (s : State) : Host.Outcome State Fault Refusal :=
  whenDo (decide (s.dev ≠ .off)) s
    (if s.dev = .faulted then
      { s with bnd := { s.bnd with jtagInstr := 1, extest := false, bsr := (List.range boundaryCells).map (fun i => (i, pins.getD i 0 % 2)) } }
     else selectBypass s)

/-- EXTEST (rule R547): in FAULTED the boundary-scan register drives the connector positions; else as BYPASS. -/
def execExtest (s : State) : Host.Outcome State Fault Refusal :=
  whenDo (decide (s.dev ≠ .off)) s
    (if s.dev = .faulted then
      send { s with bnd := { s.bnd with jtagInstr := 2, extest := true } } .pins .pin (s.bnd.bsr.map (fun p => BitVec.ofNat 8 p.2))
     else selectBypass s)

/-- MCTP message types: control, PLDM, SPDM (notes/assumptions/40.md). -/
def mctpControlType : Nat := 0
def mctpPldm : Nat := 1
def mctpSpdm : Nat := 5

/-- Answer on the management interface. -/
def answerMctp (s : State) (type : Nat) (body : Bytes) : State := send s .sideband .mctp (natLE type 1 ++ natLE 0 1 ++ body)
/-- An MCTP error response, or a refusal of the protocol that the message belongs to. -/
def refuseMctp (s : State) (type : Nat) : State := send s .sideband .mctp (natLE type 1 ++ natLE 1 1)

/-- Whether the Hall answers on the management interface, and not the Cupola (rule R546). -/
def hallAnswers (s : State) : Bool :=
  match s.dev with
  | .testing | .ready | .running | .draining => true
  | .faulted => s.bringup.code == 0 || s.bringup.code == 5
  | _ => false

/-- Whether the boot ROM answers: FAULTED with NO_FIRMWARE (rules R476, R477). -/
def noFirmware (s : State) : Bool := decide (s.dev = .faulted) && s.bringup.code == 4

/-- Answer a message that the Hall answers, and the boot ROM where `rom` says so (rule R546). -/
def serveMctp (s : State) (type : Nat) (rom : Bool) (t : State) : Host.Outcome State Fault Refusal :=
  whenDo (decide (s.dev ≠ .off)) s (if hallAnswers s || (rom && noFirmware s) then t else refuseMctp s type)

/-- MCTP_CONTROL (rule R546): answered in every state but OFF; Set Endpoint ID sets the id (notes/assumptions/40.md). -/
def execMctpControl (msg : Bytes) (s : State) : Host.Outcome State Fault Refusal :=
  let d := draw s
  let s1 := if fieldAt msg 1 1 = 1 then { d.2 with bnd := { d.2.bnd with mctpEid := fieldAt msg 3 1 } } else d.2
  whenDo (decide (s.dev ≠ .off)) s (answerMctp s1 mctpControlType (Config.answer 0x1000 d.1))

/-- What the PLDM numeric sensors report (rule R507): the values latched last; how they are numbered the spec does not say. -/
def sensorValues (s : State) : List Nat :=
  [s.cup.inputMv, s.cup.inputMa] ++ (List.range 64).map (fun i => tc 12 (SMap.get (-2048) s.cup.temps i)) ++ (List.range 20).map (fun r => SMap.get 0 s.cup.rails r)

/-- PLDM_SENSOR_READ (rules R507, R546). -/
def execPldmSensorRead (sensor : Nat) (s : State) : Host.Outcome State Fault Refusal :=
  whenDo (decide (s.dev ≠ .off)) s (answerMctp s mctpPldm (natLE ((sensorValues s).getD (Config.freeNat 12 sensor % 86) 0) 8))

/-- PLDM_FIRMWARE_INVENTORY (rule R490): both slots. -/
def execPldmFirmwareInventory (s : State) : Host.Outcome State Fault Refusal :=
  let row := fun (x : FwSlot) => natLE (bnat x.valid) 1 ++ natLE x.version 4 ++ natLE x.svn 1
  whenDo (decide (s.dev ≠ .off)) s (answerMctp s mctpPldm (row s.fw.slotA ++ row s.fw.slotB))

/-- Bytes put into an image at an offset; what lies between is zero. -/
def putBytes (im : Bytes) (o : Nat) (data : Bytes) : Bytes := bytesAt im 0 o ++ data ++ im.drop (o + data.length)

/-- Slot A after a complete update: valid where its image verifies (rules R485, R490). -/
def updatedSlot (s : State) (im : Bytes) : FwSlot :=
  if im ≠ [] ∧ imageVerifies s im = true then { valid := true, version := fieldAt im 8 4, svn := fieldAt im 6 1, image := im } else { image := im }

/-- PLDM_FIRMWARE_UPDATE (rules R477, R490): slot A is written, only while FAULTED with NO_FIRMWARE. -/
def execPldmFirmwareUpdate (offset : Nat) (data : Bytes) (last : Bool) (s : State) : Host.Outcome State Fault Refusal :=
  let old := if offset = 0 then [] else s.fw.slotA.image
  let im := putBytes old offset data
  let s1 : State := { s with
    fw := { s.fw with slotA := if last then updatedSlot s im else { image := im } }
    bnd := { s.bnd with pldmUpdate := if last then 2 else 1, pldmBytes := im.length } }
  whenDo (decide (s.dev ≠ .off)) s
    (if noFirmware s && decide (offset + data.length ≤ 2 ^ 24) then answerMctp s1 mctpPldm [] else refuseMctp s mctpPldm)

/-- ACTIVATE_FIRMWARE (rule R477): after a complete update, RESET at level 4. -/
def execActivateFirmware (s : State) : Host.Outcome State Fault Refusal :=
  let s1 : State := { s with bnd := { s.bnd with pldmUpdate := 0, pldmBytes := 0 } }
  whenDo (decide (s.dev ≠ .off)) s
    (if noFirmware s && s.bnd.pldmUpdate == 2 then resetDevice (answerMctp s1 mctpPldm []) 4 1 else refuseMctp s mctpPldm)

/-- POLL_FOR_PLATFORM_EVENT_MESSAGE (rule R462): the signature acknowledged goes, and the oldest still announced is returned. -/
def execPollForPlatformEventMessage (ackTo : Nat) (s : State) : Host.Outcome State Fault Refusal :=
  let rest := s.faults.announced.filter (fun p => p.1 != ackTo)
  let s1 : State := { s with faults := { s.faults with announced := rest } }
  serveMctp s mctpPldm false (answerMctp s1 mctpPldm (match rest.head? with
    | some p => natLE 0xFB 1 ++ natLE p.1 4 ++ p.2
    | none => []))

/-- An SPDM request that needs the exchange to have reached `stage` (DSP0274; notes/assumptions/40.md): the answer joins the transcript. -/
def spdmAnswer (s : State) (stage next : Nat) (msg body : Bytes) : Host.Outcome State Fault Refusal :=
  let b := s.bnd
  let old := if stage = 0 then [] else b.transcript
  let t : State := { s with bnd := { b with spdmState := max next (if stage = 0 then 0 else b.spdmState), transcript := old ++ msg ++ body } }
  serveMctp s mctpSpdm true (if stage ≤ b.spdmState then answerMctp t mctpSpdm body else refuseMctp s mctpSpdm)

/-- GET_VERSION (rule R490): SPDM 1.2. -/
def execGetVersion (msg : Bytes) (s : State) : Host.Outcome State Fault Refusal := spdmAnswer s 0 1 msg (natLE 0x12 1)

/-- GET_CAPABILITIES (rule R490): certificates, challenge and measurements, and no session. -/
def execGetCapabilities (msg : Bytes) (s : State) : Host.Outcome State Fault Refusal := spdmAnswer s 1 2 msg (bytesAt (Config.answer 0x1001 0) 0 4)

/-- NEGOTIATE_ALGORITHMS (rule R490): ECDSA P-384 and SHA-384. -/
def execNegotiateAlgorithms (msg : Bytes) (s : State) : Host.Outcome State Fault Refusal := spdmAnswer s 2 3 msg (natLE 0x80 4 ++ natLE 0x02 4)

/-- GET_DIGESTS (rule R490): the digest of the certificate chain. -/
def execGetDigests (msg : Bytes) (s : State) : Host.Outcome State Fault Refusal := spdmAnswer s 3 3 msg (sha384 Config.certificate)

/-- GET_CERTIFICATE (rule R490). -/
def execGetCertificate (msg : Bytes) (s : State) : Host.Outcome State Fault Refusal := spdmAnswer s 3 3 msg Config.certificate

/-- A message signed with the module's key over the transcript so far. -/
def spdmSigned (s : State) (msg body : Bytes) : Bytes := body ++ Config.signs (sha384 (s.bnd.transcript ++ msg ++ body))

/-- CHALLENGE (rule R490): the certificate chain's digest and a nonce, signed. -/
def execChallenge (msg : Bytes) (s : State) : Host.Outcome State Fault Refusal :=
  let d := draw s
  spdmAnswer d.2 3 3 msg (spdmSigned s msg (sha384 Config.certificate ++ Config.nonce d.1))

/-- The measurements (rule R490): boot ROM, active slot, staged slot or zero, fuse map. -/
def measurement (s : State) (i : Nat) : Bytes :=
  match i with
  | 1 => bytesAt (Config.answer 0x1002 0) 0 48
  | 2 => slotDigest s.fw s.fw.active
  | 3 => if s.fw.stage = 2 then bytesAt s.fw.stagedDigest 0 48 else bytesAt [] 0 48
  | _ => bytesAt (Config.answer 0x1003 0) 0 48

/-- GET_MEASUREMENTS (rule R490): the index asked for, or all four, signed where asked. -/
def execGetMeasurements (msg : Bytes) (s : State) : Host.Outcome State Fault Refusal :=
  let i := fieldAt msg 3 1
  let is := if 1 ≤ i ∧ i ≤ 4 then [i] else [1, 2, 3, 4]
  let body := natLE is.length 1 ++ (is.map (fun k => natLE k 1 ++ measurement s k)).flatten
  spdmAnswer s 3 3 msg (if bit (fieldAt msg 1 1) 0 then spdmSigned s msg body else body)

end Sys2Proof.Machine
end

