-- ==== Sys2Proof/Machine/Folds.lean ====
section
/-!
DEFINITION. Folded tiles: the segments of their virtual tiles and the order in which they run (rules R416, R417 of
18_images_and_the_loader.md).
-/
namespace Sys2Proof.Machine

/-- The three streams of a folded tile stand at the end of a segment (rule R416). -/
def segmentEnd (s : State) (t : Nat) : Bool :=
  let xs := [KStream.f, .b, .u].map (fun k => getStream s t k)
  xs.all (fun x => x.cutWait) || xs.all (fun x => decide (x.phase = .atGate)) || xs.all (fun x => decide (x.phase = .finished))

/-- The segment that a virtual tile runs next, with its step: the one after the cut that its F stream waits at, the first of a step at its
gate or before its program's first mark (rule R416). -/
def upcoming (im : Image) (v : Nat) (c : TileCore) : Nat × Nat :=
  let p := (SMap.get {} im.vtiles v : VTileImage)
  let cuts := (executions p.f).filterMap (fun e => match decodeKernel e.1 with
    | .mark false _ id => if p.cuts.any (fun q => q.1 == id) then some id else none
    | _ => none)
  let here := match decodeKernel (p.f.instrs.getD c.f.pc 0) with
    | .mark false _ id => if c.f.cutWait then (cuts.findIdx? (fun q => q == id)).map (fun i => i + 1) else none
    | _ => none
  (c.f.step, here.getD 0)

/-- The virtual tile of a folded tile whose next segment comes first: the earliest step, then the lowest level, then the lowest virtual
tile (rule R417). -/
def foldNext (s : State) (n t : Nat) (im : Image) : Option Nat :=
  let su := getSuite s n
  let es := segmentEdges im
  let key := fun (v : Nat) =>
    let g := upcoming im v (if v = (getTile s t).vtile then (getTile s t).core else SMap.get {} su.saves v)
    (g.1, segmentLevel es es.length (v, g.2), v)
  let before := fun (a b : Nat × Nat × Nat) => decide (a.1 < b.1) || (a.1 == b.1 && (decide (a.2.1 < b.2.1) || (a.2.1 == b.2.1 && decide (a.2.2 < b.2.2))))
  let keys := (su.vmap.filter (fun q => q.2 == t)).map (fun q => key q.1)
  (keys.find? (fun a => keys.all (fun b => !(before b a)))).map (fun a => a.2.2)

/-- FOLD_SWAP (rules R416, R417): the resident virtual tile goes to its slot and `next`, whose segment comes first, becomes resident; its
streams go on from their cut. Evaluation programs run one virtual tile after the other, the lowest that has not run first (rule R232). -/
def execFoldSwap (tile next : Nat) (obs : List MemObs) (s : State) : Host.Outcome State Fault Refusal :=
  let x := getTile s tile
  match x.suite with
  | none => ok s
  | some n =>
    let su := getSuite s n
    match su.image with
    | none => ok s
    | some im =>
      let here := SMap.get 0xFF su.vmap next == tile && SMap.has su.vmap next
      let ready := executing su && decide (1 < x.fold) && !su.slice.stopping && here && segmentEnd s tile && x.verdicts.isEmpty
        && x.passes.isEmpty && (resolutionOf s tile).isNone
      let go := fun (st : State) => [KStream.f, .b, .u].foldl (fun q k =>
        if (getStream q tile k).cutWait then resumeInMark q tile k else q) st
      let eff :=
        if x.evalMode then
          match su.window with
          | none => s
          | some w =>
            let w1 := { w with programsDone := if w.programsDone.contains x.vtile then w.programsDone else w.programsDone ++ [x.vtile] }
            if evalTurn { su with window := some w1 } { w1 with saves := [] } tile next ≠ next ∨ w1.programsDone.contains next then s else seatEval (setSuite s n { su with window := some w1 }) n tile next im w1
        else if foldNext s n tile im ≠ some next then s
        else if next = x.vtile then go s
        else
          let saves := SMap.set su.saves x.vtile (slotOf im x.core)
          go (setTile (setSuite s n { su with saves := SMap.erase saves next }) tile (seat x n next x.fold (SMap.get {} saves next)))
      whenDo ready s (readObs eff n obs)

end Sys2Proof.Machine
end

