-- ==== Sys2Proof/Machine/Serve.lean ====
section
/-!
DEFINITION. The window of a firmware activation: it begins, and the Hall serves again (rules R355, R383, R488, R523 of
16_command_packets.md, 21_bringup_reset_and_firmware.md and 23_register_reference.md).
-/
namespace Sys2Proof.Machine

/-- FW_ACTIVATION (rules R355, R488, R491, R523): at its bell, and after a halt of the same edge, the Hall stops serving and starts from
the staged slot; its registers hold what they had. -/
def execFwActivation (s : State) : Host.Outcome State Fault Refusal :=
  let f := s.fw
  let halting := s.suites.any (fun p => p.2.job.haltBell == some f.actBell && decide (p.2.state = .running))
  whenDo (f.actPending && decide (f.actBell ≤ s.bell.count) && decide (s.bell.state ≠ .off) && !halting) s
    { s with
      fw := { f with actPending := false, actBell := 2 ^ 64 - 1, inActivation := true, fellBack := false, heldRegs := holdRegs s }
      bell := { s.bell with events := s.bell.events.filter (fun e => e.opcode != 0x0703) } }

/-- A register write that was kept takes effect (rule R523). -/
def applyKept (s : State) (w : Nat × Nat × Nat) : State := storeReg s w.2.1 w.2.2

/-- HALL_SERVES_AGAIN (rules R383, R486, R488, R523): the Hall runs from the staged slot, or from the previous one after a fall back;
writes that were kept take effect in the order they came, and packets that arrived are answered. -/
def execHallServesAgain (s : State) : Host.Outcome State Fault Refusal :=
  let f := s.fw
  let f1 : Firmware := { f with
    active := if f.fellBack then f.active else 1 - f.active
    confirmed := if f.fellBack then f.confirmed else false
    reverted := f.fellBack
    stage := if f.fellBack then 3 else 0
    inActivation := false, fellBack := false, servedBell := s.bell.count, heldPackets := [], keptWrites := [], heldRegs := [] }
  let s1 := if f.fellBack then { s with fw := f1 } else fwState { s with fw := f1 } f1.stage
  let s2 := f.keptWrites.foldl applyKept s1
  whenDo f.inActivation s (f.heldPackets.foldl (fun st p => takePacket st p.1 p.2) s2)

end Sys2Proof.Machine
end

