-- ==== Sys2Proof/Machine/Dispatch.lean ====
section
/-!
DEFINITION. One arm per command: each calls the command's meaning.
-/
namespace Sys2Proof.Machine

def exec (i : Instr) (s : State) : Host.Outcome State Fault Refusal :=
  match i with
  | .nop tile st => Sys2Proof.Machine.execNop tile st s
  | .qin tile st => Sys2Proof.Machine.execQin tile st s
  | .qout tile st => Sys2Proof.Machine.execQout tile st s
  | .wait tile st => Sys2Proof.Machine.execWait tile st s
  | .waitSatisfied tile st => Sys2Proof.Machine.execWaitSatisfied tile st s
  | .take tile st => Sys2Proof.Machine.execTake tile st s
  | .takeComplete tile st => Sys2Proof.Machine.execTakeComplete tile st s
  | .pass tile st => Sys2Proof.Machine.execPass tile st s
  | .mm tile st ecc => Sys2Proof.Machine.execMm tile st ecc s
  | .cellSpill tile cell dup ecc => Sys2Proof.Machine.execCellSpill tile cell dup ecc s
  | .mmPassComplete tile => Sys2Proof.Machine.execMmPassComplete tile s
  | .passCheckVerdict tile err => Sys2Proof.Machine.execPassCheckVerdict tile err s
  | .vop tile st ecc => Sys2Proof.Machine.execVop tile st ecc s
  | .vred tile st ecc => Sys2Proof.Machine.execVred tile st ecc s
  | .veCheckVerdict tile obs => Sys2Proof.Machine.execVeCheckVerdict tile obs s
  | .cvt tile st ecc => Sys2Proof.Machine.execCvt tile st ecc s
  | .cvtCheckVerdict tile obs => Sys2Proof.Machine.execCvtCheckVerdict tile obs s
  | .dig tile st ecc => Sys2Proof.Machine.execDig tile st ecc s
  | .mark tile st => Sys2Proof.Machine.execMark tile st s
  | .markDrainComplete tile st => Sys2Proof.Machine.execMarkDrainComplete tile st s
  | .bellwait tile st => Sys2Proof.Machine.execBellwait tile st s
  | .bellwaitComplete tile st => Sys2Proof.Machine.execBellwaitComplete tile st s
  | .loop tile st => Sys2Proof.Machine.execLoop tile st s
  | .instructionFetch tile st words ecc obs => Sys2Proof.Machine.execInstructionFetch tile st words ecc obs s
  | .kernelOverrun tile st => Sys2Proof.Machine.execKernelOverrun tile st s
  | .stepGateOpen tile st => Sys2Proof.Machine.execStepGateOpen tile st s
  | .scaleRecordsWrite suite tensor step => Sys2Proof.Machine.execScaleRecordsWrite suite tensor step s
  | .scaleDecision suite tensor step => Sys2Proof.Machine.execScaleDecision suite tensor step s
  | .landingTransactionStart tile landing ecc net => Sys2Proof.Machine.execLandingTransactionStart tile landing ecc net s
  | .transactionComplete entry tag obs dup ecc => Sys2Proof.Machine.execTransactionComplete entry tag obs dup ecc s
  | .patrolScrub pc addr obs => Sys2Proof.Machine.execPatrolScrub pc addr obs s
  | .onlineRowRepair pc row => Sys2Proof.Machine.execOnlineRowRepair pc row s
  | .rowRepairComplete pc row obs => Sys2Proof.Machine.execRowRepairComplete pc row obs s
  | .hbmTempReading wing temp onDie => Sys2Proof.Machine.execHbmTempReading wing temp onDie s
  | .refreshRateChange wing => Sys2Proof.Machine.execRefreshRateChange wing s
  | .perBankRefresh wing bank => Sys2Proof.Machine.execPerBankRefresh wing bank s
  | .refreshManagement wing bank => Sys2Proof.Machine.execRefreshManagement wing bank s
  | .cacheEviction wing line obs => Sys2Proof.Machine.execCacheEviction wing line obs s
  | .streamTimeout entry tag => Sys2Proof.Machine.execStreamTimeout entry tag s
  | .inputTimeout entry tag => Sys2Proof.Machine.execInputTimeout entry tag s
  | .disableDrainExpiry entry => Sys2Proof.Machine.execDisableDrainExpiry entry s
  | .flitReceive port flit fec => Sys2Proof.Machine.execFlitReceive port flit fec s
  | .nak port ackSeq => Sys2Proof.Machine.execNak port ackSeq s
  | .retryBudgetSpent port => Sys2Proof.Machine.execRetryBudgetSpent port s
  | .dataFlit port body ecc => Sys2Proof.Machine.execDataFlit port body ecc s
  | .mgmtPacket port packet => Sys2Proof.Machine.execMgmtPacket port packet s
  | .credit port rec => Sys2Proof.Machine.execCredit port rec s
  | .ack port rec => Sys2Proof.Machine.execAck port rec s
  | .timeoutNotice port rec => Sys2Proof.Machine.execTimeoutNotice port rec s
  | .disableNotice port rec => Sys2Proof.Machine.execDisableNotice port rec s
  | .linkCredit port rec => Sys2Proof.Machine.execLinkCredit port rec s
  | .sync port rec edge residence => Sys2Proof.Machine.execSync port rec edge residence s
  | .delayReq port rec residence => Sys2Proof.Machine.execDelayReq port rec residence s
  | .delayResp port rec trip => Sys2Proof.Machine.execDelayResp port rec trip s
  | .syncSend port offset => Sys2Proof.Machine.execSyncSend port offset s
  | .delayReqSend port => Sys2Proof.Machine.execDelayReqSend port s
  | .syncLoss => Sys2Proof.Machine.execSyncLoss s
  | .bellRefLoss present => Sys2Proof.Machine.execBellRefLoss present s
  | .bellRefReturn => Sys2Proof.Machine.execBellRefReturn s
  | .bellSlotValue event => Sys2Proof.Machine.execBellSlotValue event s
  | .cdcTimeout crossing => Sys2Proof.Machine.execCdcTimeout crossing s
  | .crossingResync crossing => Sys2Proof.Machine.execCrossingResync crossing s
  | .laneFailed port lane tx => Sys2Proof.Machine.execLaneFailed port lane tx s
  | .fastRetrainComplete port txOk rxOk result => Sys2Proof.Machine.execFastRetrainComplete port txOk rxOk result s
  | .fullRetrainComplete port txOk rxOk far => Sys2Proof.Machine.execFullRetrainComplete port txOk rxOk far s
  | .bringupTrainingComplete port txOk rxOk far => Sys2Proof.Machine.execBringupTrainingComplete port txOk rxOk far s
  | .downPortRetry port => Sys2Proof.Machine.execDownPortRetry port s
  | .capacityTable port table => Sys2Proof.Machine.execCapacityTable port table s
  | .plannedSwitchover port => Sys2Proof.Machine.execPlannedSwitchover port s
  | .switchoverComplete port => Sys2Proof.Machine.execSwitchoverComplete port s
  | .unplannedSwitchover port => Sys2Proof.Machine.execUnplannedSwitchover port s
  | .lanternInserted lantern serial model hours first => Sys2Proof.Machine.execLanternInserted lantern serial model hours first s
  | .lanternRemoved lantern => Sys2Proof.Machine.execLanternRemoved lantern s
  | .lanternAuthentication lantern proof => Sys2Proof.Machine.execLanternAuthentication lantern proof s
  | .lanternWarmupComplete lantern levels offGrid rose => Sys2Proof.Machine.execLanternWarmupComplete lantern levels offGrid rose s
  | .lanternHealthCheck lantern levels hours => Sys2Proof.Machine.execLanternHealthCheck lantern levels hours s
  | .heartbeat worker => Sys2Proof.Machine.execHeartbeat worker s
  | .managerLost => Sys2Proof.Machine.execManagerLost s
  | .workerLost worker => Sys2Proof.Machine.execWorkerLost worker s
  | .voteBell suite => Sys2Proof.Machine.execVoteBell suite s
  | .voteTimeout job => Sys2Proof.Machine.execVoteTimeout job s
  | .haltBell suite => Sys2Proof.Machine.execHaltBell suite s
  | .takeoverTransferComplete suite ok data scale => Sys2Proof.Machine.execTakeoverTransferComplete suite ok data scale s
  | .jobRestoreComplete suite obs => Sys2Proof.Machine.execJobRestoreComplete suite obs s
  | .broadcastReplyTimeout tag => Sys2Proof.Machine.execBroadcastReplyTimeout tag s
  | .evalWindowBell event => Sys2Proof.Machine.execEvalWindowBell event s
  | .evalWindowStart suite => Sys2Proof.Machine.execEvalWindowStart suite s
  | .evalProgramsComplete suite => Sys2Proof.Machine.execEvalProgramsComplete suite s
  | .checkpointBell event => Sys2Proof.Machine.execCheckpointBell event s
  | .checkpointCopyComplete suite obs => Sys2Proof.Machine.execCheckpointCopyComplete suite obs s
  | .sliceBoundary suite => Sys2Proof.Machine.execSliceBoundary suite s
  | .gangBell event => Sys2Proof.Machine.execGangBell event s
  | .streamRelease tile st => Sys2Proof.Machine.execStreamRelease tile st s
  | .tileSaveComplete tile => Sys2Proof.Machine.execTileSaveComplete tile s
  | .resumeRestoreComplete suite obs => Sys2Proof.Machine.execResumeRestoreComplete suite obs s
  | .foldSwap tile next obs => Sys2Proof.Machine.execFoldSwap tile next obs s
  | .checkRepeatComplete tile value check => Sys2Proof.Machine.execCheckRepeatComplete tile value check s
  | .thirdRunComplete tile value check => Sys2Proof.Machine.execThirdRunComplete tile value check s
  | .resolutionTimeout tile => Sys2Proof.Machine.execResolutionTimeout tile s
  | .atticWrite faultEvent => Sys2Proof.Machine.execAtticWrite faultEvent s
  | .powerOn mv => Sys2Proof.Machine.execPowerOn mv s
  | .powerLoss => Sys2Proof.Machine.execPowerLoss s
  | .wakePin held => Sys2Proof.Machine.execWakePin held s
  | .railsInRegulation fusesOk => Sys2Proof.Machine.execRailsInRegulation fusesOk s
  | .railRegulationTimeout => Sys2Proof.Machine.execRailRegulationTimeout s
  | .firmwareVerified okA okB => Sys2Proof.Machine.execFirmwareVerified okA okB s
  | .stackTrainingComplete wing passed => Sys2Proof.Machine.execStackTrainingComplete wing passed s
  | .memoryTestComplete wing rows => Sys2Proof.Machine.execMemoryTestComplete wing rows s
  | .knownAnswerRunComplete tile result disagreed => Sys2Proof.Machine.execKnownAnswerRunComplete tile result disagreed s
  | .deviceDrainComplete => Sys2Proof.Machine.execDeviceDrainComplete s
  | .tileResetComplete tile => Sys2Proof.Machine.execTileResetComplete tile s
  | .wingDrainExpiry wing => Sys2Proof.Machine.execWingDrainExpiry wing s
  | .wingResetComplete wing => Sys2Proof.Machine.execWingResetComplete wing s
  | .suiteDrainComplete suite => Sys2Proof.Machine.execSuiteDrainComplete suite s
  | .hallWatchdog => Sys2Proof.Machine.execHallWatchdog s
  | .fwActivation => Sys2Proof.Machine.execFwActivation s
  | .fwActivationTimeout => Sys2Proof.Machine.execFwActivationTimeout s
  | .fwConfirmation => Sys2Proof.Machine.execFwConfirmation s
  | .supplyWarn mv low => Sys2Proof.Machine.execSupplyWarn mv low s
  | .supplyWarnClear durUs low => Sys2Proof.Machine.execSupplyWarnClear durUs low s
  | .dip mv durUs => Sys2Proof.Machine.execDip mv durUs s
  | .brownOut mv => Sys2Proof.Machine.execBrownOut mv s
  | .brownoutRecoveryWake => Sys2Proof.Machine.execBrownoutRecoveryWake s
  | .overvolt mv => Sys2Proof.Machine.execOvervolt mv s
  | .overvoltClear mv => Sys2Proof.Machine.execOvervoltClear mv s
  | .throttle sensor temp => Sys2Proof.Machine.execThrottle sensor temp s
  | .throttleClear => Sys2Proof.Machine.execThrottleClear s
  | .coolantHot temp => Sys2Proof.Machine.execCoolantHot temp s
  | .coolantHotClear temp => Sys2Proof.Machine.execCoolantHotClear temp s
  | .thermalShutdown sensor temp => Sys2Proof.Machine.execThermalShutdown sensor temp s
  | .thermalRecoveryWake => Sys2Proof.Machine.execThermalRecoveryWake s
  | .tileDroop tile => Sys2Proof.Machine.execTileDroop tile s
  | .tileCurrentLimit tile => Sys2Proof.Machine.execTileCurrentLimit tile s
  | .tileTempStepDown tile temp => Sys2Proof.Machine.execTileTempStepDown tile temp s
  | .tileTempStepUp tile temp => Sys2Proof.Machine.execTileTempStepUp tile temp s
  | .tileIssuePause tile temp => Sys2Proof.Machine.execTileIssuePause tile temp s
  | .telemetrySample sample => Sys2Proof.Machine.execTelemetrySample sample s
  | .sqTailDoorbell fn value => Sys2Proof.Machine.execSqTailDoorbell fn value s
  | .cqHeadDoorbell fn value => Sys2Proof.Machine.execCqHeadDoorbell fn value s
  | .ringEnable fn value => Sys2Proof.Machine.execRingEnable fn value s
  | .ringDisable fn value => Sys2Proof.Machine.execRingDisable fn value s
  | .eventPost fn => Sys2Proof.Machine.execEventPost fn s
  | .relayedPacket src tag => Sys2Proof.Machine.execRelayedPacket src tag s
  | .readyStepWrite fn suite value => Sys2Proof.Machine.execReadyStepWrite fn suite value s
  | .restart mv => Sys2Proof.Machine.execRestart mv s
  | .rcRead fn addr size => Sys2Proof.Machine.execRcRead fn addr size s
  | .loReadLatch fn addr size => Sys2Proof.Machine.execLoReadLatch fn addr size s
  | .registerWrite fn addr value size => Sys2Proof.Machine.execRegisterWrite fn addr value size s
  | .hello src tag => Sys2Proof.Machine.execHello src tag s
  | .getInfo src tag => Sys2Proof.Machine.execGetInfo src tag s
  | .wake src tag => Sys2Proof.Machine.execWake src tag s
  | .sleep src tag => Sys2Proof.Machine.execSleep src tag s
  | .reset src tag => Sys2Proof.Machine.execReset src tag s
  | .disableUnit src tag => Sys2Proof.Machine.execDisableUnit src tag s
  | .enableUnit src tag => Sys2Proof.Machine.execEnableUnit src tag s
  | .createSuite src tag => Sys2Proof.Machine.execCreateSuite src tag s
  | .deleteSuite src tag obs => Sys2Proof.Machine.execDeleteSuite src tag obs s
  | .loadImage src tag => Sys2Proof.Machine.execLoadImage src tag s
  | .bindInputs src tag => Sys2Proof.Machine.execBindInputs src tag s
  | .inputWrite src tag => Sys2Proof.Machine.execInputWrite src tag s
  | .start src tag => Sys2Proof.Machine.execStart src tag s
  | .preempt src tag => Sys2Proof.Machine.execPreempt src tag s
  | .resume src tag => Sys2Proof.Machine.execResume src tag s
  | .stop src tag => Sys2Proof.Machine.execStop src tag s
  | .jobRanks src tag => Sys2Proof.Machine.execJobRanks src tag s
  | .evalAt src tag => Sys2Proof.Machine.execEvalAt src tag s
  | .sliceSet src tag => Sys2Proof.Machine.execSliceSet src tag s
  | .checkpointAt src tag => Sys2Proof.Machine.execCheckpointAt src tag s
  | .checkpointList src tag => Sys2Proof.Machine.execCheckpointList src tag s
  | .checkpointRead src tag => Sys2Proof.Machine.execCheckpointRead src tag s
  | .checkpointWrite src tag => Sys2Proof.Machine.execCheckpointWrite src tag s
  | .digestRead src tag => Sys2Proof.Machine.execDigestRead src tag s
  | .runRecordRead src tag => Sys2Proof.Machine.execRunRecordRead src tag s
  | .managerRole src tag => Sys2Proof.Machine.execManagerRole src tag s
  | .workerAttach src tag => Sys2Proof.Machine.execWorkerAttach src tag s
  | .workerDetach src tag => Sys2Proof.Machine.execWorkerDetach src tag s
  | .spareAssign src tag => Sys2Proof.Machine.execSpareAssign src tag s
  | .expel src tag => Sys2Proof.Machine.execExpel src tag s
  | .takeover src tag => Sys2Proof.Machine.execTakeover src tag s
  | .gangAtBell src tag => Sys2Proof.Machine.execGangAtBell src tag s
  | .haltAtBell src tag => Sys2Proof.Machine.execHaltAtBell src tag s
  | .poisonNotice src tag => Sys2Proof.Machine.execPoisonNotice src tag s
  | .voteRecord src tag => Sys2Proof.Machine.execVoteRecord src tag s
  | .verdict src tag => Sys2Proof.Machine.execVerdict src tag s
  | .jobMap src tag => Sys2Proof.Machine.execJobMap src tag s
  | .records src tag => Sys2Proof.Machine.execRecords src tag s
  | .faultList src tag => Sys2Proof.Machine.execFaultList src tag s
  | .faultRead src tag => Sys2Proof.Machine.execFaultRead src tag s
  | .signatureRead src tag => Sys2Proof.Machine.execSignatureRead src tag s
  | .signatureCollect src tag => Sys2Proof.Machine.execSignatureCollect src tag s
  | .faultAck src tag => Sys2Proof.Machine.execFaultAck src tag s
  | .fwStage src tag => Sys2Proof.Machine.execFwStage src tag s
  | .fwBlock src tag => Sys2Proof.Machine.execFwBlock src tag s
  | .fwMissing src tag => Sys2Proof.Machine.execFwMissing src tag s
  | .fwActivate src tag => Sys2Proof.Machine.execFwActivate src tag s
  | .fwStatus src tag => Sys2Proof.Machine.execFwStatus src tag s
  | .bellGet src tag => Sys2Proof.Machine.execBellGet src tag s
  | .eventList src tag => Sys2Proof.Machine.execEventList src tag s
  | .bellSlotSet src tag => Sys2Proof.Machine.execBellSlotSet src tag s
  | .eventCancel src tag => Sys2Proof.Machine.execEventCancel src tag s
  | .powerInfo src tag => Sys2Proof.Machine.execPowerInfo src tag s
  | .tileClockCap src tag => Sys2Proof.Machine.execTileClockCap src tag s
  | .supplyPolicy src tag => Sys2Proof.Machine.execSupplyPolicy src tag s
  | .lanternInfo src tag => Sys2Proof.Machine.execLanternInfo src tag s
  | .lanternRelease src tag => Sys2Proof.Machine.execLanternRelease src tag s
  | .lanternCheck src tag => Sys2Proof.Machine.execLanternCheck src tag s
  | .tensorRead src tag => Sys2Proof.Machine.execTensorRead src tag s
  | .streamRead src tag => Sys2Proof.Machine.execStreamRead src tag s
  | .portRetrain src tag => Sys2Proof.Machine.execPortRetrain src tag s
  | .knownAnswer src tag => Sys2Proof.Machine.execKnownAnswer src tag s
  | .perstAssert => Sys2Proof.Machine.execPerstAssert s
  | .linkDown => Sys2Proof.Machine.execLinkDown s
  | .d3hot fn => Sys2Proof.Machine.execD3hot fn s
  | .bypass => Sys2Proof.Machine.execBypass s
  | .samplePreload pins => Sys2Proof.Machine.execSamplePreload pins s
  | .extest => Sys2Proof.Machine.execExtest s
  | .mctpControl msg => Sys2Proof.Machine.execMctpControl msg s
  | .pldmSensorRead sensor => Sys2Proof.Machine.execPldmSensorRead sensor s
  | .pldmFirmwareInventory => Sys2Proof.Machine.execPldmFirmwareInventory s
  | .pldmFirmwareUpdate offset data last => Sys2Proof.Machine.execPldmFirmwareUpdate offset data last s
  | .activateFirmware => Sys2Proof.Machine.execActivateFirmware s
  | .pollForPlatformEventMessage ackTo => Sys2Proof.Machine.execPollForPlatformEventMessage ackTo s
  | .getVersion msg => Sys2Proof.Machine.execGetVersion msg s
  | .getCapabilities msg => Sys2Proof.Machine.execGetCapabilities msg s
  | .negotiateAlgorithms msg => Sys2Proof.Machine.execNegotiateAlgorithms msg s
  | .getDigests msg => Sys2Proof.Machine.execGetDigests msg s
  | .getCertificate msg => Sys2Proof.Machine.execGetCertificate msg s
  | .challenge msg => Sys2Proof.Machine.execChallenge msg s
  | .getMeasurements msg => Sys2Proof.Machine.execGetMeasurements msg s
  | .bellEdge => Sys2Proof.Machine.execBellEdge s
  | .perstDeassert => Sys2Proof.Machine.execPerstDeassert s
  | .d0 fn => Sys2Proof.Machine.execD0 fn s
  | .hallServesAgain => Sys2Proof.Machine.execHallServesAgain s
  | .bulkCommandComplete src tag obs => Sys2Proof.Machine.execBulkCommandComplete src tag obs s
  | .droopRecovery tile => Sys2Proof.Machine.execDroopRecovery tile s
  | .issuePauseEnd tile temp => Sys2Proof.Machine.execIssuePauseEnd tile temp s
  | .atticWriteComplete => Sys2Proof.Machine.execAtticWriteComplete s
  | .cupolaMirrorCopy => Sys2Proof.Machine.execCupolaMirrorCopy s
  | .lanternMirrorRefresh => Sys2Proof.Machine.execLanternMirrorRefresh s

end Sys2Proof.Machine
end

