-- ==== Sys2Proof/Safety.lean ====
section
/-!
DEFINITION. What counts as a safe state of the block, in the terms of the statements: byte memories in their one canonical
form. Every fault of the spec is a state the block goes on in, so a safe run is one in which every step goes on.
-/
namespace Sys2Proof.Machine

/-- The stacks' memory and the host's memory stand in canonical form. -/
def memoriesCanonical (s : State) : Bool := Memory.wf s.hbm && Memory.wf s.host.mem

/-- A step has gone on: no fault and no refusal. -/
def wentOn (o : Host.Outcome State Fault Refusal) : Bool :=
  match o with
  | .next _ => true
  | .fault _ => false
  | .refused _ => false

end Sys2Proof.Machine
end

