-- ==== Sys2Proof/WellFormed.lean ====
section
/-!
DEFINITION. Which commands name things that the block has: the numbers of units (rules R12, R280, R301, R371), 32-bit words
(rule R10) and the lengths of flits and records (rules R287, R294). A command that is not well formed names nothing, and its
meaning leaves the block unchanged or treats the unit as absent.
-/
namespace Sys2Proof.WellFormed

/-- Tiles 0 to 79 (rule R12). -/
def tileOk (t : Nat) : Bool := decide (t < 80)
/-- Landings 0 to 3: IN0, IN1, OUT0, OUT1 (rule R168). -/
def landingOk (l : Nat) : Bool := decide (l < 4)
/-- Wings 0 to 7 (rule R12). -/
def wingOk (w : Nat) : Bool := decide (w < 8)
/-- Spire ports 0 to 15 (rule R12). -/
def portOk (p : Nat) : Bool := decide (p < 16)
/-- Lanterns 0 to 3 (rule R301). -/
def lanternOk (l : Nat) : Bool := decide (l < 4)
/-- Suites 0 to 7 (rule R12). -/
def suiteOk (n : Nat) : Bool := decide (n < 8)
/-- Functions 0 to 8 (rule R371). -/
def fnOk (f : Nat) : Bool := decide (f < 9)
/-- A number of 32 bits (rule R10). -/
def word32 (n : Nat) : Bool := decide (n < 2 ^ 32)
/-- Sizes of a register access in bytes (rule R10). -/
def sizeOk (n : Nat) : Bool := n == 1 || n == 2 || n == 4 || n == 8
/-- Pseudo-channels 0 to 511 (rule R237). -/
def pcOk (p : Nat) : Bool := decide (p < 512)
/-- A byte address within a pseudo-channel (rule R237). -/
def localOk (a : Nat) : Bool := decide (a < 2 ^ 31)
/-- Stream-table entries 0 to 65,535 (rule R258). -/
def entryOk (e : Nat) : Bool := decide (e < 65536)
/-- The 64 temperature sensors (rule R501). -/
def sensorOk (n : Nat) : Bool := decide (n < 64)
/-- Lanes 0 to 17 (rule R280). -/
def laneOk (l : Nat) : Bool := decide (l < 18)
/-- A mask of 18 lanes that work (rule R283). -/
def widthOk (n : Nat) : Bool := decide (n < 2 ^ 18)
/-- A flit of 536 bytes (rule R287). -/
def flitOk (f : Bytes) : Bool := decide (f.length = 536)
/-- The header and body of a DATA flit (rules R287, R293). -/
def bodyOk (b : Bytes) : Bool := decide (b.length = 524)
/-- A control record of 12 bytes (rule R294). -/
def recordOk (r : Bytes) : Bool := decide (r.length = 12)
/-- Where a command packet may come from (rules R298, R371). -/
def srcOk : Src → Bool
  | .ring f => fnOk f
  | .link p => portOk p
/-- A crossing of a unit that exists (rule R360). -/
def crossingOk : CrossingId → Bool
  | .tile t => tileOk t
  | .wing w => wingOk w
  | .spire p => portOk p
  | .network => true
  | .hall => true
  | .cupola => true
/-- At most one reading for each of the 64 sensors (rule R501). -/
def sampleOk (x : Telemetry) : Bool := decide (x.temps.length ≤ 64)

end Sys2Proof.WellFormed
namespace Sys2Proof

/-- Whether a command is well formed. -/
def Instr.wellFormed (i : Instr) : Bool :=
  open WellFormed in
  match i with
  | .nop tile _ => tileOk tile
  | .qin tile _ => tileOk tile
  | .qout tile _ => tileOk tile
  | .wait tile _ => tileOk tile
  | .waitSatisfied tile _ => tileOk tile
  | .take tile _ => tileOk tile
  | .takeComplete tile _ => tileOk tile
  | .pass tile _ => tileOk tile
  | .mm tile _ _ => tileOk tile
  | .cellSpill tile _ _ _ => tileOk tile
  | .mmPassComplete tile => tileOk tile
  | .passCheckVerdict tile _ => tileOk tile
  | .vop tile _ _ => tileOk tile
  | .vred tile _ _ => tileOk tile
  | .veCheckVerdict tile _ => tileOk tile
  | .cvt tile _ _ => tileOk tile
  | .cvtCheckVerdict tile _ => tileOk tile
  | .dig tile _ _ => tileOk tile
  | .mark tile _ => tileOk tile
  | .markDrainComplete tile _ => tileOk tile
  | .bellwait tile _ => tileOk tile
  | .bellwaitComplete tile _ => tileOk tile
  | .loop tile _ => tileOk tile
  | .instructionFetch tile _ _ _ _ => tileOk tile
  | .kernelOverrun tile _ => tileOk tile
  | .stepGateOpen tile _ => tileOk tile
  | .scaleRecordsWrite suite _ step => suiteOk suite && word32 step
  | .scaleDecision suite _ step => suiteOk suite && word32 step
  | .landingTransactionStart tile landing _ _ => tileOk tile && landingOk landing
  | .transactionComplete entry tag _ _ _ => entryOk entry && word32 tag
  | .patrolScrub pc addr _ => pcOk pc && localOk addr
  | .onlineRowRepair pc _ => pcOk pc
  | .rowRepairComplete pc _ _ => pcOk pc
  | .hbmTempReading wing _ _ => wingOk wing
  | .refreshRateChange wing => wingOk wing
  | .perBankRefresh wing _ => wingOk wing
  | .refreshManagement wing _ => wingOk wing
  | .cacheEviction wing _ _ => wingOk wing
  | .streamTimeout entry tag => entryOk entry && word32 tag
  | .inputTimeout entry tag => entryOk entry && word32 tag
  | .disableDrainExpiry entry => entryOk entry
  | .flitReceive port flit _ => portOk port && flitOk flit
  | .nak port _ => portOk port
  | .retryBudgetSpent port => portOk port
  | .dataFlit port body _ => portOk port && bodyOk body
  | .mgmtPacket port _ => portOk port
  | .credit port rec => portOk port && recordOk rec
  | .ack port rec => portOk port && recordOk rec
  | .timeoutNotice port rec => portOk port && recordOk rec
  | .disableNotice port rec => portOk port && recordOk rec
  | .linkCredit port rec => portOk port && recordOk rec
  | .sync port rec _ _ => portOk port && recordOk rec
  | .delayReq port rec _ => portOk port && recordOk rec
  | .delayResp port rec _ => portOk port && recordOk rec
  | .syncSend port _ => portOk port
  | .delayReqSend port => portOk port
  | .syncLoss => true
  | .bellRefLoss _ => true
  | .bellRefReturn => true
  | .bellSlotValue _ => true
  | .cdcTimeout crossing => crossingOk crossing
  | .crossingResync crossing => crossingOk crossing
  | .laneFailed port lane _ => portOk port && laneOk lane
  | .fastRetrainComplete port txOk rxOk _ => portOk port && widthOk txOk && widthOk rxOk
  | .fullRetrainComplete port txOk rxOk _ => portOk port && widthOk txOk && widthOk rxOk
  | .bringupTrainingComplete port txOk rxOk _ => portOk port && widthOk txOk && widthOk rxOk
  | .downPortRetry port => portOk port
  | .capacityTable port _ => portOk port
  | .plannedSwitchover port => portOk port
  | .switchoverComplete port => portOk port
  | .unplannedSwitchover port => portOk port
  | .lanternInserted lantern _ _ _ _ => lanternOk lantern
  | .lanternRemoved lantern => lanternOk lantern
  | .lanternAuthentication lantern _ => lanternOk lantern
  | .lanternWarmupComplete lantern _ _ _ => lanternOk lantern
  | .lanternHealthCheck lantern _ _ => lanternOk lantern
  | .heartbeat _ => true
  | .managerLost => true
  | .workerLost _ => true
  | .voteBell suite => suiteOk suite
  | .voteTimeout _ => true
  | .haltBell suite => suiteOk suite
  | .takeoverTransferComplete suite _ _ _ => suiteOk suite
  | .jobRestoreComplete suite _ => suiteOk suite
  | .broadcastReplyTimeout tag => word32 tag
  | .evalWindowBell _ => true
  | .evalWindowStart suite => suiteOk suite
  | .evalProgramsComplete suite => suiteOk suite
  | .checkpointBell _ => true
  | .checkpointCopyComplete suite _ => suiteOk suite
  | .sliceBoundary suite => suiteOk suite
  | .gangBell _ => true
  | .streamRelease tile _ => tileOk tile
  | .tileSaveComplete tile => tileOk tile
  | .resumeRestoreComplete suite _ => suiteOk suite
  | .foldSwap tile _ _ => tileOk tile
  | .checkRepeatComplete tile value _ => tileOk tile && word32 value
  | .thirdRunComplete tile value _ => tileOk tile && word32 value
  | .resolutionTimeout tile => tileOk tile
  | .atticWrite _ => true
  | .powerOn mv => word32 mv
  | .powerLoss => true
  | .wakePin _ => true
  | .railsInRegulation _ => true
  | .railRegulationTimeout => true
  | .firmwareVerified _ _ => true
  | .stackTrainingComplete wing _ => wingOk wing
  | .memoryTestComplete wing _ => wingOk wing
  | .knownAnswerRunComplete tile _ _ => tileOk tile
  | .deviceDrainComplete => true
  | .tileResetComplete tile => tileOk tile
  | .wingDrainExpiry wing => wingOk wing
  | .wingResetComplete wing => wingOk wing
  | .suiteDrainComplete suite => suiteOk suite
  | .hallWatchdog => true
  | .fwActivation => true
  | .fwActivationTimeout => true
  | .fwConfirmation => true
  | .supplyWarn mv low => word32 mv && word32 low
  | .supplyWarnClear _ low => word32 low
  | .dip mv _ => word32 mv
  | .brownOut mv => word32 mv
  | .brownoutRecoveryWake => true
  | .overvolt mv => word32 mv
  | .overvoltClear mv => word32 mv
  | .throttle sensor _ => sensorOk sensor
  | .throttleClear => true
  | .coolantHot _ => true
  | .coolantHotClear _ => true
  | .thermalShutdown sensor _ => sensorOk sensor
  | .thermalRecoveryWake => true
  | .tileDroop tile => tileOk tile
  | .tileCurrentLimit tile => tileOk tile
  | .tileTempStepDown tile _ => tileOk tile
  | .tileTempStepUp tile _ => tileOk tile
  | .tileIssuePause tile _ => tileOk tile
  | .telemetrySample sample => sampleOk sample
  | .sqTailDoorbell fn value => fnOk fn && word32 value
  | .cqHeadDoorbell fn value => fnOk fn && word32 value
  | .ringEnable fn value => fnOk fn && word32 value
  | .ringDisable fn value => fnOk fn && word32 value
  | .eventPost fn => fnOk fn
  | .relayedPacket src tag => srcOk src && word32 tag
  | .readyStepWrite fn suite value => fnOk fn && suiteOk suite && word32 value
  | .restart mv => word32 mv
  | .rcRead fn addr size => fnOk fn && word32 addr && sizeOk size
  | .loReadLatch fn addr size => fnOk fn && word32 addr && sizeOk size
  | .registerWrite fn addr value size => fnOk fn && word32 addr && word32 value && sizeOk size
  | .hello src tag => srcOk src && word32 tag
  | .getInfo src tag => srcOk src && word32 tag
  | .wake src tag => srcOk src && word32 tag
  | .sleep src tag => srcOk src && word32 tag
  | .reset src tag => srcOk src && word32 tag
  | .disableUnit src tag => srcOk src && word32 tag
  | .enableUnit src tag => srcOk src && word32 tag
  | .createSuite src tag => srcOk src && word32 tag
  | .deleteSuite src tag _ => srcOk src && word32 tag
  | .loadImage src tag => srcOk src && word32 tag
  | .bindInputs src tag => srcOk src && word32 tag
  | .inputWrite src tag => srcOk src && word32 tag
  | .start src tag => srcOk src && word32 tag
  | .preempt src tag => srcOk src && word32 tag
  | .resume src tag => srcOk src && word32 tag
  | .stop src tag => srcOk src && word32 tag
  | .jobRanks src tag => srcOk src && word32 tag
  | .evalAt src tag => srcOk src && word32 tag
  | .sliceSet src tag => srcOk src && word32 tag
  | .checkpointAt src tag => srcOk src && word32 tag
  | .checkpointList src tag => srcOk src && word32 tag
  | .checkpointRead src tag => srcOk src && word32 tag
  | .checkpointWrite src tag => srcOk src && word32 tag
  | .digestRead src tag => srcOk src && word32 tag
  | .runRecordRead src tag => srcOk src && word32 tag
  | .managerRole src tag => srcOk src && word32 tag
  | .workerAttach src tag => srcOk src && word32 tag
  | .workerDetach src tag => srcOk src && word32 tag
  | .spareAssign src tag => srcOk src && word32 tag
  | .expel src tag => srcOk src && word32 tag
  | .takeover src tag => srcOk src && word32 tag
  | .gangAtBell src tag => srcOk src && word32 tag
  | .haltAtBell src tag => srcOk src && word32 tag
  | .poisonNotice src tag => srcOk src && word32 tag
  | .voteRecord src tag => srcOk src && word32 tag
  | .verdict src tag => srcOk src && word32 tag
  | .jobMap src tag => srcOk src && word32 tag
  | .records src tag => srcOk src && word32 tag
  | .faultList src tag => srcOk src && word32 tag
  | .faultRead src tag => srcOk src && word32 tag
  | .signatureRead src tag => srcOk src && word32 tag
  | .signatureCollect src tag => srcOk src && word32 tag
  | .faultAck src tag => srcOk src && word32 tag
  | .fwStage src tag => srcOk src && word32 tag
  | .fwBlock src tag => srcOk src && word32 tag
  | .fwMissing src tag => srcOk src && word32 tag
  | .fwActivate src tag => srcOk src && word32 tag
  | .fwStatus src tag => srcOk src && word32 tag
  | .bellGet src tag => srcOk src && word32 tag
  | .eventList src tag => srcOk src && word32 tag
  | .bellSlotSet src tag => srcOk src && word32 tag
  | .eventCancel src tag => srcOk src && word32 tag
  | .powerInfo src tag => srcOk src && word32 tag
  | .tileClockCap src tag => srcOk src && word32 tag
  | .supplyPolicy src tag => srcOk src && word32 tag
  | .lanternInfo src tag => srcOk src && word32 tag
  | .lanternRelease src tag => srcOk src && word32 tag
  | .lanternCheck src tag => srcOk src && word32 tag
  | .tensorRead src tag => srcOk src && word32 tag
  | .streamRead src tag => srcOk src && word32 tag
  | .portRetrain src tag => srcOk src && word32 tag
  | .knownAnswer src tag => srcOk src && word32 tag
  | .perstAssert => true
  | .linkDown => true
  | .d3hot fn => fnOk fn
  | .bypass => true
  | .samplePreload _ => true
  | .extest => true
  | .mctpControl _ => true
  | .pldmSensorRead _ => true
  | .pldmFirmwareInventory => true
  | .pldmFirmwareUpdate _ _ _ => true
  | .activateFirmware => true
  | .pollForPlatformEventMessage _ => true
  | .getVersion _ => true
  | .getCapabilities _ => true
  | .negotiateAlgorithms _ => true
  | .getDigests _ => true
  | .getCertificate _ => true
  | .challenge _ => true
  | .getMeasurements _ => true
  | .bellEdge => true
  | .perstDeassert => true
  | .d0 fn => fnOk fn
  | .hallServesAgain => true
  | .bulkCommandComplete src tag _ => srcOk src && word32 tag
  | .droopRecovery tile => tileOk tile
  | .issuePauseEnd tile _ => tileOk tile
  | .atticWriteComplete => true
  | .cupolaMirrorCopy => true
  | .lanternMirrorRefresh => true

end Sys2Proof
end

