-- ==== Sys2Proof/Certificates/Slice0/Obligations.lean ====
section
/-!
DEFINITION. The statements for the provers: one `Obligations.<Name>` each, and the abbreviations they are written with, in `Sys2Proof.Says`.
-/
namespace Sys2Proof.Says
end Sys2Proof.Says
open Sys2Proof Sys2Proof.Machine Sys2Proof.Says

namespace Sys2Proof.Says

/-- Stream `k` of tile `t` stands ready at word `w`, which decodes to `i`. -/
abbrev issues (s : State) (t : Nat) (k : KStream) (i : KInst) (w : Nat) : Prop :=
  streamLive s t k = true ∧ (getStream s t k).phase = .ready ∧ (getStream s t k).haltPending = false
    ∧ fetchWord s t k = some w ∧ decodeKernel w = i

/-- Nothing but tile `t` has changed. -/
abbrev onlyTile (s u : State) (t : Nat) : Prop :=
  u = { s with tiles := u.tiles } ∧ ∀ x, x ≠ t → getTile u x = getTile s x

/-- Of tile `t`, only stream `k` has changed, and it is now `x`. -/
abbrev streamBecomes (s u : State) (t : Nat) (k : KStream) (x : KState) : Prop :=
  onlyTile s u t ∧ getTile u t = { getTile s t with core := (getTile s t).core.setStream k x }

/-- Of tile `t`, only stream `k` and token `tok` have changed. -/
abbrev streamAndToken (s u : State) (t : Nat) (k : KStream) (x : KState) (tok : Nat) (v : TokenState) : Prop :=
  onlyTile s u t ∧ getTile u t = { getTile s t with
    core := { (getTile s t).core with tokens := (getTile s t).core.tokens.set tok v }.setStream k x }

end Sys2Proof.Says

/-- `nop`, a satisfied `wait`, a `pass`, a free `take` and a `bellwait` whose target has come take the stream to its next instruction and change
nothing but the tile; a `take` of a held token, a `wait` not satisfied, a `mark` and a `bellwait` before its target leave the stream where
it is, with the stall code of what it waits for (rules R126, R129, R173, R178, R182, R189). -/
def Obligations.ControlInstructionsMoveOnOrStall : Prop :=
  (∀ (s : State) (t : Nat) (k : KStream) (w : Nat),
      (issues s t k .nop w →
        ∃ u, exec (.nop t k) s = .next u ∧ streamBecomes s u t k (advanceState (getStream s t k)))
      ∧ (∀ sel n, issues s t k (.wait sel n) w → holds s t k (waitToken sel) = true → waitDone s t k sel n = true →
        ∃ u, exec (.wait t k) s = .next u ∧ streamBecomes s u t k (advanceState (getStream s t k)))
      ∧ (∀ sel n, streamLive s t k = true → (getStream s t k).phase = .waiting sel n → waitDone s t k sel n = true →
        ∃ u, exec (.waitSatisfied t k) s = .next u ∧ streamBecomes s u t k (advanceState (getStream s t k)))
      ∧ (∀ x tok, issues s t k (.pass x tok) w → holds s t k tok = true → streamOfCode x ≠ k →
        ∃ u, exec (.pass t k) s = .next u
          ∧ streamAndToken s u t k (advanceState (getStream s t k)) tok (.transit (streamOfCode x)))
      ∧ (∀ tok, streamLive s t k = true → (getStream s t k).phase = .taking tok →
          (getTile s t).core.tokens.getD tok .none = .transit k → tokenIdle s t tok = true →
        ∃ u, exec (.takeComplete t k) s = .next u
          ∧ streamAndToken s u t k (advanceState (getStream s t k)) tok (.held k))
      ∧ (∀ slot target, streamLive s t k = true → (getStream s t k).phase = .bellWaiting slot target →
          bellTarget s t slot target ≤ s.bell.count →
        ∃ u, exec (.bellwaitComplete t k) s = .next u ∧ onlyTile s u t
          ∧ (getStream u t k).pc = (advanceState (getStream s t k)).pc ∧ (getStream u t k).phase = .ready
          ∧ (getStream u t k).waitedBells = (getStream s t k).waitedBells + (s.bell.count - (getStream s t k).waitFrom)))
  ∧ (∀ (s : State) (t : Nat) (k : KStream) (w : Nat),
      (∀ sel n, issues s t k (.wait sel n) w → holds s t k (waitToken sel) = true → waitDone s t k sel n = false →
        ∃ u, exec (.wait t k) s = .next u
          ∧ streamBecomes s u t k { getStream s t k with phase := .waiting sel n, stall := 3 })
      ∧ (∀ tok, issues s t k (.take tok) w → holds s t k tok = false →
        ∃ u, exec (.take t k) s = .next u
          ∧ streamBecomes s u t k { getStream s t k with phase := .taking tok, stall := 1 })
      ∧ (∀ last d kn, issues s t k (.mark last d kn) w →
        ∃ u, exec (.mark t k) s = .next u
          ∧ streamBecomes s u t k { getStream s t k with phase := .draining, stall := 3 })
      ∧ (∀ offset n, issues s t k (.bellwait false 0 offset) w → (getStream s t k).leading = true →
          (getTile s t).suite = some n → (getSuite s n).slice.stopping = false →
          s.bell.count < (getStream s t k).openBell + offset →
        ∃ u, exec (.bellwait t k) s = .next u ∧ onlyTile s u t
          ∧ (getStream u t k).phase = .bellWaiting none ((getStream s t k).openBell + offset)
          ∧ (getStream u t k).stall = 4 ∧ (getStream u t k).pc = (getStream s t k).pc)
      ∧ (∀ slot offset n, issues s t k (.bellwait true slot offset) w → (getStream s t k).leading = true →
          (getTile s t).suite = some n → (getSuite s n).slice.stopping = false →
        ∃ u, exec (.bellwait t k) s = .next u ∧ onlyTile s u t
          ∧ ((getStream u t k).stall = 4 ↔ ¬ SMap.get (2 ^ 64 - 1) (getSuite s n).slots slot ≤ s.bell.count)))

/-- `loop` opens one more depth, at most four, whose body is the next BODY instructions; at the end of the innermost body the stream goes back
to its first instruction until TRIP iterations have run, and then leaves it (rule R183). INSTRUCTION_FETCH brings words into the stream's
buffer, which never holds more than 8,192, and releases a fetch stall; MARK_DRAIN_COMPLETE of a mark that is not the last opens its kernel,
counts its occurrence and lets a `bellwait` follow; STEP_GATE_OPEN lets a stream past its gate (rules R165, R177 to R179). -/
def Obligations.LoopsFetchesAndGatesGoOn : Prop :=
  (∀ (s : State) (t : Nat) (k : KStream) (w : Nat),
      (∀ trip body, issues s t k (.loop trip body) w → (getStream s t k).loops = [] →
        ∃ u, exec (.loop t k) s = .next u ∧ onlyTile s u t
          ∧ (getStream u t k).pc = (getStream s t k).pc + 1
          ∧ (getStream u t k).loops = [⟨(getStream s t k).pc + 1, (getStream s t k).pc + 1 + body, trip, 0⟩])
      ∧ (∀ trip body f, issues s t k (.loop trip body) w → (getStream s t k).loops.getLast? = some f →
          (getStream s t k).loops.length < 4 → (getStream s t k).pc + 1 + body ≤ f.last →
        ∃ u, exec (.loop t k) s = .next u ∧ onlyTile s u t
          ∧ (getStream u t k).pc = (getStream s t k).pc + 1
          ∧ (getStream u t k).loops
              = (getStream s t k).loops ++ [⟨(getStream s t k).pc + 1, (getStream s t k).pc + 1 + body, trip, 0⟩])
      ∧ (∀ trip body, issues s t k (.loop trip body) w → 4 ≤ (getStream s t k).loops.length →
        exec (.loop t k) s = .next (keepRestored s (faultStream s t k .illegal w) t))
      ∧ (∀ (x : KState), x.loops = [] → (advanceState x).pc = x.pc + 1 ∧ (advanceState x).loops = [])
      ∧ (∀ (x : KState) (fs : List LoopFrame) (f : LoopFrame), x.loops = fs ++ [f] → f.last ≠ x.pc + 1 →
        (advanceState x).pc = x.pc + 1 ∧ (advanceState x).loops = x.loops)
      ∧ (∀ (x : KState) (fs : List LoopFrame) (f : LoopFrame), x.loops = fs ++ [f] → f.last = x.pc + 1 → f.idx + 1 < f.trip →
        (advanceState x).pc = f.first ∧ (advanceState x).loops = fs ++ [{ f with idx := f.idx + 1 }])
      ∧ (∀ (x : KState) (fs : List LoopFrame) (f : LoopFrame), x.loops = fs ++ [f] → f.last = x.pc + 1 → f.trip ≤ f.idx + 1 →
        (advanceState x).loops = (advanceState { x with loops := fs }).loops
        ∧ (advanceState x).pc = (advanceState { x with loops := fs }).pc))
  ∧ (∀ (s : State) (t : Nat) (k : KStream) (n : Nat), (getTile s t).suite = some n →
      (∀ words, t < 80 → 0 < words → (getStream s t k).loops = [] → (getStream s t k).bufLo ≤ (getStream s t k).pc →
          (getStream s t k).pc ≤ (getStream s t k).bufHi → words ≤ 4096 → (getStream s t k).bufHi ≤ (getStream s t k).pc + 4096 →
        ∃ u, exec (.instructionFetch t k words [] []) s = .next u ∧ onlyTile s u t
          ∧ (getStream u t k).bufHi = min ((getStream s t k).bufHi + words) (tileProgram s t k).instrs.length
          ∧ (getStream u t k).bufLo ≤ (getStream s t k).pc
          ∧ ((getStream s t k).bufHi ≤ (getStream s t k).bufLo + 8192 → (getStream u t k).bufHi ≤ (getStream u t k).bufLo + 8192)
          ∧ ((getStream s t k).stall = 6 → (getStream u t k).stall = 0))
      ∧ (∀ w d kn, (getStream s t k).phase = .draining → fetchWord s t k = some w → decodeKernel w = .mark false d kn →
          streamLive s t k = true → streamDrained s t k = true → (getStream s t k).cutWait = false →
          (getStream s t k).haltPending = false → (getSuite s n).slice.stopping = false → isCut s t k kn = false →
        ∃ u, exec (.markDrainComplete t k) s = .next u
          ∧ (getStream u t k).kernel = some kn ∧ (getStream u t k).duration = d ∧ (getStream u t k).flags = {}
          ∧ (getStream u t k).openBell = s.bell.count ∧ (getStream u t k).phase = .ready ∧ (getStream u t k).leading = true
          ∧ (getStream u t k).occurrence = SMap.get 0 (getStream s t k).seen kn
          ∧ SMap.get 0 (getStream u t k).seen kn = SMap.get 0 (getStream s t k).seen kn + 1)
      ∧ (tileRuns s t = true → (getStream s t k).halted = false → (getStream s t k).fault = 0 →
          (getStream s t k).phase = .atGate → (getSuite s n).state = .running → gateOpen s n k (getStream s t k).step = true →
          (getSuite s n).job.snapshot = false →
        ∃ u, exec (.stepGateOpen t k) s = .next u
          ∧ (getStream u t k).phase = .ready ∧ (getStream u t k).stall = 0 ∧ (getStream u t k).step = (getStream s t k).step))

/-- A `qin` or `qout` that holds its landing's token, and for the BANK layout its bank's, and passes every check is queued behind the
transfers of its landing while fewer than 16 are queued; a full queue stalls the stream with STALL 2 (rules R127, R168, R171). -/
def Obligations.TransfersAreQueued : Prop :=
  ∀ (s : State) (t : Nat) (k : KStream) (w : Nat) (q : QOp) (c : Ctx) (tr : Transfer),
    issues s t k (.q q) w → ctxOf s t k = some c →
    (∀ d, q.layout = 2 → needDesc (tileProgram s t k).descs q.tsDesc 2 = .ok d →
      holds s t k (tokBK ((descEff d (getStream s t k).loops).toNat / 16384 % 4)) = true) →
    queueCheck s c t (tileProgram s t k) (getStream s t k).loops k q = .ok (some tr) →
    (q.out = false → holds s t k (landingToken (q.landing)) = true →
      ((getLanding s t (q.landing)).queue.length < 16 →
        ∃ u, exec (.qin t k) s = .next u ∧ onlyTile s u t
          ∧ (getLanding u t (q.landing)).queue = (getLanding s t (q.landing)).queue ++ [tr]
          ∧ (∀ m, m ≠ q.landing → getLanding u t m = getLanding s t m)
          ∧ getStream u t k = advanceState (getStream s t k))
      ∧ (16 ≤ (getLanding s t (q.landing)).queue.length →
        ∃ u, exec (.qin t k) s = .next u ∧ streamBecomes s u t k { getStream s t k with stall := 2 }))
    ∧
    (q.out = true → holds s t k (landingToken (q.landing + 2)) = true →
      ((getLanding s t (q.landing + 2)).queue.length < 16 →
        ∃ u, exec (.qout t k) s = .next u ∧ onlyTile s u t
          ∧ (getLanding u t (q.landing + 2)).queue = (getLanding s t (q.landing + 2)).queue ++ [tr]
          ∧ (∀ m, m ≠ q.landing + 2 → getLanding u t m = getLanding s t m)
          ∧ getStream u t k = advanceState (getStream s t k))
      ∧ (16 ≤ (getLanding s t (q.landing + 2)).queue.length →
        ∃ u, exec (.qout t k) s = .next u ∧ streamBecomes s u t k { getStream s t k with stall := 2 }))

/-- `mm` puts one pass into the matrix engine, for the bank, the rows and columns and the mode that it names, and leaves every bank as it was:
the cells reach the bank as they spill. While an earlier landing merge or outbound read of the bank is outstanding, it does not issue. CELL_SPILL moves one cell of the oldest pass into its entry and compares its two adders;
MM_PASS_COMPLETE spills the rest, takes the pass out and leaves its verdict to come (rules R114, R118, R121, R196). -/
def Obligations.MatrixPassesSpillIntoTheirBank : Prop :=
  ∀ (s : State) (t : Nat) (k : KStream),
    (∀ w o c u, issues s t k (.mm o) w → ctxOf s t k = some c → holdsAll s t k [tokME, tokBK o.bank] = true →
        mmSetup s c (tileProgram s t k) (getStream s t k).loops o = .ok (some u) →
        bankMerges s t o.bank = [] → bankReads s t o.bank = [] →
      ∃ r p, exec (.mm t k []) s = .next r ∧ (getTile r t).passes = (getTile s t).passes ++ [p]
        ∧ p.bank = o.bank ∧ p.m = u.p.m ∧ p.n = u.p.n ∧ p.start = !o.acc ∧ p.issuer = k ∧ p.begun = false
        ∧ (getTile r t).core.banks = (getTile s t).core.banks ∧ (getTile r t).core.store = (getTile s t).core.store
        ∧ getStream r t k = advanceState (getStream s t k)
        ∧ r = { s with tiles := r.tiles, suites := r.suites })
    ∧ (∀ w o c ecc, issues s t k (.mm o) w → ctxOf s t k = some c → holdsAll s t k [tokME, tokBK o.bank] = true →
        programLost ecc = true → exec (.mm t k ecc) s = .next (keepRestored s (faultStream s t k .ifetchEcc w) t))
    ∧ (∀ w o c u ecc, issues s t k (.mm o) w → ctxOf s t k = some c → holdsAll s t k [tokME, tokBK o.bank] = true → programLost ecc = false →
        mmSetup s c (tileProgram s t k) (getStream s t k).loops o = .ok (some u) → bankMerges s t o.bank ≠ [] ∨ bankReads s t o.bank ≠ [] →
      exec (.mm t k ecc) s = .next s)
    ∧ (∀ p ps cell dup, (getTile s t).passes = p :: ps → SMap.has p.cells cell = true →
      ∃ r q, exec (.cellSpill t cell dup []) s = .next r ∧ onlyTile s r t ∧ (getTile r t).passes = q :: ps
        ∧ q.cells = SMap.erase p.cells cell ∧ q.begun = true ∧ q.spillMismatch = (p.spillMismatch || decide (dup ≠ 0))
        ∧ q.lhs = p.lhs ∧ q.rhs = p.rhs
        ∧ (getTile r t).core = spillCell (beginPass (getTile s t).core p) p.bank cell (SMap.get {} p.cells cell))
    ∧ (∀ p ps, (getTile s t).passes = p :: ps →
      ∃ r v, exec (.mmPassComplete t) s = .next r ∧ onlyTile s r t ∧ (getTile r t).passes = ps
        ∧ (getTile r t).verdicts = (getTile s t).verdicts ++ [v]
        ∧ v.checker = .me ∧ v.issuer = p.issuer ∧ v.lhs = p.lhs ∧ v.rhs = p.rhs ∧ v.mismatch = p.spillMismatch
        ∧ (getTile r t).core.banks = (spillAll (getTile s t).core p).banks)

/-- A matrix pass is accepted when its two residues modulo 2^61 − 1 and its spill adders agree; a difference of either kind is a disagreement
with cause 0x0100 or 0x0101. The vector and conversion checks disagree with causes 0x0102, 0x0103 and 0x0104. A disagreement of any cause halts
every stream of the tile, is counted, and writes one record with its cause; one whose addends are not kept (causes 0x0101, 0x0102, 0x0105) is
then resolved at once, as UNRESOLVED, and any other waits for its repeat (rules R120 to R122, R159 to R161, R211, R448, R452, R453). -/
def Obligations.VerdictsAcceptOrHaltTheTile : Prop :=
  (∀ (s : State) (t : Nat) (v : Verdict) (err : Int),
      (nextVerdict s t .me = some v →
        (v.mismatch = false → residue ((v.lhs : Int) + err) = v.rhs →
          exec (.passCheckVerdict t err) s = .next (settleAll (dropVerdict s t v.id)))
        ∧ (v.mismatch = false → residue ((v.lhs : Int) + err) ≠ v.rhs →
          exec (.passCheckVerdict t err) s
            = .next (settleAll (disagree (dropVerdict s t v.id) t v.issuer 0x0100 v.place [residue ((v.lhs : Int) + err), v.rhs])))
        ∧ (v.mismatch = true →
          exec (.passCheckVerdict t err) s
            = .next (settleAll (disagree (dropVerdict s t v.id) t v.issuer 0x0101 v.place [residue ((v.lhs : Int) + err), v.rhs]))))
      ∧ (nextVerdict s t .ve = some v →
        (v.mismatch = false → exec (.veCheckVerdict t .agree) s = .next (settleAll (dropVerdict s t v.id)))
        ∧ (v.mismatch = true → exec (.veCheckVerdict t .agree) s
            = .next (settleAll (disagree (dropVerdict s t v.id) t v.issuer 0x0102 v.place [])))
        ∧ (∀ a, exec (.veCheckVerdict t (.lane a a)) s = .next (settleAll (dropVerdict s t v.id)))
        ∧ (exec (.veCheckVerdict t .reduction) s = .next (settleAll (disagree (dropVerdict s t v.id) t v.issuer 0x0102 v.place [])))
        ∧ (∀ a b, a ≠ b → exec (.veCheckVerdict t (.lane a b)) s
            = .next (settleAll (disagree (dropVerdict s t v.id) t v.issuer 0x0103 v.place [a, b]))))
      ∧ (nextVerdict s t .cu = some v →
        (v.mismatch = false → exec (.cvtCheckVerdict t .agree) s = .next (settleAll (dropVerdict s t v.id)))
        ∧ (v.mismatch = true → exec (.cvtCheckVerdict t .agree) s
            = .next (settleAll (disagree (dropVerdict s t v.id) t v.issuer 0x0104 v.place [])))
        ∧ (∀ a, exec (.cvtCheckVerdict t (.lane a a)) s = .next (settleAll (dropVerdict s t v.id)))
        ∧ (∀ a b, a ≠ b → exec (.cvtCheckVerdict t (.lane a b)) s
            = .next (settleAll (disagree (dropVerdict s t v.id) t v.issuer 0x0104 v.place [a, b]))))
      ∧ (∀ d : Int, d % (2 ^ 61 - 1) ≠ 0 → residue ((v.lhs : Int) + err + d) ≠ residue ((v.lhs : Int) + err)))
  ∧ (∀ (s : State) (t : Nat) (k : KStream) (cause : Nat) (p : OpPlace) (vals : List Nat), ∃ u r,
      disagree s t k cause p vals = (if cause = 0x0101 ∨ cause = 0x0102 ∨ cause = 0x0105 then finishResolution u r clsUnresolved vals else u)
        ∧ (∀ j, getStream u t j = haltStream (getStream s t j))
        ∧ (getTile u t).counts.disagreements = satInc 16 (getTile s t).counts.disagreements
        ∧ u.faults.last.cause = cause ∧ u.faults.last.index = s.faults.next ∧ u.faults.next = (s.faults.next + 1) % 2 ^ 32
        ∧ u.faults.resolutions = s.faults.resolutions ++ [r]
        ∧ r.tile = t ∧ r.cause = cause ∧ r.record = s.faults.next ∧ r.suite = p.suite ∧ r.step = p.step
        ∧ r.value = vals.getD 0 0 ∧ r.check = vals.getD 1 0)

namespace Sys2Proof.Says

/-- What a vector instruction stands on: its token, its record, the bank its record names, and the lanes it acts on. -/
abbrev vectorReady (s : State) (t : Nat) (k : KStream) (w vrec mask c : Nat) (sr external : Bool) (cx : Ctx)
    (v : VCtx) (bank : Option (Nat × Nat)) : Prop :=
  ctxOf s t k = some cx ∧ holds s t k tokVE = true
    ∧ vecSetup (tileProgram s t k) (getStream s t k).loops vrec = .ok (v.vr, v.hasRec, v.coords)
    ∧ recBank (tileProgram s t k) (getStream s t k).loops v.vr external = .ok bank
    ∧ (bank = none ∨ ∃ b e, bank = some (b, e) ∧ holds s t k (tokBK b) = true ∧ (external = true → bankBusy s t b = false))
    ∧ v = { ctx := cx, prog := tileProgram s t k, loops := (getStream s t k).loops,
            tile := getTile (eccRead s t k (placeOf s t k w) []) t, vr := v.vr, hasRec := v.hasRec, pw := [], coords := v.coords, sr := sr,
            act := activeLanes (getTile (eccRead s t k (placeOf s t k w) []) t) mask c }

end Sys2Proof.Says

/-- A `vop` or `vred` that holds VE and its bank's token and passes its checks has its effect, raises the flags it met, leaves a verdict to come
(a `vred` only at a READ), and the stream moves on; without the VE token it faults with OWNERSHIP (rules R127, R132, R201, R204). -/
def Obligations.VectorInstructionsComplete : Prop :=
  ∀ (s : State) (t : Nat) (k : KStream) (w : Nat) (cx : Ctx) (v : VCtx) (bank : Option (Nat × Nat)) (r : Written),
    (∀ o : VopOp, issues s t k (.vop o) w →
      vectorReady s t k w o.vrec o.mask o.c o.sr (!(vopFromMask o.op) && (o.sa == 32 || o.sb == 32 || o.sc == 32)) cx v bank →
      vopEffect (eccRead s t k (placeOf s t k w) []) t v o bank = .ok (some r) →
      exec (.vop t k []) s = .next (keepRestored s (advance (addVerdict (raiseFlags r.s t k r.f) t
        { checker := .ve, issuer := k, place := placeOf s t k w }) t k) t))
    ∧ (∀ o : VredOp, issues s t k (.vred o) w →
      vectorReady s t k w o.vrec o.mask o.c o.sr (o.src == 32) cx v bank →
      vredEffect (eccRead s t k (placeOf s t k w) []) t v o bank = .ok (some r) →
      exec (.vred t k []) s = .next (keepRestored s (advance (if o.vmode = 2 then addVerdict (raiseFlags r.s t k r.f) t
        { checker := .ve, issuer := k, mismatch := unitMismatch (SMap.get {} (getTile s t).units o.unit), place := placeOf s t k w }
        else raiseFlags r.s t k r.f) t k) t))
    ∧ (∀ o : VopOp, issues s t k (.vop o) w → ctxOf s t k = some cx → holds s t k tokVE = false →
      exec (.vop t k []) s = .next (keepRestored s (faultStream s t k .ownership w) t))

/-- `cvt` leaves the stream at its next instruction with one verdict to come, and with CLR set its bank all zero and unset; `dig` adds the hash
of every block it names to the content digest of the tensor for the step, modulo 2^128, and changes no byte of the tile store (rules R209,
R210, R213). -/
def Obligations.ConversionsAndDigestsComplete : Prop :=
  ∀ (s : State) (t : Nat) (k : KStream) (w : Nat) (c : Ctx), ctxOf s t k = some c → holds s t k tokCU = true →
    (∀ o u, issues s t k (.cvt o) w → cvtSetup s c (tileProgram s t k) (getStream s t k).loops o = .ok (some u) →
        (∀ b, cvtBank (tileProgram s t k) (getStream s t k).loops o = some b → holds s t k (tokBK b) = true ∧ bankBusy s t b = false) →
        (o.clr = true → bankReads s t ((cvtBank (tileProgram s t k) (getStream s t k).loops o).getD 0) = []) →
      ∃ r v, exec (.cvt t k []) s = .next r ∧ (getTile r t).verdicts = (getTile s t).verdicts ++ [v]
        ∧ v.checker = .cu ∧ v.issuer = k ∧ (getStream r t k).pc = (advanceState (getStream s t k)).pc
        ∧ (∀ b, cvtBank (tileProgram s t k) (getStream s t k).loops o = some b → o.clr = true → getBank (getTile r t).core b = {})
        ∧ (o.clr = false → (getTile r t).core.banks = (getTile s t).core.banks)
        ∧ r = { s with tiles := r.tiles, suites := r.suites } ∧ ∀ x, x ≠ t → getTile r x = getTile s x)
    ∧ (∀ count sd cd d rr, issues s t k (.dig count sd cd) w → c.eval = false →
        needDesc (tileProgram s t k).descs sd 0 = .ok d → needRec (tileProgram s t k).coords cd = .ok rr →
        d.tensor ≠ 0xFFFFFF → (ctxTensor c d.tensor).isSome = true → rr.tensor = d.tensor → rr.w = 1 → rr.pitch = 0 →
        descEff d (getStream s t k).loops % 64 = 0 → 0 ≤ descEff d (getStream s t k).loops →
        descEff d (getStream s t k).loops + (64 * count : Nat) ≤ 0x800000 →
      ∃ r, exec (.dig t k []) s = .next r ∧ (getTile r t).core.store = (getTile s t).core.store
        ∧ getStream r t k = advanceState (getStream s t k)
        ∧ SMap.get 0 (SMap.get {} (getSuite r c.suite).steps c.step).content d.tensor
            = (SMap.get 0 (SMap.get {} (getSuite s c.suite).steps c.step).content d.tensor
              + (List.range count).foldl (fun acc i => (acc + blockHash
                  (hashedBytes (ctxTensor c d.tensor) ((coordEff rr (getStream s t k).loops).toNat + i) (Memory.readN (getTile s t).core.store
                    ((descEff d (getStream s t k).loops).toNat + 64 * i) 64))
                  d.tensor ((coordEff rr (getStream s t k).loops).toNat + i)) % 2 ^ 128) 0)
              % 2 ^ 128
        ∧ r = { s with tiles := r.tiles, suites := r.suites, free := r.free })

/-- The complete records of a tensor's step enter the ring of its scale table entry once, where the tensor is in no shared domain or its merged
records have come, and the write scale of step u is decided once the records of step u - 2, and for ADAPT also of step u - 1, stand; both leave everything but the suite alone (rules R91, R97, R98). -/
def Obligations.ScaleRecordsAndDecisionsFollow : Prop :=
  ∀ (s : State) (n tensor step : Nat), (getSuite s n).state ≠ .absent → SMap.has (getSuite s n).scale tensor = true →
    ((SMap.get {} (getSuite s n).steps step).complete = true → (SMap.get {} (getSuite s n).steps step).written.contains tensor = false →
        ((domainTensors (getSuite s n)).contains tensor = false ∨ SMap.has (SMap.get {} (getSuite s n).steps step).merged tensor = true) →
      ∃ u, exec (.scaleRecordsWrite n tensor step) s = .next u ∧ u = { s with suites := u.suites }
        ∧ (SMap.get {} (getSuite u n).steps step).written = (SMap.get {} (getSuite s n).steps step).written ++ [tensor]
        ∧ (getSuite u n).state = (getSuite s n).state ∧ ∀ m, m ≠ n → getSuite u m = getSuite s m)
    ∧ (∀ e, SMap.get e (getSuite s n).scale tensor = e →
        e.managed = true → 2 ≤ step → e.decidedStep + 1 = step →
        recordsStand (getSuite s n) tensor (step - 2) = true → (e.adapt = true → recordsStand (getSuite s n) tensor (step - 1) = true) →
      ∃ u, exec (.scaleDecision n tensor step) s = .next u ∧ u = { s with suites := u.suites }
        ∧ SMap.get e (getSuite u n).scale tensor = (e.decideStep step).1
        ∧ ∀ m, m ≠ n → getSuite u m = getSuite s m)

/-- A landing that may start its next transaction takes the entry's next tag, modulo 2^32, and holds one more of its 256 credits; the
transaction is in flight on the entry from then on (rules R168, R171, R252, R264). -/
def Obligations.LandingTransactionsTakeTagsInOrder : Prop :=
  ∀ (s : State) (t l : Nat) (tr : Transfer),
    t < 80 → l < 4 → nextTransfer (getLanding s t l) = some tr → (getTile s t).suite.isSome = true →
    (getTile s t).health.inReset = false → (getTile s t).health.disabled = false → (getTile s t).cdcHeld = false →
    mayStart s t (getLanding s t l) tr = true →
    (nextPcs s t tr).all (fun p => !(getWing s (p / 64)).inReset) = true → (nextPcs s t tr).any (fun p => unitOff s 3 p) = false →
    ∃ u x, exec (.landingTransactionStart t l [] []) s = .next u
      ∧ (getLanding u t l).creditsUsed = (getLanding s t l).creditsUsed + 1 ∧ (getLanding u t l).creditsUsed ≤ 256
      ∧ (getEntry u tr.entry).seqNext = ((getEntry s tr.entry).seqNext + 1) % 2 ^ 32
      ∧ (getEntry u tr.entry).inFlight = (getEntry s tr.entry).inFlight ++ [x]
      ∧ x.tag = (getEntry s tr.entry).seqNext ∧ x.tile = t ∧ x.landing = l ∧ x.index = tr.started
      ∧ (getEntry u tr.entry).inFlight.length ≤ 32 ∧ u.hbm = s.hbm ∧ (getTile u t).core = (getTile s t).core

/-- A memory write completes by putting its 512 bytes at its suite-relative address and nowhere else, and leaves the entry's transactions
without its tag; a LINEAR memory read without an ECC finding puts the 512 bytes of its address into the tile store and changes no byte of
memory (rules R168, R172, R237). -/
def Obligations.MemoryTransactionsMoveTheirBytes : Prop :=
  ∀ (s : State) (e tag a : Nat) (txn : Txn), e < 65536 → (getEntry s e).state = .bound → (getEntry s e).type = typeMemory →
    (getEntry s e).inFlight.find? (fun t => t.tag == tag) = some txn → memoryAddr s (getEntry s e) txn = some a →
    (getEntry s e).draining = false → txn.lost = none →
    (∀ obs dup ecc, (getEntry s e).outbound = true →
      ∃ u, exec (.transactionComplete e tag obs dup ecc) s = .next u
        ∧ u.hbm = (suiteSetBytes s (getEntry s e).suite a txn.data).hbm
        ∧ (∀ t ∈ (getEntry u e).inFlight, t.tag ≠ tag))
    ∧ (∀ tr dup ecc, (getEntry s e).outbound = false →
        transferOf s txn = some tr → tr.layout = 0 →
      ∃ u, exec (.transactionComplete e tag [] dup ecc) s = .next u ∧ u.hbm = s.hbm
        ∧ (getTile u txn.tile).core.store = Memory.writeN (getTile s txn.tile).core.store (tr.tsBase + 512 * txn.index)
            (suiteBytes s (getEntry s e).suite a 512)
        ∧ (∀ t ∈ (getEntry u e).inFlight, t.tag ≠ tag))

/-- A suite's addresses are spread over its pseudo-channels without overlap: two addresses never share a place, every place lies within the
capacity of a pseudo-channel of the suite, and an address has a place exactly when it is below the suite's size (rule R237). -/
def Obligations.SuiteAddressesNeverShareAPlace : Prop :=
  ∀ (pcs : List Nat) (c : Nat), pcs.Nodup → c % 512 = 0 →
    (∀ a b p, place a pcs c = some p → place b pcs c = some p → a = b)
    ∧ (∀ a pc l, place a pcs c = some (pc, l) → pc ∈ pcs ∧ l < c)
    ∧ (∀ a, (place a pcs c).isSome = true ↔ a < pcs.length * c)

/-- What is written into a suite's memory reads back byte for byte, and every other byte of the suite's memory keeps its value (rules R32,
R237). -/
def Obligations.SuiteMemoryReadsBack : Prop :=
  ∀ (s : State) (n a b : Nat) (v : Byte), Memory.wf s.hbm = true → (getSuite s n).res.pcs.Nodup →
    (∀ p ∈ (getSuite s n).res.pcs, p < 512) → s.fuse.stackGib ≤ 96 →
    a < (getSuite s n).res.pcs.length * pcCapacity s →
    suiteByte (suiteSetByte s n a v) n a = v
    ∧ (b ≠ a → suiteByte (suiteSetByte s n a v) n b = suiteByte s n b)

/-- The memory system's own commands change no byte of memory: a scrub without a finding moves on and remembers where it is, a row that needs
repair and has a spare is repaired and entered in the repair map, a temperature reading above 85 °C asks for a higher refresh rate which
REFRESH_RATE_CHANGE puts in force, refreshes and RFM commands are counted, and an evicted line goes (rules R236, R241, R243, R245, R251). -/
def Obligations.MemoryMaintenanceChangesNoByte : Prop :=
  ∀ (s : State), memoryAlive s = true →
    (∀ pc addr, pc < 512 → wingPresent s (pc / 64) = true → (getWing s (pc / 64)).trained = true → addr % 64 = 0 → addr < pcCapacity s →
      ∃ u, exec (.patrolScrub pc addr []) s = .next u ∧ u = { s with wings := u.wings } ∧ (getWing u (pc / 64)).scrubAt = addr)
    ∧ (∀ pc row, pc < 512 → wingPresent s (pc / 64) = true → (getWing s (pc / 64)).repairActive = none →
        (getWing s (pc / 64)).needRepair.contains (pc, row) = true → sparesLeft s pc row ≠ 0 →
      ∃ u, exec (.onlineRowRepair pc row) s = .next u ∧ u = { s with wings := u.wings }
        ∧ (getWing u (pc / 64)).repairActive = some (2 ^ 21 * pc + row))
    ∧ (∀ pc row, pc < 512 → row < 2 ^ 21 → (getWing s (pc / 64)).repairActive = some (2 ^ 21 * pc + row) →
      ∃ u, exec (.rowRepairComplete pc row []) s = .next u ∧ u.hbm = s.hbm
        ∧ (getWing u (pc / 64)).repairActive = none ∧ (getWing u (pc / 64)).needRepair.contains (pc, row) = false
        ∧ (getWing u (pc / 64)).onlineRepairs = satInc 16 (getWing s (pc / 64)).onlineRepairs
        ∧ u.attic.repairMap = s.attic.repairMap ++ [(pc, row)])
    ∧ (∀ w temp onDie, w < 8 → wingPresent s w = true → -2048 ≤ temp → temp ≤ 420 →
      ∃ u, exec (.hbmTempReading w temp onDie) s = .next u ∧ u = { s with wings := u.wings } ∧ (getWing u w).temp = temp
        ∧ (getWing u w).onDieEcc = onDie
        ∧ ((getWing s w).refreshMult = 0 → 340 < temp → temp ≤ 380 → (getWing u w).pendingMult = some (1, false))
        ∧ (380 < temp → (getWing s w).refreshMult < 2 → (getWing u w).pendingMult = some (2, true)))
    ∧ (∀ w m h, w < 8 → (getWing s w).pendingMult = some (m, h) →
      ∃ u, exec (.refreshRateChange w) s = .next u ∧ u = { s with wings := u.wings }
        ∧ (getWing u w).refreshMult = m ∧ (getWing u w).throttle = h ∧ (getWing u w).pendingMult = none)
    ∧ (∀ w bank, w < 8 → wingPresent s w = true → bank < 4096 →
      (∃ u, exec (.perBankRefresh w bank) s = .next u ∧ u = { s with wings := u.wings }
        ∧ (getWing u w).refreshes = (getWing s w).refreshes + 1)
      ∧ (∃ u, exec (.refreshManagement w bank) s = .next u ∧ u = { s with wings := u.wings } ∧ (getWing u w).rfms = (getWing s w).rfms + 1))
    ∧ (∀ w line, w < 8 → SMap.has (getWing s w).lines line = true →
      ∃ u, exec (.cacheEviction w line []) s = .next u ∧ u = { s with wings := u.wings }
        ∧ (getWing u w).lines = SMap.erase (getWing s w).lines line)

/-- A transaction that reaches its timeout leaves its entry TIMED_OUT with nothing in flight and its tag retired; a timeout notice does the same
to the far entry, and a disable, at the end of its grace or by notice, leaves it DISABLED (rules R272 to R276). -/
def Obligations.TimeoutsAndDisablesEndTheEntry : Prop :=
  ∀ (s : State) (e : Nat), e < 65536 →
    (∀ tag, (getEntry s e).state = .bound → (flightOf (getEntry s e) tag).isSome = true → (getEntry s e).type = typeMemory →
      ∃ u, exec (.streamTimeout e tag) s = .next u ∧ (getEntry u e).state = .timedOut ∧ (getEntry u e).inFlight = []
        ∧ (getEntry u e).retired.contains tag = true ∧ (entryEval s e = false → (getEntry u e).seqNext = (getEntry s e).seqNext))
    ∧ (∀ tag, (getEntry s e).state = .bound → (flightOf (getEntry s e) tag).isSome = true → (getEntry s e).outbound = true →
        (getEntry s e).type ≠ typeInput →
      ∃ u, exec (.streamTimeout e tag) s = .next u ∧ (getEntry u e).state = .timedOut ∧ (getEntry u e).inFlight = []
        ∧ (getEntry u e).retired.contains tag = true)
    ∧ (∀ tag, (getEntry s e).state = .bound → (flightOf (getEntry s e) tag).isSome = true → (getEntry s e).type = typeInput →
      ∃ u, exec (.inputTimeout e tag) s = .next u ∧ (getEntry u e).state = .timedOut ∧ (getEntry u e).inFlight = []
        ∧ (getEntry u e).retired.contains tag = true)
    ∧ ((getEntry s e).state = .bound → (getEntry s e).draining = true →
      exec (.disableDrainExpiry e) s = .next (answerUnits (settlePorts (disableNow s e)))
        ∧ (getEntry (disableNow s e) e).state = .disabled ∧ (getEntry (disableNow s e) e).inFlight = [])
    ∧ (∀ p rec, portUpFor s p = true → fieldAt rec 2 2 = e → fieldAt rec 4 4 = ownId s → ownsPort s p e = true →
        (getEntry s e).state = .bound →
      (fieldAt rec 0 1 = 3 →
        ∃ u, exec (.timeoutNotice p rec) s = .next u ∧ (getEntry u e).state = .timedOut ∧ (getEntry u e).inFlight = [])
      ∧ (fieldAt rec 0 1 = 4 →
        ∃ u, exec (.disableNotice p rec) s = .next u ∧ (getEntry u e).state = .disabled ∧ (getEntry u e).inFlight = []))

/-- CREDIT posts slots on an outbound entry, ACK completes the transactions that it names, and a DATA flit lands in the slot of its tag and is
acknowledged, goes on towards another module in the next class, or is discarded and counted; one whose reserved bits are set is discarded and
counted (rules R11, R171, R172, R294, R295, R297). -/
def Obligations.FabricTrafficReachesItsEntry : Prop :=
  ∀ (s : State) (p : Nat), portUpFor s p = true →
    (∀ rec e, fieldAt rec 2 2 = e → fieldAt rec 4 4 = ownId s → ownsPort s p e = true → fieldAt rec 0 1 = 1 →
        (getEntry s e).outbound = true → (getEntry s e).state = .bound →
      ∃ u, exec (.credit p rec) s = .next u ∧ u = { s with streams := u.streams }
        ∧ getEntry u e = { getEntry s e with posted := (fieldAt rec 8 4 + (fieldAt rec 1 1 + 1)) % 2 ^ 32 }
        ∧ ∀ i, i ≠ e → getEntry u i = getEntry s i)
    ∧ (∀ rec e, fieldAt rec 2 2 = e → fieldAt rec 4 4 = ownId s → ownsPort s p e = true → fieldAt rec 0 1 = 2 →
      exec (.ack p rec) s = .next ((List.range (fieldAt rec 1 1 + 1)).foldl (fun st i => ackTag st e ((fieldAt rec 8 4 + i) % 2 ^ 32)) s))
    ∧ (∀ e tag x, (getEntry s e).outbound = true → flightOf (getEntry s e) tag = some x → x.lost = none →
      ∀ t ∈ (getEntry (ackTag s e tag) e).inFlight, t.tag ≠ tag)
    ∧ (∀ body ecc slot, body.length = 524 → fieldAt body 6 1 ≤ 3 → fieldAt body 7 1 = 0 → (getPort s p).linkVersion ≠ 1 →
        fieldAt body 0 4 = ownId s →
        ownsPort s p (fieldAt body 4 2) = true → isFoldEntry s (getEntry s (fieldAt body 4 2)) = false →
        (getEntry s (fieldAt body 4 2)).outbound = false →
        flightOf (getEntry s (fieldAt body 4 2)) (fieldAt body 8 4) = some slot → slot.lost = none →
      exec (.dataFlit p body ecc) s = .next (sendControl
        (finishTxn (landInbound (returnCredit s p (fieldAt body 6 1 % 4)) slot ⟨bytesAt body 12 512, 0, ecc⟩) (fieldAt body 4 2) slot)
        (getEntry s (fieldAt body 4 2)).port
        (controlRec 2 1 (getEntry s (fieldAt body 4 2)).peerEntry (peerModule s (getEntry s (fieldAt body 4 2))) (fieldAt body 8 4))))
    ∧ (∀ body ecc q, body.length = 524 → fieldAt body 6 1 < 3 → fieldAt body 7 1 = 0 → (getPort s p).linkVersion ≠ 1 →
        fieldAt body 0 4 ≠ ownId s → fieldAt body 0 4 ≠ 0xFFFFFFFF →
        forwardPort s p (fieldAt body 0 4) = some q → (getPort s q).linkVersion ≠ 1 →
      exec (.dataFlit p body ecc) s = .next (forwardFlit s q (fieldAt body 6 1 % 4 + 1)
        (dataContent (fieldAt body 0 4) (fieldAt body 4 2) (fieldAt body 6 1 % 4 + 1) (fieldAt body 8 4) (bytesAt body 12 512))
        (p, fieldAt body 6 1 % 4)))
    ∧ (∀ body ecc, body.length = 524 → fieldAt body 6 1 ≤ 3 → fieldAt body 7 1 = 0 → fieldAt body 0 4 = ownId s →
        ownsPort s p (fieldAt body 4 2) = false → (getPort s p).linkVersion ≠ 1 →
      exec (.dataFlit p body ecc) s = .next (discardAt (returnCredit s p (fieldAt body 6 1 % 4)) p true))
    ∧ (∀ body ecc, body.length = 524 → 3 < fieldAt body 6 1 ∨ fieldAt body 7 1 ≠ 0 →
      exec (.dataFlit p body ecc) s = .next (discardAt (returnCredit s p (fieldAt body 6 1 % 4)) p false))

/-- A received flit is judged by its codewords and its CRC first: one that an uncorrectable codeword overlaps, or whose CRC is bad, is counted and
asked for again and its number is not passed; one whose reserved fields or TYPE are wrong is counted and passed; a good one that carries the
number expected is passed, once. Corrected and uncorrectable codewords are counted. NAK, the retry budget and LINK_CREDIT act on the
transmitter (rules R287 to R290, R296). -/
def Obligations.LinkLayerAcceptsInOrder : Prop :=
  ∀ (s : State) (p : Nat), portUpFor s p = true →
    (∀ flit, flit.length = 536 → fieldAt flit 532 4 ≠ crc32 (flit.take 532) →
      ∃ u, exec (.flitReceive p flit .clean) s = .next u
        ∧ u = { s with ports := u.ports, outbox := s.outbox ++ [⟨.port p, .nak, flitBytes 0 (getPort s p).txSeq (getPort s p).rxSeq 3 []⟩] }
        ∧ getPort u p = { getPort s p with crcErr := satInc 16 (getPort s p).crcErr, replays := satInc 16 (getPort s p).replays,
                                           linkRetries := (getPort s p).linkRetries + 1 })
    ∧ (∀ flit n, flit.length = 536 →
      exec (.flitReceive p flit (.uncorrectable n)) s = .next (rejectFlit (countFec s p (.uncorrectable n)) p)
        ∧ ((SMap.get {} s.portExtra p).cdcHeld = false →
            (getPort (countFec s p (.uncorrectable n)) p).fecUncorr = satAdd 32 (getPort s p).fecUncorr n))
    ∧ (∀ n, (SMap.get {} s.portExtra p).cdcHeld = false → (getPort (countFec s p (.corrected n)) p).fecCorr = satAdd 32 (getPort s p).fecCorr n)
    ∧ (∀ flit, flit.length = 536 → fieldAt flit 532 4 = crc32 (flit.take 532) → flitFormOk flit = false →
      ∃ u, exec (.flitReceive p flit .clean) s = .next u ∧ u = { s with ports := u.ports, outbox := u.outbox }
        ∧ (getPort u p).otherDiscard = satInc 16 (getPort s p).otherDiscard
        ∧ (fieldAt flit 0 1 / 16 ≠ 0 → fieldAt flit 1 3 = (getPort s p).rxSeq → (getPort u p).rxSeq = ((getPort s p).rxSeq + 1) % 2 ^ 24)
        ∧ (fieldAt flit 0 1 / 16 = 0 → (getPort u p).rxSeq = (getPort s p).rxSeq))
    ∧ (∀ flit, flit.length = 536 → fieldAt flit 532 4 = crc32 (flit.take 532) → flitFormOk flit = true →
      ∃ u, exec (.flitReceive p flit .clean) s = .next u ∧ u = { s with ports := u.ports, outbox := u.outbox }
        ∧ (getPort u p).rxSeq = (if fieldAt flit 0 1 / 16 ≠ 0 ∧ fieldAt flit 1 3 = (getPort s p).rxSeq
            then ((getPort s p).rxSeq + 1) % 2 ^ 24 else (getPort s p).rxSeq)
        ∧ (getPort u p).crcErr = (getPort s p).crcErr ∧ (getPort u p).otherDiscard = (getPort s p).otherDiscard)
    ∧ (∀ a, unacked (getPort s p).replay a ≠ [] → (getPort s p).retries + 1 < 9 →
      ∃ u, exec (.nak p a) s = .next u ∧ u = { s with ports := u.ports, outbox := u.outbox }
        ∧ u.outbox = s.outbox ++ (unacked (getPort s p).replay a).map (fun q => ⟨.port p, .data, q.2⟩)
        ∧ (getPort u p).replay = unacked (getPort s p).replay a ∧ (getPort u p).retries = (getPort s p).retries + 1)
    ∧ (∀ a, unacked (getPort s p).replay a ≠ [] → 9 ≤ (getPort s p).retries + 1 →
      ∃ u, exec (.nak p a) s = .next u ∧ u = { s with ports := u.ports } ∧ (getPort u p).state = portRetraining)
    ∧ (∃ u, exec (.retryBudgetSpent p) s = .next u ∧ u = { s with ports := u.ports } ∧ (getPort u p).state = portRetraining
        ∧ (getPort u p).retrainKind = (if (getPort s p).linkVersion = 1 then 1 else 0))
    ∧ (∀ rec, fieldAt rec 0 1 = 5 → fieldAt rec 2 2 ≤ 4 → (getPort s p).waitTx = [] →
      ∃ u, exec (.linkCredit p rec) s = .next u ∧ u = { s with ports := u.ports }
        ∧ SMap.get 0 (getPort u p).credits (fieldAt rec 2 2)
            = min (if fieldAt rec 2 2 = 4 then 32 else 512) (SMap.get 0 (getPort s p).credits (fieldAt rec 2 2) + (fieldAt rec 1 1 + 1)))

/-- A failed lane or a spent budget starts a retrain, in which no flit moves. A fast retrain makes the port UP with the widths of rule R284, or
leaves it DOWN with fewer than eight lanes in a direction; one that fails or finds a new far end is followed by a full one, in which the
module sends its capability record; a far end of no common version leaves management only; bring-up training starts the link afresh where the
far end is a new one; a DOWN port tries again (rules R283 to R286, R299, R300). -/
def Obligations.PortsTrainToTheirWidth : Prop :=
  ∀ (s : State) (p : Nat), portPresent s p = true →
    (∀ lane, lane < 18 → (getPort s p).state = portUp → (getPort s p).switching = none →
      ∃ u, exec (.laneFailed p lane true) s = .next u ∧ u = { s with ports := u.ports } ∧ (getPort u p).state = portRetraining
        ∧ (getPort u p).failTx = (getPort s p).failTx ||| 2 ^ lane)
    ∧ (∀ lane t, lane < 18 → (getPort s p).state = portUp → (getPort s p).switching = some t →
      ∃ u, exec (.laneFailed p lane false) s = .next u ∧ u = { s with ports := u.ports } ∧ (getPort u p).state = portUp
        ∧ (getPort u p).failRx = (getPort s p).failRx ||| 2 ^ lane ∧ (getPort u p).retrainWanted = true)
    ∧ (∀ tx rx y, (getPort s p).state = portRetraining → (getPort s p).retrainKind = 0 →
        trainedPort (getPort s p) tx rx (getPort s p).mayWiden = some y →
      exec (.fastRetrainComplete p tx rx .done) s = .next (answerPort (resumeTx (setPort s p y) p) p)
        ∧ y.state = portUp ∧ y.replay = (getPort s p).replay ∧ y.waitTx = (getPort s p).waitTx)
    ∧ (∀ tx rx, (getPort s p).state = portRetraining → (getPort s p).retrainKind = 0 →
        trainedPort (getPort s p) tx rx (getPort s p).mayWiden = none →
      exec (.fastRetrainComplete p tx rx .done) s = .next (answerPort (downPort s p true) p)
        ∧ (getPort (downPort s p true) p).state = portDown ∧ (getPort (downPort s p true) p).txWidth = 0)
    ∧ (∀ tx rx result, (getPort s p).state = portRetraining → (getPort s p).retrainKind = 0 → result ≠ .done →
      ∃ u, exec (.fastRetrainComplete p tx rx result) s = .next u ∧ u = { s with ports := u.ports }
        ∧ (getPort u p).state = portRetraining ∧ (getPort u p).retrainKind = 1)
    ∧ (∀ tx rx far y, (getPort s p).state = portRetraining → (getPort s p).retrainKind = 1 → far ≠ [] →
        trainedPort (joinFar (getPort s p) far) tx rx (getPort s p).mayWiden = some y → y.linkVersion ≠ 0 →
      exec (.fullRetrainComplete p tx rx far) s = .next (answerPort (resumeTx (setPort (sendCapability s p) p y) p) p))
    ∧ (∀ tx rx far, (getPort s p).state = portRetraining → (getPort s p).retrainKind = 1 → far ≠ [] →
        trainedPort (joinFar (getPort s p) far) tx rx (getPort s p).mayWiden = none →
      exec (.fullRetrainComplete p tx rx far) s = .next (answerPort (downPort (sendCapability s p) p true) p)
        ∧ (getPort (downPort (sendCapability s p) p true) p).state = portDown ∧ (getPort (downPort (sendCapability s p) p true) p).txWidth = 0)
    ∧ (∀ tx rx, (getPort s p).state = portRetraining → (getPort s p).retrainKind = 1 →
      exec (.fullRetrainComplete p tx rx []) s = .next (answerPort (joinManagement s p) p)
        ∧ (getPort (joinManagement s p) p).state = portMgmtOnly)
    ∧ (∀ tx rx far, (getPort s p).state = portTraining → (getPort s p).feed ≠ 2 → 8 ≤ (lanesOf tx).length → 8 ≤ (lanesOf rx).length →
        far ≠ [] → commonVersion (fieldAt far 5 4) ≠ 0 →
      ∃ y, exec (.bringupTrainingComplete p tx rx far) s = .next (settleReady (answerPort (resumeTx (setPort (sendCapability s p) p y) p) p))
        ∧ y.state = portUp ∧ y.txWidth = widthOfLanes (lanesFor (lanesOf tx).length) ∧ y.rxWidth = widthOfLanes (lanesFor (lanesOf rx).length)
        ∧ (sameFar (getPort s p) far = false → y.txSeq = 0 ∧ y.rxSeq = 0 ∧ y.replay = [] ∧ y.credits = startCredits)
        ∧ (sameFar (getPort s p) far = true → y.replay = (getPort s p).replay ∧ y.waitTx = (getPort s p).waitTx)
        ∧ y.linkVersion = commonVersion (fieldAt far 5 4) ∧ y.farModule = fieldAt far 0 4)
    ∧ (s.dev = .running → (getPort s p).state = portDown → (getPort s p).disabled = false → (getPort s p).feed ≠ 2 →
        feedLit s p (getPort s p).feed = true →
      ∃ u, exec (.downPortRetry p) s = .next u ∧ u = { s with ports := u.ports } ∧ (getPort u p).state = portTraining)
    ∧ (∀ table, s.mgr.workers.any (fun w => w.port == p) = true → s.mgr.role ≠ 3 →
      exec (.capacityTable p table) s
        = .next { s with mgr := { s.mgr with tables := SMap.set s.mgr.tables (fieldAt table 0 4) (bytesAt table 4 192) } })
    ∧ (∀ table, s.mgr.workers.any (fun w => w.port == p) = true → s.mgr.role = 3 →
      exec (.capacityTable p table) s = .next (sendMgmt
        { s with mgr := { s.mgr with tables := SMap.set s.mgr.tables (fieldAt table 0 4) (bytesAt table 4 192) } } s.mgr.parentPort table))

/-- With h qualified lanes in a direction, 16 to 18 give width 16, 12 to 15 width 12, 8 to 11 width 8, and the active lanes are that many of the
lowest-numbered qualified ones; with fewer than 8 there is no width and training leaves the port DOWN; each direction takes its own width
(rule R284). -/
def Obligations.WidthFollowsQualifiedLanes : Prop :=
  (∀ (mask : Nat),
    (lanesOf mask).length ≤ 18
    ∧ (∀ i, i ∈ lanesOf mask ↔ i < 18 ∧ bit mask i = true)
    ∧ (lanesOf mask).Pairwise (· < ·)
    ∧ (16 ≤ (lanesOf mask).length → lanesFor (lanesOf mask).length = 16)
    ∧ (12 ≤ (lanesOf mask).length → (lanesOf mask).length ≤ 15 → lanesFor (lanesOf mask).length = 12)
    ∧ (8 ≤ (lanesOf mask).length → (lanesOf mask).length ≤ 11 → lanesFor (lanesOf mask).length = 8)
    ∧ ((lanesOf mask).length ≤ 7 → lanesFor (lanesOf mask).length = 0)
    ∧ (∀ n i, bit (activeMask mask n) i = ((lanesOf mask).take n).contains i))
  ∧ (∀ (x y : Port) (tx rx : Nat), trainedPort x tx rx true = some y →
      y.state = portUp ∧ lanesOfWidth y.txWidth = lanesFor (lanesOf tx).length ∧ lanesOfWidth y.rxWidth = lanesFor (lanesOf rx).length
        ∧ y.laneTx = activeMask tx (lanesFor (lanesOf tx).length) ∧ y.laneRx = activeMask rx (lanesFor (lanesOf rx).length))
  ∧ (∀ (x : Port) (tx rx : Nat), (∃ y, trainedPort x tx rx true = some y) ↔ 8 ≤ (lanesOf tx).length ∧ 8 ≤ (lanesOf rx).length)
  ∧ (∀ (s : State) (p tx rx : Nat) (far : Bytes), portPresent s p = true → (getPort s p).state = portTraining →
      (lanesOf tx).length ≤ 7 ∨ (lanesOf rx).length ≤ 7 → far ≠ [] →
      exec (.bringupTrainingComplete p tx rx far) s = .next (settleReady (answerPort (downPort (sendCapability s p) p false) p))
        ∧ (getPort (downPort (sendCapability s p) p false) p).state = portDown)

/-- Each bell edge raises the 64-bit count by one and moves the period by at most 1 ns to drive the offset to zero; in HOLDOVER it keeps its
last adjustment; the edge changes no tile, suite, stream or memory (rules R343, R346, R349, R351). -/
def Obligations.BellEdgesCountOne : Prop :=
  ∀ (s : State), s.bell.state ≠ .off →
    ∃ u, exec .bellEdge s = .next u ∧ u.bell.count = (s.bell.count + 1) % 2 ^ 64
      ∧ u = { s with bell := u.bell, cup := u.cup, attic := u.attic, atticStore := u.atticStore, outbox := u.outbox }
      ∧ (s.bell.state = .holdover → u.bell.offset = s.bell.offset ∧ u.bell.freqAdj = s.bell.freqAdj)
      ∧ (s.bell.state ≠ .holdover → u.bell.offset.natAbs ≤ s.bell.offset.natAbs ∧ s.bell.offset.natAbs ≤ u.bell.offset.natAbs + 4
          ∧ (s.bell.offset.natAbs ≤ 4 → u.bell.offset = 0))
      ∧ u.bell.state = s.bell.state ∧ u.bell.source = s.bell.source

namespace Sys2Proof.Says

/-- A SYNC record on the bell port of a module whose Belfry follows a manager. -/
abbrev syncArrives (s : State) (p : Nat) (rec : Bytes) : Prop :=
  hasManager s = true ∧ s.bell.source = 3 ∧ s.bell.port = p ∧ isBellRecord rec 0 = true ∧ s.bell.state ≠ .off

end Sys2Proof.Says

/-- A SYNC whose count agrees and whose offset is small sets the offset, and the tenth good one in a row locks an acquiring Belfry; one whose
count differs steps the count; DELAY_REQ is answered on its port; 1,000 bells without a SYNC, and the loss of the reference in use, put a
locked Belfry into HOLDOVER; a bell slot takes its value at its bell (rules R344, R347 to R352, R356). -/
def Obligations.BellRecordsAndReferencesSteerTheBelfry : Prop :=
  (∀ (s : State) (p : Nat) (rec : Bytes),
      (∀ edge res, syncArrives s p rec → edge = (fieldAt rec 2 2 : Int) + s.bell.pathDelay → fieldAt rec 4 8 = s.bell.count →
        ∃ u, exec (.sync p rec edge res) s = .next u ∧ u.bell.count = s.bell.count ∧ u.bell.offset = 0 ∧ u.bell.lastSync = s.bell.count
          ∧ (s.bell.state = .locked → u.bell.state = .locked)
          ∧ (s.bell.state = .acquiring → 10 ≤ s.bell.good + 1 → u.bell.state = .locked)
          ∧ (s.bell.state = .holdover → u.bell.state = .acquiring)
          ∧ u.hbm = s.hbm ∧ u.tiles = s.tiles ∧ u.suites = s.suites)
      ∧ (∀ edge res, syncArrives s p rec → edge = (fieldAt rec 2 2 : Int) + s.bell.pathDelay → fieldAt rec 4 8 ≠ s.bell.count →
        ∃ u, exec (.sync p rec edge res) s = .next u
          ∧ u.bell.count = fieldAt rec 4 8 + (((fieldAt rec 2 2 : Int) + s.bell.pathDelay) / 4000).toNat
          ∧ u.bell.steps = satInc 16 s.bell.steps ∧ u.bell.offset = 0)
      ∧ (∀ res, (bellPorts s).contains p = true → isBellRecord rec 1 = true → s.bell.state ≠ .off →
        exec (.delayReq p rec res) s = .next (sendControl s p (bellRecord s 2 res (fieldAt rec 4 8))))
      ∧ (∀ trip, hasManager s = true → s.bell.port = p → isBellRecord rec 2 = true → s.bell.reqSent = some (fieldAt rec 4 8) → s.bell.delays = [] →
        ∃ u, exec (.delayResp p rec trip) s = .next u ∧ u = { s with bell := u.bell, free := s.free + 1 }
          ∧ u.bell.delays = [(trip : Int) - fieldAt rec 2 2] ∧ u.bell.reqSent = none ∧ u.bell.count = s.bell.count
          ∧ 2 * u.bell.pathDelay ≤ (trip : Int) - fieldAt rec 2 2 + 1 ∧ (trip : Int) - fieldAt rec 2 2 - 1 ≤ 2 * u.bell.pathDelay)
      ∧ (∀ offset, s.mgr.workers.any (fun w => !w.lost && w.port == p) = true → s.bell.state ≠ .off → offset ≤ 65535 →
        exec (.syncSend p offset) s = .next (sendControl s p (bellRecord s 0 offset s.bell.count)))
      ∧ (hasManager s = true → s.bell.port = p → s.bell.source = 3 → s.bell.state ≠ .off →
        ∃ u, exec (.delayReqSend p) s = .next u ∧ u.bell.reqSent = some s.bell.reqSeq ∧ u.bell.reqSeq = (s.bell.reqSeq + 1) % 2 ^ 64
          ∧ u = { s with bell := u.bell, ports := u.ports, outbox := u.outbox })
      ∧ (hasManager s = true → s.bell.state = .locked → s.bell.lastSync + 1000 ≤ s.bell.count →
        ∃ u, exec .syncLoss s = .next u ∧ u = { s with bell := u.bell, rings := u.rings } ∧ u.bell.state = .holdover
          ∧ u.bell.count = s.bell.count ∧ u.bell.holdovers = satInc 16 s.bell.holdovers))
  ∧ (∀ (s : State),
      (∀ present, s.bell.source = 2 → s.bell.state = .locked →
        ∃ u, exec (.bellRefLoss present) s = .next u ∧ u = { s with bell := u.bell, rings := u.rings } ∧ u.bell.state = .holdover
          ∧ u.bell.source = 1 ∧ u.bell.refValid = false ∧ u.bell.count = s.bell.count)
      ∧ (∀ present, s.bell.source ≠ 2 →
        ∃ u, exec (.bellRefLoss present) s = .next u ∧ u = { s with bell := u.bell } ∧ u.bell.refValid = false
          ∧ u.bell.refPresent = present ∧ u.bell.state = s.bell.state)
      ∧ (hasManager s = false → s.bell.state = .holdover →
        ∃ u, exec .bellRefReturn s = .next u ∧ u = { s with bell := u.bell, rings := u.rings } ∧ u.bell.state = .acquiring
          ∧ u.bell.source = 2 ∧ u.bell.refValid = true)
      ∧ (hasManager s = true →
        ∃ u, exec .bellRefReturn s = .next u ∧ u = { s with bell := u.bell } ∧ u.bell.refValid = true
          ∧ u.bell.source = s.bell.source ∧ u.bell.state = s.bell.state)
      ∧ (∀ event e, dueEvent s event 0x0802 = some e →
        ∃ u, exec (.bellSlotValue event) s = .next u ∧ SMap.get (2 ^ 64 - 1) (getSuite u e.suite).slots (e.arg % 16) = e.value
          ∧ u.bell.count = s.bell.count ∧ u.hbm = s.hbm ∧ u.tiles = s.tiles))

/-- A crossing that makes no progress is held, counted and resets its unit; a resynchronised crossing carries again and is counted (rules R360,
R362, R365). -/
def Obligations.CrossingsAreHeldAndResynchronised : Prop :=
  ∀ (s : State), s.dev = .running →
    (∀ t, t < 80 → wingPresent s (t / 10) = true → (getTile s t).health.inReset = false →
      ∃ u, exec (.cdcTimeout (.tile t)) s = .next u ∧ (getTile u t).health.inReset = true ∧ (getTile u t).cdcHeld = true
        ∧ (getTile u t).counts.cdcTimeouts = satInc 8 (getTile s t).counts.cdcTimeouts)
    ∧ (∀ p, portPresent s p = true → (getPort s p).state = portUp →
      ∃ u, exec (.cdcTimeout (.spire p)) s = .next u ∧ (getPort u p).state = portRetraining
        ∧ (SMap.get {} u.portExtra p).cdcHeld = true)
    ∧ (∀ t, t < 80 → (getTile s t).health.inReset = false →
      ∃ u, exec (.crossingResync (.tile t)) s = .next u ∧ onlyTile s u t ∧ (getTile u t).cdcHeld = false
        ∧ (getTile u t).core = (getTile s t).core ∧ (getTile u t).counts.cdcResyncs = satInc 8 (getTile s t).counts.cdcResyncs)
    ∧ (∀ w, w < 8 → (getWing s w).inReset = false →
      ∃ u, exec (.crossingResync (.wing w)) s = .next u ∧ u = { s with wings := u.wings } ∧ (getWing u w).cdcHeld = false
        ∧ (getWing u w).cdcResyncs = satInc 8 (getWing s w).cdcResyncs)

/-- A planned switch-over moves the selector towards the feed that is selected and is complete when the port uses it; the loss of the active
feed moves the port to the other lit feed, or leaves it DOWN. A Lantern is PRESENT when inserted, WARMING once its proof verifies, ACTIVE
after its warm-up, REJECTED, FAILED or ABSENT otherwise (rules R303 to R310). -/
def Obligations.FeedsAndLanternsChangeState : Prop :=
  (∀ (s : State) (p : Nat), portPresent s p = true →
      ((getPort s p).feed ≠ 2 → selectFeed s p ≠ 2 → selectFeed s p ≠ (getPort s p).feed → feedLit s p (getPort s p).feed = true →
          feedLit s p (selectFeed s p) = true → s.ports.all (fun q => q.2.switching.isNone) = true →
        ∃ u, exec (.plannedSwitchover p) s = .next u ∧ u = { s with ports := u.ports }
          ∧ getPort u p = { getPort s p with switching := some (selectFeed s p) })
      ∧ (∀ target, (getPort s p).switching = some target → (getPort s p).retrainWanted = false →
        ∃ u, exec (.switchoverComplete p) s = .next u ∧ u = { s with ports := u.ports, attic := u.attic }
          ∧ getPort u p = { getPort s p with feed := target, switching := none, planned := satInc 16 (getPort s p).planned })
      ∧ ((getPort s p).feed = 0 → (getPort s p).switching = none → feedLit s p 1 = true → (getPort s p).miswired.contains 1 = false →
        ∃ u, exec (.unplannedSwitchover p) s = .next u ∧ u = { s with ports := u.ports, attic := u.attic }
          ∧ getPort u p = { getPort s p with feed := 1, unplanned := satInc 16 (getPort s p).unplanned })
      ∧ ((getPort s p).feed = 0 → (getPort s p).switching = none → feedLit s p 1 = false →
        ∃ u, exec (.unplannedSwitchover p) s = .next u ∧ (getPort u p).state = portDown ∧ (getPort u p).feed = 2))
  ∧ (∀ (s : State) (l : Nat), l < 4 →
      (∀ serial model hours first, (getLantern s l).state = 0 → s.dev ≠ .off →
        ∃ u, exec (.lanternInserted l serial model hours first) s = .next u ∧ (getLantern u l).state = 1
          ∧ (getLantern u l).serial = serial ∧ (getLantern u l).first = first ∧ u.hbm = s.hbm)
      ∧ ((getLantern s l).state ≠ 0 →
        ∃ u, exec (.lanternRemoved l) s = .next u ∧ getLantern u l = {} ∧ u.attic.lanternsGone.length ≤ 4)
      ∧ (∀ proof, (getLantern s l).state = 1 → s.dev = .running → s.attic.serialsBanned.contains (getLantern s l).serial = false →
        ∃ u, exec (.lanternAuthentication l proof) s = .next u
          ∧ (if proof ≠ [] ∧ Config.verifies proof (sha384 (Config.nonce s.free ++ natLE (getLantern s l).serial 8
                ++ ((getLantern s l).first.map (fun v => natLE (unsignedOf 16 v) 2)).flatten)) = true
             then (getLantern u l).state = 2 ∧ (getLantern u l).authBell = some s.bell.count
               ∧ (getLantern u l).authFails = (getLantern s l).authFails
             else (getLantern u l).state = 5 ∧ (getLantern u l).authFails = satInc 16 (getLantern s l).authFails))
      ∧ (∀ levels rose, (getLantern s l).state = 2 →
        ∃ u, exec (.lanternWarmupComplete l levels false rose) s = .next u ∧ (getLantern u l).state = 3
          ∧ ((getLantern s l).first ≠ [] → (getLantern u l).first = (getLantern s l).first)
          ∧ ((getLantern s l).first = [] → (getLantern u l).first = levels))
      ∧ (∀ levels rose, (getLantern s l).state = 2 →
        ∃ u, exec (.lanternWarmupComplete l levels true rose) s = .next u ∧ (getLantern u l).state = 6)
      ∧ (∀ levels hours, isLit s l = true →
        exec (.lanternHealthCheck l levels hours) s = .next (answerLantern (judge (enterLevels s l levels) l hours) l)
          ∧ (getLantern (judge (enterLevels s l levels) l hours) l).hours = hours)
      ∧ (∃ u, exec .lanternMirrorRefresh s = .next u ∧ u = { s with lanterns := u.lanterns }
          ∧ ((getLantern s l).state = 0 → (getLantern u l).mirror = {})
          ∧ ((getLantern s l).state ≠ 0 → (getLantern u l).mirror.state = (getLantern s l).state
              ∧ (getLantern u l).mirror.serial = (getLantern s l).serial)))

/-- A manager asks each worker for its status once a heartbeat and counts it; a worker, and a manager, of which nothing has come for 1 s is
counted as lost, the first having failed each rank it holds and the second draining every running job suite to its next gate, with an error
record of cause 0x0602. A rank that has failed goes to the spare of the lowest module id; without a spare the job stops (rules R319, R331, R332,
R338). -/
def Obligations.ManagersAndWorkersAreWatched : Prop :=
  ∀ (s : State),
    (∀ worker w, s.mgr.role = 2 ∨ s.mgr.role = 3 → s.mgr.workers.find? (fun x => x.module == worker && !x.lost) = some w →
      ∃ u, exec (.heartbeat worker) s = .next u
        ∧ u = { s with mgr := { s.mgr with nextTag := (s.mgr.nextTag + 1) % 2 ^ 32, heartbeats := satInc 16 s.mgr.heartbeats },
                       ports := u.ports, outbox := u.outbox })
    ∧ (∀ worker, s.mgr.workers.any (fun w => w.module == worker && !w.lost && decide (w.lastSeen + contactLost ≤ s.bell.count)) = true →
        (∀ p, p ∈ s.mgr.jobs → p.2.started = true → ∀ r, r ∈ p.2.ranks → r.2.1 ≠ worker) →
      exec (.workerLost worker) s = .next { s with mgr := { s.mgr with
        lost := satInc 16 s.mgr.lost
        workers := s.mgr.workers.map (fun w => if w.module = worker then { w with lost := true } else w) } })
    ∧ (∀ worker no j r x, s.mgr.workers.any (fun w => w.module == worker && !w.lost && decide (w.lastSeen + contactLost ≤ s.bell.count)) = true →
        s.mgr.jobs = [(no, j)] → j.started = true → j.ranks = [(r, (worker, x))] →
      exec (.workerLost worker) s = .next (failRank { s with mgr := { s.mgr with
        lost := satInc 16 s.mgr.lost
        workers := s.mgr.workers.map (fun w => if w.module = worker then { w with lost := true } else w) } }
          no r (((suitesOf s j.lineage).map (fun n => openStep s n)).foldl max 1) true))
    ∧ (∀ b, s.mgr.role = 1 ∨ s.mgr.role = 3 → s.mgr.heard = some b → b + contactLost ≤ s.bell.count → SMap.sorted s.suites = true →
        (∀ p, p ∈ s.suites → p.2.job.rank.isSome = true → p.2.state ≠ .preempted) →
      ∃ u, exec .managerLost s = .next u ∧ u.mgr.lost = satInc 16 s.mgr.lost ∧ u.mgr.heard = none
        ∧ u.faults.last.cause = 0x0602 ∧ u.faults.next = (s.faults.next + 1) % 2 ^ 32
        ∧ u = { s with mgr := u.mgr, faults := u.faults, free := s.free + 1, suites := u.suites, rings := u.rings, dev := u.dev,
                       ports := u.ports, outbox := u.outbox, host := u.host }
        ∧ ∀ n, (getSuite s n).job.rank.isSome = true → (getSuite s n).state = .running → (getSuite s n).slice.stopping = false →
          (getSuite u n).slice.stopAfter = some (highestEntered s n) ∧ (getSuite u n).state = .draining)
    ∧ (∀ no r step gone, (getJob s no).spares = [] →
      failRank s no r step gone = stopJob (recordRankFailed s (getJob s no).lineage r step true) no step 0x0601)
    ∧ (∀ no r step source module sp, lowestSpare (getJob s no).spares = some sp → (SMap.get (0xFFFFFFFF, 0xFF) (getJob s no).ranks r).1 ≠ ownId s → sp.1 ≠ ownId s →
        suitesOf s (getJob s no).lineage = [] →
      SMap.get (0, 0) (getJob (assignSpare s no r step source module) no).ranks r = sp
        ∧ (getJob (assignSpare s no r step source module) no).spares = (getJob s no).spares.filter (fun x => x != sp)
        ∧ (assignSpare s no r step source module).suites = s.suites ∧ (assignSpare s no r step source module).tiles = s.tiles)
    ∧ (∀ l sp, lowestSpare l = some sp → sp ∈ l ∧ ∀ x, x ∈ l → sp.1 ≤ x.1)

/-- The verdict of a vote group (rule R330): AGREE where all members hold the same record, a majority verdict where more than half of them do,
with exactly the others as dissenters, and no majority otherwise; a member without a record agrees with nobody. -/
def Obligations.GroupVerdictFollowsTheMajority : Prop :=
  ∀ (votes : SMap Bytes) (g : List Nat), 1 < g.length →
    ((∃ b, ∀ r, r ∈ g → SMap.has votes r = true ∧ SMap.get [] votes r = b) → groupVerdict votes g = (0, []))
    ∧ (∀ out, groupVerdict votes g = (1, out) →
      ∃ b, g.length < 2 * (g.filter (fun r => SMap.has votes r && decide (SMap.get [] votes r = b))).length
        ∧ out = g.filter (fun r => !(SMap.has votes r && decide (SMap.get [] votes r = b))) ∧ out ≠ [])
    ∧ (groupVerdict votes g = (2, []) ↔
      ∀ b, 2 * (g.filter (fun r => SMap.has votes r && decide (SMap.get [] votes r = b))).length ≤ g.length)
    ∧ (∀ v out, groupVerdict votes g = (v, out) → v ≤ 2 ∧ (v ≠ 1 → out = []))

/-- A rank votes once its step is complete and the vote bell has come, to its manager or here; the records missing when the vote time is over
are decided against (rules R329, R330). -/
def Obligations.VotesAreTakenAndDecided : Prop :=
  ∀ (s : State) (n : Nat),
    (isTop s = false → (getSuite s n).job.rank.isSome = true → (getSuite s n).state = .running → (getSuite s n).job.votePending = none →
      ∃ u, exec (.voteBell n) s = .next u ∧ u = { s with suites := u.suites }
        ∧ getSuite u n = { getSuite s n with job := { (getSuite s n).job with voteBell := 1 } } ∧ ∀ m, m ≠ n → getSuite u m = getSuite s m)
    ∧ (∀ im step, isTop s = false → (getSuite s n).job.rank.isSome = true → (getSuite s n).state = .running ∨ (getSuite s n).state = .preempted →
        (getSuite s n).image = some im → (getSuite s n).job.votePending = some step →
      ∃ u, exec (.voteBell n) s = .next u
        ∧ u = { s with suites := u.suites, ports := u.ports, outbox := u.outbox, mgr := { s.mgr with nextTag := (s.mgr.nextTag + 1) % 2 ^ 32 } }
        ∧ getSuite u n = { getSuite s n with job := { (getSuite s n).job with votePending := none, voteBell := 0 } })
    ∧ (∀ no b, (getJob s no).voteBell = some b → (getJob s no).started = true → (getJob s no).votes ≠ [] → b + s.mgr.voteTimeout ≤ s.bell.count →
      exec (.voteTimeout no) s = .next (decideVote s no))
    ∧ (∀ no b, (getJob s no).voteBell = some b → s.bell.count < b + s.mgr.voteTimeout → exec (.voteTimeout no) s = .next s)

/-- At its halt bell a rank's suite halts, what it recorded of the halt step and later is gone, and it waits for its restore: in place, from a
snapshot or from a checkpoint, to run from the step after; where nothing can restore it, it is FAULTED. A takeover that completes gives the
spare its rank; one whose digests do not match leaves it without (rules R331, R335 to R338, R340, R431, R432). -/
def Obligations.RanksHaltAndRestore : Prop :=
  (∀ (s : State) (n h : Nat), isTop s = false → (getSuite s n).job.haltBell = some h → (getSuite s n).job.rank.isSome = true →
      (h ≤ s.bell.count → (getSuite s n).state = .running →
        ∃ u, exec (.haltBell n) s = .next u ∧ u = haltForRollback s n (getSuite s n).job.haltStep
          ∧ (getSuite u n).job.haltBell = none ∧ (getSuite u n).job.haltStep = (getSuite s n).job.haltStep
          ∧ (getSuite u n).job.rollback = !(getSuite s n).job.stopHalt
          ∧ (∀ p, p ∈ (getSuite u n).steps → p.1 < (getSuite s n).job.haltStep)
          ∧ u.hbm = s.hbm ∧ u.fuse = s.fuse)
      ∧ (s.bell.count < h → exec (.haltBell n) s = .next s))
  ∧ (∀ (s : State) (n : Nat),
      ((getSuite s n).state = .draining ∨ (getSuite s n).state = .loaded → (getSuite s n).job.rollback = true → (getSuite s n).job.haltBell = none →
      drained s n = true → suiteStreams s n = [] →
        (restorePoint s n = none →
          ∃ u, exec (.jobRestoreComplete n []) s = .next u ∧ (getSuite u n).state = .faulted ∧ u.hbm = s.hbm ∧ u.tiles = s.tiles)
        ∧ (∀ t step, restorePoint s n = some (t, step) → (mapFailure t n).isSome = true ∨ smallMemory t n = true →
          ∃ u, exec (.jobRestoreComplete n []) s = .next u ∧ (getSuite u n).state = .faulted)
        ∧ (∀ t step, restorePoint s n = some (t, step) → mapFailure t n = none → smallMemory t n = false → (getSuite s n).image.isSome = true →
          ∃ u, exec (.jobRestoreComplete n []) s = .next u ∧ (getSuite u n).job.restore = step
            ∧ (getSuite u n).firstStep = step + 1)
        ∧ ((getSuite s n).job.inPlace = true → restorePoint s n = some (s, (getSuite s n).job.haltStep - 1)))
      ∧ (∀ (p : Bytes) (im : Image) (data : List (Nat × Bytes)) (scale : Bytes),
      (getSuite s n).job.takeover = some p → (getSuite s n).image = some im → (getSuite s n).state = .loaded → isTop s = false →
        (takeoverReady (getSuite s n) p = true →
          ∃ u, exec (.takeoverTransferComplete n true data scale) s = .next u ∧ (getSuite u n).job.rank = some (fieldAt p 16 4)
            ∧ (getSuite u n).job.lineage = bytesAt p 0 16 ∧ (getSuite u n).job.takeover = none
            ∧ (getSuite u n).job.haltStep = fieldAt p 20 4 + 1 ∧ (getSuite u n).job.rollback = true ∧ u.tiles = s.tiles)
        ∧ (∃ u, exec (.takeoverTransferComplete n false data scale) s = .next u ∧ (getSuite u n).job.takeover = none
            ∧ (getSuite u n).job.rank = (getSuite s n).job.rank ∧ u.hbm = s.hbm ∧ u.tiles = s.tiles)))

/-- A management packet on a port frees its buffers and is a request to accept or refuse, or a reply; a reply whose check is wrong is discarded and
one that nothing awaits is counted; while a firmware activation runs the packet is kept (rules R296, R298, R369, R383, R385). A packet for another module goes out
on the port towards it with one hop more and the next tag; without a way, or after six hops, it is answered with NO_ROUTE, and one that
wants no answer is dropped (rules R376, R377). A broadcast whose workers have not all answered when its wait ends counts them as silent and
replies with the aggregate; an attach or a detach that gets no answer ends with NO_ANSWER (rules R378, R389). -/
def Obligations.ManagementPacketsArriveAndAreRelayed : Prop :=
  (∀ (s : State) (port : Nat) (raw : Bytes), s.dev ≠ .off → portPresent s port = true → (getPort s port).state = portUp →
      (s.fw.inActivation = true →
        exec (.mgmtPacket port raw) s = .next { sendControl s port (mgmtCredit raw) with
          fw := { s.fw with heldPackets := s.fw.heldPackets ++ [(port, raw)] } })
      ∧ (s.fw.inActivation = false → s.fw.serving = true → bit (parsePacket raw).flags 0 = false → 16 ≤ raw.length →
          fieldAt raw 12 4 = crc32 (raw.take 12 ++ (parsePacket raw).payload) →
        exec (.mgmtPacket port raw) s
          = .next (receivePacket (hearFrom (sendControl s port (mgmtCredit raw)) port (parsePacket raw)) (.link port) raw))
      ∧ (s.fw.inActivation = false → s.fw.serving = true → bit (parsePacket raw).flags 0 = true →
          fieldAt raw 12 4 ≠ crc32 (raw.take 12 ++ (parsePacket raw).payload) →
          exec (.mgmtPacket port raw) s = .next (sendControl s port (mgmtCredit raw)))
      ∧ (s.fw.inActivation = false → s.fw.serving = true → bit (parsePacket raw).flags 0 = true → 16 ≤ raw.length →
          fieldAt raw 12 4 = crc32 (raw.take 12 ++ (parsePacket raw).payload) →
          SMap.has s.mgr.asked (parsePacket raw).tag = false → s.mgr.broadcasts = [] → s.rings = [] →
          (parsePacket raw).opcode ≠ 0x0602 → unheeded (parsePacket raw).opcode = false →
        ∃ u, exec (.mgmtPacket port raw) s = .next u ∧ u = { sendControl s port (mgmtCredit raw) with mgr := u.mgr }
          ∧ u.mgr.lateReplies = satInc 16 s.mgr.lateReplies
          ∧ u.mgr.jobs = s.mgr.jobs ∧ u.mgr.nextTag = s.mgr.nextTag))
  ∧ (∀ (s : State) (src : Src) (tag : Nat) (w : Waiting),
      (getRing s (ringKey src)).queue.find? (fun w => w.pkt.tag == tag && isRelayed w.pkt && !w.executing && w.reply.isNone) = some w →
      startable s src w = true → s.fw.serving = true → isHere s src w.pkt = false →
        (∀ port, fieldAt w.pkt.payload 12 1 < 6 → nextPort s src w.pkt = some port → isAttaching s w.pkt = false →
          ∃ u, exec (.relayedPacket src tag) s = .next u
            ∧ u = { s with rings := u.rings, ports := u.ports, outbox := u.outbox,
                           mgr := { s.mgr with nextTag := (s.mgr.nextTag + 1) % 2 ^ 32, relayed := satInc 16 s.mgr.relayed } }
            ∧ (isSilent w.pkt (bodyOf w.pkt) = false → ∃ x, x ∈ (getRing u (ringKey src)).queue ∧ x.executing = true ∧ x.pkt = w.pkt
                ∧ x.note = [s.mgr.nextTag])
            ∧ u.ports = (sendRelay s w.pkt port).ports)
        ∧ (6 ≤ fieldAt w.pkt.payload 12 1 ∨ nextPort s src w.pkt = none → isSilent w.pkt (bodyOf w.pkt) = false →
          exec (.relayedPacket src tag) s = .next (finish (editWaiting s src w (fun x => { x with executing := true })) src tag 0x0302 0 []))
        ∧ (∀ e : Bytes, fieldAt e 12 1 < 6 → fieldAt (relayEnvelope e) 12 1 = fieldAt e 12 1 + 1
            ∧ (relayEnvelope e).take 12 = bytesAt e 0 12))
  ∧ (∀ (s : State) (tag : Nat) (b : Broadcast) (w : Waiting),
      s.mgr.broadcasts.find? (fun x => x.tag == tag) = some b → executingOf s b.src tag = some w → b.since + gatherWait s w ≤ s.bell.count →
        (w.pkt.opcode ≠ 0x0501 → w.pkt.opcode ≠ 0x0502 → w.pkt.opcode ≠ 0x0300 → w.pkt.opcode ≠ 0x0302 →
          exec (.broadcastReplyTimeout tag) s = .next (closeGather
            { s with mgr := { s.mgr with asked := s.mgr.asked.filter (fun q => !(b.waiting.contains q.1)) } }
            { b with waiting := [], silent := b.silent + b.waiting.length }))
        ∧ (w.pkt.opcode = 0x0501 ∨ w.pkt.opcode = 0x0502 → exec (.broadcastReplyTimeout tag) s = .next (endAsk s b.src tag 0x0405 0 []))
        ∧ (gatherBody { b with waiting := [], silent := b.silent + b.waiting.length }).take 12
            = natLE b.okCount 4 ++ natLE b.failCount 4 ++ natLE (b.silent + b.waiting.length) 4)

/-- An evaluation window closes the gates into the step after its own, windows of several steps wait in the order of their steps, and a window
that starts saves every tile and runs the evaluation programs, and gives the tiles back when they have ended; one that its step's state does not allow reports a status instead (rules R31, R232 to R234, R340). -/
def Obligations.EvaluationWindowsRunBetweenSteps : Prop :=
  ∀ (s : State) (n : Nat),
    (∀ event e, dueEvent s event 0x0305 = some e → e.suite = n →
      (stepStatus s n e.step = 0 →
        ∃ u, exec (.evalWindowBell event) s = .next u
          ∧ u = { s with suites := u.suites, bell := { s.bell with events := dropFirst (fun x => x.id == event) s.bell.events } }
          ∧ windowsOf (getSuite u n) = enterWindow { step := e.step, eventId := e.id } (windowsOf (getSuite s n))
          ∧ (getSuite u n).closedGate = lowestGate ((windowsOf (getSuite u n)).map (fun w => w.step))
          ∧ (windowsOf (getSuite s n) = [] →
            getSuite u n = { getSuite s n with closedGate := some (e.step + 1), window := some { step := e.step, eventId := e.id } }))
      ∧ (stepStatus s n e.step ≠ 0 →
        ∃ u, exec (.evalWindowBell event) s = .next u
          ∧ u = { s with rings := u.rings, bell := { s.bell with events := dropFirst (fun x => x.id == event) s.bell.events } }))
    ∧ (∀ w im, (getSuite s n).window = some w → (getSuite s n).image = some im → (getSuite s n).state = .running → w.started = false →
        (getSuite s n).slice.stopping = false → (ckptsOf (getSuite s n)).any (fun e => e.step == w.step) = false →
        allAtGate s n (w.step + 1) = true → (∀ p, p ∈ residents s n → windowReady s p.1 = true) →
      ∃ u, exec (.evalWindowStart n) s = .next u ∧ u.hbm = s.hbm
        ∧ (∃ x, (getSuite u n).window = some x ∧ x.started = true ∧ x.step = w.step ∧ x.resident = residents s n)
        ∧ (∀ p, p ∈ residents s n → (getTile u p.1).evalMode = true ∧ (getTile u p.1).suite = some n))
    ∧ (∀ w im, (getSuite s n).window = some w → (getSuite s n).image = some im → (getSuite s n).state = .running → w.started = true →
        im.vtiles.all (fun v => w.programsDone.contains v.1 || (residents s n).any (fun p => p.2 == v.1 && evalDone s p.1)) = true →
      ∃ u, exec (.evalProgramsComplete n) s = .next u ∧ u.hbm = s.hbm ∧ (getSuite u n).window = (getSuite s n).laterWindows.head?
        ∧ (getSuite u n).closedGate = lowestGate ((getSuite s n).laterWindows.map (fun x => x.step))
        ∧ ((getSuite s n).laterWindows = [] → (getSuite u n).window = none ∧ (getSuite u n).closedGate = none)
        ∧ SMap.get {} (getSuite u n).ring (w.step % im.digestPlan.ringDepth) = windowSlot (getSuite s n) im w
        ∧ (getSuite u n).evals.contains w.step = true
        ∧ ((w.resident.map (fun p => p.1)).Nodup →
          ∀ p, p ∈ w.resident → (getTile u p.1).evalMode = false ∧ (getTile u p.1).vtile = p.2))

/-- A checkpoint holds U at its gate into the next step, copies the state tensors and the scale table, as of the next step's decision, into its
slot, and lets U go on; those of several steps wait in the order of their steps; it changes nothing of the state it copies (rules R31, R340,
R396, R440, R441). -/
def Obligations.CheckpointsCopyTheState : Prop :=
  ∀ (s : State) (n : Nat),
    (∀ event e, dueEvent s event 0x0400 = some e → e.suite = n →
      (stepStatus s n e.step = 0 →
        ∃ u, exec (.checkpointBell event) s = .next u
          ∧ u = { s with suites := u.suites, bell := { s.bell with events := dropFirst (fun x => x.id == event) s.bell.events } }
          ∧ ckptsOf (getSuite u n) = enterCkpt e (ckptsOf (getSuite s n))
          ∧ (getSuite u n).holdU = lowestGate ((ckptsOf (getSuite u n)).map (fun x => x.step))
          ∧ (ckptsOf (getSuite s n) = [] → getSuite u n = { getSuite s n with holdU := some (e.step + 1), ckptEvent := some e }))
      ∧ (stepStatus s n e.step ≠ 0 →
        ∃ u, exec (.checkpointBell event) s = .next u
          ∧ u = { s with rings := u.rings, bell := { s.bell with events := dropFirst (fun x => x.id == event) s.bell.events } }))
    ∧ (∀ e im, (getSuite s n).ckptEvent = some e → (getSuite s n).image = some im → copyReady s n e.step = true →
      (∀ slot rest, checkpointSlot (getSuite s n) im = some (slot, rest) →
        ∃ u c, exec (.checkpointCopyComplete n []) s = .next u ∧ u = { s with suites := u.suites, rings := u.rings }
          ∧ (getSuite u n).ckptEvent = (getSuite s n).laterCkpts.head?
          ∧ (getSuite u n).holdU = lowestGate ((getSuite s n).laterCkpts.map (fun x => x.step)) ∧ c ∈ (getSuite u n).checkpoints
          ∧ c.step = e.step ∧ c.slot = slot ∧ c.scale = SMap.mapVals (getSuite s n).scale (fun _ x => x.atDecision (e.step + 1))
          ∧ c.state = (copyCheckpoint s n e.step e.id slot im).state ∧ (getSuite u n).scale = (getSuite s n).scale)
      ∧ (checkpointSlot (getSuite s n) im = none →
        ∃ u, exec (.checkpointCopyComplete n []) s = .next u ∧ u = { s with suites := u.suites, rings := u.rings }
          ∧ (getSuite u n).ckptEvent = (getSuite s n).laterCkpts.head?
          ∧ (getSuite u n).holdU = lowestGate ((getSuite s n).laterCkpts.map (fun x => x.step))
          ∧ (getSuite u n).checkpoints = (getSuite s n).checkpoints)
      ∧ (∀ obs, obs.any losesData = true → (obs.filter (obsOfSuite s n)) = [] → exec (.checkpointCopyComplete n obs) s = .next s))

/-- The slice of a suite ends when its charged length has run: another that waits for the tile group has the suite pre-empted, else a new slice
begins. A gang stop or resume moves each rank at the common bell (rules R429, R430, R439). -/
def Obligations.SlicesAndGangsMoveSuites : Prop :=
  ∀ (s : State) (n : Nat),
    ((getSuite s n).state = .running → 0 < (getSuite s n).slice.slice → (getSuite s n).slice.stopping = false →
        (getSuite s n).slice.sliceStart + (getSuite s n).slice.charged ≤ s.bell.count →
      (nextInRotation s n = none →
        ∃ u, exec (.sliceBoundary n) s = .next u ∧ u = { s with suites := u.suites }
          ∧ (getSuite u n).slice.slice = (getSuite s n).slice.nextSlice.getD (getSuite s n).slice.slice
          ∧ ((getSuite u n).slice.slice ≠ 0 →
            (getSuite u n).slice.sliceStart = (getSuite s n).slice.sliceStart + (getSuite s n).slice.charged
            ∧ (getSuite u n).slice.charged = max 1000 ((getSuite u n).slice.slice - (getSuite s n).slice.carry)))
      ∧ (∀ m, nextInRotation s n = some m →
        ∃ u, exec (.sliceBoundary n) s = .next u ∧ u = { s with suites := u.suites, tiles := u.tiles } ∧ (getSuite u n).slice.stopping = true
          ∧ (getSuite u n).slice.waitingSlice = true
          ∧ (getSuite u n).slice.preemptBell = (getSuite s n).slice.sliceStart + (getSuite s n).slice.charged ∧ (getSuite u n).state = .running))
    ∧ (∀ event e, dueEvent s event 0x0506 = some e → e.suite = n →
      (e.arg = 0 → (getSuite s n).state = .running →
        ∃ u, exec (.gangBell event) s = .next u
          ∧ u = { s with suites := u.suites, tiles := u.tiles
                         bell := { s.bell with events := dropFirst (fun x => x.id == event) s.bell.events } }
          ∧ (getSuite u n).slice.stopping = true ∧ (getSuite u n).slice.waitingSlice = false ∧ (getSuite u n).slice.rotation = false)
      ∧ (e.arg ≠ 0 → (getSuite s n).state = .preempted →
        ∃ u, exec (.gangBell event) s = .next u
          ∧ u = { s with suites := u.suites, bell := { s.bell with events := dropFirst (fun x => x.id == event) s.bell.events } }
          ∧ (getSuite u n).slice.resumeAsked = true ∧ (getSuite u n).slice.resumeBell = s.bell.count))

/-- In a pre-emption a stopped stream that others wait for is released; a tile whose streams all stand at stop points is saved into its slot,
and with the last one the suite is PREEMPTED and its tiles are free (rules R433 to R436). -/
def Obligations.PreemptionSavesEveryTile : Prop :=
  ∀ (s : State) (t n : Nat), (getTile s t).suite = some n → (getSuite s n).state = .running → (getSuite s n).slice.stopping = true →
    (∀ k, (getStream s t k).stopped = true ∨ (getStream s t k).phase = .atGate → (getStream s t k).halted = false → releaseDue s t k = true →
        ((getStream s t k).phase = .atGate → ∀ v, v ∈ suiteSteps s n → (getStream s t k).step ≤ v + 1) →
      exec (.streamRelease t k) s = .next (updSuite (release s t k n) n (fun y =>
        { y with counts := { y.counts with releases := satInc 16 y.counts.releases } })))
    ∧ (∀ k, (getStream s t k).stopped = true → (getStream s t k).phase = .ready → (getStream s t k).halted = false → releaseDue s t k = true →
      ∃ u, exec (.streamRelease t k) s = .next u ∧ u = { s with tiles := u.tiles, suites := u.suites }
        ∧ getStream u t k = { getStream s t k with stopped := false }
        ∧ (getSuite u n).counts.releases = satInc 16 (getSuite s n).counts.releases ∧ ∀ i, i ≠ t → getTile u i = getTile s i)
    ∧ (∀ im, (getSuite s n).image = some im → (getTile s t).saved = false → (getTile s t).evalMode = false → saveReady s t = true →
      (∀ i, i ≠ t → (getTile s i).suite = some n → (getTile s i).saved = false →
        ∃ u, exec (.tileSaveComplete t) s = .next u ∧ u = { s with tiles := u.tiles, suites := u.suites }
          ∧ getTile u t = { getTile s t with saved := true }
          ∧ getSuite u n = { getSuite s n with saves := SMap.set (getSuite s n).saves (getTile s t).vtile (slotOf im (getTile s t).core) })
      ∧ ((getSuite s n).slice.stopAfter = none → (∀ p, p ∈ s.tiles → p.2.suite = some n → p.1 = t) →
        ∃ u, exec (.tileSaveComplete t) s = .next u ∧ (getSuite u n).state = .preempted ∧ (getTile u t).suite = none
          ∧ SMap.get {} (getSuite u n).saves (getTile s t).vtile = slotOf im (getTile s t).core
          ∧ (getSuite u n).counts.preempts = satInc 16 (getSuite s n).counts.preempts ∧ u.hbm = s.hbm))

/-- A resumed suite runs again from what was saved; a folded tile changes its resident virtual tile at the end of a segment; and a suite whose
drain is over is LOADED again, its tiles reset (rules R416, R428, R437, R481). -/
def Obligations.SuitesResumeSwapAndDrain : Prop :=
  ∀ (s : State) (n : Nat),
    ((getSuite s n).state = .preempted → resumeDue s n = true → groupBusy s n = false → (getSuite s n).image.isSome = true →
        resumeFailure (updSuite s n (fun x => { x with excluded := [] })) n = none →
      ∃ u, exec (.resumeRestoreComplete n []) s = .next u ∧ (getSuite u n).state = .running ∧ (getSuite u n).excluded = []
        ∧ (getSuite u n).slice.resumeAsked = false)
    ∧ (∀ t next im, (getTile s t).suite = some n → (getSuite s n).image = some im → (getSuite s n).state = .running → 1 < (getTile s t).fold →
        (getSuite s n).slice.stopping = false → SMap.has (getSuite s n).vmap next = true → SMap.get 0xFF (getSuite s n).vmap next = t →
        segmentEnd s t = true → (getTile s t).verdicts = [] → (getTile s t).passes = [] → resolutionOf s t = none →
      ((getTile s t).evalMode = false → foldNext s n t im = some next → next ≠ (getTile s t).vtile →
          (∀ k, ((SMap.get {} (getSuite s n).saves next : TileCore).stream k).cutWait = false) →
        ∃ u, exec (.foldSwap t next []) s = .next u ∧ u = { s with tiles := u.tiles, suites := u.suites }
          ∧ getTile u t = seat (getTile s t) n next (getTile s t).fold (SMap.get {} (getSuite s n).saves next)
          ∧ getSuite u n = { getSuite s n with
              saves := SMap.erase (SMap.set (getSuite s n).saves (getTile s t).vtile (slotOf im (getTile s t).core)) next })
      ∧ ((getTile s t).evalMode = false → foldNext s n t im = some next → next = (getTile s t).vtile →
          (∀ k, (getStream s t k).cutWait = false) → exec (.foldSwap t next []) s = .next s)
      ∧ ((getTile s t).evalMode = false → foldNext s n t im ≠ some next → exec (.foldSwap t next []) s = .next s)
      ∧ (∀ w w1, (getTile s t).evalMode = true → (getSuite s n).window = some w →
          w1 = { w with programsDone := if w.programsDone.contains (getTile s t).vtile then w.programsDone
                                        else w.programsDone ++ [(getTile s t).vtile] } →
          w1.programsDone.contains next = false →
          evalTurn { getSuite s n with window := some w1 } { w1 with saves := [] } t next = next →
        ∃ u, exec (.foldSwap t next []) s = .next u ∧ u = { s with tiles := u.tiles, suites := u.suites }
          ∧ (getTile u t).vtile = next ∧ (getTile u t).evalMode = true ∧ (getSuite u n).window = some w1))
    ∧ (∀ step, (getSuite s n).state = .draining → (getSuite s n).slice.stopAfter = some step →
        (∀ v, v ∈ suiteSteps s n → step < v) → (∀ p, p ∈ suiteStreams s n → (getStream s p.1 p.2).phase = .atGate) → drained s n = true →
      ∃ u, exec (.suiteDrainComplete n) s = .next u ∧ (getSuite u n).state = .loaded ∧ (getSuite u n).saves = []
        ∧ (getSuite u n).slice.stopAfter = none ∧ u.hbm = s.hbm ∧ ∀ t, (getTile s t).suite = some n → (getTile u t).suite = none)
    ∧ ((getSuite s n).state = .draining → (getSuite s n).slice.stopAfter = none → drained s n = true → (getSuite s n).job.rollback = false →
      ∃ u, exec (.suiteDrainComplete n) s = .next u ∧ (getSuite u n).state = .loaded ∧ (getSuite u n).slots = [] ∧ (getSuite u n).saves = []
        ∧ u.bringup.suiteResets = satInc 16 s.bringup.suiteResets ∧ u.hbm = s.hbm
        ∧ ∀ t, (getTile s t).suite = some n → (getTile u t).suite = none ∧ (getTile u t).core = {})
    ∧ ((getSuite s n).state = .draining → (getSuite s n).slice.stopAfter = none → drained s n = true → (getSuite s n).job.rollback = true →
        suiteStreams s n ≠ [] →
      ∃ u, exec (.suiteDrainComplete n) s = .next u ∧ (getSuite u n).state = .draining ∧ (getSuite u n).job = (getSuite s n).job
        ∧ u.hbm = s.hbm ∧ ∀ t, (getTile s t).suite = some n → (getTile u t).suite = none)

/-- A repeat whose own check differs ends the resolution as unresolved; one that agrees with the checker shows a transient fault; one that gives
a third value shows an intermittent one; a repeat of the first value borrows a third tile, whose result decides by majority; a resolution
still open at its timeout is unresolved. The record takes the class and the resolution ends (rules R453 to R455). -/
def Obligations.DisagreementsAreResolvedByRepeats : Prop :=
  ∀ (s : State) (t : Nat) (r : Resolution) (value check : Nat), resolutionOf s t = some r →
    (r.third = none →
      (check ≠ r.check → exec (.checkRepeatComplete t value check) s = .next (finishResolution s r 5 [r.value, r.check, value]))
      ∧ (check = r.check → value = r.check → exec (.checkRepeatComplete t value check) s = .next (finishResolution s r 1 [r.value, r.check, value]))
      ∧ (check = r.check → value ≠ r.check → value ≠ r.value →
        exec (.checkRepeatComplete t value check) s = .next (finishResolution s r 3 [r.value, r.check, value]))
      ∧ (check = r.check → value = r.value → value ≠ r.check → thirdTile s t = none →
        exec (.checkRepeatComplete t value check) s = .next (finishResolution s r 5 [r.value, r.check, value]))
      ∧ (∀ b, check = r.check → value = r.value → value ≠ r.check → thirdTile s t = some b →
        ∃ u, exec (.checkRepeatComplete t value check) s = .next u ∧ u = { s with tiles := u.tiles, faults := u.faults }
          ∧ (∀ q, q ∈ u.faults.resolutions → q.record = r.record → q.third = some b)
          ∧ (getTile u b).counts.thirdRuns = satInc 16 (getTile s b).counts.thirdRuns ∧ (getTile u b).core = (getTile s b).core))
    ∧ (r.third ≠ none →
      (value ≠ check → exec (.thirdRunComplete t value check) s = .next (finishResolution s r 5 [r.value, r.check, r.value, value]))
      ∧ (value = check → value = r.check → exec (.thirdRunComplete t value check) s = .next (finishResolution s r 2 [r.value, r.check, r.value, value]))
      ∧ (value = check → value = r.value → value ≠ r.check →
        exec (.thirdRunComplete t value check) s = .next (finishResolution s r 4 [r.value, r.check, r.value, value]))
      ∧ (value = check → value ≠ r.value → value ≠ r.check →
        exec (.thirdRunComplete t value check) s = .next (finishResolution s r 5 [r.value, r.check, r.value, value])))
    ∧ exec (.resolutionTimeout t) s = .next (finishResolution s r 5 [r.value, r.check])
    ∧ (∀ cls vals, (finishResolution s r cls vals).hbm = s.hbm ∧ (finishResolution s r cls vals).fuse = s.fuse)

/-- `take` of a held token, `pass` of a token not held, `pass` to the stream itself and a `wait` without its token fault the stream: it halts at
the instruction with the code, and every other stream of the tile halts or has a halt pending. A kernel that has run longer than its
duration and the suite's grace faults with KERNEL_OVERRUN and its suite is reset (rules R124, R127, R181, R186, R431). -/
def Obligations.StreamFaultsHaltTheTile : Prop :=
  (∀ (s : State) (t : Nat) (k : KStream) (w : Nat),
      (∀ tok, issues s t k (.take tok) w → holds s t k tok = true →
        exec (.take t k) s = .next (keepRestored s (faultStream s t k .tokenHeld w) t))
      ∧ (∀ x tok, issues s t k (.pass x tok) w → holds s t k tok = false →
        exec (.pass t k) s = .next (keepRestored s (faultStream s t k .tokenNotHeld w) t))
      ∧ (∀ x tok, issues s t k (.pass x tok) w → holds s t k tok = true → streamOfCode x = k →
        exec (.pass t k) s = .next (keepRestored s (faultStream s t k .tokenSelf w) t))
      ∧ (∀ sel n, issues s t k (.wait sel n) w → holds s t k (waitToken sel) = false →
        exec (.wait t k) s = .next (keepRestored s (faultStream s t k .ownership w) t))
      ∧ (∀ c : KFault, (getTile s t).suite = none →
        (getStream (faultStream s t k c w) t k).fault = c.code
        ∧ (getStream (faultStream s t k c w) t k).halted = true
        ∧ (getStream (faultStream s t k c w) t k).pc = (getStream s t k).pc
        ∧ ∀ j, j ≠ k → (getStream (faultStream s t k c w) t j) = haltStream (getStream s t j)))
  ∧ (∀ (s : State) (t n : Nat) (k : KStream), (getTile s t).suite = some n → tileRuns s t = true → (getStream s t k).kernel.isSome = true →
      ((getStream s t k).duration + (getStream s t k).grace < kernelBells s (getStream s t k) → (getSuite s n).state = .running →
        ∃ u, exec (.kernelOverrun t k) s = .next u ∧ (getSuite u n).state = .draining ∧ u.hbm = s.hbm
          ∧ ((getTile s t).evalMode = false → (getStream u t k).halted = true ∧ (getStream u t k).fault = KFault.kernelOverrun.code))
      ∧ (kernelBells s (getStream s t k) ≤ (getStream s t k).duration + (getStream s t k).grace → exec (.kernelOverrun t k) s = .next s))

/-- A write of the Attic, for a fault event at most once a second and for any other change 60 s after the last one, puts the working copy into the
bank not taken, under the next sequence number, which the Cupola then takes; a loss of
power while it runs invalidates that bank alone, and clears everything but fuses, flash and the banks (rules R470, R510 to R513). -/
def Obligations.AtticWritesTakeTheOtherBank : Prop :=
  ∀ (s : State), s.dev ≠ .off →
    (s.atticStore.writing = false → s.atticStore.pendingFault = true → writePast s s.atticStore.lastFault 1 = true →
      exec (.atticWrite true) s = .next { s with atticStore :=
        { s.atticStore with writing := true, pendingFault := false, pendingOther := false, image := s.attic
                            lastWrite := some s.attic.lifetimeS, lastFault := some s.attic.lifetimeS } })
    ∧ (s.atticStore.writing = false → s.atticStore.pendingOther = true → writePast s s.atticStore.lastWrite 60 = true →
      exec (.atticWrite false) s = .next { s with atticStore :=
        { s.atticStore with writing := true, pendingFault := false, pendingOther := false, image := s.attic
                            lastWrite := some s.attic.lifetimeS } })
    ∧ (∀ b, s.atticStore.lastWrite = some b → s.attic.lifetimeS < b + 60 → exec (.atticWrite false) s = .next s)
    ∧ (∀ b, s.atticStore.writing = true → s.atticStore.taken = 0 → s.atticStore.bank0 = some b → b.seq = s.atticStore.seq →
        s.atticStore.seq < 2 ^ 32 →
      ∃ u, exec .atticWriteComplete s = .next u ∧ u = { s with atticStore := u.atticStore } ∧ u.atticStore.bank0 = some b
        ∧ takenBank u.atticStore = some (1, { seq := (s.atticStore.seq + 1) % 2 ^ 32, data := s.atticStore.image })
        ∧ u.atticStore.taken = 1 ∧ u.atticStore.writing = false ∧ u.atticStore.writes1 = s.atticStore.writes1 + 1)
    ∧ (∀ b, s.atticStore.writing = true → s.atticStore.taken = 1 → s.atticStore.bank1 = some b → b.seq = s.atticStore.seq →
        s.atticStore.seq < 2 ^ 32 →
      ∃ u, exec .atticWriteComplete s = .next u ∧ u = { s with atticStore := u.atticStore } ∧ u.atticStore.bank1 = some b
        ∧ takenBank u.atticStore = some (0, { seq := (s.atticStore.seq + 1) % 2 ^ 32, data := s.atticStore.image })
        ∧ u.atticStore.taken = 0 ∧ u.atticStore.writing = false ∧ u.atticStore.writes0 = s.atticStore.writes0 + 1)
    ∧ (∃ u, exec .powerLoss s = .next u ∧ u.dev = .off ∧ u.fuse = s.fuse ∧ u.hbm = [] ∧ u.suites = [] ∧ u.rings = [] ∧ u.tiles = []
        ∧ u.fw.slotA = s.fw.slotA ∧ u.fw.slotB = s.fw.slotB ∧ u.host = s.host ∧ u.pending = s.pending
        ∧ (s.atticStore.writing = false → u.atticStore.bank0 = s.atticStore.bank0 ∧ u.atticStore.bank1 = s.atticStore.bank1)
        ∧ (s.atticStore.writing = true → s.atticStore.taken = 0 → u.atticStore.bank0 = s.atticStore.bank0 ∧ u.atticStore.bank1 = none)
        ∧ (s.atticStore.writing = true → s.atticStore.taken = 1 → u.atticStore.bank0 = none ∧ u.atticStore.bank1 = s.atticStore.bank1))

/-- The module goes from OFF to STANDBY with its input, from STANDBY to WAKING with its wake pin, and to TESTING when the rails, the fuses, the
Attic and a firmware image are good; each that is not leaves it FAULTED with its code (rules R470, R471, R476, R486, R504). In TESTING each
stack is trained, once more where it fails, and its memory is tested and left zero; a tile whose known-answer run fails is retired; when
everything has passed the device is READY (rules R473 to R476). -/
def Obligations.PowerOnLeadsToReady : Prop :=
  (∀ (s : State),
      (∀ mv, s.dev = .off → 44000 ≤ mv → mv ≤ 59500 →
        ∃ u, exec (.powerOn mv) s = .next u ∧ u.dev = .standby ∧ u.cup.inputMv = mv ∧ u.cup.minMv = mv
          ∧ u = { s with dev := u.dev, cup := u.cup, attic := u.attic, atticStore := u.atticStore, ports := u.ports }
          ∧ ∀ b x, takenBank s.atticStore = some (b, x) → u.attic = { x.data with resetCause := 0, resetLevel := 0 })
      ∧ (∀ held, s.dev = .standby → 1 ≤ held → thermalHold s = false →
        ∃ u, exec (.wakePin held) s = .next u ∧ u.dev = .waking ∧ u.fuse = s.fuse ∧ u.suites = [])
      ∧ (∀ held, s.dev = .draining → s.bringup.sleeping = true → 1 ≤ held →
        exec (.wakePin held) s = .next { s with bringup := { s.bringup with wakeHeld := true } })
      ∧ (∀ held, s.dev = .faulted → 1 ≤ s.bringup.code → s.bringup.code ≤ 4 → 1000 ≤ held →
        ∃ u, exec (.wakePin held) s = .next u ∧ u.dev = .draining ∧ u.bringup.resetLevel = 4)
      ∧ (s.dev = .waking → s.bringup.fusesRead = false →
        (∃ u, exec (.railsInRegulation false) s = .next u ∧ u.dev = .faulted ∧ u.bringup.code = 2 ∧ u.attic.bringupCode = 2)
        ∧ (takenBank s.atticStore = none →
          ∃ u, exec (.railsInRegulation true) s = .next u ∧ u.dev = .faulted ∧ u.bringup.code = 3)
        ∧ (takenBank s.atticStore ≠ none → exec (.railsInRegulation true) s
            = .next { s with cup := { s.cup with railsUp := true }, bringup := { s.bringup with fusesRead := true } }))
      ∧ (s.dev = .waking → s.cup.railsUp = false →
        ∃ u, exec .railRegulationTimeout s = .next u ∧ u.dev = .faulted ∧ u.bringup.code = 1)
      ∧ (s.dev = .waking → s.bringup.fusesRead = true → s.attic.fwActive = 0 →
        (∀ okB, s.fw.slotA.valid = true →
          ∃ u, exec (.firmwareVerified true okB) s = .next u ∧ u.dev = .testing ∧ u.fw.active = 0 ∧ u.fw.serving = true)
        ∧ (s.fw.slotB.valid = true →
          ∃ u, exec (.firmwareVerified false true) s = .next u ∧ u.dev = .testing ∧ u.fw.active = 1 ∧ u.fw.slotA.valid = false)
        ∧ (∃ u, exec (.firmwareVerified false false) s = .next u ∧ u.dev = .faulted ∧ u.bringup.code = 4)))
  ∧ (∀ (s : State), s.dev = .testing →
      (∀ wing, wingPresent s wing = true → wing < 8 → s.bringup.stacksTrained.contains wing = false →
        (∃ u, exec (.stackTrainingComplete wing true) s = .next u ∧ u.bringup.stacksTrained = s.bringup.stacksTrained ++ [wing]
            ∧ (getWing u wing).trained = true ∧ u = { s with wings := u.wings, bringup := u.bringup })
        ∧ (s.bringup.stackRetries.contains wing = false → exec (.stackTrainingComplete wing false) s
            = .next { s with bringup := { s.bringup with stackRetries := s.bringup.stackRetries ++ [wing] } })
        ∧ (s.bringup.stackRetries.contains wing = true →
          ∃ u, exec (.stackTrainingComplete wing false) s = .next u ∧ u.dev = .faulted ∧ u.bringup.code = 5))
      ∧ (∀ wing rows, s.bringup.stacksTrained.contains wing = true → s.bringup.memTested.contains wing = false →
        ∃ u, exec (.memoryTestComplete wing rows) s = .next u ∧ u.bringup.memTested = s.bringup.memTested ++ [wing]
          ∧ (∀ a, a / 2 ^ 31 / 64 = wing → Memory.read u.hbm a = 0#8)
          ∧ (∀ a, a / 2 ^ 31 / 64 ≠ wing → Memory.read u.hbm a = Memory.read s.hbm a) ∧ u.suites = s.suites)
      ∧ (∀ t, t < 80 → wingPresent s (t / 10) = true → (getTile s t).health.retired = false → s.bringup.karDone.contains t = false →
        (∃ u, exec (.knownAnswerRunComplete t (goldenResult s) false) s = .next u ∧ u.bringup.karDone = s.bringup.karDone ++ [t]
            ∧ (getTile u t).health.karFail = false ∧ (getTile u t).health.retired = false)
        ∧ (∀ result dis, result ≠ goldenResult s ∨ dis = true → tileBusy s t = false →
          ∃ u, exec (.knownAnswerRunComplete t result dis) s = .next u ∧ u.bringup.karDone = s.bringup.karDone ++ [t]
            ∧ (getTile u t).health.karFail = true ∧ (getTile u t).health.retired = true ∧ u.attic.tilesRetired.contains t = true))
      ∧ ((presentWings s).all s.bringup.memTested.contains = true →
          (presentTiles s).all (fun t => s.bringup.karDone.contains t || (getTile s t).health.retired) = true →
          (presentPorts s).all (fun p => (getPort s p).feed == 2 || (getPort s p).state != portTraining) = true →
        (settleReady s).dev = .ready ∧ (settleReady s).attic.bringupCode = 0 ∧ (settleReady s).hbm = s.hbm))

/-- A reset tile keeps its health, its meter, its step counters and its place in its suite and loses the rest; a reset wing keeps its memory; a
warm device reset keeps memory and a cold one does not (rules R479, R480, R482). -/
def Obligations.ResetsKeepWhatTheirLevelKeeps : Prop :=
  ∀ (s : State),
    (∀ t, t < 80 → (getTile s t).health.inReset = true →
      ∃ u, exec (.tileResetComplete t) s = .next u ∧ (getTile u t).core.store = [] ∧ (getTile u t).core.banks = []
        ∧ (getTile u t).core.tokens = List.replicate 11 .none ∧ (getTile u t).health.inReset = false ∧ (getTile u t).cdcHeld = true
        ∧ (getTile u t).health.retired = (getTile s t).health.retired ∧ (getTile u t).gov.energyUj = (getTile s t).gov.energyUj
        ∧ (getTile u t).suite = (getTile s t).suite ∧ (∀ k, (getStream u t k).step = (getStream s t k).step)
        ∧ (∀ i, i ≠ t → getTile u i = getTile s i) ∧ u.hbm = s.hbm ∧ u.suites = s.suites
        ∧ u.bringup.tileResets = satInc 8 s.bringup.tileResets)
    ∧ (∀ w, w < 8 → (getWing s w).inReset = true →
      ∃ u, exec (.wingDrainExpiry w) s = .next u ∧ (getWing u w).drained = true ∧ (getWing u w).inReset = true)
    ∧ (∀ w, w < 8 → (getWing s w).inReset = true → (getWing s w).drained = true →
      ∃ u, exec (.wingResetComplete w) s = .next u ∧ (getWing u w).inReset = false ∧ (getWing u w).lines = [] ∧ (getWing u w).trained = true
        ∧ (getWing u w).cdcHeld = true ∧ u.hbm = s.hbm ∧ u.suites = s.suites ∧ u.bringup.wingResets = satInc 8 s.bringup.wingResets)
    ∧ (s.dev = .draining → s.bringup.sleeping = false →
      ∃ u, exec .deviceDrainComplete s = .next u ∧ u.dev = .waking ∧ u.suites = [] ∧ u.streams = [] ∧ u.fuse = s.fuse
        ∧ (s.bringup.warm = true → u.hbm = s.hbm) ∧ (s.bringup.warm = false → u.hbm = []))
    ∧ (s.dev = .draining → s.bringup.sleeping = true → s.bringup.wakeHeld = false →
      ∃ u, exec .deviceDrainComplete s = .next u ∧ u.dev = .standby ∧ u.suites = [] ∧ u.hbm = [])
    ∧ (s.dev = .draining → s.bringup.sleeping = true → s.bringup.wakeHeld = true →
      ∃ u, exec .deviceDrainComplete s = .next u ∧ u.dev = .waking ∧ u.suites = [] ∧ u.hbm = [])
    ∧ (s.dev = .testing ∨ s.dev = .ready ∨ s.dev = .running →
      ∃ u, exec .hallWatchdog s = .next u ∧ u.dev = .draining ∧ u.attic.resetCause = 2 ∧ u.attic.resetLevel = 3
        ∧ u.attic.warmResets = satInc 16 s.attic.warmResets ∧ u.bringup.warm = true ∧ u.hbm = s.hbm)

/-- At its bell a firmware activation stops the Hall's service; it serves again from the staged slot, or from the previous one where the
activation timed out; after 600 s of service the slot is confirmed and the security version rises, never falling (rules R383, R486, R488,
R523). -/
def Obligations.FirmwareActivatesAndConfirms : Prop :=
  ∀ (s : State),
    (s.fw.actPending = true → s.fw.actBell ≤ s.bell.count → s.bell.state ≠ .off →
        s.suites.any (fun p => p.2.job.haltBell == some s.fw.actBell && decide (p.2.state = .running)) = false →
      ∃ u, exec .fwActivation s = .next u ∧ u = { s with fw := u.fw, bell := u.bell } ∧ u.fw.inActivation = true
        ∧ u.fw.actPending = false ∧ u.fw.active = s.fw.active ∧ u.fw.heldRegs = holdRegs s ∧ u.bell.count = s.bell.count)
    ∧ (s.fw.inActivation = true → s.fw.fellBack = false →
      ∃ u, exec .fwActivationTimeout s = .next u ∧ u = { s with fw := u.fw, attic := u.attic, atticStore := u.atticStore, rings := u.rings }
        ∧ u.fw.fellBack = true ∧ u.fw.reverted = true ∧ u.fw.stage = 3 ∧ u.attic.fwReverted = true ∧ u.fw.active = s.fw.active)
    ∧ (s.fw.inActivation = true →
      ∃ t, exec .hallServesAgain s = .next (s.fw.heldPackets.foldl (fun st p => takePacket st p.1 p.2) (s.fw.keptWrites.foldl applyKept t))
        ∧ t = { s with fw := t.fw, rings := t.rings } ∧ t.fw.inActivation = false ∧ t.fw.heldPackets = [] ∧ t.fw.keptWrites = []
        ∧ (s.fw.fellBack = false → t.fw.active = 1 - s.fw.active ∧ t.fw.confirmed = false ∧ t.fw.reverted = false)
        ∧ (s.fw.fellBack = true → t.fw.active = s.fw.active ∧ t.fw.confirmed = s.fw.confirmed ∧ t.fw.reverted = true ∧ t.fw.stage = 3)
        ∧ t.fw.servedBell = s.bell.count)
    ∧ (s.fw.serving = true → s.fw.inActivation = false → s.fw.confirmed = false → s.fw.servedBell + 600000000 ≤ s.bell.count →
      ∃ u, exec .fwConfirmation s = .next u ∧ u = { s with fw := u.fw, attic := u.attic, atticStore := u.atticStore }
        ∧ u.fw.confirmed = true ∧ u.attic.fwActive = s.fw.active ∧ u.attic.fwConfirmed = true
        ∧ u.fw.fwMinSvn = max s.fw.fwMinSvn (slotOfFw s.fw s.fw.active).svn ∧ minSvn s ≤ minSvn u)

/-- A low input warns and clamps every tile until it clears; a dip and an overvoltage are only recorded; a brown-out and a hot junction take the
compute rails away, memory with them, and leave the device in STANDBY, from which it wakes by itself (rules R494, R498 to R502). -/
def Obligations.SupplyAndHeatAreActedOn : Prop :=
  ∀ (s : State), s.dev ≠ .off →
    (∀ mv low, s.cup.warn = false → mv < 46000 →
      ∃ u, exec (.supplyWarn mv low) s = .next u ∧ u = { s with cup := u.cup, rings := u.rings } ∧ u.cup.warn = true
        ∧ u.cup.warns = satInc 16 s.cup.warns ∧ u.cup.inputMv = mv ∧ u.cup.rawMv = low ∧ u.cup.minMv = min s.cup.minMv low ∧ u.cup.warnMin = low)
    ∧ (∀ dur low, s.cup.warn = true →
      ∃ u, exec (.supplyWarnClear dur low) s = .next u ∧ u = { s with cup := u.cup, rings := u.rings } ∧ u.cup.warn = false
        ∧ u.cup.supplyLast = min s.cup.warnMin low ∧ u.cup.supplyDur = dur % 2 ^ 32 ∧ u.cup.minMv = min s.cup.minMv low)
    ∧ (∀ mv dur, 36000 ≤ mv → mv < 42000 → dur < 20 →
      ∃ u, exec (.dip mv dur) s = .next u ∧ u = { s with cup := u.cup } ∧ u.cup.dips = satInc 16 s.cup.dips ∧ u.cup.warn = s.cup.warn
        ∧ u.cup.inputMv = s.cup.inputMv ∧ u.cup.minMv = min s.cup.minMv mv)
    ∧ (∀ mv, 59500 < mv → ∃ u, exec (.overvolt mv) s = .next u ∧ u = { s with cup := u.cup } ∧ u.cup.overvolt = true ∧ u.cup.inputMv = mv)
    ∧ (∀ mv, mv ≤ 59000 → ∃ u, exec (.overvoltClear mv) s = .next u ∧ u = { s with cup := u.cup } ∧ u.cup.overvolt = false)
    ∧ (∀ mv, exec (.restart mv) s = .next { s with cup := { s.cup with rawMv := mv, minMv := mv } })
    ∧ (∀ mv, mv < 42000 → s.dev ≠ .standby →
      ∃ u, exec (.brownOut mv) s = .next u ∧ u.dev = .standby ∧ u.hbm = [] ∧ u.suites = [] ∧ u.cup.down = some 4 ∧ u.fuse = s.fuse
        ∧ u.attic.brownouts = satInc 16 s.attic.brownouts ∧ u.attic.resetCause = 4)
    ∧ (∀ mv, mv < 42000 → s.dev = .standby →
      ∃ u, exec (.brownOut mv) s = .next u ∧ u = { s with attic := u.attic, atticStore := u.atticStore, cup := u.cup }
        ∧ u.attic = { s.attic with brownouts := satInc 16 s.attic.brownouts } ∧ u.cup.minMv = min s.cup.minMv mv)
    ∧ (s.dev = .standby → s.cup.down = some 4 → ∃ u, exec .brownoutRecoveryWake s = .next u ∧ u.dev = .waking ∧ u.fuse = s.fuse)
    ∧ (∀ sensor temp, sensor ≤ 58 → 420 ≤ temp →
      ∃ u, exec (.throttle sensor temp) s = .next u ∧ u = { s with cup := u.cup, attic := u.attic, rings := u.rings } ∧ u.cup.throttle = true
        ∧ SMap.get 0 u.cup.temps sensor = temp
        ∧ (s.cup.throttle = false → u.cup.throttles = satInc 8 s.cup.throttles) ∧ (s.cup.throttle = true → u.rings = s.rings))
    ∧ (s.cup.throttle = true → s.wings.all (fun p => decide (p.2.temp ≤ 412)) = true →
      ∃ u, exec .throttleClear s = .next u ∧ u = { s with cup := { s.cup with throttle := false }, rings := u.rings })
    ∧ (∀ temp, 160 < temp →
      ∃ u, exec (.coolantHot temp) s = .next u ∧ u = { s with cup := u.cup, attic := u.attic } ∧ u.cup.coolantHot = true)
    ∧ (∀ temp, temp ≤ 156 →
      ∃ u, exec (.coolantHotClear temp) s = .next u ∧ u = { s with cup := u.cup, attic := u.attic } ∧ u.cup.coolantHot = false)
    ∧ (∀ sensor temp, s.dev ≠ .standby → (sensor ≤ 58 ∧ 460 ≤ temp) ∨ (59 ≤ sensor ∧ sensor ≤ 61 ∧ 500 ≤ temp) →
      ∃ u, exec (.thermalShutdown sensor temp) s = .next u ∧ u.dev = .standby ∧ u.hbm = [] ∧ u.suites = [] ∧ u.cup.down = some 5
        ∧ u.attic.shutdowns = satInc 16 s.attic.shutdowns ∧ u.attic.resetCause = 5)
    ∧ (s.dev = .standby → s.cup.down = some 5 →
        (s.cup.thermalWakes.filter (fun t => decide (s.attic.lifetimeS < t + 86400))).length < 3 →
      ∃ u, exec .thermalRecoveryWake s = .next u ∧ u.dev = .waking ∧ u.cup.thermalWakes.contains s.attic.lifetimeS = true)

/-- A tile's clock steps down for current and temperature and up again, never below its floor, and its issue pauses at 110 °C at the floor; none
of it touches what the tile computes. A telemetry sample latches the input, the temperatures and the rails and only raises the meters; the
mirror block takes what the Cupola and the Attic hold at the copy (rules R496, R505 to R508, R515, R517). -/
def Obligations.GovernorsAndTelemetryFollowTheMeters : Prop :=
  (∀ (s : State) (t : Nat), clocked s t = true →
      (exec (.tileDroop t) s = .next (updGov s t (fun g => { g with droop := true, droopBell := some s.bell.count })))
      ∧ (exec (.droopRecovery t) s = .next (updGov s t (fun g => { g with droop := false })))
      ∧ ((getTile s t).gov.currentSteps < 60 →
        exec (.tileCurrentLimit t) s = .next (updGov s t (fun g => { g with currentSteps := g.currentSteps + 1, downSteps := satInc 16 g.downSteps }))
          ∧ tileMhz (updGov s t (fun g => { g with currentSteps := g.currentSteps + 1, downSteps := satInc 16 g.downSteps })) t ≤ tileMhz s t)
      ∧ (∀ temp, 420 ≤ temp → (getTile s t).gov.tempSteps < 60 →
        exec (.tileTempStepDown t temp) s = .next (updGov s t (fun g => { g with tempSteps := g.tempSteps + 1, downSteps := satInc 16 g.downSteps })))
      ∧ (∀ temp, temp < 412 → 0 < (getTile s t).gov.tempSteps →
        exec (.tileTempStepUp t temp) s = .next (updGov s t (fun g => { g with tempSteps := g.tempSteps - 1 })))
      ∧ (∀ temp, temp < 412 → (getTile s t).gov.tempSteps = 0 →
        exec (.tileTempStepUp t temp) s = .next (updGov s t (fun g => { g with currentSteps := g.currentSteps - 1 })))
      ∧ (∀ temp, 440 ≤ temp → tileMhz s t = 800 →
        exec (.tileIssuePause t temp) s = .next (updGov s t (fun g => { g with paused := true })))
      ∧ (∀ temp, temp < 432 → (getTile s t).gov.paused = true →
        exec (.issuePauseEnd t temp) s = .next (updGov s t (fun g => { g with paused := false })))
      ∧ (∀ f, onlyTile s (updGov s t f) t ∧ (getTile (updGov s t f) t).core = (getTile s t).core
          ∧ (getTile (updGov s t f) t).gov = f (getTile s t).gov)
      ∧ 800 ≤ tileMhz s t ∧ tileMhz s t ≤ 2300 ∧ tileMhz s t % 25 = 0)
  ∧ (∀ (s : State),
      (∀ sample, s.bell.state ≠ .off →
        ∃ u, exec (.telemetrySample sample) s = .next u
          ∧ u = { s with cup := u.cup, attic := u.attic, tiles := u.tiles, wings := u.wings, portExtra := u.portExtra, suites := u.suites }
          ∧ u.cup.inputMv = sample.inputMv ∧ u.cup.minMv = min s.cup.minMv sample.lowMv ∧ u.cup.inputMa = sample.inputMa ∧ u.cup.energyUj = max s.cup.energyUj sample.totalUj
          ∧ u.cup.commonUj = max s.cup.commonUj sample.commonUj
          ∧ (∀ t, (getTile u t).core = (getTile s t).core ∧ (getTile s t).gov.energyUj ≤ (getTile u t).gov.energyUj)
          ∧ (∀ i, i < sample.temps.length → SMap.get (-512) u.cup.temps i = sample.temps.getD i (-512))
          ∧ (∀ i, i < sample.rails.length → SMap.get 0 u.cup.rails i = sample.rails.getD i 0))
      ∧ (s.dev ≠ .off → s.dev ≠ .standby → s.dev ≠ .waking →
        ∃ u, exec .cupolaMirrorCopy s = .next u ∧ u = { s with cup := { s.cup with mirror := u.cup.mirror } }
          ∧ u.cup.mirror.inputMv = s.cup.inputMv ∧ u.cup.mirror.minMv = s.cup.minMv ∧ u.cup.mirror.warn = s.cup.warn
          ∧ u.cup.mirror.throttle = s.cup.throttle ∧ u.cup.mirror.coolantHot = s.cup.coolantHot ∧ u.cup.mirror.overvolt = s.cup.overvolt
          ∧ u.cup.mirror.bank = s.atticStore.taken ∧ u.cup.mirror.seq = s.atticStore.seq ∧ u.cup.mirror.lifetime = s.attic.lifetimeS
          ∧ u.cup.mirror.brownouts = s.attic.brownouts ∧ u.cup.mirror.energyUj = s.cup.energyUj ∧ u.cup.mirror.temps = s.cup.temps))

/-- Doorbells and ring control: a tail or head beyond the ring stops it with its error, a good one has the slots read or frees them; a ring that
is enabled starts at index 0 and one that is disabled ends its session and drops what had not started; an event goes out only with more than
eight slots free; READY_STEP never falls (rules R272, R371 to R375, R380, R385). -/
def Obligations.RingsTakeDoorbellsAndEvents : Prop :=
  ∀ (s : State) (f : Nat), reachable s f = true →
    (s.fw.inActivation = true → ∀ v n,
      exec (.sqTailDoorbell f v) s = .next { s with fw := { s.fw with keptWrites := s.fw.keptWrites ++ [(f, ringAddr f 0x24, v)] } }
        ∧ exec (.cqHeadDoorbell f v) s = .next { s with fw := { s.fw with keptWrites := s.fw.keptWrites ++ [(f, ringAddr f 0x2C, v)] } }
        ∧ exec (.eventPost f) s = .next s
        ∧ ((if f = 0 then n else f - 1) < 8 → (getSuite s (if f = 0 then n else f - 1)).state ≠ .absent →
          exec (.readyStepWrite f n v) s = .next { s with fw := { s.fw with
            keptWrites := s.fw.keptWrites ++ [(f, 0x900C + 0x40 * (if f = 0 then n else f - 1), v)] } }))
    ∧ (s.fw.inActivation = false →
      (∀ v, (getRing s f).enable = true → (getRing s f).stopped = false →
        (2 ^ (getRing s f).sqLog2 ≤ v % 4096 →
          ∃ u, exec (.sqTailDoorbell f v) s = .next u ∧ u = { s with rings := u.rings }
            ∧ getRing u f = { getRing s f with stopped := true, error := 1 })
        ∧ (v % 4096 < 2 ^ (getRing s f).sqLog2 →
            ((getRing s f).sqTail + 2 ^ (getRing s f).sqLog2 - (getRing s f).sqHead) % 2 ^ (getRing s f).sqLog2
              + (v % 4096 + 2 ^ (getRing s f).sqLog2 - (getRing s f).sqTail) % 2 ^ (getRing s f).sqLog2 < 2 ^ (getRing s f).sqLog2 →
          exec (.sqTailDoorbell f v) s = .next (readSlots (updRing s f (fun x => { x with sqTail := v % 4096 })) f 4096))
        ∧ (v % 4096 = (getRing s f).sqHead → (getRing s f).sqTail = (getRing s f).sqHead → (getRing s f).sqHead < 2 ^ (getRing s f).sqLog2 →
          ∃ u, exec (.sqTailDoorbell f v) s = .next u ∧ getRing u f = { getRing s f with sqTail := v % 4096 } ∧ u.host = s.host)
        ∧ (2 ^ (getRing s f).cqLog2 ≤ v % 4096 →
          ∃ u, exec (.cqHeadDoorbell f v) s = .next u ∧ u = { s with rings := u.rings }
            ∧ getRing u f = { getRing s f with stopped := true, error := 1 })
        ∧ (v % 4096 < 2 ^ (getRing s f).cqLog2 →
            (v % 4096 + 2 ^ (getRing s f).cqLog2 - (getRing s f).cqHead) % 2 ^ (getRing s f).cqLog2
              ≤ ((getRing s f).cqTail + 2 ^ (getRing s f).cqLog2 - (getRing s f).cqHead) % 2 ^ (getRing s f).cqLog2 →
          exec (.cqHeadDoorbell f v) s = .next (postWaiting (updRing s f (fun x => { x with cqHead := v % 4096 })) (.ring f))))
      ∧ (∀ v, bit v 0 = true → (getRing s f).enable = false →
        ∃ u, exec (.ringEnable f v) s = .next u ∧ u = { s with rings := u.rings } ∧ (getRing u f).enable = true
          ∧ (getRing u f).sqHead = 0 ∧ (getRing u f).sqTail = 0 ∧ (getRing u f).cqHead = 0 ∧ (getRing u f).cqTail = 0
          ∧ (getRing u f).stopped = false ∧ (getRing u f).error = 0 ∧ (getRing u f).irqEn = bit v 1 ∧ (getRing u f).queue = (getRing s f).queue)
      ∧ (∀ v, bit v 0 = false →
        ∃ u, exec (.ringDisable f v) s = .next u ∧ u = { s with rings := u.rings } ∧ (getRing u f).enable = false
          ∧ (getRing u f).session = false ∧ (getRing u f).held = []
          ∧ (getRing u f).queue = (getRing s f).queue.filter (fun w => w.executing && !(isRelayed w.pkt))
          ∧ ∀ i, i ≠ f → getRing u i = getRing s i)
      ∧ (∀ e rest, (getRing s f).held = e :: rest → (getRing s f).enable = true → (getRing s f).stopped = false →
          bit (getRing s f).features 5 = true → 8 < freeSlots (getRing s f) →
        exec (.eventPost f) s = .next (postSlot (updRing s f (fun x => { x with held := rest })) f (packetBytes e)))
      ∧ (∀ e rest, (getRing s f).held = e :: rest → freeSlots (getRing s f) ≤ 8 → exec (.eventPost f) s = .next s)
      ∧ (∀ n v, (if f = 0 then n else f - 1) < 8 → (getSuite s (if f = 0 then n else f - 1)).state ≠ .absent →
        ∃ u, exec (.readyStepWrite f n v) s = .next u ∧ u = { s with suites := u.suites }
          ∧ (getSuite u (if f = 0 then n else f - 1)).readyStep = max (getSuite s (if f = 0 then n else f - 1)).readyStep (v % 2 ^ 32)))

/-- A packet that is posted goes whole into the completion slot at CQ_TAIL, then the new tail goes to the shadow address, and the tail moves on
by one; a failing access stops the ring with code 2 and moves nothing (rules R374, R385). -/
def Obligations.PostedPacketsFillTheSlotAtTheTail : Prop :=
  ∀ (s : State) (f : Nat) (p : Bytes),
    (hostFails s ((getRing s f).cqBase + 4096 * (getRing s f).cqTail) p.length = false → hostFails s (getRing s f).shadow 4 = false →
        (getRing s f).shadow + 4 ≤ (getRing s f).cqBase + 4096 * (getRing s f).cqTail
          ∨ (getRing s f).cqBase + 4096 * (getRing s f).cqTail + p.length ≤ (getRing s f).shadow →
        Memory.wf s.host.mem = true →
      hostBytes (postSlot s f p) ((getRing s f).cqBase + 4096 * (getRing s f).cqTail) p.length = p
        ∧ hostBytes (postSlot s f p) (getRing s f).shadow 4 = natLE (((getRing s f).cqTail + 1) % 2 ^ (getRing s f).cqLog2) 4
        ∧ getRing (postSlot s f p) f = { getRing s f with cqTail := ((getRing s f).cqTail + 1) % 2 ^ (getRing s f).cqLog2 }
        ∧ (∀ a, (a < (getRing s f).cqBase + 4096 * (getRing s f).cqTail
              ∨ (getRing s f).cqBase + 4096 * (getRing s f).cqTail + p.length ≤ a) →
            (a < (getRing s f).shadow ∨ (getRing s f).shadow + 4 ≤ a) →
            Memory.read (postSlot s f p).host.mem a = Memory.read s.host.mem a)
        ∧ (postSlot s f p).outbox.length = s.outbox.length + (if (getRing s f).irqEn then 1 else 0))
    ∧ (hostFails s ((getRing s f).cqBase + 4096 * (getRing s f).cqTail) p.length = true →
      postSlot s f p = { s with rings := (postSlot s f p).rings } ∧ getRing (postSlot s f p) f = { getRing s f with stopped := true, error := 2 })

/-- A read of a register completes with its value and clears its read-to-clear fields; a read of a low word latches the high word for the
function that read it; a write changes only a writable field, in range, and nothing in a block that is in reset; an access of any size but
four bytes reads all ones and writes nothing (rules R9, R10, R519 to
R522, R530). -/
def Obligations.RegistersReadClearAndWrite : Prop :=
  ∀ (s : State) (f addr : Nat), accessible s f addr = true →
    (∃ u, exec (.rcRead f addr 4) s = .next u ∧ u.outbox = s.outbox ++ [⟨.completion f, .read, natLE (readValue s f addr) 4⟩]
        ∧ u.hbm = s.hbm ∧ u.fuse = s.fuse ∧ u.host = s.host)
    ∧ (∀ a, pfOffset s f addr = some a → s.dev ≠ .waking → blockInReset s a = false → s.fw.inActivation = false →
      ∃ u, exec (.rcRead f addr 4) s = .next u ∧ ∀ r, r ∈ rcFields a → r.get u = 0)
    ∧ (∀ a, pfOffset s f addr = some a → s.dev = .waking ∨ blockInReset s a = true →
      exec (.rcRead f addr 4) s = .next (complete s f (readValue s f addr)))
    ∧ (∀ a h, pfOffset s f addr = some a → s.dev ≠ .waking → addr % 4 = 0 → highOf a = some h →
      ∃ u, exec (.loReadLatch f addr 4) s = .next u ∧ u = { s with bnd := u.bnd, outbox := u.outbox }
        ∧ SMap.get 0 u.bnd.latches (2 ^ 32 * f + (addr + (h - a))) = funcValue s f (addr + (h - a))
        ∧ u.outbox = s.outbox ++ [⟨.completion f, .read, natLE (readValue s f addr) 4⟩])
    ∧ (∀ size, size ≠ 4 →
      (exec (.rcRead f addr size) s = .next { s with outbox := s.outbox ++ [⟨.completion f, .read, List.replicate size 255#8⟩] })
      ∧ (exec (.loReadLatch f addr size) s = exec (.rcRead f addr size) s)
      ∧ ∀ v, exec (.registerWrite f addr v size) s = .next s)
    ∧ (∀ v, addr % 4 ≠ 0 ∨ s.dev = .waking → exec (.registerWrite f addr v 4) s = .next s)
    ∧ (∀ a v, pfOffset s f addr = some a → blockInReset s a = true → exec (.registerWrite f addr v 4) s = .next s)
    ∧ (∀ v, addr % 4 = 0 → s.dev ≠ .waking → (∀ a, pfOffset s f addr = some a → blockInReset s a = false) →
      exec (.registerWrite f addr v 4) s = .next (writeFunc s f addr v))
    ∧ (∀ n v, n < 8 → imaged s n = true → storeReg s (0x9004 + 0x40 * n) v
        = (if 1 ≤ lo32 v % 2 ^ 10 ∧ lo32 v % 2 ^ 10 ≤ 1000 then updSuite s n (fun su => { su with timeoutMs := lo32 v % 2 ^ 10 }) else s))

namespace Sys2Proof.Says

/-- The module answers on the management interface with one message of a type. -/
abbrev answersWith (s u : State) (type : Nat) : Prop := ∃ b, u.outbox = s.outbox ++ [⟨.sideband, .mctp, natLE type 1 ++ natLE 0 1 ++ b⟩]

end Sys2Proof.Says

/-- The PCIe boundary: a reset of the endpoint, or a link that goes down, resets every function's ring but not the link sessions; a function in
D3hot stops its ring, and posts the replies that waited when it returns to D0. In FAULTED the test port samples and drives the connector's
positions, and is in bypass in every other state (rules R385, R543, R547, R548). The management interface answers control, sensor and
inventory requests in every powered state, SPDM in order, and takes a firmware update only while FAULTED with NO_FIRMWARE, which then resets
the device; an acknowledged signature is announced no more. How the messages are framed and numbered is the model's reading
(notes/assumptions/40.md) (rules R462, R477, R490, R507, R546). -/
def Obligations.TheBoundaryAndManagementInterfaceAnswer : Prop :=
  (∀ (s : State),
      (s.bnd.perst = false → endpointOn s = true →
        ∃ u, exec .perstAssert s = .next u ∧ u = { s with rings := u.rings, bnd := u.bnd } ∧ u.bnd.perst = true ∧ u.bnd.d3hot = []
          ∧ (∀ k, k < 16 → (getRing u k).enable = false ∧ (getRing u k).queue = [] ∧ (getRing u k).sessions = (getRing s k).sessions)
          ∧ (∀ k, 16 ≤ k → getRing u k = getRing s k))
      ∧ (s.bnd.perst = false → endpointOn s = false → exec .perstAssert s = .next { s with bnd := { s.bnd with perst := true } })
      ∧ (s.bnd.perst = true → exec .perstDeassert s = .next { s with bnd := { s.bnd with perst := false } })
      ∧ (s.bnd.perst = false → endpointOn s = true → exec .linkDown s = .next (endpointReset s)
          ∧ (endpointReset s).bnd.d3hot = [] ∧ (endpointReset s).bnd.msix = [] ∧ (endpointReset s).hbm = s.hbm)
      ∧ (∀ f, s.bnd.perst = false → endpointOn s = true → f < 9 → s.bnd.d3hot.contains f = false →
        exec (.d3hot f) s = .next { s with bnd := { s.bnd with d3hot := s.bnd.d3hot ++ [f] } })
      ∧ (∀ f, s.bnd.d3hot.contains f = true →
        exec (.d0 f) s = .next (postWaiting (readSlots { s with bnd := { s.bnd with d3hot := s.bnd.d3hot.filter (fun x => x != f) } } f 4096) (.ring f)))
      ∧ (s.dev ≠ .off → exec .bypass s = .next { s with bnd := { s.bnd with jtagInstr := 0, bypassBit := false, extest := false } })
      ∧ (∀ pins, s.dev ≠ .off → s.dev ≠ .faulted → exec (.samplePreload pins) s = .next (selectBypass s) ∧ exec .extest s = .next (selectBypass s))
      ∧ (∀ pins, s.dev = .faulted →
        ∃ u, exec (.samplePreload pins) s = .next u ∧ u = { s with bnd := u.bnd } ∧ u.bnd.extest = false
          ∧ ∀ i, i < boundaryCells → SMap.get 2 u.bnd.bsr i = pins.getD i 0 % 2)
      ∧ (s.dev = .faulted →
        ∃ u, exec .extest s = .next u ∧ u.bnd.extest = true
          ∧ u.outbox = s.outbox ++ [⟨.pins, .pin, s.bnd.bsr.map (fun p => BitVec.ofNat 8 p.2)⟩]))
  ∧ (∀ (s : State) (msg : Bytes), s.dev ≠ .off →
      (∃ u, exec (.mctpControl msg) s = .next u ∧ answersWith s u 0 ∧ u = { s with bnd := u.bnd, outbox := u.outbox, free := s.free + 1 }
          ∧ (fieldAt msg 1 1 = 1 → u.bnd.mctpEid = fieldAt msg 3 1))
      ∧ (∀ sensor, ∃ u, exec (.pldmSensorRead sensor) s = .next u ∧ answersWith s u 1 ∧ u = { s with outbox := u.outbox })
      ∧ (∃ u, exec .pldmFirmwareInventory s = .next u ∧ u = { s with outbox := u.outbox }
          ∧ u.outbox = s.outbox ++ [⟨.sideband, .mctp, natLE 1 1 ++ natLE 0 1
            ++ (natLE (bnat s.fw.slotA.valid) 1 ++ natLE s.fw.slotA.version 4 ++ natLE s.fw.slotA.svn 1
              ++ (natLE (bnat s.fw.slotB.valid) 1 ++ natLE s.fw.slotB.version 4 ++ natLE s.fw.slotB.svn 1))⟩])
      ∧ (∀ offset data last, noFirmware s = true → offset + data.length ≤ 2 ^ 24 →
        ∃ u, exec (.pldmFirmwareUpdate offset data last) s = .next u ∧ answersWith s u 1 ∧ u = { s with fw := u.fw, bnd := u.bnd, outbox := u.outbox }
          ∧ u.fw.slotB = s.fw.slotB
          ∧ u.fw.slotA.image = putBytes (if offset = 0 then [] else s.fw.slotA.image) offset data
          ∧ (u.fw.slotA.valid = true → last = true ∧ imageVerifies s u.fw.slotA.image = true))
      ∧ (∀ offset data last, noFirmware s = false → ∃ u, exec (.pldmFirmwareUpdate offset data last) s = .next u ∧ u.fw = s.fw
          ∧ u = { s with outbox := u.outbox })
      ∧ (noFirmware s = true → s.bnd.pldmUpdate = 2 → ∃ u, exec .activateFirmware s = .next u ∧ u.dev = .draining ∧ u.bringup.resetLevel = 4)
      ∧ (noFirmware s = false → exec .activateFirmware s = .next (refuseMctp s mctpPldm))
      ∧ (∀ ack, hallAnswers s = true →
        ∃ u, exec (.pollForPlatformEventMessage ack) s = .next u ∧ answersWith s u 1
          ∧ u = { s with outbox := u.outbox, faults := { s.faults with announced := s.faults.announced.filter (fun p => p.1 != ack) } })
      ∧ (hallAnswers s = true →
        (∃ u, exec (.getVersion msg) s = .next u ∧ answersWith s u 5 ∧ u.bnd.spdmState = 1 ∧ u.bnd.transcript = msg ++ natLE 0x12 1)
        ∧ (1 ≤ s.bnd.spdmState → ∃ u, exec (.getCapabilities msg) s = .next u ∧ answersWith s u 5 ∧ 2 ≤ u.bnd.spdmState)
        ∧ (2 ≤ s.bnd.spdmState → ∃ u, exec (.negotiateAlgorithms msg) s = .next u ∧ answersWith s u 5 ∧ 3 ≤ u.bnd.spdmState)
        ∧ (3 ≤ s.bnd.spdmState →
          (∃ u, exec (.getDigests msg) s = .next u ∧ u.outbox = s.outbox ++ [⟨.sideband, .mctp, natLE 5 1 ++ natLE 0 1 ++ sha384 Config.certificate⟩])
          ∧ (∃ u, exec (.getCertificate msg) s = .next u ∧ u.outbox = s.outbox ++ [⟨.sideband, .mctp, natLE 5 1 ++ natLE 0 1 ++ Config.certificate⟩])
          ∧ (∃ u, exec (.challenge msg) s = .next u ∧ answersWith s u 5 ∧ u.free = s.free + 1)
          ∧ (∃ u, exec (.getMeasurements msg) s = .next u ∧ answersWith s u 5))
        ∧ (s.bnd.spdmState < 3 → exec (.getDigests msg) s = .next (refuseMctp s mctpSpdm))))

namespace Sys2Proof.Says

/-- `s` with the waiting command `w` of a source marked as executing. -/
abbrev taken (s : State) (src : Src) (w : Waiting) : State :=
  updRing s (ringKey src) (fun r => { r with queue := r.queue.map (fun x => if x = w then { x with executing := true } else x) })

/-- `w` is the oldest waiting command of its source with a tag and an opcode, and it may start in this Hall (rules R376 to R384). -/
abbrev Begins (s : State) (src : Src) (tag op : Nat) (w : Waiting) : Prop :=
  (getRing s (ringKey src)).queue.find? (fun x => x.pkt.tag == tag && x.pkt.opcode == op && !x.executing && x.reply.isNone) = some w
    ∧ startable s src w = true ∧ isHere s src w.pkt = true ∧ (isBroadcast w.pkt = false ∨ w.relayed = true)

/-- It begins, and neither the function, nor the device state, nor an absent suite refuses it (rules R383, R388): `n` is the suite it names,
`b` its payload. -/
abbrev Runs (s : State) (src : Src) (tag op : Nat) (w : Waiting) (n : Nat) (b : Bytes) : Prop :=
  Begins s src tag op w ∧ pfOnly src w.pkt = false ∧ admits s src w.pkt = true ∧ targetOf src w.pkt = n ∧ bodyOf w.pkt = b
    ∧ (n = 0xFF ∨ op = 0x0200 ∨ op ≤ 1 ∨ (getSuite s n).state ≠ .absent)

/-- The ports that use a Lantern and cannot go over to their other feed (rule R310). -/
abbrev stuckPorts (s : State) (l : Nat) : List Nat :=
  ((lanternPorts l).filter (fun p => portPresent s p && ((getPort s p).feed == feedFrom p l))).filter
    (fun p => !(feedLit s p (1 - feedFrom p l)) || (getPort s p).miswired.contains (1 - feedFrom p l))

/-- What a RESET of a suite does first (rules R393, R402): it ends the suite's commands and notes what is in flight. -/
abbrev beforeReset (s : State) (src : Src) (tag : Nat) (w : Waiting) (n : Nat) : State :=
  updSuite (setNote (updSuite (abortWhere (taken s src w) 0x0102 (fun sr x => targetOf sr x.pkt == n && endedByReset x.pkt.opcode)) n
    (fun su => { su with receiving := [] })) src tag [(getSuite s n).counts.absorbed, flying s (suiteEntries s n) + waitingOn s (suiteEntries s n)]) n
    (fun su => { su with job := { su.job with rollback := false } })

end Sys2Proof.Says

/-- The queries and HELLO reply at once, and change nothing but the session (HELLO) and the voltage minimum (POWER_INFO): each reply's fields
are those of the tables, and what is not there to be read is NOT_FOUND (rules R264, R351, R379, R380, R393, R396, R398 to R400, R446, R449). -/
def Obligations.QueriesReplyWithTheirFields : Prop :=
  ∀ (s : State) (src : Src) (tag n : Nat) (w : Waiting) (b : Bytes),
    (Runs s src tag 0x0000 w n b →
      (∀ i, (commonVersions b).findIdx? (fun l => l.isEmpty) = some i → exec (.hello src tag) s = .next (finish (taken s src w) src tag 0x0503 (i + 1) []))
      ∧ ((commonVersions b).findIdx? (fun l => l.isEmpty) = none → ∃ u body, exec (.hello src tag) s = .next (finish u src tag 0 0 body)
        ∧ u = { s with rings := u.rings } ∧ (getRing u (ringKey src)).session = true
        ∧ (getRing u (ringKey src)).cmdVersion = highest (commonBits 12 (fieldAt b 0 4))
        ∧ (getRing u (ringKey src)).imageVersions = commonBits 6 (fieldAt b 4 4)
        ∧ (getRing u (ringKey src)).sessions = (getRing s (ringKey src)).sessions + 1
        ∧ body.length = 20 ∧ fieldAt body 0 1 = (getRing u (ringKey src)).cmdVersion ∧ fieldAt body 4 8 = (getRing u (ringKey src)).features))
    ∧ (Runs s src tag 0x0001 w n b → exec (.getInfo src tag) s = .next (finish (taken s src w) src tag 0 0 (if fieldAt b 0 1 = 0 then identityBytes s else if fieldAt b 0 1 = 1 then capacityInfo s else stateInfo s)))
    ∧ (Runs s src tag 0x0800 w n b → ∃ body, exec (.bellGet src tag) s = .next (finish (taken s src w) src tag 0 0 body)
        ∧ body.length = 16 ∧ fieldAt body 0 8 = s.bell.count % 2 ^ 64 ∧ fieldAt body 8 1 = bellStateCode s.bell.state
        ∧ fieldAt body 9 1 = s.bell.source % 256)
    ∧ (Runs s src tag 0x0801 w n b → ∃ l body, exec (.eventList src tag) s = .next (finish (taken s src w) src tag 0 0 body)
        ∧ l = ((seenEvents s n).filter (fun e => decide (fieldAt b 0 4 ≤ e.id))).take 254
        ∧ body.length = 4 + 16 * l.length ∧ fieldAt body 0 2 = l.length)
    ∧ (Runs s src tag 0x0900 w n b → ∃ body,
        exec (.powerInfo src tag) s = .next (finish { (taken s src w) with cup := { s.cup with readMin := 0xFFFF } } src tag 0 0 body)
          ∧ body.length = 24 ∧ fieldAt body 0 4 = s.cup.inputMv % 2 ^ 32 ∧ fieldAt body 4 4 = s.cup.inputMa % 2 ^ 32
          ∧ fieldAt body 8 4 = s.cup.readMin % 2 ^ 32 ∧ fieldAt body 16 8 = s.cup.energyUj % 2 ^ 64)
    ∧ (Runs s src tag 0x0903 w n b → exec (.lanternInfo src tag) s = .next (finish (taken s src w) src tag 0 0 (natLE (getLantern s (fieldAt b 0 1)).state 1 ++ natLE 0 3 ++ natLE (getLantern s (fieldAt b 0 1)).serial 8
          ++ natLE (getLantern s (fieldAt b 0 1)).hours 4 ++ natLE (unsignedOf 16 (getLantern s (fieldAt b 0 1)).decline) 2
          ++ natLE (getLantern s (fieldAt b 0 1)).remaining 2 ++ natLE (lanternMasks s (fieldAt b 0 1)).2 2
          ++ natLE (lanternMasks s (fieldAt b 0 1)).1 2)))
    ∧ (Runs s src tag 0x0704 w n b → exec (.fwStatus src tag) s = .next (finish (taken s src w) src tag 0 0 (natLE s.fw.active 1 ++ natLE s.fw.stage 1 ++ natLE 0 2 ++ natLE (fwVersion s.fw) 4 ++ natLE s.fw.stagedVersion 4
          ++ slotDigest s.fw s.fw.active)))
    ∧ (Runs s src tag 0x0702 w n b → exec (.fwMissing src tag) s = .next (finish (taken s src w) src tag 0 0 (natLE (missingBlocks s.fw).length 4 ++ natLE (maskOf (missingBlocks s.fw)) 512)))
    ∧ (Runs s src tag 0x0600 w n b → ∃ body, exec (.faultList src tag) s = .next (finish (taken s src w) src tag 0 0 body)
        ∧ body.length = 12 ∧ fieldAt body 4 4 = (visible s n).length % 2 ^ 32
        ∧ (visible s n = [] → fieldAt body 0 4 = s.faults.next % 2 ^ 32 ∧ fieldAt body 8 4 = s.faults.next % 2 ^ 32)
        ∧ (∀ r rest, visible s n = r :: rest → fieldAt body 8 4 = r.index % 2 ^ 32
            ∧ (fieldAt b 0 4 ≤ r.index → fieldAt body 0 4 = r.index % 2 ^ 32)))
    ∧ (Runs s src tag 0x0601 w n b →
      (∀ r, (visible s n).find? (fun r => r.index == fieldAt b 0 4) = some r →
        exec (.faultRead src tag) s = .next (finish (taken s src w) src tag 0 0 (recordBytes r)))
      ∧ ((∀ r, r ∈ visible s n → r.index ≠ fieldAt b 0 4) → exec (.faultRead src tag) s = .next (finish (taken s src w) src tag 0x030F 0 [])))
    ∧ (Runs s src tag 0x0602 w n b →
      (∀ d, signatureAt s (fieldAt b 0 4) = some d → exec (.signatureRead src tag) s = .next (finish (taken s src w) src tag 0 0 (natLE d.length 4 ++ (d.drop (fieldAt b 4 4)).take 4056)))
      ∧ (signatureAt s (fieldAt b 0 4) = none → exec (.signatureRead src tag) s = .next (finish (taken s src w) src tag 0x030F 0 [])))
    ∧ (Runs s src tag 0x0401 w n b →
      ((getSuite s n).image = none → exec (.checkpointList src tag) s = .next (finish (taken s src w) src tag 0x0301 (stateDetail s n) []))
      ∧ (∀ im, (getSuite s n).image = some im → ∃ body, exec (.checkpointList src tag) s = .next (finish (taken s src w) src tag 0 0 body)
          ∧ fieldAt body 0 2 = min 127 (getSuite s n).checkpoints.length
          ∧ body.length = 4 + 32 * min 127 (getSuite s n).checkpoints.length))
    ∧ (Runs s src tag 0x0F01 w n b →
      (1024 * (getSuite s n).res.blocks < fieldAt b 0 2 + fieldAt b 2 2 →
        exec (.streamRead src tag) s = .next (finish (taken s src w) src tag 0x030F 0 []))
      ∧ (fieldAt b 0 2 + fieldAt b 2 2 ≤ 1024 * (getSuite s n).res.blocks → ∃ body, exec (.streamRead src tag) s = .next (finish (taken s src w) src tag 0 0 body)
          ∧ body.length = 64 * fieldAt b 2 2))

/-- The commands of device, units, firmware, power, Lanterns and diagnostics have their effect and reply, or are refused with the status that
the tables give: a unit that is not there, a suite that must not be asleep, a port in use, a stage that is not complete (rules R310, R354,
R393, R399, R400, R402, R475, R477, R487, R488, R496, R498). -/
def Obligations.DeviceCommandsHaveTheirEffect : Prop :=
  ∀ (s : State) (src : Src) (tag n : Nat) (w : Waiting) (b : Bytes),
    (Runs s src tag 0x0100 w n b →
      (s.dev = .standby → exec (.wake src tag) s = .next (finish (wakeDevice (taken s src w) (fieldAt b 0 1 == 1)) src tag 0 0 (natLE (devStateCode (wakeDevice (taken s src w) (fieldAt b 0 1 == 1)).dev) 1)))
      ∧ (s.dev ≠ .standby → exec (.wake src tag) s = .next (finish (taken s src w) src tag 0 0 (natLE (devStateCode s.dev) 1))))
    ∧ (Runs s src tag 0x0101 w n b →
      (s.suites.any (fun q => awake q.2) = true → exec (.sleep src tag) s = .next (finish (taken s src w) src tag 0x0301 (stateDetail s n) []))
      ∧ (s.suites.any (fun q => awake q.2) = false → ∃ u, exec (.sleep src tag) s = .next (finish u src tag 0 0 []) ∧ u.dev = .draining ∧ u.suites = []
          ∧ u.streams = [] ∧ u.hbm = s.hbm ∧ u.fuse = s.fuse ∧ u.attic = s.attic ∧ ∀ x, (getWing u x).lines = []))
    ∧ (Runs s src tag 0x0102 w n b →
      (fieldAt b 0 1 = 0 → usableTile s (fieldAt b 2 2) = false →
        exec (.reset src tag) s = .next (finish (taken s src w) src tag 0x0306 (fieldAt b 2 2) []))
      ∧ (fieldAt b 0 1 = 0 → usableTile s (fieldAt b 2 2) = true → exec (.reset src tag) s = .next (beginTileReset
          (unitRecords (abortKar (setNote (taken s src w) src tag (unitNote s 0 (fieldAt b 2 2) (unitEntries s 0 (fieldAt b 2 2)))) 0x0102
            (fun x => x == fieldAt b 2 2)) 0 (fieldAt b 2 2) 0x0800 0x0102) (fieldAt b 2 2)))
      ∧ (fieldAt b 0 1 = 1 → wingPresent s (fieldAt b 2 2) = false →
        exec (.reset src tag) s = .next (finish (taken s src w) src tag 0x0306 (fieldAt b 2 2) []))
      ∧ (fieldAt b 0 1 = 1 → wingPresent s (fieldAt b 2 2) = true → exec (.reset src tag) s = .next (beginWingReset
          (unitRecords (abortKar (setNote (taken s src w) src tag (unitNote s 1 (fieldAt b 2 2) (unitEntries s 5 (fieldAt b 2 2)))) 0x0102
            (fun x => x / 10 == fieldAt b 2 2)) 5 (fieldAt b 2 2) 0x0800 0x0102) (fieldAt b 2 2)))
      ∧ (fieldAt b 0 1 = 2 → (getSuite s n).state = .running ∨ (getSuite s n).state = .faulted →
        exec (.reset src tag) s = .next (beginReset (beforeReset s src tag w n) n))
      ∧ (fieldAt b 0 1 = 2 → (getSuite s n).state = .draining → exec (.reset src tag) s = .next (beforeReset s src tag w n))
      ∧ (fieldAt b 0 1 = 2 → (getSuite s n).state = .preempted →
        exec (.reset src tag) s = .next (setSuiteState (finishReset (beginReset (beforeReset s src tag w n) n) n) n .loaded))
      ∧ (fieldAt b 0 1 = 2 → (getSuite s n).state = .empty →
        exec (.reset src tag) s = .next (finish (beforeReset s src tag w n) src tag 0 0 (natLE 0 8)))
      ∧ (fieldAt b 0 1 = 2 → (getSuite s n).state = .loaded →
        exec (.reset src tag) s = .next (finish (finishReset (beginReset (beforeReset s src tag w n) n) n) src tag 0 0 (natLE 0 8)))
      ∧ (∀ l, l = 3 ∨ l = 4 → fieldAt b 0 1 = l → exec (.reset src tag) s = .next (dropSilent (resetDevice (taken s src w) l 1) src tag false)))
    ∧ (∀ c i, c < 5 → Runs s src tag 0x0103 w n b → namedUnit b = (c, i) →
      (unitThere s c i = false → exec (.disableUnit src tag) s = .next (finish (taken s src w) src tag 0x0306 (unitIndex c i) []))
      ∧ (unitThere s c i = true → unitDisabled s c i = true → exec (.disableUnit src tag) s = .next (finish (taken s src w) src tag 0 1 (natLE 0 8)))
      ∧ (unitThere s c i = true → unitDisabled s c i = false →
        exec (.disableUnit src tag) s = .next (answerUnits (disableUnit (unitRecords (abortKar (abortWhere
          (setNote (taken s src w) src tag (unitNote s c i (unitEntries s c i))) 0x0103
          (fun sr x => x.pkt.opcode == 0x0202 && holdsUnit (getSuite s (targetOf sr x.pkt)) c i)) 0x0103 (fun t => c == 0 && t == i))
          c i 0x0801 0x0103) c i))))
    ∧ (∀ c i, c < 5 → Runs s src tag 0x0104 w n b → namedUnit b = (c, i) →
      (unitThere s c i = false → exec (.enableUnit src tag) s = .next (finish (taken s src w) src tag 0x0306 (unitIndex c i) []))
      ∧ (unitThere s c i = true → ∃ u, exec (.enableUnit src tag) s = .next (finish u src tag 0 0 []) ∧ unitDisabled u c i = false
          ∧ u = { s with rings := u.rings, tiles := u.tiles, ports := u.ports, offUnits := u.offUnits }))
    ∧ (Runs s src tag 0x0F03 w n b →
      (∀ t, (setBits b 0 10).find? (fun t => !(usableTile s t)) = some t → exec (.knownAnswer src tag) s = .next (finish (taken s src w) src tag 0x0306 t []))
      ∧ ((∀ t, t ∈ setBits b 0 10 → usableTile s t = true) →
        (∀ t, (setBits b 0 10).find? (tileHeld s) = some t → exec (.knownAnswer src tag) s = .next (finish (taken s src w) src tag 0x0310 t []))
        ∧ ((∀ t, t ∈ setBits b 0 10 → tileHeld s t = false) →
          (setBits b 0 10 = [] → exec (.knownAnswer src tag) s = .next (finish (taken s src w) src tag 0 0 (natLE 0 10)))
          ∧ (setBits b 0 10 ≠ [] → ∃ u, exec (.knownAnswer src tag) s = .next u ∧ u = { s with rings := u.rings, tiles := u.tiles }
            ∧ (∀ t, t ∈ setBits b 0 10 → (getTile u t).health.karDue = true)
            ∧ ∀ t, t ∉ setBits b 0 10 → getTile u t = getTile s t))))
    ∧ (Runs s src tag 0x0F02 w n b →
      ((portPresent s (fieldAt b 0 1) = false ∨ (getPort s (fieldAt b 0 1)).disabled = true →
        exec (.portRetrain src tag) s = .next (finish (taken s src w) src tag 0x0306 (fieldAt b 0 1) []))
      ∧ (portPresent s (fieldAt b 0 1) = true → (getPort s (fieldAt b 0 1)).disabled = false →
        (portInUse s (fieldAt b 0 1) = true → exec (.portRetrain src tag) s = .next (finish (taken s src w) src tag 0x0310 (fieldAt b 0 1) []))
        ∧ (portInUse s (fieldAt b 0 1) = false → ∃ u, exec (.portRetrain src tag) s = .next u ∧ u = { s with rings := u.rings, ports := u.ports }
          ∧ (getPort u (fieldAt b 0 1)).mayWiden = true
          ∧ ((getPort u (fieldAt b 0 1)).state = portTraining ∨ (getPort u (fieldAt b 0 1)).state = portRetraining)
          ∧ ∀ p, p ≠ fieldAt b 0 1 → getPort u p = getPort s p))))
    ∧ (Runs s src tag 0x0904 w n b →
      (∀ p, bit (fieldAt b 1 1) 0 = false → (stuckPorts s (fieldAt b 0 1)).head? = some p →
        exec (.lanternRelease src tag) s = .next (finish (taken s src w) src tag 0x030D p []))
      ∧ (bit (fieldAt b 1 1) 0 = true ∨ stuckPorts s (fieldAt b 0 1) = [] → ∃ u,
        exec (.lanternRelease src tag) s = .next (finish u src tag 0 0 (natLE (stuckPorts s (fieldAt b 0 1)).length 2))
          ∧ (getLantern u (fieldAt b 0 1)).state = (if (getLantern s (fieldAt b 0 1)).state = 0 then 0 else 4)))
    ∧ (Runs s src tag 0x0905 w n b →
      ((getLantern s (fieldAt b 0 1)).state = 0 → exec (.lanternCheck src tag) s = .next (finish (taken s src w) src tag 0 0 (natLE 0 4)))
      ∧ ((getLantern s (fieldAt b 0 1)).state ≠ 0 →
        exec (.lanternCheck src tag) s = .next (setNote (taken s src w) src tag [fieldAt b 0 1])))
    ∧ (Runs s src tag 0x0901 w n b →
      (n ≠ 0xFF → (∃ t, t ∈ setBits b 0 10 ∧ t ∉ (getSuite s n).res.tiles) →
        exec (.tileClockCap src tag) s = .next (finish (taken s src w) src tag 0x020A (16 + envLen w.pkt) []))
      ∧ (n = 0xFF ∨ (∀ t, t ∈ setBits b 0 10 → t ∈ (getSuite s n).res.tiles) → ∃ u, exec (.tileClockCap src tag) s = .next (finish u src tag 0 0 [])
        ∧ u = { s with rings := u.rings, tiles := u.tiles } ∧ (∀ t, t ∈ setBits b 0 10 → (getTile u t).gov.ceilingMhz = fieldAt b 10 2)
        ∧ ∀ t, t ∉ setBits b 0 10 → getTile u t = getTile s t))
    ∧ (Runs s src tag 0x0902 w n b → exec (.supplyPolicy src tag) s = .next (finish { (taken s src w) with cup := { s.cup with warnClampMhz := fieldAt b 0 2 } } src tag 0 0 []))
    ∧ (Runs s src tag 0x0604 w n b →
      ((∀ r, r ∈ visible s n → fieldAt b 0 4 < r.index) → exec (.faultAck src tag) s = .next (finish (taken s src w) src tag 0x030F 0 []))
      ∧ ((∃ r, r ∈ visible s n ∧ r.index ≤ fieldAt b 0 4) → exec (.faultAck src tag) s = .next (finish { (taken s src w) with faults := { s.faults with held := s.faults.held.map (fun r =>
              if r.index ≤ fieldAt b 0 4 ∧ (n = 0xFF ∨ r.suite = n) then { r with acked := true } else r) } } src tag 0 0 [])))
    ∧ (Runs s src tag 0x0700 w n b →
      (s.fw.actPending = true → exec (.fwStage src tag) s = .next (finish (taken s src w) src tag 0x0301 (stateDetail s n) []))
      ∧ (s.fw.actPending = false → bytesAt b 0 48 = slotDigest s.fw s.fw.active →
        ∃ u, exec (.fwStage src tag) s = .next (finish u src tag 0 0 []) ∧ u.fw.stage = 2 ∧ u.fw.blocks = [] ∧ u.fw.stagedDigest = bytesAt b 0 48
          ∧ u.fw.stagedLength = fieldAt b 48 4 ∧ slotOfFw u.fw (1 - u.fw.active) = slotOfFw s.fw (1 - s.fw.active))
      ∧ (s.fw.actPending = false → bytesAt b 0 48 ≠ slotDigest s.fw s.fw.active → fieldAt b 48 4 ≠ 0 → s.fw.active ≤ 1 →
        ∃ u, exec (.fwStage src tag) s = .next (finish u src tag 0 0 []) ∧ u.fw.stage = 1 ∧ u.fw.blocks = [] ∧ u.fw.stagedVersion = fieldAt b 52 4
          ∧ slotOfFw u.fw (1 - s.fw.active) = {}))
    ∧ (Runs s src tag 0x0701 w n b →
      (s.fw.stage = 1 → fieldAt b 0 4 < stagedBlocks s.fw → exec (.fwBlock src tag) s = .next (dropSilent (putHalf (taken s src w) (fieldAt b 0 4) (fieldAt b 4 1) (fieldAt b 8 4) (bytesAt b 12 2048)) src tag false))
      ∧ (s.fw.stage ≠ 1 ∨ stagedBlocks s.fw ≤ fieldAt b 0 4 → exec (.fwBlock src tag) s = .next (dropSilent (taken s src w) src tag true)))
    ∧ (Runs s src tag 0x0703 w n b →
      ((s.fw.stage ≠ 2 ∧ s.fw.stage ≠ 3) ∨ bytesAt b 0 48 ≠ s.fw.stagedDigest →
        exec (.fwActivate src tag) s = .next (finish (taken s src w) src tag 0x030E (missingDetail s.fw) []))
      ∧ (s.fw.stage = 2 → bytesAt b 0 48 = s.fw.stagedDigest → bytesAt b 0 48 = slotDigest s.fw s.fw.active →
        exec (.fwActivate src tag) s = .next (finish (taken s src w) src tag 0 0 (natLE (max (fieldAt b 48 8) s.bell.count) 8 ++ natLE 0 4)))
      ∧ (s.fw.stage = 3 → bytesAt b 0 48 = s.fw.stagedDigest → sha384 (stagedBytes s.fw) = bytesAt b 0 48 →
        exec (.fwActivate src tag) s = .next (finish (taken s src w) src tag 0x0404 0 []))
      ∧ (s.fw.stage = 2 → bytesAt b 0 48 = s.fw.stagedDigest → bytesAt b 0 48 ≠ slotDigest s.fw s.fw.active →
          (pendingEvents s).length < 1024 →
        ∃ u, exec (.fwActivate src tag) s = .next (finish u src tag 0 0 (natLE (max (fieldAt b 48 8) s.bell.count) 8 ++ natLE s.bell.nextEvent 4))
          ∧ u.fw = { s.fw with actPending := true, actBell := max (fieldAt b 48 8) s.bell.count }
          ∧ ({ bell := max (fieldAt b 48 8) s.bell.count, opcode := 0x0703, id := s.bell.nextEvent } : BellEvent) ∈ u.bell.events))
    ∧ (Runs s src tag 0x0803 w n b →
      ((∀ e, e ∈ seenEvents s n → e.id = fieldAt b 0 4 → e.bell ≤ s.bell.count) →
        exec (.eventCancel src tag) s = .next (finish (taken s src w) src tag 0x030F 0 []))
      ∧ (∀ e, (seenEvents s n).find? (fun e => e.id == fieldAt b 0 4 && decide (s.bell.count < e.bell)) = some e →
        (e.opcode = 0x0507 ∨ e.opcode = 0x0506 → exec (.eventCancel src tag) s = .next (finish (taken s src w) src tag 0x0301 (stateDetail s n) []))
        ∧ (e.opcode ≠ 0x0507 → e.opcode ≠ 0x0506 → e.opcode ≠ 0x0703 →
          exec (.eventCancel src tag) s = .next (finish (popEvent (taken s src w) e.id) src tag 0 0 []))
        ∧ (e.opcode = 0x0703 → ∃ u, exec (.eventCancel src tag) s = .next (finish u src tag 0 0 [])
          ∧ u.bell = (popEvent s e.id).bell ∧ u.fw = { s.fw with actPending := false, actBell := 2 ^ 64 - 1 })))

namespace Sys2Proof.Says

/-- `w` is the executing command of a source with a tag and an opcode. -/
abbrev Executes (s : State) (src : Src) (tag op : Nat) (w : Waiting) : Prop :=
  (getRing s (ringKey src)).queue.find? (fun x => x.executing && x.pkt.tag == tag) = some w ∧ w.pkt.opcode = op

/-- A suite whose load fails: EMPTY, with the load status (rules R394, R424). -/
abbrev loadFailed (s : State) (n status : Nat) : State := setLoad (emptySuite s n) n status 0 (2 ^ 64 - 1)

/-- The state in which a load is checked: spares settled, pseudo-channels planned anew (rules R421, R458). -/
abbrev loadBase (s : State) (n : Nat) : State :=
  updSuite (settlePcs (settleSpares s (some n)) n) n
    (fun su => { su with res := { su.res with pcs := plannedPcs (settlePcs (settleSpares s (some n)) n) n } })

end Sys2Proof.Says

/-- CREATE_SUITE gives what was asked for, from the lowest free block of entries, or refuses with the resource it cannot give; DELETE_SUITE
takes an EMPTY or LOADED suite that no job names; a load, a binding or an input write starts only in the states of the tables, a binding
outside rule R409 is refused with 0x0120, and an input write outside its region with its offset (rules R258, R394, R403, R409, R424 to
R426). -/
def Obligations.SuiteCommandsHaveTheirEffect : Prop :=
  ∀ (s : State) (src : Src) (tag n : Nat) (w : Waiting) (b : Bytes),
    (Runs s src tag 0x0200 w n b →
      ((getSuite s n).state ≠ .absent → exec (.createSuite src tag) s = .next (finish (taken s src w) src tag 0x0304 0 []))
      ∧ ((getSuite s n).state = .absent →
        (∀ x d, resourceBad (settleSpares (taken s src w) none) (askedRes b) = some (x, d) →
          exec (.createSuite src tag) s = .next (finish (settleSpares (taken s src w) none) src tag x d []))
        ∧ (resourceBad (settleSpares (taken s src w) none) (askedRes b) = none → ∃ u base,
          exec (.createSuite src tag) s = .next (finish u src tag 0 0 (natLE (1024 * base) 4)) ∧ freeBlocks s (fieldAt b 92 1) = some base
            ∧ (getSuite u n).state = .empty ∧ (getSuite u n).res.baseBlock = base ∧ (getSuite u n).res.blocks = fieldAt b 92 1
            ∧ (getSuite u n).res.tiles = setBits b 0 10 ∧ (getSuite u n).res.granted = setBits b 12 64
            ∧ u.hbm = s.hbm ∧ ∀ m, m ≠ n → getSuite u m = getSuite s m)))
    ∧ (Runs s src tag 0x0201 w n b →
      ((getSuite s n).state ≠ .empty → (getSuite s n).state ≠ .loaded →
        ∀ obs, exec (.deleteSuite src tag obs) s = .next (finish (taken s src w) src tag 0x0301 (stateDetail s n) []))
      ∧ (namedInJob s n = true → ∀ obs, exec (.deleteSuite src tag obs) s = .next (finish (taken s src w) src tag 0x0301 (stateDetail s n) []))
      ∧ ((getSuite s n).state = .empty ∨ (getSuite s n).state = .loaded → namedInJob s n = false → ∀ obs, ∃ u,
        exec (.deleteSuite src tag obs) s = .next (finish u src tag 0 0 []))
      ∧ ((getSuite s n).state = .empty ∨ (getSuite s n).state = .loaded → namedInJob s n = false → ∃ u,
        exec (.deleteSuite src tag []) s = .next (finish u src tag 0 0 []) ∧ (getSuite u n).state = .absent ∧ u.hbm = s.hbm ∧ u.fuse = s.fuse
          ∧ (∀ m, m ≠ n → getSuite u m = getSuite s m) ∧ ∀ e, e ∈ u.bell.events → e.suite ≠ n))
    ∧ (Runs s src tag 0x0202 w n b →
      ((getSuite s n).state ≠ .empty → (getSuite s n).state ≠ .loaded →
        exec (.loadImage src tag) s = .next (finish (taken s src w) src tag 0x0301 (stateDetail s n) []))
      ∧ ((getSuite s n).state = .empty ∨ (getSuite s n).state = .loaded → ∃ u, exec (.loadImage src tag) s = .next u
          ∧ u = { s with rings := u.rings, suites := u.suites, tiles := u.tiles } ∧ getSuite u n = { getSuite s n with image := none, routes := [] }
          ∧ (∀ t, (getTile s t).suite = some n → (getTile u t).suite = none) ∧ ∀ t, (getTile s t).suite ≠ some n → getTile u t = getTile s t))
    ∧ (Runs s src tag 0x0203 w n b →
      ((getSuite s n).image = none → exec (.bindInputs src tag) s = .next (finish (taken s src w) src tag 0x0301 (stateDetail s n) []))
      ∧ ((getSuite s n).state ≠ .loaded → fieldAt b 48 1 = 0 →
        exec (.bindInputs src tag) s = .next (finish (taken s src w) src tag 0x0301 (stateDetail s n) []))
      ∧ (∀ im kept, (getSuite s n).image = some im →
          (getSuite s n).state = .loaded ∨ (fieldAt b 48 1 = 1 ∧ ((getSuite s n).state = .running ∨ (getSuite s n).state = .preempted)) →
          kept = ((getSuite s n).evalNext.getD (getSuite s n).bindings).filter (fun x => x.kind != fieldAt b 48 1) →
        (bindingsBad s n im (askedBindings b) kept = true →
          exec (.bindInputs src tag) s = .next (finish (setLoad (taken s src w) n 0x0120 0 (2 ^ 64 - 1)) src tag 0x0120 0 []))
        ∧ (bindingsBad s n im (askedBindings b) kept = false → ∃ u, exec (.bindInputs src tag) s = .next (finish u src tag 0 0 [])
          ∧ (getSuite u n).load.status = 0 ∧ u = { s with rings := u.rings, suites := u.suites, streams := u.streams }
          ∧ (fieldAt b 48 1 = 0 → (getSuite u n).bindings = askedBindings b ++ kept ∧ (getSuite u n).job.rankManifest = bytesAt b 0 48)
          ∧ (fieldAt b 48 1 = 1 → (getSuite s n).window = none → (getSuite u n).bindings = kept ++ askedBindings b ∧ u.streams = s.streams))))
    ∧ (Runs s src tag 0x0204 w n b →
      ((getSuite s n).state ≠ .loaded → (getSuite s n).state ≠ .running → (getSuite s n).state ≠ .preempted →
        exec (.inputWrite src tag) s = .next (finish (taken s src w) src tag 0x0301 (stateDetail s n) []))
      ∧ ((getSuite s n).state = .loaded ∨ (getSuite s n).state = .running ∨ (getSuite s n).state = .preempted →
        (bindingOf (getSuite s n) (fieldAt b 0 3) (fieldAt b 3 1) = none → exec (.inputWrite src tag) s = .next (finish (taken s src w) src tag 0x030F 0 []))
        ∧ (∀ x, bindingOf (getSuite s n) (fieldAt b 0 3) (fieldAt b 3 1) = some x →
          (x.len < fieldAt b 8 8 + fieldAt b 24 8 → exec (.inputWrite src tag) s = .next (finish (taken s src w) src tag 0x020A (40 + envLen w.pkt) []))
          ∧ (fieldAt b 8 8 + fieldAt b 24 8 ≤ x.len → exec (.inputWrite src tag) s = .next (taken s src w)))))
    ∧ (Runs s src tag 0x0F00 w n b →
      ((getSuite s n).image = none ∨ ((getSuite s n).state ≠ .loaded ∧ (getSuite s n).state ≠ .preempted ∧ (getSuite s n).state ≠ .faulted) →
        exec (.tensorRead src tag) s = .next (finish (taken s src w) src tag 0x0301 (stateDetail s n) []))
      ∧ (∀ im, (getSuite s n).image = some im →
          (getSuite s n).state = .loaded ∨ (getSuite s n).state = .preempted ∨ (getSuite s n).state = .faulted →
        (SMap.has im.tensors (fieldAt b 0 3) = true → fieldAt b 8 8 + fieldAt b 24 8 ≤ storedBytes (SMap.get {} im.tensors (fieldAt b 0 3)) →
          exec (.tensorRead src tag) s = .next (taken s src w))
        ∧ (SMap.has im.tensors (fieldAt b 0 3) = false ∨ storedBytes (SMap.get {} im.tensors (fieldAt b 0 3)) < fieldAt b 8 8 + fieldAt b 24 8 →
          exec (.tensorRead src tag) s = .next (finish (taken s src w) src tag 0x030F 0 []))))
    ∧ (Runs s src tag 0x0402 w n b →
      ((getSuite s n).image = none → exec (.checkpointRead src tag) s = .next (finish (taken s src w) src tag 0x0301 (stateDetail s n) []))
      ∧ ((getSuite s n).image ≠ none →
        ((∀ c, c ∈ (getSuite s n).checkpoints → c.step ≠ fieldAt b 0 4) → exec (.checkpointRead src tag) s = .next (finish (taken s src w) src tag 0x030F 0 []))
        ∧ ((∃ c, c ∈ (getSuite s n).checkpoints ∧ c.step = fieldAt b 0 4) → exec (.checkpointRead src tag) s = .next (taken s src w))))
    ∧ (Runs s src tag 0x0403 w n b →
      ((getSuite s n).state ≠ .loaded → exec (.checkpointWrite src tag) s = .next (finish (taken s src w) src tag 0x0301 (stateDetail s n) []))
      ∧ (∀ im, (getSuite s n).state = .loaded → (getSuite s n).image = some im →
        (checkpointSlot { getSuite s n with checkpoints := (getSuite s n).checkpoints.filter (fun c => c.step != fieldAt b 0 4) } im = none →
          exec (.checkpointWrite src tag) s = .next (finish (taken s src w) src tag 0x0301 (stateDetail s n) []))
        ∧ (checkpointSlot { getSuite s n with checkpoints := (getSuite s n).checkpoints.filter (fun c => c.step != fieldAt b 0 4) } im ≠ none →
          exec (.checkpointWrite src tag) s = .next (taken s src w))))
    ∧ (Runs s src tag 0x0404 w n b →
      ((getSuite s n).image = none → exec (.digestRead src tag) s = .next (finish (taken s src w) src tag 0x0301 (stateDetail s n) []))
      ∧ ((getSuite s n).image ≠ none → exec (.digestRead src tag) s = .next (taken s src w)))
    ∧ (Runs s src tag 0x0405 w n b →
      (takesJobs s = false → exec (.runRecordRead src tag) s = .next (finish (taken s src w) src tag 0x030A s.mgr.role []))
      ∧ (takesJobs s = true → SMap.has s.mgr.jobs (fieldAt b 0 1) = false → exec (.runRecordRead src tag) s = .next (finish (taken s src w) src tag 0x030F 0 []))
      ∧ (takesJobs s = true → SMap.has s.mgr.jobs (fieldAt b 0 1) = true →
        exec (.runRecordRead src tag) s = .next (actAsTop (taken s src w))))

/-- BULK_COMMAND_COMPLETE: each bulk command's transfer takes place and it replies with the bytes moved. A failing access to host memory is
0x0402; a load whose digest differs is 0x0403, one that fails a check is refused with it and leaves the suite EMPTY, and one that passes
leaves it LOADED with the image. What a read of memory finds (rules R240, R241) is met before its bytes leave (rules R390, R394, R396, R397, R400, R421, R424, R441). -/
def Obligations.BulkTransfersComplete : Prop :=
  ∀ (s : State) (src : Src) (tag n : Nat) (w : Waiting) (b : Bytes), targetOf src w.pkt = n → bodyOf w.pkt = b →
    (Executes s src tag 0x0202 w →
      (hostFails s (fieldAt b 0 8) (fieldAt b 8 8) = true → exec (.bulkCommandComplete src tag []) s = .next (finish (loadFailed s n 0x0402) src tag 0x0402 0 []))
      ∧ (hostFails s (fieldAt b 0 8) (fieldAt b 8 8) = false → imageDigest (hostBytes s (fieldAt b 0 8) (fieldAt b 8 8)) ≠ bytesAt b 16 48 →
        exec (.bulkCommandComplete src tag []) s = .next (finish (loadFailed s n 0x0403) src tag 0x0403 0 []))
      ∧ (hostFails s (fieldAt b 0 8) (fieldAt b 8 8) = false → imageDigest (hostBytes s (fieldAt b 0 8) (fieldAt b 8 8)) = bytesAt b 16 48 →
        (∀ st, loadFailure (loadBase s n) n (getRing s (ringKey src)) (hostBytes s (fieldAt b 0 8) (fieldAt b 8 8)) = some st →
          exec (.bulkCommandComplete src tag []) s
            = .next (loadRefused (loadBase s n) src tag n st (hostBytes s (fieldAt b 0 8) (fieldAt b 8 8))))
        ∧ (loadFailure (loadBase s n) n (getRing s (ringKey src)) (hostBytes s (fieldAt b 0 8) (fieldAt b 8 8)) = none →
          ∃ u body, exec (.bulkCommandComplete src tag []) s = .next (finish u src tag 0 0 body) ∧ (getSuite u n).state = .loaded
            ∧ (getSuite u n).image = some (imageOf (hostBytes s (fieldAt b 0 8) (fieldAt b 8 8))) ∧ (getSuite u n).load.status = 0
            ∧ body.length = 12 ∧ fieldAt body 0 4 = (imageOf (hostBytes s (fieldAt b 0 8) (fieldAt b 8 8))).v % 2 ^ 32)))
    ∧ (Executes s src tag 0x0204 w → ∀ x, bindingOf (getSuite s n) (fieldAt b 0 3) (fieldAt b 3 1) = some x →
      (hostFails s (fieldAt b 16 8) (fieldAt b 24 8) = true → exec (.bulkCommandComplete src tag []) s = .next (finish s src tag 0x0402 0 []))
      ∧ (hostFails s (fieldAt b 16 8) (fieldAt b 24 8) = false →
        ∃ u, exec (.bulkCommandComplete src tag []) s = .next (finish u src tag 0 0 (natLE (fieldAt b 24 8) 8))
          ∧ u = { suiteSetBytes s n (x.base + fieldAt b 8 8) (hostBytes s (fieldAt b 16 8) (fieldAt b 24 8)) with wings := u.wings }
          ∧ (∀ k, (getWing u k).lines.map (fun l => l.1) = (getWing s k).lines.map (fun l => l.1))))
    ∧ (Executes s src tag 0x0F00 w → ∀ im, (getSuite s n).image = some im →
      (hostFails s (fieldAt b 16 8) (fieldAt b 24 8) = true → exec (.bulkCommandComplete src tag []) s = .next (finish s src tag 0x0402 0 []))
      ∧ (hostFails s (fieldAt b 16 8) (fieldAt b 24 8) = false →
        exec (.bulkCommandComplete src tag []) s = .next (finish (hostWrite s (fieldAt b 16 8) (suiteBytes s n ((SMap.get {} im.tensors (fieldAt b 0 3)).base + fieldAt b 8 8) (fieldAt b 24 8))) src tag 0 0 (natLE (fieldAt b 24 8) 8))))
    ∧ (Executes s src tag 0x0402 w → ∀ im c, (getSuite s n).image = some im →
        (getSuite s n).checkpoints.find? (fun c => c.step == fieldAt b 0 4) = some c →
      ∀ data, data = ((checkpointBytes im c).drop (fieldAt b 8 8)).take (fieldAt b 24 8) →
        (hostFails s (fieldAt b 16 8) data.length = true → exec (.bulkCommandComplete src tag []) s = .next (finish s src tag 0x0402 0 []))
        ∧ (hostFails s (fieldAt b 16 8) data.length = false →
          exec (.bulkCommandComplete src tag []) s = .next (finish (hostWrite s (fieldAt b 16 8) data) src tag 0 0 (natLE data.length 8))))
    ∧ (Executes s src tag 0x0403 w → ∀ im, (getSuite s n).image = some im →
      (hostFails s (fieldAt b 16 8) (fieldAt b 24 8) = true → exec (.bulkCommandComplete src tag []) s = .next (finish s src tag 0x0402 0 []))
      ∧ (hostFails s (fieldAt b 16 8) (fieldAt b 24 8) = false → bit (fieldAt b 4 1) 0 = false → ∃ u,
        exec (.bulkCommandComplete src tag []) s = .next (finish u src tag 0 0 (natLE (fieldAt b 24 8) 8)) ∧ u = { s with suites := u.suites }
          ∧ (getSuite u n).checkpoints = (getSuite s n).checkpoints
          ∧ SMap.get [] (getSuite u n).receiving (fieldAt b 0 4) = Memory.writeN (SMap.get [] (getSuite s n).receiving (fieldAt b 0 4))
              (fieldAt b 8 8) (hostBytes s (fieldAt b 16 8) (fieldAt b 24 8)))
      ∧ (hostFails s (fieldAt b 16 8) (fieldAt b 24 8) = false → bit (fieldAt b 4 1) 0 = true → ∃ u,
        exec (.bulkCommandComplete src tag []) s = .next (finish u src tag 0 0 (natLE (fieldAt b 24 8) 8))
          ∨ (exec (.bulkCommandComplete src tag []) s = .next (finish u src tag 0x0403 0 []) ∧ (getSuite u n).checkpoints = (getSuite s n).checkpoints)))
    ∧ (Executes s src tag 0x0404 w → ∃ (l : List Bytes) (data : Bytes), data = l.flatten ∧ l.length ≤ fieldAt b 16 8 / 48
      ∧ (hostFails s (fieldAt b 8 8) data.length = true → exec (.bulkCommandComplete src tag []) s = .next (finish s src tag 0x0402 0 []))
      ∧ (hostFails s (fieldAt b 8 8) data.length = false →
        exec (.bulkCommandComplete src tag []) s = .next (finish (hostWrite s (fieldAt b 8 8) data) src tag 0 0 (natLE l.length 4 ++ natLE (((slotsByStep (getSuite s n).ring).head?.map (fun d => d.step)).getD 0) 4))))
    ∧ (Executes s src tag 0x0405 w → ∀ data, data = ((getJob s (fieldAt b 0 1)).runRecord.drop (fieldAt b 8 8)).take (fieldAt b 24 8) →
      (hostFails s (fieldAt b 16 8) data.length = true → exec (.bulkCommandComplete src tag []) s = .next (finish s src tag 0x0402 0 []))
      ∧ (hostFails s (fieldAt b 16 8) data.length = false →
        exec (.bulkCommandComplete src tag []) s = .next (finish (hostWrite s (fieldAt b 16 8) data) src tag 0 0 (natLE data.length 8 ++ natLE (getJob s (fieldAt b 0 1)).runRecord.length 8))))
    ∧ (∀ op obs, Executes s src tag op w → op = 0x0202 ∨ op = 0x0204 ∨ op = 0x0403 ∨ op = 0x0405 →
      exec (.bulkCommandComplete src tag obs) s = exec (.bulkCommandComplete src tag []) s)
    ∧ (∀ obs, Executes s src tag 0x0F00 w → exec (.bulkCommandComplete src tag obs) s = .next (finishTensorRead (readObs s n obs) src w))
    ∧ (∀ obs, Executes s src tag 0x0402 w → exec (.bulkCommandComplete src tag obs) s = .next (finishCheckpointRead (readObs s n obs) src w))
    ∧ (∀ obs, Executes s src tag 0x0404 w → exec (.bulkCommandComplete src tag obs) s = .next (finishDigestRead (readObs s n obs) src w))

namespace Sys2Proof.Says

/-- A job command goes to every rank of job `no` (rule R391): the state once each rank has been told and the answers are awaited. -/
abbrev jobTold (s : State) (src : Src) (tag : Nat) (w : Waiting) (no op : Nat) (payload : Bytes) (own : State → Nat → Effect) : State :=
  settleGather (toMembers (actAsTop (taken s src w)) { src := src, tag := tag, since := s.bell.count } ((getJob s no).ranks.map (fun r => r.2)) op
    (8 + 2 * bnat (bit w.pkt.flags 1)) payload own)

/-- `s` with a bell event scheduled (rules R354, R389): pending at its bell, or at this one where that has passed. -/
abbrev eventPending (s : State) (e : BellEvent) : State :=
  { s with bell := { s.bell with
      events := s.bell.events ++ [{ e with id := s.bell.nextEvent, bell := max e.bell s.bell.count }]
      nextEvent := (s.bell.nextEvent + 1) % 2 ^ 32 } }

end Sys2Proof.Says

/-- START, PREEMPT, RESUME and STOP: what each begins, what it notes, and its refusals. A START runs the round of maps of its job; a PREEMPT
marks the suite, which saves at its boundary; a RESUME asks for the restore, of a suite or of every rank of a job, which breaks the lineage
where it asks for that or comes from more ranks; a STOP in MODE 0 closes the gates after the highest step entered and drains the suite, and in
MODE 1 halts at once; a suite that shares a job with other ranks is moved as a gang (rules R321, R391, R395, R402, R422,
R429, R433, R437 to R439). -/
def Obligations.ExecutionCommandsStartAndStop : Prop :=
  ∀ (s : State) (src : Src) (tag n : Nat) (w : Waiting) (b : Bytes),
    (Runs s src tag 0x0300 w n b →
      (takesJobs s = false → exec (.start src tag) s = .next (finish (taken s src w) src tag 0x030A s.mgr.role []))
      ∧ (takesJobs s = true →
        ((getJob s (fieldAt b 0 1)).started = true → exec (.start src tag) s = .next (finish (taken s src w) src tag 0x0301 (stateDetail s n) []))
        ∧ ((getJob s (fieldAt b 0 1)).started = false → (∀ g, g ∈ s.mgr.broadcasts → g.src ≠ src ∨ g.tag ≠ tag) →
          ((getJob s (fieldAt b 0 1)).ranks = [] → exec (.start src tag) s = .next (finish (taken s src w) src tag 0x030B 0 []))
          ∧ ((getJob s (fieldAt b 0 1)).ranks ≠ [] →
            (∀ x d, jobRefusal s (getJob s (fieldAt b 0 1)) (fieldAt b 4 4) (some (givenLevels b)) = some (x, d) →
              exec (.start src tag) s = .next (finish (taken s src w) src tag x d []))
            ∧ (jobRefusal s (getJob s (fieldAt b 0 1)) (fieldAt b 4 4) (some (givenLevels b)) = none →
              exec (.start src tag) s = .next (beginStart (setJob (actAsTop (taken s src w)) (fieldAt b 0 1)
                { getJob s (fieldAt b 0 1) with
                  nRanks := fieldAt b 4 4, levels := givenLevels b, seed := fieldAt b 16 8, snapshot := bit (fieldAt b 1 1) 0
                  startAt := 1, cause := 0, old := [], image := [], manifests := [] })
                src tag (fieldAt b 0 1) []))))))
    ∧ (Runs s src tag 0x0301 w n b → forwardedFor s w.pkt = none →
      ((getSuite s n).state ≠ .running → exec (.preempt src tag) s = .next (finish (taken s src w) src tag 0x0301 (stateDetail s n) []))
      ∧ ((getSuite s n).state = .running → multiRank (getSuite s n) = false → ∃ u, exec (.preempt src tag) s = .next u
          ∧ u = { s with rings := u.rings, suites := u.suites, tiles := u.tiles } ∧ (getSuite u n).slice.stopping = true
          ∧ (getSuite u n).state = .running ∧ (∀ t, (getTile s t).suite ≠ some n → getTile u t = getTile s t)
          ∧ (getSuite u n).slice.waitingSlice = false ∧ (getSuite u n).slice.rotation = false
          ∧ ∀ m, m ≠ n → getSuite u m = getSuite s m)
      ∧ ((getSuite s n).state = .running → multiRank (getSuite s n) = true →
        (∀ no, isTop s = true → jobWithRank s (ownId s) n = some no →
          exec (.preempt src tag) s = .next (setNote (gangJob (taken s src w) no 0 (s.bell.count + s.mgr.haltLead)) src tag [0]))
        ∧ (isTop s = false → ∃ u, exec (.preempt src tag) s = .next (setNote u src tag [0]) ∧ u.suites = s.suites
          ∧ SMap.get [] u.mgr.asked s.mgr.nextTag = [0x0301, ringKey src, tag])))
    ∧ (∀ no, Runs s src tag 0x0301 w n b → forwardedFor s w.pkt = some no →
      exec (.preempt src tag) s = .next (finish (gangJob (taken s src w) no 0 (s.bell.count + s.mgr.haltLead)) src tag 0 0 (natLE 0 4)))
    ∧ (∀ no, Runs s src tag 0x0302 w n b → forwardedFor s w.pkt = some no →
      exec (.resume src tag) s = .next (finish (gangJob (taken s src w) no 1 (s.bell.count + s.mgr.haltLead)) src tag 0 0 (natLE 0 16)))
    ∧ (Runs s src tag 0x0302 w n b → forwardedFor s w.pkt = none → n ≠ 0xFF → fieldAt b 0 1 = 0 →
      ((getSuite s n).state ≠ .preempted → exec (.resume src tag) s = .next (finish (taken s src w) src tag 0x0301 (stateDetail s n) []))
      ∧ ((getSuite s n).state = .preempted → multiRank (getSuite s n) = false →
        (∀ e, resumeFailure (updSuite (taken s src w) n (fun x => { x with excluded := [] })) n = some e →
          exec (.resume src tag) s = .next (finish (setLoad (taken s src w) n e 0 (2 ^ 64 - 1)) src tag e 0 []))
        ∧ (resumeFailure (updSuite (taken s src w) n (fun x => { x with excluded := [] })) n = none → ∃ u, exec (.resume src tag) s = .next u
          ∧ u = { s with rings := u.rings, suites := u.suites } ∧ (getSuite u n).load.status = 0 ∧ (getSuite u n).state = .preempted
          ∧ (groupBusy s n = true → (getSuite u n).slice.waitingSlice = true ∧ (getSuite u n).slice.rotation = true)
          ∧ (groupBusy s n = false → (getSuite u n).slice.resumeAsked = true)
          ∧ ∀ m, m ≠ n → getSuite u m = getSuite s m)))
    ∧ (Runs s src tag 0x0302 w n b → forwardedFor s w.pkt = none → n = 0xFF → fieldAt b 0 1 = 1 →
        (∀ g, g ∈ s.mgr.broadcasts → g.src ≠ src ∨ g.tag ≠ tag) →
      (takesJobs s = false → exec (.resume src tag) s = .next (finish (taken s src w) src tag 0x030A s.mgr.role []))
      ∧ (takesJobs s = true →
        (∀ x d, jobRefusal s (getJob s (fieldAt b 1 1)) (getJob s (fieldAt b 1 1)).ranks.length none = some (x, d) →
          exec (.resume src tag) s = .next (finish (taken s src w) src tag x d []))
        ∧ (∀ own heads cause, jobRefusal s (getJob s (fieldAt b 1 1)) (getJob s (fieldAt b 1 1)).ranks.length none = none →
            own = ((getJob s (fieldAt b 1 1)).ranks.filter (fun r => r.2.1 == ownId s)).map (fun r => r.2.2) →
            heads = (own.head?.bind (fun m => (getSuite s m).checkpoints.find? (fun c => c.step == fieldAt b 4 4))).map (fun c => c.header) →
            cause = breakCause (heads.getD []) (fieldAt b 2 1) (getJob s (fieldAt b 1 1)).ranks.length →
          (∀ s1 x d l, resumeOwn (taken s src w) own (fieldAt b 4 4) = (s1, some (x, d), l) →
            exec (.resume src tag) s = .next (finish (taken s src w) src tag x d []))
          ∧ (∀ s1 l known, resumeOwn (taken s src w) own (fieldAt b 4 4) = (s1, none, l) →
              known = (if (getJob s (fieldAt b 1 1)).lineage = [] then l.headD [] else bytesAt (getJob s (fieldAt b 1 1)).lineage 0 16) →
            (cause = 0 → (∃ y, y ∈ l ∧ y ≠ known) → exec (.resume src tag) s = .next (finish (taken s src w) src tag 0x030C 0 []))
            ∧ (cause ≠ 0 ∨ (∀ y, y ∈ l → y = known) → ∃ j, j.startAt = fieldAt b 4 4 + 1 ∧ j.cause = cause
              ∧ j.nRanks = (getJob s (fieldAt b 1 1)).ranks.length ∧ (bit cause 2 = true → j.seed = fieldAt b 8 8)
              ∧ exec (.resume src tag) s = .next (beginStart (setJob (actAsTop s1) (fieldAt b 1 1) j) src tag (fieldAt b 1 1) (bytesAt b 0 16)))))))
    ∧ (Runs s src tag 0x0302 w n b → forwardedFor s w.pkt = none → n = 0xFF → fieldAt b 0 1 ≠ 1 →
      exec (.resume src tag) s = .next (finish (taken s src w) src tag 0x020A (16 + envLen w.pkt) []))
    ∧ (∀ f, src = .ring f → Runs s src tag 0x0302 w n b → forwardedFor s w.pkt = none → n ≠ 0xFF → fieldAt b 0 1 ≠ 0 →
      exec (.resume src tag) s = .next (finish (taken s src w) src tag 0x020A (16 + envLen w.pkt) []))
    ∧ (∀ q, src = .link q → Runs s src tag 0x0302 w n b → forwardedFor s w.pkt = none → n ≠ 0xFF → fieldAt b 0 1 ≠ 0 →
      ((getSuite s n).state ≠ .loaded → exec (.resume src tag) s = .next (finish (taken s src w) src tag 0x0301 (stateDetail s n) []))
      ∧ (∀ s1 d l, resumeRank (taken s src w) n (fieldAt b 4 4) = (s1, some (0, d, l)) → ∃ u, exec (.resume src tag) s = .next (finish u src tag 0 d l)
        ∧ u = { s1 with suites := u.suites } ∧ (getSuite u n).startAt = (getSuite s1 n).startAt))
    ∧ (Runs s src tag 0x0303 w n b → n ≠ 0xFF → startingWith (taken s src w) n = none →
        (taken s src w).rings.any (fun q => q.2.queue.any (fun x => x.executing && x.pkt.opcode == 0x0202 && targetOf (keySrc q.1) x.pkt == n)) = false →
      ((getSuite s n).state = .preempted →
        exec (.stop src tag) s = .next (finish (stopSaved (taken s src w) n) src tag 0 0 (natLE (lowestStep s n - 1) 4)))
      ∧ ((getSuite s n).state ≠ .preempted → (getSuite s n).state ≠ .running →
        exec (.stop src tag) s = .next (finish (taken s src w) src tag 0x0301 (stateDetail s n) []))
      ∧ ((getSuite s n).state = .running → fieldAt b 0 1 = 0 →
        exec (.stop src tag) s = .next (setNote (stopAtGate (taken s src w) n) src tag [highestEntered s n])
          ∧ (getSuite (stopAtGate (taken s src w) n) n).slice.stopAfter = some (highestEntered s n)
          ∧ ((getSuite s n).slice.stopping = false → (getSuite (stopAtGate (taken s src w) n) n).state = .draining)
          ∧ ((getSuite s n).slice.stopping = true → (getSuite (stopAtGate (taken s src w) n) n).state = .running))
      ∧ ((getSuite s n).state = .running → fieldAt b 0 1 = 1 → ∃ v,
          exec (.stop src tag) s = .next (setNote (stopNow v n) src tag [lowestStep s n - 1]) ∧ v.suites = s.suites))
    ∧ (∀ no g, Runs s src tag 0x0303 w n b → n ≠ 0xFF → startingWith (taken s src w) n = some (no, g) →
      exec (.stop src tag) s = .next (finish (failStart (taken s src w) no g 0x0309 0x0303) src tag 0 0 (natLE 0 4)))
    ∧ (∀ g, Runs s src tag 0x0303 w n b → n = 0xFF → startingOf (taken s src w) (fieldAt b 1 1) = some g →
      exec (.stop src tag) s = .next (finish (failStart (taken s src w) (fieldAt b 1 1) g 0x0309 0x0303) src tag 0 0 (natLE 0 32 ++ natLE (getJob s (fieldAt b 1 1)).ranks.length 4 ++ natLE 0 8)))
    ∧ (Runs s src tag 0x0303 w n b → n = 0xFF → startingOf (taken s src w) (fieldAt b 1 1) = none →
      (takesJobs s = false → exec (.stop src tag) s = .next (finish (taken s src w) src tag 0x030A s.mgr.role []))
      ∧ (takesJobs s = true → SMap.has s.mgr.jobs (fieldAt b 1 1) = false → exec (.stop src tag) s = .next (finish (taken s src w) src tag 0x030F 0 []))
      ∧ (takesJobs s = true → SMap.has s.mgr.jobs (fieldAt b 1 1) = true → (getJob s (fieldAt b 1 1)).started = false →
        exec (.stop src tag) s = .next (finish (taken s src w) src tag 0x0301 (stateDetail s 0xFF) []))
      ∧ (takesJobs s = true → SMap.has s.mgr.jobs (fieldAt b 1 1) = true → (getJob s (fieldAt b 1 1)).started = true → ∃ x, exec (.stop src tag) s = .next (settleGather x)
          ∧ x.2.src = src ∧ x.2.tag = tag
          ∧ (fieldAt b 0 1 = 0 → x = toMembers (updJob (recordStop (taken s src w) (fieldAt b 1 1) (haltStepNow s (fieldAt b 1 1)))
              (fieldAt b 1 1) (fun y => { y with started := false }))
            { src := src, tag := tag, since := s.bell.count, head := (match stopSteps s (fieldAt b 1 1) 0 with
              | [] => []
              | y :: ys => natLE (ys.foldl min y) 4) } ((getJob s (fieldAt b 1 1)).ranks.map (fun r => r.2)) 0x0303 0x0A (bytesAt b 0 4)
            stopMember)))

/-- JOB_RANKS, EVAL_AT, CHECKPOINT_AT, BELL_SLOT_SET and SLICE_SET: ranks are entered in a job that is not started; an evaluation or a
checkpoint of a step that update has not passed is scheduled, for one suite or for every rank of a job; a slice keeps the rules of pinned
suites and of jobs, and its grace holds the longest kernel (rules R31, R354, R391, R395, R396, R423, R426, R429, R438). -/
def Obligations.SchedulingCommandsReply : Prop :=
  ∀ (s : State) (src : Src) (tag n : Nat) (w : Waiting) (b : Bytes),
    (Runs s src tag 0x0304 w n b →
      (takesJobs s = false → exec (.jobRanks src tag) s = .next (finish (taken s src w) src tag 0x030A s.mgr.role []))
      ∧ (takesJobs s = true → (getJob s (fieldAt b 0 1)).started = true →
        exec (.jobRanks src tag) s = .next (finish (taken s src w) src tag 0x0301 (stateDetail s n) []))
      ∧ (takesJobs s = true → (getJob s (fieldAt b 0 1)).started = false → startingOf (taken s src w) (fieldAt b 0 1) = none →
        (1048576 < fieldAt b 4 4 + fieldAt b 2 2 → exec (.jobRanks src tag) s = .next (finish (taken s src w) src tag 0x0308 0xFFFF []))
        ∧ (fieldAt b 4 4 + fieldAt b 2 2 ≤ 1048576 → ∃ u ranks, exec (.jobRanks src tag) s = .next (finish u src tag 0 0 (natLE ranks.length 4))
          ∧ u = { s with rings := u.rings, mgr := u.mgr } ∧ getJob u (fieldAt b 0 1) = { getJob s (fieldAt b 0 1) with ranks := ranks }
          ∧ (∀ i, i < fieldAt b 2 2 → SMap.get (0, 0) ranks (fieldAt b 4 4 + i) = (fieldAt b (8 + 8 * i) 4, fieldAt b (12 + 8 * i) 1))
          ∧ ∀ r, r < fieldAt b 4 4 ∨ fieldAt b 4 4 + fieldAt b 2 2 ≤ r → SMap.get (0, 0) ranks r
              = (if bit (fieldAt b 1 1) 0 then (0, 0) else SMap.get (0, 0) (getJob s (fieldAt b 0 1)).ranks r))))
    ∧ (Runs s src tag 0x0305 w n b →
      (n ≠ 0xFF →
        ((getSuite s n).state ≠ .running → exec (.evalAt src tag) s = .next (finish (taken s src w) src tag 0x0301 (stateDetail s n) []))
        ∧ ((getSuite s n).state = .running → uPassed s n (fieldAt b 0 4 + 1) = true →
          exec (.evalAt src tag) s = .next (finish (taken s src w) src tag 0x0307 0 []))
        ∧ ((getSuite s n).state = .running → uPassed s n (fieldAt b 0 4 + 1) = false →
          ((1024 ≤ (pendingEvents s).length → exec (.evalAt src tag) s = .next (finish (taken s src w) src tag 0x0308 1024 []))
            ∧ ((pendingEvents s).length < 1024 →
              exec (.evalAt src tag) s = .next (finish (eventPending (taken s src w) { bell := fieldAt b 8 8, opcode := 0x0305, suite := n, step := fieldAt b 0 4 }) src tag 0 0
                (natLE (max ({ bell := fieldAt b 8 8, opcode := 0x0305, suite := n, step := fieldAt b 0 4 } : BellEvent).bell s.bell.count) 8 ++ natLE s.bell.nextEvent 4))))))
      ∧ (n = 0xFF → ((takesJobs s = false → exec (.evalAt src tag) s = .next (finish (taken s src w) src tag 0x030A s.mgr.role []))
        ∧ (takesJobs s = true → SMap.has s.mgr.jobs (fieldAt b 4 1) = false → exec (.evalAt src tag) s = .next (finish (taken s src w) src tag 0x030F 0 []))
        ∧ (takesJobs s = true → SMap.has s.mgr.jobs (fieldAt b 4 1) = true →
          exec (.evalAt src tag) s = .next (jobTold s src tag w (fieldAt b 4 1) 0x0305 (bytesAt b 0 16) (fun q m => evalAt q m b))))))
    ∧ (Runs s src tag 0x0400 w n b →
      (n ≠ 0xFF →
        ((getSuite s n).state ≠ .running → (getSuite s n).state ≠ .loaded →
          exec (.checkpointAt src tag) s = .next (finish (taken s src w) src tag 0x0301 (stateDetail s n) []))
        ∧ ((getSuite s n).state = .running ∨ (getSuite s n).state = .loaded → uPassed s n (fieldAt b 0 4 + 1) = true →
          exec (.checkpointAt src tag) s = .next (finish (taken s src w) src tag 0x0307 0 []))
        ∧ ((getSuite s n).state = .running ∨ (getSuite s n).state = .loaded → uPassed s n (fieldAt b 0 4 + 1) = false →
          ((1024 ≤ (pendingEvents s).length → exec (.checkpointAt src tag) s = .next (finish (taken s src w) src tag 0x0308 1024 []))
            ∧ ((pendingEvents s).length < 1024 →
              exec (.checkpointAt src tag) s = .next (finish (eventPending (taken s src w) { bell := fieldAt b 8 8, opcode := 0x0400, suite := n, step := fieldAt b 0 4 }) src tag 0 0
                (natLE (max ({ bell := fieldAt b 8 8, opcode := 0x0400, suite := n, step := fieldAt b 0 4 } : BellEvent).bell s.bell.count) 8 ++ natLE s.bell.nextEvent 4))))))
      ∧ (n = 0xFF → ((takesJobs s = false → exec (.checkpointAt src tag) s = .next (finish (taken s src w) src tag 0x030A s.mgr.role []))
        ∧ (takesJobs s = true → SMap.has s.mgr.jobs (fieldAt b 4 1) = false → exec (.checkpointAt src tag) s = .next (finish (taken s src w) src tag 0x030F 0 []))
        ∧ (takesJobs s = true → SMap.has s.mgr.jobs (fieldAt b 4 1) = true →
          exec (.checkpointAt src tag) s = .next (jobTold s src tag w (fieldAt b 4 1) 0x0400 (bytesAt b 0 16) (fun q m => checkpointAt q m b))))))
    ∧ (Runs s src tag 0x0802 w n b →
      (n ≠ 0xFF → ((1024 ≤ (pendingEvents s).length → exec (.bellSlotSet src tag) s = .next (finish (taken s src w) src tag 0x0308 1024 []))
            ∧ ((pendingEvents s).length < 1024 →
              exec (.bellSlotSet src tag) s = .next (finish (eventPending (taken s src w) { bell := fieldAt b 16 8, opcode := 0x0802, suite := n, arg := fieldAt b 0 1, value := fieldAt b 8 8 }) src tag 0 0
                (natLE (max ({ bell := fieldAt b 16 8, opcode := 0x0802, suite := n, arg := fieldAt b 0 1, value := fieldAt b 8 8 } : BellEvent).bell s.bell.count) 8 ++ natLE s.bell.nextEvent 4)))))
      ∧ (n = 0xFF → ((takesJobs s = false → exec (.bellSlotSet src tag) s = .next (finish (taken s src w) src tag 0x030A s.mgr.role []))
        ∧ (takesJobs s = true → SMap.has s.mgr.jobs (fieldAt b 1 1) = false → exec (.bellSlotSet src tag) s = .next (finish (taken s src w) src tag 0x030F 0 []))
        ∧ (takesJobs s = true → SMap.has s.mgr.jobs (fieldAt b 1 1) = true →
          exec (.bellSlotSet src tag) s = .next (jobTold s src tag w (fieldAt b 1 1) 0x0802 (bytesAt b 0 24) (fun q m => slotEvent q m b))))))
    ∧ (Runs s src tag 0x0306 w n b →
      (fieldAt b 0 4 = 0 → 1 < (tileGroup s n).length → exec (.sliceSet src tag) s = .next (finish (taken s src w) src tag 0x020A 0 []))
      ∧ (fieldAt b 0 4 ≠ 0 → multiRank (getSuite s n) = true → exec (.sliceSet src tag) s = .next (finish (taken s src w) src tag 0x020A (16 + envLen w.pkt) []))
      ∧ ((fieldAt b 0 4 = 0 → (tileGroup s n).length ≤ 1) → (fieldAt b 0 4 ≠ 0 → multiRank (getSuite s n) = false) →
        (∀ im, (getSuite s n).image = some im → (if fieldAt b 4 4 = 0 then 250000 else fieldAt b 4 4) < im.maxDuration →
          exec (.sliceSet src tag) s = .next (finish (taken s src w) src tag 0x020A (20 + envLen w.pkt) []))
        ∧ ((∀ im, (getSuite s n).image = some im → im.maxDuration ≤ (if fieldAt b 4 4 = 0 then 250000 else fieldAt b 4 4)) → ∃ u,
          exec (.sliceSet src tag) s = .next (finish u src tag 0 0 []) ∧ u = { s with rings := u.rings, suites := u.suites }
          ∧ (getSuite u n).slice.grace = (if fieldAt b 4 4 = 0 then 250000 else fieldAt b 4 4)
          ∧ ((getSuite s n).state = .running → (getSuite s n).slice.slice ≠ 0 →
            (getSuite u n).slice.slice = (getSuite s n).slice.slice ∧ (getSuite u n).slice.nextSlice = some (fieldAt b 0 4))
          ∧ ((getSuite s n).state ≠ .running ∨ (getSuite s n).slice.slice = 0 → (getSuite u n).slice.slice = fieldAt b 0 4)
          ∧ ∀ m, m ≠ n → getSuite u m = getSuite s m)))

/-- The commands of managers: a role is taken or given up, a worker is attached by a HELLO and a request, accepted at the end of its path and
detached; spares are named; ranks are expelled; a spare takes over; gangs and halts are set for a bell; signatures are gathered; each is
refused with NOT_MANAGER, NOT_FOUND, LIMIT, STATE or WRONG_LINEAGE as the tables say (rules R314 to R317, R331, R335, R340, R391, R392,
R398, R399, R439, R462). -/
def Obligations.ManagerCommandsHaveTheirEffect : Prop :=
  ∀ (s : State) (src : Src) (tag n : Nat) (w : Waiting) (b : Bytes),
    (Runs s src tag 0x0500 w n b →
      (s.mgr.role = 1 ∨ s.mgr.role = 3 → exec (.managerRole src tag) s = .next (finish (taken s src w) src tag 0x030A s.mgr.role []))
      ∧ (holdsRank s = true → exec (.managerRole src tag) s = .next (finish (taken s src w) src tag 0x030A s.mgr.role []))
      ∧ (holdsRank s = false → s.mgr.role = 0 ∨ s.mgr.role = 2 → fieldAt b 0 1 = 1 →
        exec (.managerRole src tag) s = .next (finish { (taken s src w) with mgr := { s.mgr with role := 2, depth := 0, moduleId := 0 } } src tag 0 0 (natLE 0 4)))
      ∧ (holdsRank s = false → s.mgr.role = 2 → fieldAt b 0 1 ≠ 1 →
        (s.mgr.workers ≠ [] ∨ s.mgr.jobs ≠ [] → exec (.managerRole src tag) s = .next (finish (taken s src w) src tag 0x030A 2 []))
        ∧ (s.mgr.workers = [] → s.mgr.jobs = [] → exec (.managerRole src tag) s = .next (finish { (taken s src w) with mgr := { s.mgr with role := 0, moduleId := 0xFFFFFFFF } } src tag 0 0 (natLE 0xFFFFFFFF 4))))
      ∧ (holdsRank s = false → s.mgr.role = 0 → fieldAt b 0 1 ≠ 1 →
        exec (.managerRole src tag) s = .next (finish (taken s src w) src tag 0 0 (natLE s.mgr.moduleId 4))))
    ∧ (Runs s src tag 0x0501 w n b → (∀ p, src ≠ .link p) ∨ isRelayed w.pkt = false ∨ fieldAt w.pkt.payload 0 4 = ownId s →
      (manages s = false → exec (.workerAttach src tag) s = .next (finish (taken s src w) src tag 0x030A s.mgr.role []))
      ∧ (manages s = true → 2 < s.mgr.depth → exec (.workerAttach src tag) s = .next (finish (taken s src w) src tag 0x0308 3 []))
      ∧ (manages s = true → s.mgr.depth ≤ 2 → 1024 ≤ s.mgr.workers.length →
        exec (.workerAttach src tag) s = .next (finish (taken s src w) src tag 0x0308 1024 []))
      ∧ (manages s = true → s.mgr.depth ≤ 2 → s.mgr.workers.length < 1024 →
        (portPresent s (fieldAt b 1 1) = false → exec (.workerAttach src tag) s = .next (finish (taken s src w) src tag 0x0405 0 []))
        ∧ (portPresent s (fieldAt b 1 1) = true →
            (getPort s (fieldAt b 1 1)).state = portUp ∨ (getPort s (fieldAt b 1 1)).state = portMgmtOnly → ∃ u,
          exec (.workerAttach src tag) s = .next u ∧ u.suites = s.suites ∧ u.mgr.workers = s.mgr.workers
            ∧ SMap.get [] u.mgr.asked s.mgr.nextTag = [0, ringKey src, tag] ∧ u.mgr.nextTag = (s.mgr.nextTag + 1) % 2 ^ 32
            ∧ ({ src := src, tag := tag, waiting := [s.mgr.nextTag], since := s.bell.count } : Broadcast) ∈ u.mgr.broadcasts)))
    ∧ (∀ p, src = .link p → Runs s src tag 0x0501 w n b → isRelayed w.pkt = true → fieldAt w.pkt.payload 0 4 ≠ ownId s →
      (s.dev = .ready ∨ s.dev = .running →
        (s.mgr.role = 1 ∨ s.mgr.role = 3 → s.mgr.parent ≠ fieldAt w.pkt.payload 4 4 →
          exec (.workerAttach src tag) s = .next (finish (taken s src w) src tag 0x030A s.mgr.role []))
        ∧ (s.mgr.role = 1 ∨ s.mgr.role = 3 → s.mgr.parent = fieldAt w.pkt.payload 4 4 → ∃ u,
          exec (.workerAttach src tag) s = .next (finish u src tag 0 0 (natLE s.mgr.moduleId 4 ++ identityBytes s))
            ∧ u.mgr = { s.mgr with parentPort := p } ∧ u.suites = s.suites)
        ∧ (s.mgr.role = 2 → s.mgr.workers ≠ [] → exec (.workerAttach src tag) s = .next (finish (taken s src w) src tag 0x030A s.mgr.role []))
        ∧ (s.mgr.role = 0 ∨ (s.mgr.role = 2 ∧ s.mgr.workers = []) → holdsRank s = true →
          exec (.workerAttach src tag) s = .next (finish (taken s src w) src tag 0x0301 (stateDetail s 0xFF) []))
        ∧ (s.mgr.role = 0 ∨ (s.mgr.role = 2 ∧ s.mgr.workers = []) → holdsRank s = false → ∃ u,
          exec (.workerAttach src tag) s = .next (finish u src tag 0 0 (natLE (fieldAt w.pkt.payload 0 4) 4 ++ identityBytes s))
            ∧ u.mgr.role = (if s.mgr.role = 2 then 3 else 1) ∧ u.mgr.moduleId = fieldAt w.pkt.payload 0 4 ∧ u.mgr.parent = fieldAt w.pkt.payload 4 4 ∧ u.mgr.parentPort = p
            ∧ u.mgr.jobs = [] ∧ u.suites = s.suites)))
    ∧ (Runs s src tag 0x0502 w n b → s.mgr.role = 0 ∨ s.mgr.role = 2 →
      (s.mgr.role = 0 → exec (.workerDetach src tag) s = .next (finish (taken s src w) src tag 0x030A 0 []))
      ∧ (s.mgr.role = 2 → (∀ x, x ∈ s.mgr.workers → x.module ≠ fieldAt b 0 4) →
        exec (.workerDetach src tag) s = .next (finish (taken s src w) src tag 0x030F 0 []))
      ∧ (∀ x, s.mgr.role = 2 → s.mgr.workers.find? (fun y => y.module == fieldAt b 0 4) = some x →
          s.mgr.jobs.any (fun q => q.2.ranks.any (fun r => r.2.1 == fieldAt b 0 4)) = false → ∃ u,
        exec (.workerDetach src tag) s = .next (finish u src tag 0 0 []) ∧ u.mgr.workers = s.mgr.workers.filter (fun y => y.module != fieldAt b 0 4)
          ∧ (getRing u (16 + x.port)).session = false ∧ u.suites = s.suites)
      ∧ (∀ x, s.mgr.role = 2 → s.mgr.workers.find? (fun y => y.module == fieldAt b 0 4) = some x →
          s.mgr.jobs.any (fun q => q.2.ranks.any (fun r => r.2.1 == fieldAt b 0 4)) = true →
        exec (.workerDetach src tag) s = .next (finish (taken s src w) src tag 0x030A 2 [])))
    ∧ (Runs s src tag 0x0502 w n b → s.mgr.role = 1 ∨ s.mgr.role = 3 → src = .link s.mgr.parentPort → fieldAt b 0 4 = ownId s →
      (holdsRank s = true → exec (.workerDetach src tag) s = .next (finish (taken s src w) src tag 0x030A s.mgr.role []))
      ∧ (holdsRank s = false → ∃ u, exec (.workerDetach src tag) s = .next (finish u src tag 0 0 []) ∧ u.mgr.role = (if s.mgr.role = 3 then 2 else 0)
        ∧ u.mgr.parent = 0xFFFFFFFF ∧ u.mgr.heard = none ∧ (getRing u (16 + s.mgr.parentPort)).session = false ∧ u.suites = s.suites))
    ∧ (Runs s src tag 0x0502 w n b → s.mgr.role = 3 → src ≠ .link s.mgr.parentPort ∨ fieldAt b 0 4 ≠ ownId s →
      ((∀ x, x ∈ s.mgr.workers → x.module ≠ fieldAt b 0 4) → exec (.workerDetach src tag) s = .next (finish (taken s src w) src tag 0x030F 0 []))
      ∧ (∀ x, s.mgr.workers.find? (fun y => y.module == fieldAt b 0 4) = some x → x.lost = false →
          s.mgr.jobs.any (fun q => q.2.ranks.any (fun r => r.2.1 == fieldAt b 0 4)) = false → ∃ u,
        exec (.workerDetach src tag) s = .next u ∧ u.mgr.workers = s.mgr.workers ∧ u.suites = s.suites
          ∧ ({ src := src, tag := tag, waiting := [s.mgr.nextTag], since := s.bell.count } : Broadcast) ∈ u.mgr.broadcasts))
    ∧ (Runs s src tag 0x0503 w n b →
      (n ≠ 0xFF → exec (.spareAssign src tag) s = .next (finish (taken s src w) src tag 0 0 (natLE (fieldAt b 2 2) 4)))
      ∧ (n = 0xFF → takesJobs s = false → exec (.spareAssign src tag) s = .next (finish (taken s src w) src tag 0x030A s.mgr.role []))
      ∧ (n = 0xFF → takesJobs s = true → SMap.has s.mgr.jobs (fieldAt b 0 1) = false →
        exec (.spareAssign src tag) s = .next (finish (taken s src w) src tag 0x030F 0 []))
      ∧ (∀ l, n = 0xFF → takesJobs s = true → SMap.has s.mgr.jobs (fieldAt b 0 1) = true →
          (∀ i, i < fieldAt b 2 2 → knownModule s (fieldAt b (8 + 8 * i) 4) = true) →
          l = ((if bit (fieldAt b 1 1) 0 then [] else (getJob s (fieldAt b 0 1)).spares)
                ++ (List.range (fieldAt b 2 2)).map (memberAt b)).eraseDups →
        (1024 < l.length → exec (.spareAssign src tag) s = .next (finish (taken s src w) src tag 0x0308 1024 []))
        ∧ (l.length ≤ 1024 → exec (.spareAssign src tag) s = .next (settleGather (toMembers
            (setJob (actAsTop (taken s src w)) (fieldAt b 0 1) { getJob s (fieldAt b 0 1) with spares := l })
            { src := src, tag := tag, since := s.bell.count, head := natLE l.length 4 } l 0x0503 8 b (fun st _ => (st, some (0, 0, natLE l.length 4))))))))
    ∧ (Runs s src tag 0x0504 w n b →
      (n = 0xFF → takesJobs s = false → exec (.expel src tag) s = .next (finish (taken s src w) src tag 0x030A s.mgr.role []))
      ∧ (n = 0xFF → takesJobs s = true → SMap.has s.mgr.jobs (fieldAt b 0 1) = false → exec (.expel src tag) s = .next (finish (taken s src w) src tag 0x030F 0 []))
      ∧ (n = 0xFF → takesJobs s = true → (∃ r, r ∈ expelledRanks b ∧ SMap.has (getJob s (fieldAt b 0 1)).ranks r = false) →
        exec (.expel src tag) s = .next (finish (taken s src w) src tag 0x030F 0 []))
      ∧ (n = 0xFF → takesJobs s = true → SMap.has s.mgr.jobs (fieldAt b 0 1) = true →
          (∀ r, r ∈ expelledRanks b → SMap.has (getJob s (fieldAt b 0 1)).ranks r = true) → (getJob s (fieldAt b 0 1)).started = false →
        exec (.expel src tag) s = .next (finish (taken s src w) src tag 0x0301 (stateDetail s 0xFF) []))
      ∧ (n = 0xFF → takesJobs s = true → SMap.has s.mgr.jobs (fieldAt b 0 1) = true →
          (∀ r, r ∈ expelledRanks b → SMap.has (getJob s (fieldAt b 0 1)).ranks r = true) → (getJob s (fieldAt b 0 1)).started = true →
        ((getJob s (fieldAt b 0 1)).spares.length < (expelledRanks b).length →
          exec (.expel src tag) s = .next (finish (stopJob (taken s src w) (fieldAt b 0 1) (fieldAt b 4 4 + 1) 0x0600) src tag 0x0308 (min (getJob s (fieldAt b 0 1)).spares.length 0xFFFF) []))
        ∧ ((expelledRanks b).length ≤ (getJob s (fieldAt b 0 1)).spares.length → ∃ g v, exec (.expel src tag) s = .next (settleGather (v, g))
          ∧ g.src = src ∧ g.tag = tag
          ∧ v = (expelledRanks b).foldl (fun st r => assignSpare st (fieldAt b 0 1) r (fieldAt b 4 4) 0
              (replicaOf s (getJob s (fieldAt b 0 1)) (expelledRanks b) r))
              (sendExpels (haltInPlace (taken s src w) (fieldAt b 0 1) (fieldAt b 4 4)) (fieldAt b 0 1) (fieldAt b 4 4) (expelledRanks b))))
      ∧ (∀ r, n ≠ 0xFF → (getSuite s n).job.rank = some r → r ∈ expelledRanks b →
        exec (.expel src tag) s = .next (finish (leaveJob (taken s src w) n) src tag 0 0 []))
      ∧ (n ≠ 0xFF → (∀ r, (getSuite s n).job.rank = some r → r ∉ expelledRanks b) →
        exec (.expel src tag) s = .next (finish (taken s src w) src tag 0 0 [])))
    ∧ (Runs s src tag 0x0505 w n b →
      (otherLineage (getSuite s n) (bytesAt b 0 16) = true → exec (.takeover src tag) s = .next (finish (taken s src w) src tag 0x030C 0 []))
      ∧ (otherLineage (getSuite s n) (bytesAt b 0 16) = false →
        ((getSuite s n).state ≠ .loaded ∨ (getSuite s n).job.rank ≠ none ∨ (getSuite s n).job.takeover ≠ none →
          exec (.takeover src tag) s = .next (finish (taken s src w) src tag 0x0301 (stateDetail s n) []))
        ∧ ((getSuite s n).state = .loaded → (getSuite s n).job.rank = none → (getSuite s n).job.takeover = none →
          (takeoverReady (getSuite s n) b = false → exec (.takeover src tag) s = .next (finish (taken s src w) src tag 0x030F 0 []))
          ∧ (takeoverReady (getSuite s n) b = true → ∃ u, exec (.takeover src tag) s = .next u
            ∧ u = { s with rings := u.rings, suites := u.suites } ∧ (getSuite u n).job.takeover = some (bytesAt b 0 36)))))
    ∧ (Runs s src tag 0x0506 w n b →
      (n ≠ 0xFF → (getSuite s n).job.rank = none → exec (.gangAtBell src tag) s = .next (finish (taken s src w) src tag 0x0301 (stateDetail s n) []))
      ∧ (n ≠ 0xFF → (getSuite s n).job.rank ≠ none → 1024 ≤ (pendingEvents s).length →
        exec (.gangAtBell src tag) s = .next (finish (taken s src w) src tag 0x0308 1024 []))
      ∧ (n ≠ 0xFF → (getSuite s n).job.rank ≠ none → (pendingEvents s).length < 1024 →
        ∃ u, exec (.gangAtBell src tag) s = .next u ∧ u = { s with rings := u.rings, bell := u.bell }
          ∧ u.bell.events = s.bell.events ++
            [{ bell := max (fieldAt b 8 8) s.bell.count, id := s.bell.nextEvent, opcode := 0x0506, suite := n, arg := fieldAt b 1 1 }])
      ∧ (n = 0xFF → takesJobs s = false → exec (.gangAtBell src tag) s = .next (finish (taken s src w) src tag 0x030A s.mgr.role []))
      ∧ (n = 0xFF → takesJobs s = true → SMap.has s.mgr.jobs (fieldAt b 0 1) = false →
        exec (.gangAtBell src tag) s = .next (finish (taken s src w) src tag 0x030F 0 []))
      ∧ (n = 0xFF → takesJobs s = true → SMap.has s.mgr.jobs (fieldAt b 0 1) = true → ∃ g, g.src = src ∧ g.tag = tag ∧ g.waiting = []
        ∧ g.since = max (fieldAt b 8 8) s.bell.count
        ∧ exec (.gangAtBell src tag) s = .next (settleGather (toMembers (setNote (actAsTop (taken s src w)) src tag [fieldAt b 1 1]) g
            ((getJob s (fieldAt b 0 1)).ranks.map (fun r => r.2)) 0x0506 (8 + 2 * bnat (bit w.pkt.flags 1)) (bytesAt b 0 16)
            (fun q m => gangRank q m (fieldAt b 1 1) (fieldAt b 8 8))))))
    ∧ (Runs s src tag 0x0507 w n b →
      (otherLineage (getSuite s n) (bytesAt b 0 16) = true → exec (.haltAtBell src tag) s = .next (finish (taken s src w) src tag 0x030C 0 []))
      ∧ (otherLineage (getSuite s n) (bytesAt b 0 16) = false →
        ((getSuite s n).job.rank = none → exec (.haltAtBell src tag) s = .next (finish (taken s src w) src tag 0x0301 (stateDetail s n) []))
        ∧ ((getSuite s n).job.rank ≠ none →
            (getSuite s n).state = .running ∨ (getSuite s n).state = .preempted ∨ (getSuite s n).state = .draining →
          ∃ u, exec (.haltAtBell src tag) s = .next u ∧ u = { s with rings := u.rings, suites := u.suites, bell := u.bell }
            ∧ (haltNamed (getSuite s n).job = false → (getSuite u n).job.haltBell = some (fieldAt b 24 8)
                ∧ (getSuite u n).job.haltStep = fieldAt b 16 4)
            ∧ (haltNamed (getSuite s n).job = true → (getSuite u n).job.haltBell = (getSuite s n).job.haltBell
                ∧ (getSuite u n).job.haltStep = min (getSuite s n).job.haltStep (fieldAt b 16 4)))))
    ∧ (Runs s src tag 0x0603 w n b →
      (isBroadcast w.pkt = true → exec (.signatureCollect src tag) s = .next (finish (sendSignatures (taken s src w) (fieldAt b 0 8)) src tag 0 0 []))
      ∧ (isBroadcast w.pkt = false → s.mgr.role ≠ 2 → s.mgr.role ≠ 3 →
        exec (.signatureCollect src tag) s = .next (finish (taken s src w) src tag 0x030A s.mgr.role []))
      ∧ (isBroadcast w.pkt = false → s.mgr.role = 2 ∨ s.mgr.role = 3 → (∀ x, x ∈ s.mgr.workers → x.lost = true) →
        exec (.signatureCollect src tag) s = .next (finish (sendSignatures (taken s src w) (fieldAt b 0 8)) src tag 0 0 []))
      ∧ (isBroadcast w.pkt = false → s.mgr.role = 2 ∨ s.mgr.role = 3 → (∃ x, x ∈ s.mgr.workers ∧ x.lost = false) → ∃ g,
        exec (.signatureCollect src tag) s = .next (openGather (sendToWorkers (sendSignatures (taken s src w) (fieldAt b 0 8)) 0x0603 0xFF 0x0C
          (natLE (fieldAt b 0 8) 8)) g) ∧ g.src = src ∧ g.tag = tag ∧ g.waiting.length = (s.mgr.workers.filter (fun x => !x.lost)).length))

/-- The commands between managers and ranks: a poison notice and a vote go up to the top manager, which acts on them, a verdict and merged
records are taken by the rank, a rank's records are merged at the top or passed on, and a JOB_MAP is taken by a suite whose state and
lineage admit it. VOTE_RECORD and RECORDS are unanswered and, where refused, counted (rules R321, R327, R329, R330, R334, R382, R392, R398). -/
def Obligations.JobTrafficReachesItsRank : Prop :=
  ∀ (s : State) (src : Src) (tag n : Nat) (w : Waiting) (b : Bytes),
    (Runs s src tag 0x0508 w n b →
      (manages s = false → exec (.poisonNotice src tag) s = .next (finish (taken s src w) src tag 0x030A s.mgr.role []))
      ∧ (s.mgr.role = 2 → exec (.poisonNotice src tag) s = .next (finish (topNotice (taken s src w) (bytesAt b 0 16) (fieldAt b 16 4) (fieldAt b 20 4)
          (fieldAt b 24 4, fieldAt b 28 4)) src tag 0 0 []))
      ∧ (s.mgr.role = 3 → exec (.poisonNotice src tag) s = .next (finish (sendToManager (taken s src w) 0x0508 0xFF true (bytesAt b 0 32)) src tag 0 0 [])))
    ∧ (Runs s src tag 0x0509 w n b →
      (manages s = false → exec (.voteRecord src tag) s = .next (dropSilent (taken s src w) src tag true))
      ∧ (s.mgr.role = 2 → exec (.voteRecord src tag) s = .next (dropSilent (receiveVote (taken s src w) (bytesAt b 0 40)) src tag false))
      ∧ (s.mgr.role = 3 → exec (.voteRecord src tag) s = .next (dropSilent (sendToManager (taken s src w) 0x0509 0xFF false (bytesAt b 0 40)) src tag false)))
    ∧ (Runs s src tag 0x050A w n b →
      (otherLineage (getSuite s n) (bytesAt b 0 16) = true → exec (.verdict src tag) s = .next (finish (taken s src w) src tag 0x030C 0 []))
      ∧ (otherLineage (getSuite s n) (bytesAt b 0 16) = false →
        ((getSuite s n).job.rank = none → exec (.verdict src tag) s = .next (finish (taken s src w) src tag 0x0301 (stateDetail s n) []))
        ∧ ((getSuite s n).job.rank ≠ none → ∃ u, exec (.verdict src tag) s = .next (finish u src tag 0 0 [])
          ∧ u = { s with rings := u.rings, suites := u.suites }
          ∧ (fieldAt b 20 1 = 0 → (getSuite u n).job.voted = max (getSuite s n).job.voted (fieldAt b 16 4)
              ∧ ∀ c, c ∈ (getSuite u n).checkpoints → c.step = fieldAt b 16 4 → c.vouched = true)
          ∧ (fieldAt b 20 1 = 1 → (getSuite u n).job.inPlace = true) ∧ (fieldAt b 20 1 = 2 → (getSuite u n).job.toCheckpoint = true)
          ∧ (fieldAt b 20 1 = 3 → (getSuite u n).job.stopHalt = true) ∧ ∀ m, m ≠ n → getSuite u m = getSuite s m)))
    ∧ (Runs s src tag 0x050B w n b →
      ((getSuite s n).image = none → exec (.jobMap src tag) s = .next (finish (taken s src w) src tag 0x0301 (stateDetail s n) []))
      ∧ ((getSuite s n).image ≠ none → (getSuite s n).state ≠ .loaded → (getSuite s n).job.lineage ≠ [] →
          bytesAt (getSuite s n).job.lineage 0 16 ≠ bytesAt b 0 16 → exec (.jobMap src tag) s = .next (finish (taken s src w) src tag 0x030C 0 []))
      ∧ ((getSuite s n).image ≠ none → (getSuite s n).state = .loaded → fieldAt b 30 1 = 0 → ∃ u,
        exec (.jobMap src tag) s = .next (finish u src tag 0 0 []) ∧ u = { s with rings := u.rings, suites := u.suites }
          ∧ (getSuite u n).job.nRanks = fieldAt b 20 4
          ∧ (getSuite u n).job.rank = (if fieldAt b 16 4 = 0xFFFFFFFF then none else some (fieldAt b 16 4))
          ∧ (∀ i, i < fieldAt b 28 2 → SMap.get 0 (getSuite u n).job.map (fieldAt b 24 4 + i) = fieldAt b (32 + 4 * i) 4)
          ∧ ∀ m, m ≠ n → getSuite u m = getSuite s m)
      ∧ ((getSuite s n).image ≠ none → (getSuite s n).state = .loaded → fieldAt b 30 1 = 1 → bit (fieldAt b 31 1) 0 = false → ∃ u,
        exec (.jobMap src tag) s = .next (finish u src tag 0 0 []) ∧ u = { s with rings := u.rings, suites := u.suites }
          ∧ (∀ i, i < fieldAt b 28 2 → SMap.get [] (getSuite u n).job.routes (fieldAt b 24 4 + i) = bytesAt b (32 + 8 * i) 8))
      ∧ ((getSuite s n).image ≠ none → (getSuite s n).state = .loaded → fieldAt b 30 1 = 2 →
        ((getSuite s n).job.mapReceived = false → exec (.jobMap src tag) s = .next (finish (taken s src w) src tag 0x0301 (stateDetail s n) []))
        ∧ ((getSuite s n).job.mapReceived = true → fieldAt b 16 4 ≠ 0xFFFFFFFF →
          exec (.jobMap src tag) s = .next (finish (commitRank (taken s src w) n b) src tag 0 0 []))
        ∧ ((getSuite s n).job.mapReceived = true → fieldAt b 16 4 = 0xFFFFFFFF →
          exec (.jobMap src tag) s = .next (finish (takeJobMap (taken s src w) n b) src tag 0 0 [])))
      ∧ (∀ im, (getSuite s n).image = some im → (getSuite s n).state = .loaded → fieldAt b 30 1 = 1 → bit (fieldAt b 31 1) 0 = true →
        (planAdmits im.plan (fieldAt b 20 4) = false → exec (.jobMap src tag) s = .next (finish (takeJobMap (taken s src w) n b) src tag 0x0121 0 []))
        ∧ (planAdmits im.plan (fieldAt b 20 4) = true →
            transitFits (takeJobMap (taken s src w) n b) n ((getSuite (takeJobMap (taken s src w) n b) n).job.routes.map (fun r => r.2)) = true →
            mapFailure (takeJobMap (taken s src w) n b) n = none →
          exec (.jobMap src tag) s = .next (finish (takeJobMap (taken s src w) n b) src tag 0 0 (if fieldAt b 16 4 = 0xFFFFFFFF then natLE 0 48 else bytesAt (getSuite s n).job.rankManifest 0 48)))))
    ∧ (Runs s src tag 0x050C w n b →
      (n = 0xFF → manages s = false → exec (.records src tag) s = .next (dropSilent (taken s src w) src tag true))
      ∧ (n = 0xFF → s.mgr.role = 2 → exec (.records src tag) s = .next (dropSilent (mergeAtTop (taken s src w) b) src tag false))
      ∧ (n = 0xFF → s.mgr.role = 3 → exec (.records src tag) s = .next (dropSilent (sendToManager (taken s src w) 0x050C 0xFF false b) src tag false))
      ∧ (n ≠ 0xFF → (getSuite s n).job.rank = none ∨ otherLineage (getSuite s n) (bytesAt b 0 16) = true →
        exec (.records src tag) s = .next (dropSilent (taken s src w) src tag true))
      ∧ (n ≠ 0xFF → (getSuite s n).job.rank ≠ none → otherLineage (getSuite s n) (bytesAt b 0 16) = false →
        exec (.records src tag) s = .next (dropSilent (takeRecords (taken s src w) n b) src tag false)))

/-- What no opcode's own rules decide: a command that its function, the device state or an absent suite does not admit is refused before it has
any effect (a RESET of a virtual function at a level other than 2 too); one that is not waiting, or may not start yet, changes nothing; and a reply takes the command out of its queue and goes, with
the tag and opcode of the command, into the completion slot at the tail of its ring (rules R368, R374, R381, R383, R388, R389). -/
def Obligations.CommandsAreAdmittedAndReplied : Prop :=
  (∀ (s : State) (src : Src) (tag op : Nat) (w : Waiting) (eff : State → Src → Packet → Nat → Bytes → Effect), Begins s src tag op w →
      isSilent w.pkt (bodyOf w.pkt) = false →
    (pfOnly src w.pkt = true → runCommand op src tag s eff = .next (finish (taken s src w) src tag 0x0311 0 []))
    ∧ (pfOnly src w.pkt = false → admits s src w.pkt = false →
      runCommand op src tag s eff = .next (finish (taken s src w) src tag 0x0301 (stateDetail s (targetOf src w.pkt)) []))
    ∧ (pfOnly src w.pkt = false → admits s src w.pkt = true → targetOf src w.pkt ≠ 0xFF → op ≠ 0x0200 → 1 < op →
        (getSuite s (targetOf src w.pkt)).state = .absent →
      runCommand op src tag s eff = .next (finish (taken s src w) src tag 0x0303 0 []))
    ∧ (∀ u st d f, Runs s src tag op w (targetOf src w.pkt) (bodyOf w.pkt) →
        eff (taken s src w) src w.pkt (targetOf src w.pkt) (bodyOf w.pkt) = (u, some (st, d, f)) →
      runCommand op src tag s eff = .next (finish u src tag st d f))
    ∧ (∀ u, Runs s src tag op w (targetOf src w.pkt) (bodyOf w.pkt) →
        eff (taken s src w) src w.pkt (targetOf src w.pkt) (bodyOf w.pkt) = (u, none) → runCommand op src tag s eff = .next u))
  ∧ (∀ (s : State) (src : Src) (tag : Nat) (w : Waiting) (eff : State → Src → Packet → Nat → Bytes → Effect), Begins s src tag 0x0102 w →
      pfOnly src w.pkt = true → runCommand 0x0102 src tag s eff = .next (finish (taken s src w) src tag 0x0311 0 []))
  ∧ (∀ (s : State) (src : Src) (tag op : Nat) (eff : State → Src → Packet → Nat → Bytes → Effect),
      (∀ w, w ∈ (getRing s (ringKey src)).queue → w.pkt.tag ≠ tag ∨ w.pkt.opcode ≠ op ∨ w.executing = true ∨ w.reply ≠ none) →
    runCommand op src tag s eff = .next s)
  ∧ (∀ (s : State) (src : Src) (tag op : Nat) (w : Waiting) (eff : State → Src → Packet → Nat → Bytes → Effect),
      (getRing s (ringKey src)).queue.find? (fun x => x.pkt.tag == tag && x.pkt.opcode == op && !x.executing && x.reply.isNone) = some w →
      startable s src w = false ∨ isHere s src w.pkt = false ∨ (isBroadcast w.pkt = true ∧ w.relayed = false) →
    runCommand op src tag s eff = .next s)
  ∧ (∀ (s : State) (f tag st d : Nat) (w : Waiting) (fields : Bytes), f < 16 →
      (getRing s f).queue.find? (fun x => x.executing && x.pkt.tag == tag) = some w → isBroadcast w.pkt = false → isRelayed w.pkt = false →
      (getRing s f).enable = true → (getRing s f).stopped = false → s.bnd.d3hot.contains f = false →
      hostFails s ((getRing s f).cqBase + 4096 * (getRing s f).cqTail) (20 + fields.length) = false → hostFails s (getRing s f).shadow 4 = false →
    ∃ u, u = finish s (.ring f) tag st d fields
      ∧ (getRing u f).queue = dropFirst (fun x => x.executing && x.pkt.tag == tag) (getRing s f).queue
      ∧ (getRing u f).cqTail = ((getRing s f).cqTail + 1) % 2 ^ (getRing s f).cqLog2
      ∧ u = { s with rings := u.rings, host := u.host, outbox := u.outbox }
      ∧ ∀ i, i ≠ f → getRing u i = getRing s i)

/-- A step takes the command at the front of the queue and is that command on the block with the queue's rest; on an empty queue the block idles
and the step changes nothing (the model's choice, assumption 3). -/
def Obligations.StepRunsTheFrontCommand : Prop :=
  (∀ (c : Instr) (cs : List Instr) (s : State), s.pending = c :: cs → step s = exec c { s with pending := cs })
    ∧ (∀ (s : State), s.pending = [] → step s = .next s)

/-- What reset leaves: the module is OFF, no suite is there, the Belfry is off at count 0, no module id is held, the timeouts and leads have the
values of their registers, the memories list nothing and are canonical, and no command waits; every ring is disabled and every suite that is
made starts with its registers' values (rules R16, R17, R272, R335, R351, R386, R426; the values of registers of a suite that is absent are
read as the register reference gives them). -/
def Obligations.ResetIsAsTheRulesSay : Prop :=
  State.reset.dev = .off ∧ State.reset.bell.state = .off ∧ State.reset.bell.count = 0 ∧ State.reset.mgr.moduleId = 0xFFFFFFFF
    ∧ State.reset.mgr.role = 0 ∧ State.reset.mgr.haltLead = 1000 ∧ State.reset.mgr.voteTimeout = 10000000
    ∧ State.reset.cup.warnClampMhz = 1200 ∧ State.reset.bell.telemetry = 100000 ∧ State.reset.pending = [] ∧ State.reset.outbox = []
    ∧ (∀ n, (getSuite State.reset n).state = .absent ∧ (getSuite State.reset n).timeoutMs = 1 ∧ (getSuite State.reset n).inputTimeoutS = 10
        ∧ (getSuite State.reset n).slice.grace = 250000)
    ∧ (∀ f, (getRing State.reset f).enable = false ∧ (getRing State.reset f).session = false ∧ (getRing State.reset f).queue = [])
    ∧ (∀ e, (getEntry State.reset e).state = .free)
    ∧ (∀ p, (getPort State.reset p).state = portDown ∧ (getPort State.reset p).farModule = 0xFFFFFFFF)
    ∧ (∀ l, (getLantern State.reset l).state = 0)
    ∧ memoriesCanonical State.reset = true ∧ SMap.sorted State.reset.suites = true
    ∧ (∀ fn value, exec (.sqTailDoorbell fn value) State.reset = .next State.reset)

/-- Whatever the state, a step goes on: it takes at most the front command from the queue, leaves the fuses as they are, and keeps the stacks'
memory, the host's memory and the table of suites in their canonical forms (the forms are the model's own, assumption 6). -/
def Obligations.EveryStepGoesOnAndKeepsTheForms : Prop :=
  ∀ (s : State), wentOn (step s) = true
    ∧ ∀ u, step s = .next u → u.pending = s.pending.tail ∧ u.fuse = s.fuse
      ∧ (memoriesCanonical s = true → memoriesCanonical u = true)
      ∧ (SMap.sorted s.suites = true → SMap.sorted u.suites = true)

/-- A command packet is a header of 16 bytes and a payload of at most 4,080, little-endian, laid out as the table says, and the packet that is
read from its bytes is the one that was written, with every field at every value it may hold (rule R366). -/
def Obligations.PacketsAreLaidOutAndReadBack : Prop :=
  ∀ (p : Packet), p.version < 256 → p.flags < 256 → p.opcode < 2 ^ 16 → p.tag < 2 ^ 32 → p.suite < 256 → p.payload.length ≤ 4080 →
    (packetBytes p).length = 16 + p.payload.length ∧ (packetBytes p).length ≤ 4096
    ∧ fieldAt (packetBytes p) 0 1 = p.version ∧ fieldAt (packetBytes p) 1 1 = p.flags ∧ fieldAt (packetBytes p) 2 2 = p.opcode
    ∧ fieldAt (packetBytes p) 4 4 = p.tag ∧ fieldAt (packetBytes p) 8 1 = p.suite ∧ fieldAt (packetBytes p) 9 1 = 0
    ∧ fieldAt (packetBytes p) 10 2 = p.payload.length
    ∧ fieldAt (packetBytes p) 12 4 = crc32 ((packetBytes p).take 12 ++ p.payload)
    ∧ (packetBytes p).drop 16 = p.payload
    ∧ parsePacket (packetBytes p) = p
    ∧ (isRelayed p = bit p.flags 3 ∧ isBroadcast p = bit p.flags 2)
    ∧ (∀ r st d body, bit (fieldAt (replyBytes p r st d body) 1 1) 0 = true)

/-- A Q4 activation code is an unsigned integer from 0 to 15, its value is code − z, and every code is valid (rule R58). -/
def Obligations.Q4ActivationCodesAreCodeMinusZeroPoint : Prop :=
  (∀ (m : Memory) (addr nib : Nat), codeAt m .q4a addr nib ≤ 15)
    ∧ (∀ (c : Nat) (tab : List Nat) (z : Int), c ≤ 15 → codeValue .q4a tab z c = (.num ⟨(c : Int) - z, 0⟩ false, false))
    ∧ (∀ (c : Nat), c ≤ 15 → ∃ (m : Memory) (addr nib : Nat), codeAt m .q4a addr nib = c)

/-- The generator's round is a bijection for every key, so two blocks that differ in exactly one 16-byte word have different block hashes, for
every tensor and block number (rules R45, R46). -/
def Obligations.BlocksThatDifferInOneWordHashDifferently : Prop :=
  (∀ (k0 k1 : Word) (c d : Lanes), gRound c k0 k1 = gRound d k0 k1 → c = d)
    ∧ (∀ (k0 k1 : Word) (d : Lanes), ∃ c, gRound c k0 k1 = d)
    ∧ (∀ (x y : Bytes) (j tensor index : Nat), x.length = 64 → y.length = 64 → j < 4 → bytesAt x (16 * j) 16 ≠ bytesAt y (16 * j) 16 →
        (∀ i, i < 4 → i ≠ j → bytesAt x (16 * i) 16 = bytesAt y (16 * i) 16) → blockHash x tensor index ≠ blockHash y tensor index)
end

