-- ==== Sys2Proof/Laws/Maps.lean ====
section
/-!
SUPPORT. Sparse maps and byte memories: reading after writing, and the canonical form that every memory operation keeps.
-/
namespace Sys2Proof

variable {α : Type}

@[simp] theorem SMap.get_nil (d : α) (k : Nat) : SMap.get d [] k = d := rfl

theorem SMap.get_set_same (d : α) (m : SMap α) (k : Nat) (v : α) : SMap.get d (SMap.set m k v) k = v := by
  induction m with
  | nil => simp [SMap.set, SMap.get]
  | cons p m ih =>
    obtain ⟨j, w⟩ := p
    simp only [SMap.set]
    split
    · simp [SMap.get]
    · split
      · simp [SMap.get]
      · rename_i h; simp [SMap.get, h, ih]

theorem SMap.get_set_other (d : α) (m : SMap α) (k i : Nat) (v : α) (h : i ≠ k) :
    SMap.get d (SMap.set m k v) i = SMap.get d m i := by
  induction m with
  | nil => simp [SMap.set, SMap.get, Ne.symm h]
  | cons p m ih =>
    obtain ⟨j, w⟩ := p
    simp only [SMap.set]
    split
    · simp [SMap.get, Ne.symm h]
    · split
      · rename_i e; subst e; simp [SMap.get, Ne.symm h]
      · simp [SMap.get, ih]

/-- Every key of a map is above `k`. -/
def SMap.above (k : Nat) (m : SMap α) : Prop := ∀ p ∈ m, k < p.1

/-- A second write under a key replaces the first. -/
theorem SMap.set_set (m : SMap α) (k : Nat) (v w : α) : SMap.set (SMap.set m k v) k w = SMap.set m k w := by
  induction m with
  | nil => simp [SMap.set]
  | cons p m ih =>
    obtain ⟨j, x⟩ := p
    by_cases h1 : k < j
    · simp [SMap.set, h1]
    · by_cases h2 : j = k
      · simp [SMap.set, h2]
      · simp [SMap.set, h1, h2, ih]

theorem SMap.sorted_cons (p : Nat × α) (m : SMap α) :
    SMap.sorted (p :: m) = true ↔ SMap.above p.1 m ∧ SMap.sorted m = true := by
  induction m generalizing p with
  | nil => simp [SMap.sorted, SMap.above]
  | cons q m ih =>
    obtain ⟨i, v⟩ := p
    obtain ⟨j, w⟩ := q
    constructor
    · intro h
      simp only [SMap.sorted, Bool.and_eq_true, decide_eq_true_eq] at h
      refine ⟨?_, h.2⟩
      intro r hr
      rcases List.mem_cons.mp hr with rfl | hr
      · exact h.1
      · exact Nat.lt_trans h.1 (((ih (j, w)).mp h.2).1 r hr)
    · intro h
      simp only [SMap.sorted, Bool.and_eq_true, decide_eq_true_eq]
      exact ⟨h.1 (j, w) (by simp), h.2⟩

theorem SMap.mem_set {m : SMap α} {k : Nat} {v : α} {p : Nat × α} (h : p ∈ SMap.set m k v) : p = (k, v) ∨ p ∈ m := by
  induction m with
  | nil => simpa [SMap.set] using h
  | cons q m ih =>
    obtain ⟨j, w⟩ := q
    simp only [SMap.set] at h
    split at h
    · simpa using h
    · split at h
      · rcases List.mem_cons.mp h with h | h
        · exact .inl h
        · exact .inr (List.mem_cons_of_mem _ h)
      · rcases List.mem_cons.mp h with h | h
        · exact .inr (by simp [h])
        · exact (ih h).imp_right (List.mem_cons_of_mem _)

theorem SMap.mem_erase {m : SMap α} {k : Nat} {p : Nat × α} (h : p ∈ SMap.erase m k) : p ∈ m := by
  induction m with
  | nil => simpa [SMap.erase] using h
  | cons q m ih =>
    obtain ⟨j, w⟩ := q
    simp only [SMap.erase] at h
    split at h
    · exact List.mem_cons_of_mem _ (ih h)
    · rcases List.mem_cons.mp h with h | h
      · simp [h]
      · exact List.mem_cons_of_mem _ (ih h)

theorem SMap.sorted_set (m : SMap α) (k : Nat) (v : α) (h : SMap.sorted m = true) : SMap.sorted (SMap.set m k v) = true := by
  induction m with
  | nil => rfl
  | cons q m ih =>
    obtain ⟨j, w⟩ := q
    have hs := (SMap.sorted_cons (j, w) m).mp h
    simp only [SMap.set]
    split
    · rename_i hk
      refine (SMap.sorted_cons _ _).mpr ⟨?_, h⟩
      intro r hr
      rcases List.mem_cons.mp hr with rfl | hr
      · exact hk
      · exact Nat.lt_trans hk (hs.1 r hr)
    · split
      · rename_i hj; subst hj; exact (SMap.sorted_cons _ _).mpr hs
      · refine (SMap.sorted_cons _ _).mpr ⟨?_, ih hs.2⟩
        intro r hr
        rcases SMap.mem_set hr with rfl | hr
        · simp only; omega
        · exact hs.1 r hr

theorem SMap.sorted_erase (m : SMap α) (k : Nat) (h : SMap.sorted m = true) : SMap.sorted (SMap.erase m k) = true := by
  induction m with
  | nil => rfl
  | cons q m ih =>
    obtain ⟨j, w⟩ := q
    have hs := (SMap.sorted_cons (j, w) m).mp h
    simp only [SMap.erase]
    split
    · exact ih hs.2
    · exact (SMap.sorted_cons _ _).mpr ⟨fun r hr => hs.1 r (SMap.mem_erase hr), ih hs.2⟩

theorem SMap.sorted_filter (f : Nat × α → Bool) (m : SMap α) (h : SMap.sorted m = true) :
    SMap.sorted (m.filter f) = true := by
  induction m with
  | nil => rfl
  | cons q m ih =>
    have hs := (SMap.sorted_cons q m).mp h
    simp only [List.filter_cons]
    split
    · exact (SMap.sorted_cons _ _).mpr ⟨fun r hr => hs.1 r ((List.mem_filter.mp hr).1), ih hs.2⟩
    · exact ih hs.2

theorem SMap.get_erase_other (d : α) (m : SMap α) (k i : Nat) (h : i ≠ k) : SMap.get d (SMap.erase m k) i = SMap.get d m i := by
  induction m with
  | nil => rfl
  | cons p m ih =>
    obtain ⟨j, w⟩ := p
    simp only [SMap.erase]
    split
    · rename_i e; subst e; simp [SMap.get, Ne.symm h, ih]
    · simp [SMap.get, ih]

theorem SMap.get_above (d : α) (m : SMap α) (k : Nat) (h : SMap.above k m) : SMap.get d m k = d := by
  induction m with
  | nil => rfl
  | cons p m ih =>
    obtain ⟨j, w⟩ := p
    have : j ≠ k := by have := h (j, w) (by simp); simp only at this; omega
    simp [SMap.get, this, ih (fun r hr => h r (List.mem_cons_of_mem _ hr))]

theorem SMap.get_erase_same (d : α) (m : SMap α) (k : Nat) : SMap.get d (SMap.erase m k) k = d := by
  induction m with
  | nil => rfl
  | cons p m ih =>
    obtain ⟨j, w⟩ := p
    simp only [SMap.erase]
    split
    · exact ih
    · rename_i e; simp [SMap.get, e, ih]

theorem Memory.wf_write (m : Memory) (a : Nat) (b : Byte) (h : Memory.wf m = true) : Memory.wf (Memory.write m a b) = true := by
  simp only [Memory.wf, Bool.and_eq_true, List.all_eq_true] at h ⊢
  unfold Memory.write
  split
  · exact ⟨SMap.sorted_erase m a h.1, fun c hc => h.2 c (SMap.mem_erase hc)⟩
  · rename_i hb
    refine ⟨SMap.sorted_set m a b h.1, fun c hc => ?_⟩
    rcases SMap.mem_set hc with rfl | hc
    · simpa using hb
    · exact h.2 c hc

theorem Memory.wf_writeN (bs : Bytes) (m : Memory) (a : Nat) (h : Memory.wf m = true) : Memory.wf (Memory.writeN m a bs) = true := by
  induction bs generalizing m a with
  | nil => exact h
  | cons b bs ih => exact ih _ _ (Memory.wf_write m a b h)

theorem Memory.wf_filter (f : Host.Cell → Bool) (m : Memory) (h : Memory.wf m = true) : Memory.wf (m.filter f) = true := by
  simp only [Memory.wf, Bool.and_eq_true, List.all_eq_true] at h ⊢
  exact ⟨SMap.sorted_filter f m h.1, fun c hc => h.2 c ((List.mem_filter.mp hc).1)⟩

theorem Memory.wf_clear (m : Memory) (a n : Nat) (h : Memory.wf m = true) : Memory.wf (Memory.clear m a n) = true :=
  Memory.wf_filter _ m h

/-- What was written reads back (rule R32). -/
theorem Memory.read_write_same (m : Memory) (a : Nat) (b : Byte) : Memory.read (Memory.write m a b) a = b := by
  unfold Memory.write Memory.read
  split
  · rename_i e
    rw [SMap.get_erase_same, e]
  · exact SMap.get_set_same _ m a b

/-- A write leaves every other byte alone. -/
theorem Memory.read_write_other (m : Memory) (a i : Nat) (b : Byte) (h : i ≠ a) :
    Memory.read (Memory.write m a b) i = Memory.read m i := by
  unfold Memory.write Memory.read
  split
  · exact SMap.get_erase_other _ m a i h
  · exact SMap.get_set_other _ m a i b h

theorem Memory.read_writeN_below (bs : Bytes) (m : Memory) (a i : Nat) (h : i < a) :
    Memory.read (Memory.writeN m a bs) i = Memory.read m i := by
  induction bs generalizing m a with
  | nil => rfl
  | cons b bs ih =>
    simp only [Memory.writeN]
    rw [ih _ _ (Nat.lt_succ_of_lt h), Memory.read_write_other _ _ _ _ (by omega)]

theorem Memory.read_writeN_outside (bs : Bytes) (m : Memory) (a i : Nat) (h : i < a ∨ a + bs.length ≤ i) :
    Memory.read (Memory.writeN m a bs) i = Memory.read m i := by
  induction bs generalizing m a with
  | nil => rfl
  | cons b bs ih =>
    simp only [Memory.writeN]
    simp only [List.length_cons] at h
    rw [ih _ _ (by omega), Memory.read_write_other _ _ _ _ (by omega)]

end Sys2Proof
end

