-- ==== Sys2Proof/Laws/State.lean ====
section
/-!
SUPPORT. Every field of the state after every named update of it.
-/
namespace Sys2Proof.Machine

variable (s : State)

@[simp] theorem setTile_pending (t : Nat) (x : Tile) : (setTile s t x).pending = s.pending := rfl
@[simp] theorem setTile_free (t : Nat) (x : Tile) : (setTile s t x).free = s.free := rfl
@[simp] theorem setTile_outbox (t : Nat) (x : Tile) : (setTile s t x).outbox = s.outbox := rfl
@[simp] theorem setTile_host (t : Nat) (x : Tile) : (setTile s t x).host = s.host := rfl
@[simp] theorem setTile_fuse (t : Nat) (x : Tile) : (setTile s t x).fuse = s.fuse := rfl
@[simp] theorem setTile_dev (t : Nat) (x : Tile) : (setTile s t x).dev = s.dev := rfl
@[simp] theorem setTile_bringup (t : Nat) (x : Tile) : (setTile s t x).bringup = s.bringup := rfl
@[simp] theorem setTile_bell (t : Nat) (x : Tile) : (setTile s t x).bell = s.bell := rfl
@[simp] theorem setTile_tiles (t : Nat) (x : Tile) : (setTile s t x).tiles = SMap.set s.tiles t x := rfl
@[simp] theorem setTile_wings (t : Nat) (x : Tile) : (setTile s t x).wings = s.wings := rfl
@[simp] theorem setTile_ports (t : Nat) (x : Tile) : (setTile s t x).ports = s.ports := rfl
@[simp] theorem setTile_portExtra (t : Nat) (x : Tile) : (setTile s t x).portExtra = s.portExtra := rfl
@[simp] theorem setTile_lanterns (t : Nat) (x : Tile) : (setTile s t x).lanterns = s.lanterns := rfl
@[simp] theorem setTile_suites (t : Nat) (x : Tile) : (setTile s t x).suites = s.suites := rfl
@[simp] theorem setTile_streams (t : Nat) (x : Tile) : (setTile s t x).streams = s.streams := rfl
@[simp] theorem setTile_hbm (t : Nat) (x : Tile) : (setTile s t x).hbm = s.hbm := rfl
@[simp] theorem setTile_rings (t : Nat) (x : Tile) : (setTile s t x).rings = s.rings := rfl
@[simp] theorem setTile_offUnits (t : Nat) (x : Tile) : (setTile s t x).offUnits = s.offUnits := rfl
@[simp] theorem setTile_mgr (t : Nat) (x : Tile) : (setTile s t x).mgr = s.mgr := rfl
@[simp] theorem setTile_faults (t : Nat) (x : Tile) : (setTile s t x).faults = s.faults := rfl
@[simp] theorem setTile_attic (t : Nat) (x : Tile) : (setTile s t x).attic = s.attic := rfl
@[simp] theorem setTile_atticStore (t : Nat) (x : Tile) : (setTile s t x).atticStore = s.atticStore := rfl
@[simp] theorem setTile_fw (t : Nat) (x : Tile) : (setTile s t x).fw = s.fw := rfl
@[simp] theorem setTile_cup (t : Nat) (x : Tile) : (setTile s t x).cup = s.cup := rfl
@[simp] theorem setTile_bnd (t : Nat) (x : Tile) : (setTile s t x).bnd = s.bnd := rfl

@[simp] theorem updTile_pending (t : Nat) (g : Tile → Tile) : (updTile s t g).pending = s.pending := rfl
@[simp] theorem updTile_free (t : Nat) (g : Tile → Tile) : (updTile s t g).free = s.free := rfl
@[simp] theorem updTile_outbox (t : Nat) (g : Tile → Tile) : (updTile s t g).outbox = s.outbox := rfl
@[simp] theorem updTile_host (t : Nat) (g : Tile → Tile) : (updTile s t g).host = s.host := rfl
@[simp] theorem updTile_fuse (t : Nat) (g : Tile → Tile) : (updTile s t g).fuse = s.fuse := rfl
@[simp] theorem updTile_dev (t : Nat) (g : Tile → Tile) : (updTile s t g).dev = s.dev := rfl
@[simp] theorem updTile_bringup (t : Nat) (g : Tile → Tile) : (updTile s t g).bringup = s.bringup := rfl
@[simp] theorem updTile_bell (t : Nat) (g : Tile → Tile) : (updTile s t g).bell = s.bell := rfl
@[simp] theorem updTile_wings (t : Nat) (g : Tile → Tile) : (updTile s t g).wings = s.wings := rfl
@[simp] theorem updTile_ports (t : Nat) (g : Tile → Tile) : (updTile s t g).ports = s.ports := rfl
@[simp] theorem updTile_portExtra (t : Nat) (g : Tile → Tile) : (updTile s t g).portExtra = s.portExtra := rfl
@[simp] theorem updTile_lanterns (t : Nat) (g : Tile → Tile) : (updTile s t g).lanterns = s.lanterns := rfl
@[simp] theorem updTile_suites (t : Nat) (g : Tile → Tile) : (updTile s t g).suites = s.suites := rfl
@[simp] theorem updTile_streams (t : Nat) (g : Tile → Tile) : (updTile s t g).streams = s.streams := rfl
@[simp] theorem updTile_hbm (t : Nat) (g : Tile → Tile) : (updTile s t g).hbm = s.hbm := rfl
@[simp] theorem updTile_rings (t : Nat) (g : Tile → Tile) : (updTile s t g).rings = s.rings := rfl
@[simp] theorem updTile_offUnits (t : Nat) (g : Tile → Tile) : (updTile s t g).offUnits = s.offUnits := rfl
@[simp] theorem updTile_mgr (t : Nat) (g : Tile → Tile) : (updTile s t g).mgr = s.mgr := rfl
@[simp] theorem updTile_faults (t : Nat) (g : Tile → Tile) : (updTile s t g).faults = s.faults := rfl
@[simp] theorem updTile_attic (t : Nat) (g : Tile → Tile) : (updTile s t g).attic = s.attic := rfl
@[simp] theorem updTile_atticStore (t : Nat) (g : Tile → Tile) : (updTile s t g).atticStore = s.atticStore := rfl
@[simp] theorem updTile_fw (t : Nat) (g : Tile → Tile) : (updTile s t g).fw = s.fw := rfl
@[simp] theorem updTile_cup (t : Nat) (g : Tile → Tile) : (updTile s t g).cup = s.cup := rfl
@[simp] theorem updTile_bnd (t : Nat) (g : Tile → Tile) : (updTile s t g).bnd = s.bnd := rfl

@[simp] theorem setSuite_pending (n : Nat) (x : Suite) : (setSuite s n x).pending = s.pending := rfl
@[simp] theorem setSuite_free (n : Nat) (x : Suite) : (setSuite s n x).free = s.free := rfl
@[simp] theorem setSuite_outbox (n : Nat) (x : Suite) : (setSuite s n x).outbox = s.outbox := rfl
@[simp] theorem setSuite_host (n : Nat) (x : Suite) : (setSuite s n x).host = s.host := rfl
@[simp] theorem setSuite_fuse (n : Nat) (x : Suite) : (setSuite s n x).fuse = s.fuse := rfl
@[simp] theorem setSuite_dev (n : Nat) (x : Suite) : (setSuite s n x).dev = s.dev := rfl
@[simp] theorem setSuite_bringup (n : Nat) (x : Suite) : (setSuite s n x).bringup = s.bringup := rfl
@[simp] theorem setSuite_bell (n : Nat) (x : Suite) : (setSuite s n x).bell = s.bell := rfl
@[simp] theorem setSuite_tiles (n : Nat) (x : Suite) : (setSuite s n x).tiles = s.tiles := rfl
@[simp] theorem setSuite_wings (n : Nat) (x : Suite) : (setSuite s n x).wings = s.wings := rfl
@[simp] theorem setSuite_ports (n : Nat) (x : Suite) : (setSuite s n x).ports = s.ports := rfl
@[simp] theorem setSuite_portExtra (n : Nat) (x : Suite) : (setSuite s n x).portExtra = s.portExtra := rfl
@[simp] theorem setSuite_lanterns (n : Nat) (x : Suite) : (setSuite s n x).lanterns = s.lanterns := rfl
@[simp] theorem setSuite_suites (n : Nat) (x : Suite) : (setSuite s n x).suites = SMap.set s.suites n x := rfl
@[simp] theorem setSuite_streams (n : Nat) (x : Suite) : (setSuite s n x).streams = s.streams := rfl
@[simp] theorem setSuite_hbm (n : Nat) (x : Suite) : (setSuite s n x).hbm = s.hbm := rfl
@[simp] theorem setSuite_rings (n : Nat) (x : Suite) : (setSuite s n x).rings = s.rings := rfl
@[simp] theorem setSuite_offUnits (n : Nat) (x : Suite) : (setSuite s n x).offUnits = s.offUnits := rfl
@[simp] theorem setSuite_mgr (n : Nat) (x : Suite) : (setSuite s n x).mgr = s.mgr := rfl
@[simp] theorem setSuite_faults (n : Nat) (x : Suite) : (setSuite s n x).faults = s.faults := rfl
@[simp] theorem setSuite_attic (n : Nat) (x : Suite) : (setSuite s n x).attic = s.attic := rfl
@[simp] theorem setSuite_atticStore (n : Nat) (x : Suite) : (setSuite s n x).atticStore = s.atticStore := rfl
@[simp] theorem setSuite_fw (n : Nat) (x : Suite) : (setSuite s n x).fw = s.fw := rfl
@[simp] theorem setSuite_cup (n : Nat) (x : Suite) : (setSuite s n x).cup = s.cup := rfl
@[simp] theorem setSuite_bnd (n : Nat) (x : Suite) : (setSuite s n x).bnd = s.bnd := rfl

@[simp] theorem updSuite_pending (n : Nat) (g : Suite → Suite) : (updSuite s n g).pending = s.pending := rfl
@[simp] theorem updSuite_free (n : Nat) (g : Suite → Suite) : (updSuite s n g).free = s.free := rfl
@[simp] theorem updSuite_outbox (n : Nat) (g : Suite → Suite) : (updSuite s n g).outbox = s.outbox := rfl
@[simp] theorem updSuite_host (n : Nat) (g : Suite → Suite) : (updSuite s n g).host = s.host := rfl
@[simp] theorem updSuite_fuse (n : Nat) (g : Suite → Suite) : (updSuite s n g).fuse = s.fuse := rfl
@[simp] theorem updSuite_dev (n : Nat) (g : Suite → Suite) : (updSuite s n g).dev = s.dev := rfl
@[simp] theorem updSuite_bringup (n : Nat) (g : Suite → Suite) : (updSuite s n g).bringup = s.bringup := rfl
@[simp] theorem updSuite_bell (n : Nat) (g : Suite → Suite) : (updSuite s n g).bell = s.bell := rfl
@[simp] theorem updSuite_tiles (n : Nat) (g : Suite → Suite) : (updSuite s n g).tiles = s.tiles := rfl
@[simp] theorem updSuite_wings (n : Nat) (g : Suite → Suite) : (updSuite s n g).wings = s.wings := rfl
@[simp] theorem updSuite_ports (n : Nat) (g : Suite → Suite) : (updSuite s n g).ports = s.ports := rfl
@[simp] theorem updSuite_portExtra (n : Nat) (g : Suite → Suite) : (updSuite s n g).portExtra = s.portExtra := rfl
@[simp] theorem updSuite_lanterns (n : Nat) (g : Suite → Suite) : (updSuite s n g).lanterns = s.lanterns := rfl
@[simp] theorem updSuite_streams (n : Nat) (g : Suite → Suite) : (updSuite s n g).streams = s.streams := rfl
@[simp] theorem updSuite_hbm (n : Nat) (g : Suite → Suite) : (updSuite s n g).hbm = s.hbm := rfl
@[simp] theorem updSuite_rings (n : Nat) (g : Suite → Suite) : (updSuite s n g).rings = s.rings := rfl
@[simp] theorem updSuite_offUnits (n : Nat) (g : Suite → Suite) : (updSuite s n g).offUnits = s.offUnits := rfl
@[simp] theorem updSuite_mgr (n : Nat) (g : Suite → Suite) : (updSuite s n g).mgr = s.mgr := rfl
@[simp] theorem updSuite_faults (n : Nat) (g : Suite → Suite) : (updSuite s n g).faults = s.faults := rfl
@[simp] theorem updSuite_attic (n : Nat) (g : Suite → Suite) : (updSuite s n g).attic = s.attic := rfl
@[simp] theorem updSuite_atticStore (n : Nat) (g : Suite → Suite) : (updSuite s n g).atticStore = s.atticStore := rfl
@[simp] theorem updSuite_fw (n : Nat) (g : Suite → Suite) : (updSuite s n g).fw = s.fw := rfl
@[simp] theorem updSuite_cup (n : Nat) (g : Suite → Suite) : (updSuite s n g).cup = s.cup := rfl
@[simp] theorem updSuite_bnd (n : Nat) (g : Suite → Suite) : (updSuite s n g).bnd = s.bnd := rfl

@[simp] theorem setEntry_pending (e : Nat) (x : StreamEntry) : (setEntry s e x).pending = s.pending := rfl
@[simp] theorem setEntry_free (e : Nat) (x : StreamEntry) : (setEntry s e x).free = s.free := rfl
@[simp] theorem setEntry_outbox (e : Nat) (x : StreamEntry) : (setEntry s e x).outbox = s.outbox := rfl
@[simp] theorem setEntry_host (e : Nat) (x : StreamEntry) : (setEntry s e x).host = s.host := rfl
@[simp] theorem setEntry_fuse (e : Nat) (x : StreamEntry) : (setEntry s e x).fuse = s.fuse := rfl
@[simp] theorem setEntry_dev (e : Nat) (x : StreamEntry) : (setEntry s e x).dev = s.dev := rfl
@[simp] theorem setEntry_bringup (e : Nat) (x : StreamEntry) : (setEntry s e x).bringup = s.bringup := rfl
@[simp] theorem setEntry_bell (e : Nat) (x : StreamEntry) : (setEntry s e x).bell = s.bell := rfl
@[simp] theorem setEntry_tiles (e : Nat) (x : StreamEntry) : (setEntry s e x).tiles = s.tiles := rfl
@[simp] theorem setEntry_wings (e : Nat) (x : StreamEntry) : (setEntry s e x).wings = s.wings := rfl
@[simp] theorem setEntry_ports (e : Nat) (x : StreamEntry) : (setEntry s e x).ports = s.ports := rfl
@[simp] theorem setEntry_portExtra (e : Nat) (x : StreamEntry) : (setEntry s e x).portExtra = s.portExtra := rfl
@[simp] theorem setEntry_lanterns (e : Nat) (x : StreamEntry) : (setEntry s e x).lanterns = s.lanterns := rfl
@[simp] theorem setEntry_suites (e : Nat) (x : StreamEntry) : (setEntry s e x).suites = s.suites := rfl
@[simp] theorem setEntry_streams (e : Nat) (x : StreamEntry) : (setEntry s e x).streams = SMap.set s.streams e x := rfl
@[simp] theorem setEntry_hbm (e : Nat) (x : StreamEntry) : (setEntry s e x).hbm = s.hbm := rfl
@[simp] theorem setEntry_rings (e : Nat) (x : StreamEntry) : (setEntry s e x).rings = s.rings := rfl
@[simp] theorem setEntry_offUnits (e : Nat) (x : StreamEntry) : (setEntry s e x).offUnits = s.offUnits := rfl
@[simp] theorem setEntry_mgr (e : Nat) (x : StreamEntry) : (setEntry s e x).mgr = s.mgr := rfl
@[simp] theorem setEntry_faults (e : Nat) (x : StreamEntry) : (setEntry s e x).faults = s.faults := rfl
@[simp] theorem setEntry_attic (e : Nat) (x : StreamEntry) : (setEntry s e x).attic = s.attic := rfl
@[simp] theorem setEntry_atticStore (e : Nat) (x : StreamEntry) : (setEntry s e x).atticStore = s.atticStore := rfl
@[simp] theorem setEntry_fw (e : Nat) (x : StreamEntry) : (setEntry s e x).fw = s.fw := rfl
@[simp] theorem setEntry_cup (e : Nat) (x : StreamEntry) : (setEntry s e x).cup = s.cup := rfl
@[simp] theorem setEntry_bnd (e : Nat) (x : StreamEntry) : (setEntry s e x).bnd = s.bnd := rfl

@[simp] theorem updEntry_pending (e : Nat) (g : StreamEntry → StreamEntry) : (updEntry s e g).pending = s.pending := rfl
@[simp] theorem updEntry_free (e : Nat) (g : StreamEntry → StreamEntry) : (updEntry s e g).free = s.free := rfl
@[simp] theorem updEntry_outbox (e : Nat) (g : StreamEntry → StreamEntry) : (updEntry s e g).outbox = s.outbox := rfl
@[simp] theorem updEntry_host (e : Nat) (g : StreamEntry → StreamEntry) : (updEntry s e g).host = s.host := rfl
@[simp] theorem updEntry_fuse (e : Nat) (g : StreamEntry → StreamEntry) : (updEntry s e g).fuse = s.fuse := rfl
@[simp] theorem updEntry_dev (e : Nat) (g : StreamEntry → StreamEntry) : (updEntry s e g).dev = s.dev := rfl
@[simp] theorem updEntry_bringup (e : Nat) (g : StreamEntry → StreamEntry) : (updEntry s e g).bringup = s.bringup := rfl
@[simp] theorem updEntry_bell (e : Nat) (g : StreamEntry → StreamEntry) : (updEntry s e g).bell = s.bell := rfl
@[simp] theorem updEntry_tiles (e : Nat) (g : StreamEntry → StreamEntry) : (updEntry s e g).tiles = s.tiles := rfl
@[simp] theorem updEntry_wings (e : Nat) (g : StreamEntry → StreamEntry) : (updEntry s e g).wings = s.wings := rfl
@[simp] theorem updEntry_ports (e : Nat) (g : StreamEntry → StreamEntry) : (updEntry s e g).ports = s.ports := rfl
@[simp] theorem updEntry_portExtra (e : Nat) (g : StreamEntry → StreamEntry) : (updEntry s e g).portExtra = s.portExtra := rfl
@[simp] theorem updEntry_lanterns (e : Nat) (g : StreamEntry → StreamEntry) : (updEntry s e g).lanterns = s.lanterns := rfl
@[simp] theorem updEntry_suites (e : Nat) (g : StreamEntry → StreamEntry) : (updEntry s e g).suites = s.suites := rfl
@[simp] theorem updEntry_hbm (e : Nat) (g : StreamEntry → StreamEntry) : (updEntry s e g).hbm = s.hbm := rfl
@[simp] theorem updEntry_rings (e : Nat) (g : StreamEntry → StreamEntry) : (updEntry s e g).rings = s.rings := rfl
@[simp] theorem updEntry_offUnits (e : Nat) (g : StreamEntry → StreamEntry) : (updEntry s e g).offUnits = s.offUnits := rfl
@[simp] theorem updEntry_mgr (e : Nat) (g : StreamEntry → StreamEntry) : (updEntry s e g).mgr = s.mgr := rfl
@[simp] theorem updEntry_faults (e : Nat) (g : StreamEntry → StreamEntry) : (updEntry s e g).faults = s.faults := rfl
@[simp] theorem updEntry_attic (e : Nat) (g : StreamEntry → StreamEntry) : (updEntry s e g).attic = s.attic := rfl
@[simp] theorem updEntry_atticStore (e : Nat) (g : StreamEntry → StreamEntry) : (updEntry s e g).atticStore = s.atticStore := rfl
@[simp] theorem updEntry_fw (e : Nat) (g : StreamEntry → StreamEntry) : (updEntry s e g).fw = s.fw := rfl
@[simp] theorem updEntry_cup (e : Nat) (g : StreamEntry → StreamEntry) : (updEntry s e g).cup = s.cup := rfl
@[simp] theorem updEntry_bnd (e : Nat) (g : StreamEntry → StreamEntry) : (updEntry s e g).bnd = s.bnd := rfl

@[simp] theorem setWing_pending (w : Nat) (x : Wing) : (setWing s w x).pending = s.pending := rfl
@[simp] theorem setWing_free (w : Nat) (x : Wing) : (setWing s w x).free = s.free := rfl
@[simp] theorem setWing_outbox (w : Nat) (x : Wing) : (setWing s w x).outbox = s.outbox := rfl
@[simp] theorem setWing_host (w : Nat) (x : Wing) : (setWing s w x).host = s.host := rfl
@[simp] theorem setWing_fuse (w : Nat) (x : Wing) : (setWing s w x).fuse = s.fuse := rfl
@[simp] theorem setWing_dev (w : Nat) (x : Wing) : (setWing s w x).dev = s.dev := rfl
@[simp] theorem setWing_bringup (w : Nat) (x : Wing) : (setWing s w x).bringup = s.bringup := rfl
@[simp] theorem setWing_bell (w : Nat) (x : Wing) : (setWing s w x).bell = s.bell := rfl
@[simp] theorem setWing_tiles (w : Nat) (x : Wing) : (setWing s w x).tiles = s.tiles := rfl
@[simp] theorem setWing_wings (w : Nat) (x : Wing) : (setWing s w x).wings = SMap.set s.wings w x := rfl
@[simp] theorem setWing_ports (w : Nat) (x : Wing) : (setWing s w x).ports = s.ports := rfl
@[simp] theorem setWing_portExtra (w : Nat) (x : Wing) : (setWing s w x).portExtra = s.portExtra := rfl
@[simp] theorem setWing_lanterns (w : Nat) (x : Wing) : (setWing s w x).lanterns = s.lanterns := rfl
@[simp] theorem setWing_suites (w : Nat) (x : Wing) : (setWing s w x).suites = s.suites := rfl
@[simp] theorem setWing_streams (w : Nat) (x : Wing) : (setWing s w x).streams = s.streams := rfl
@[simp] theorem setWing_hbm (w : Nat) (x : Wing) : (setWing s w x).hbm = s.hbm := rfl
@[simp] theorem setWing_rings (w : Nat) (x : Wing) : (setWing s w x).rings = s.rings := rfl
@[simp] theorem setWing_offUnits (w : Nat) (x : Wing) : (setWing s w x).offUnits = s.offUnits := rfl
@[simp] theorem setWing_mgr (w : Nat) (x : Wing) : (setWing s w x).mgr = s.mgr := rfl
@[simp] theorem setWing_faults (w : Nat) (x : Wing) : (setWing s w x).faults = s.faults := rfl
@[simp] theorem setWing_attic (w : Nat) (x : Wing) : (setWing s w x).attic = s.attic := rfl
@[simp] theorem setWing_atticStore (w : Nat) (x : Wing) : (setWing s w x).atticStore = s.atticStore := rfl
@[simp] theorem setWing_fw (w : Nat) (x : Wing) : (setWing s w x).fw = s.fw := rfl
@[simp] theorem setWing_cup (w : Nat) (x : Wing) : (setWing s w x).cup = s.cup := rfl
@[simp] theorem setWing_bnd (w : Nat) (x : Wing) : (setWing s w x).bnd = s.bnd := rfl

@[simp] theorem updWing_pending (w : Nat) (g : Wing → Wing) : (updWing s w g).pending = s.pending := rfl
@[simp] theorem updWing_free (w : Nat) (g : Wing → Wing) : (updWing s w g).free = s.free := rfl
@[simp] theorem updWing_outbox (w : Nat) (g : Wing → Wing) : (updWing s w g).outbox = s.outbox := rfl
@[simp] theorem updWing_host (w : Nat) (g : Wing → Wing) : (updWing s w g).host = s.host := rfl
@[simp] theorem updWing_fuse (w : Nat) (g : Wing → Wing) : (updWing s w g).fuse = s.fuse := rfl
@[simp] theorem updWing_dev (w : Nat) (g : Wing → Wing) : (updWing s w g).dev = s.dev := rfl
@[simp] theorem updWing_bringup (w : Nat) (g : Wing → Wing) : (updWing s w g).bringup = s.bringup := rfl
@[simp] theorem updWing_bell (w : Nat) (g : Wing → Wing) : (updWing s w g).bell = s.bell := rfl
@[simp] theorem updWing_tiles (w : Nat) (g : Wing → Wing) : (updWing s w g).tiles = s.tiles := rfl
@[simp] theorem updWing_ports (w : Nat) (g : Wing → Wing) : (updWing s w g).ports = s.ports := rfl
@[simp] theorem updWing_portExtra (w : Nat) (g : Wing → Wing) : (updWing s w g).portExtra = s.portExtra := rfl
@[simp] theorem updWing_lanterns (w : Nat) (g : Wing → Wing) : (updWing s w g).lanterns = s.lanterns := rfl
@[simp] theorem updWing_suites (w : Nat) (g : Wing → Wing) : (updWing s w g).suites = s.suites := rfl
@[simp] theorem updWing_streams (w : Nat) (g : Wing → Wing) : (updWing s w g).streams = s.streams := rfl
@[simp] theorem updWing_hbm (w : Nat) (g : Wing → Wing) : (updWing s w g).hbm = s.hbm := rfl
@[simp] theorem updWing_rings (w : Nat) (g : Wing → Wing) : (updWing s w g).rings = s.rings := rfl
@[simp] theorem updWing_offUnits (w : Nat) (g : Wing → Wing) : (updWing s w g).offUnits = s.offUnits := rfl
@[simp] theorem updWing_mgr (w : Nat) (g : Wing → Wing) : (updWing s w g).mgr = s.mgr := rfl
@[simp] theorem updWing_faults (w : Nat) (g : Wing → Wing) : (updWing s w g).faults = s.faults := rfl
@[simp] theorem updWing_attic (w : Nat) (g : Wing → Wing) : (updWing s w g).attic = s.attic := rfl
@[simp] theorem updWing_atticStore (w : Nat) (g : Wing → Wing) : (updWing s w g).atticStore = s.atticStore := rfl
@[simp] theorem updWing_fw (w : Nat) (g : Wing → Wing) : (updWing s w g).fw = s.fw := rfl
@[simp] theorem updWing_cup (w : Nat) (g : Wing → Wing) : (updWing s w g).cup = s.cup := rfl
@[simp] theorem updWing_bnd (w : Nat) (g : Wing → Wing) : (updWing s w g).bnd = s.bnd := rfl

@[simp] theorem setPort_pending (p : Nat) (x : Port) : (setPort s p x).pending = s.pending := rfl
@[simp] theorem setPort_free (p : Nat) (x : Port) : (setPort s p x).free = s.free := rfl
@[simp] theorem setPort_outbox (p : Nat) (x : Port) : (setPort s p x).outbox = s.outbox := rfl
@[simp] theorem setPort_host (p : Nat) (x : Port) : (setPort s p x).host = s.host := rfl
@[simp] theorem setPort_fuse (p : Nat) (x : Port) : (setPort s p x).fuse = s.fuse := rfl
@[simp] theorem setPort_dev (p : Nat) (x : Port) : (setPort s p x).dev = s.dev := rfl
@[simp] theorem setPort_bringup (p : Nat) (x : Port) : (setPort s p x).bringup = s.bringup := rfl
@[simp] theorem setPort_bell (p : Nat) (x : Port) : (setPort s p x).bell = s.bell := rfl
@[simp] theorem setPort_tiles (p : Nat) (x : Port) : (setPort s p x).tiles = s.tiles := rfl
@[simp] theorem setPort_wings (p : Nat) (x : Port) : (setPort s p x).wings = s.wings := rfl
@[simp] theorem setPort_ports (p : Nat) (x : Port) : (setPort s p x).ports = SMap.set s.ports p x := rfl
@[simp] theorem setPort_portExtra (p : Nat) (x : Port) : (setPort s p x).portExtra = s.portExtra := rfl
@[simp] theorem setPort_lanterns (p : Nat) (x : Port) : (setPort s p x).lanterns = s.lanterns := rfl
@[simp] theorem setPort_suites (p : Nat) (x : Port) : (setPort s p x).suites = s.suites := rfl
@[simp] theorem setPort_streams (p : Nat) (x : Port) : (setPort s p x).streams = s.streams := rfl
@[simp] theorem setPort_hbm (p : Nat) (x : Port) : (setPort s p x).hbm = s.hbm := rfl
@[simp] theorem setPort_rings (p : Nat) (x : Port) : (setPort s p x).rings = s.rings := rfl
@[simp] theorem setPort_offUnits (p : Nat) (x : Port) : (setPort s p x).offUnits = s.offUnits := rfl
@[simp] theorem setPort_mgr (p : Nat) (x : Port) : (setPort s p x).mgr = s.mgr := rfl
@[simp] theorem setPort_faults (p : Nat) (x : Port) : (setPort s p x).faults = s.faults := rfl
@[simp] theorem setPort_attic (p : Nat) (x : Port) : (setPort s p x).attic = s.attic := rfl
@[simp] theorem setPort_atticStore (p : Nat) (x : Port) : (setPort s p x).atticStore = s.atticStore := rfl
@[simp] theorem setPort_fw (p : Nat) (x : Port) : (setPort s p x).fw = s.fw := rfl
@[simp] theorem setPort_cup (p : Nat) (x : Port) : (setPort s p x).cup = s.cup := rfl
@[simp] theorem setPort_bnd (p : Nat) (x : Port) : (setPort s p x).bnd = s.bnd := rfl

@[simp] theorem updPort_pending (p : Nat) (g : Port → Port) : (updPort s p g).pending = s.pending := rfl
@[simp] theorem updPort_free (p : Nat) (g : Port → Port) : (updPort s p g).free = s.free := rfl
@[simp] theorem updPort_outbox (p : Nat) (g : Port → Port) : (updPort s p g).outbox = s.outbox := rfl
@[simp] theorem updPort_host (p : Nat) (g : Port → Port) : (updPort s p g).host = s.host := rfl
@[simp] theorem updPort_fuse (p : Nat) (g : Port → Port) : (updPort s p g).fuse = s.fuse := rfl
@[simp] theorem updPort_dev (p : Nat) (g : Port → Port) : (updPort s p g).dev = s.dev := rfl
@[simp] theorem updPort_bringup (p : Nat) (g : Port → Port) : (updPort s p g).bringup = s.bringup := rfl
@[simp] theorem updPort_bell (p : Nat) (g : Port → Port) : (updPort s p g).bell = s.bell := rfl
@[simp] theorem updPort_tiles (p : Nat) (g : Port → Port) : (updPort s p g).tiles = s.tiles := rfl
@[simp] theorem updPort_wings (p : Nat) (g : Port → Port) : (updPort s p g).wings = s.wings := rfl
@[simp] theorem updPort_portExtra (p : Nat) (g : Port → Port) : (updPort s p g).portExtra = s.portExtra := rfl
@[simp] theorem updPort_lanterns (p : Nat) (g : Port → Port) : (updPort s p g).lanterns = s.lanterns := rfl
@[simp] theorem updPort_suites (p : Nat) (g : Port → Port) : (updPort s p g).suites = s.suites := rfl
@[simp] theorem updPort_streams (p : Nat) (g : Port → Port) : (updPort s p g).streams = s.streams := rfl
@[simp] theorem updPort_hbm (p : Nat) (g : Port → Port) : (updPort s p g).hbm = s.hbm := rfl
@[simp] theorem updPort_rings (p : Nat) (g : Port → Port) : (updPort s p g).rings = s.rings := rfl
@[simp] theorem updPort_offUnits (p : Nat) (g : Port → Port) : (updPort s p g).offUnits = s.offUnits := rfl
@[simp] theorem updPort_mgr (p : Nat) (g : Port → Port) : (updPort s p g).mgr = s.mgr := rfl
@[simp] theorem updPort_faults (p : Nat) (g : Port → Port) : (updPort s p g).faults = s.faults := rfl
@[simp] theorem updPort_attic (p : Nat) (g : Port → Port) : (updPort s p g).attic = s.attic := rfl
@[simp] theorem updPort_atticStore (p : Nat) (g : Port → Port) : (updPort s p g).atticStore = s.atticStore := rfl
@[simp] theorem updPort_fw (p : Nat) (g : Port → Port) : (updPort s p g).fw = s.fw := rfl
@[simp] theorem updPort_cup (p : Nat) (g : Port → Port) : (updPort s p g).cup = s.cup := rfl
@[simp] theorem updPort_bnd (p : Nat) (g : Port → Port) : (updPort s p g).bnd = s.bnd := rfl

@[simp] theorem setLantern_pending (l : Nat) (x : Lantern) : (setLantern s l x).pending = s.pending := rfl
@[simp] theorem setLantern_free (l : Nat) (x : Lantern) : (setLantern s l x).free = s.free := rfl
@[simp] theorem setLantern_outbox (l : Nat) (x : Lantern) : (setLantern s l x).outbox = s.outbox := rfl
@[simp] theorem setLantern_host (l : Nat) (x : Lantern) : (setLantern s l x).host = s.host := rfl
@[simp] theorem setLantern_fuse (l : Nat) (x : Lantern) : (setLantern s l x).fuse = s.fuse := rfl
@[simp] theorem setLantern_dev (l : Nat) (x : Lantern) : (setLantern s l x).dev = s.dev := rfl
@[simp] theorem setLantern_bringup (l : Nat) (x : Lantern) : (setLantern s l x).bringup = s.bringup := rfl
@[simp] theorem setLantern_bell (l : Nat) (x : Lantern) : (setLantern s l x).bell = s.bell := rfl
@[simp] theorem setLantern_tiles (l : Nat) (x : Lantern) : (setLantern s l x).tiles = s.tiles := rfl
@[simp] theorem setLantern_wings (l : Nat) (x : Lantern) : (setLantern s l x).wings = s.wings := rfl
@[simp] theorem setLantern_ports (l : Nat) (x : Lantern) : (setLantern s l x).ports = s.ports := rfl
@[simp] theorem setLantern_portExtra (l : Nat) (x : Lantern) : (setLantern s l x).portExtra = s.portExtra := rfl
@[simp] theorem setLantern_lanterns (l : Nat) (x : Lantern) : (setLantern s l x).lanterns = SMap.set s.lanterns l x := rfl
@[simp] theorem setLantern_suites (l : Nat) (x : Lantern) : (setLantern s l x).suites = s.suites := rfl
@[simp] theorem setLantern_streams (l : Nat) (x : Lantern) : (setLantern s l x).streams = s.streams := rfl
@[simp] theorem setLantern_hbm (l : Nat) (x : Lantern) : (setLantern s l x).hbm = s.hbm := rfl
@[simp] theorem setLantern_rings (l : Nat) (x : Lantern) : (setLantern s l x).rings = s.rings := rfl
@[simp] theorem setLantern_offUnits (l : Nat) (x : Lantern) : (setLantern s l x).offUnits = s.offUnits := rfl
@[simp] theorem setLantern_mgr (l : Nat) (x : Lantern) : (setLantern s l x).mgr = s.mgr := rfl
@[simp] theorem setLantern_faults (l : Nat) (x : Lantern) : (setLantern s l x).faults = s.faults := rfl
@[simp] theorem setLantern_attic (l : Nat) (x : Lantern) : (setLantern s l x).attic = s.attic := rfl
@[simp] theorem setLantern_atticStore (l : Nat) (x : Lantern) : (setLantern s l x).atticStore = s.atticStore := rfl
@[simp] theorem setLantern_fw (l : Nat) (x : Lantern) : (setLantern s l x).fw = s.fw := rfl
@[simp] theorem setLantern_cup (l : Nat) (x : Lantern) : (setLantern s l x).cup = s.cup := rfl
@[simp] theorem setLantern_bnd (l : Nat) (x : Lantern) : (setLantern s l x).bnd = s.bnd := rfl

@[simp] theorem updLantern_pending (l : Nat) (g : Lantern → Lantern) : (updLantern s l g).pending = s.pending := rfl
@[simp] theorem updLantern_free (l : Nat) (g : Lantern → Lantern) : (updLantern s l g).free = s.free := rfl
@[simp] theorem updLantern_outbox (l : Nat) (g : Lantern → Lantern) : (updLantern s l g).outbox = s.outbox := rfl
@[simp] theorem updLantern_host (l : Nat) (g : Lantern → Lantern) : (updLantern s l g).host = s.host := rfl
@[simp] theorem updLantern_fuse (l : Nat) (g : Lantern → Lantern) : (updLantern s l g).fuse = s.fuse := rfl
@[simp] theorem updLantern_dev (l : Nat) (g : Lantern → Lantern) : (updLantern s l g).dev = s.dev := rfl
@[simp] theorem updLantern_bringup (l : Nat) (g : Lantern → Lantern) : (updLantern s l g).bringup = s.bringup := rfl
@[simp] theorem updLantern_bell (l : Nat) (g : Lantern → Lantern) : (updLantern s l g).bell = s.bell := rfl
@[simp] theorem updLantern_tiles (l : Nat) (g : Lantern → Lantern) : (updLantern s l g).tiles = s.tiles := rfl
@[simp] theorem updLantern_wings (l : Nat) (g : Lantern → Lantern) : (updLantern s l g).wings = s.wings := rfl
@[simp] theorem updLantern_ports (l : Nat) (g : Lantern → Lantern) : (updLantern s l g).ports = s.ports := rfl
@[simp] theorem updLantern_portExtra (l : Nat) (g : Lantern → Lantern) : (updLantern s l g).portExtra = s.portExtra := rfl
@[simp] theorem updLantern_suites (l : Nat) (g : Lantern → Lantern) : (updLantern s l g).suites = s.suites := rfl
@[simp] theorem updLantern_streams (l : Nat) (g : Lantern → Lantern) : (updLantern s l g).streams = s.streams := rfl
@[simp] theorem updLantern_hbm (l : Nat) (g : Lantern → Lantern) : (updLantern s l g).hbm = s.hbm := rfl
@[simp] theorem updLantern_rings (l : Nat) (g : Lantern → Lantern) : (updLantern s l g).rings = s.rings := rfl
@[simp] theorem updLantern_offUnits (l : Nat) (g : Lantern → Lantern) : (updLantern s l g).offUnits = s.offUnits := rfl
@[simp] theorem updLantern_mgr (l : Nat) (g : Lantern → Lantern) : (updLantern s l g).mgr = s.mgr := rfl
@[simp] theorem updLantern_faults (l : Nat) (g : Lantern → Lantern) : (updLantern s l g).faults = s.faults := rfl
@[simp] theorem updLantern_attic (l : Nat) (g : Lantern → Lantern) : (updLantern s l g).attic = s.attic := rfl
@[simp] theorem updLantern_atticStore (l : Nat) (g : Lantern → Lantern) : (updLantern s l g).atticStore = s.atticStore := rfl
@[simp] theorem updLantern_fw (l : Nat) (g : Lantern → Lantern) : (updLantern s l g).fw = s.fw := rfl
@[simp] theorem updLantern_cup (l : Nat) (g : Lantern → Lantern) : (updLantern s l g).cup = s.cup := rfl
@[simp] theorem updLantern_bnd (l : Nat) (g : Lantern → Lantern) : (updLantern s l g).bnd = s.bnd := rfl

@[simp] theorem setRing_pending (f : Nat) (x : Ring) : (setRing s f x).pending = s.pending := rfl
@[simp] theorem setRing_free (f : Nat) (x : Ring) : (setRing s f x).free = s.free := rfl
@[simp] theorem setRing_outbox (f : Nat) (x : Ring) : (setRing s f x).outbox = s.outbox := rfl
@[simp] theorem setRing_host (f : Nat) (x : Ring) : (setRing s f x).host = s.host := rfl
@[simp] theorem setRing_fuse (f : Nat) (x : Ring) : (setRing s f x).fuse = s.fuse := rfl
@[simp] theorem setRing_dev (f : Nat) (x : Ring) : (setRing s f x).dev = s.dev := rfl
@[simp] theorem setRing_bringup (f : Nat) (x : Ring) : (setRing s f x).bringup = s.bringup := rfl
@[simp] theorem setRing_bell (f : Nat) (x : Ring) : (setRing s f x).bell = s.bell := rfl
@[simp] theorem setRing_tiles (f : Nat) (x : Ring) : (setRing s f x).tiles = s.tiles := rfl
@[simp] theorem setRing_wings (f : Nat) (x : Ring) : (setRing s f x).wings = s.wings := rfl
@[simp] theorem setRing_ports (f : Nat) (x : Ring) : (setRing s f x).ports = s.ports := rfl
@[simp] theorem setRing_portExtra (f : Nat) (x : Ring) : (setRing s f x).portExtra = s.portExtra := rfl
@[simp] theorem setRing_lanterns (f : Nat) (x : Ring) : (setRing s f x).lanterns = s.lanterns := rfl
@[simp] theorem setRing_suites (f : Nat) (x : Ring) : (setRing s f x).suites = s.suites := rfl
@[simp] theorem setRing_streams (f : Nat) (x : Ring) : (setRing s f x).streams = s.streams := rfl
@[simp] theorem setRing_hbm (f : Nat) (x : Ring) : (setRing s f x).hbm = s.hbm := rfl
@[simp] theorem setRing_rings (f : Nat) (x : Ring) : (setRing s f x).rings = SMap.set s.rings f x := rfl
@[simp] theorem setRing_offUnits (f : Nat) (x : Ring) : (setRing s f x).offUnits = s.offUnits := rfl
@[simp] theorem setRing_mgr (f : Nat) (x : Ring) : (setRing s f x).mgr = s.mgr := rfl
@[simp] theorem setRing_faults (f : Nat) (x : Ring) : (setRing s f x).faults = s.faults := rfl
@[simp] theorem setRing_attic (f : Nat) (x : Ring) : (setRing s f x).attic = s.attic := rfl
@[simp] theorem setRing_atticStore (f : Nat) (x : Ring) : (setRing s f x).atticStore = s.atticStore := rfl
@[simp] theorem setRing_fw (f : Nat) (x : Ring) : (setRing s f x).fw = s.fw := rfl
@[simp] theorem setRing_cup (f : Nat) (x : Ring) : (setRing s f x).cup = s.cup := rfl
@[simp] theorem setRing_bnd (f : Nat) (x : Ring) : (setRing s f x).bnd = s.bnd := rfl

@[simp] theorem updRing_pending (f : Nat) (g : Ring → Ring) : (updRing s f g).pending = s.pending := rfl
@[simp] theorem updRing_free (f : Nat) (g : Ring → Ring) : (updRing s f g).free = s.free := rfl
@[simp] theorem updRing_outbox (f : Nat) (g : Ring → Ring) : (updRing s f g).outbox = s.outbox := rfl
@[simp] theorem updRing_host (f : Nat) (g : Ring → Ring) : (updRing s f g).host = s.host := rfl
@[simp] theorem updRing_fuse (f : Nat) (g : Ring → Ring) : (updRing s f g).fuse = s.fuse := rfl
@[simp] theorem updRing_dev (f : Nat) (g : Ring → Ring) : (updRing s f g).dev = s.dev := rfl
@[simp] theorem updRing_bringup (f : Nat) (g : Ring → Ring) : (updRing s f g).bringup = s.bringup := rfl
@[simp] theorem updRing_bell (f : Nat) (g : Ring → Ring) : (updRing s f g).bell = s.bell := rfl
@[simp] theorem updRing_tiles (f : Nat) (g : Ring → Ring) : (updRing s f g).tiles = s.tiles := rfl
@[simp] theorem updRing_wings (f : Nat) (g : Ring → Ring) : (updRing s f g).wings = s.wings := rfl
@[simp] theorem updRing_ports (f : Nat) (g : Ring → Ring) : (updRing s f g).ports = s.ports := rfl
@[simp] theorem updRing_portExtra (f : Nat) (g : Ring → Ring) : (updRing s f g).portExtra = s.portExtra := rfl
@[simp] theorem updRing_lanterns (f : Nat) (g : Ring → Ring) : (updRing s f g).lanterns = s.lanterns := rfl
@[simp] theorem updRing_suites (f : Nat) (g : Ring → Ring) : (updRing s f g).suites = s.suites := rfl
@[simp] theorem updRing_streams (f : Nat) (g : Ring → Ring) : (updRing s f g).streams = s.streams := rfl
@[simp] theorem updRing_hbm (f : Nat) (g : Ring → Ring) : (updRing s f g).hbm = s.hbm := rfl
@[simp] theorem updRing_offUnits (f : Nat) (g : Ring → Ring) : (updRing s f g).offUnits = s.offUnits := rfl
@[simp] theorem updRing_mgr (f : Nat) (g : Ring → Ring) : (updRing s f g).mgr = s.mgr := rfl
@[simp] theorem updRing_faults (f : Nat) (g : Ring → Ring) : (updRing s f g).faults = s.faults := rfl
@[simp] theorem updRing_attic (f : Nat) (g : Ring → Ring) : (updRing s f g).attic = s.attic := rfl
@[simp] theorem updRing_atticStore (f : Nat) (g : Ring → Ring) : (updRing s f g).atticStore = s.atticStore := rfl
@[simp] theorem updRing_fw (f : Nat) (g : Ring → Ring) : (updRing s f g).fw = s.fw := rfl
@[simp] theorem updRing_cup (f : Nat) (g : Ring → Ring) : (updRing s f g).cup = s.cup := rfl
@[simp] theorem updRing_bnd (f : Nat) (g : Ring → Ring) : (updRing s f g).bnd = s.bnd := rfl

@[simp] theorem send_pending (dest : OutTo) (kind : SentKind) (bs : Bytes) : (send s dest kind bs).pending = s.pending := rfl
@[simp] theorem send_free (dest : OutTo) (kind : SentKind) (bs : Bytes) : (send s dest kind bs).free = s.free := rfl
@[simp] theorem send_outbox (dest : OutTo) (kind : SentKind) (bs : Bytes) : (send s dest kind bs).outbox = s.outbox ++ [⟨dest, kind, bs⟩] := rfl
@[simp] theorem send_host (dest : OutTo) (kind : SentKind) (bs : Bytes) : (send s dest kind bs).host = s.host := rfl
@[simp] theorem send_fuse (dest : OutTo) (kind : SentKind) (bs : Bytes) : (send s dest kind bs).fuse = s.fuse := rfl
@[simp] theorem send_dev (dest : OutTo) (kind : SentKind) (bs : Bytes) : (send s dest kind bs).dev = s.dev := rfl
@[simp] theorem send_bringup (dest : OutTo) (kind : SentKind) (bs : Bytes) : (send s dest kind bs).bringup = s.bringup := rfl
@[simp] theorem send_bell (dest : OutTo) (kind : SentKind) (bs : Bytes) : (send s dest kind bs).bell = s.bell := rfl
@[simp] theorem send_tiles (dest : OutTo) (kind : SentKind) (bs : Bytes) : (send s dest kind bs).tiles = s.tiles := rfl
@[simp] theorem send_wings (dest : OutTo) (kind : SentKind) (bs : Bytes) : (send s dest kind bs).wings = s.wings := rfl
@[simp] theorem send_ports (dest : OutTo) (kind : SentKind) (bs : Bytes) : (send s dest kind bs).ports = s.ports := rfl
@[simp] theorem send_portExtra (dest : OutTo) (kind : SentKind) (bs : Bytes) : (send s dest kind bs).portExtra = s.portExtra := rfl
@[simp] theorem send_lanterns (dest : OutTo) (kind : SentKind) (bs : Bytes) : (send s dest kind bs).lanterns = s.lanterns := rfl
@[simp] theorem send_suites (dest : OutTo) (kind : SentKind) (bs : Bytes) : (send s dest kind bs).suites = s.suites := rfl
@[simp] theorem send_streams (dest : OutTo) (kind : SentKind) (bs : Bytes) : (send s dest kind bs).streams = s.streams := rfl
@[simp] theorem send_hbm (dest : OutTo) (kind : SentKind) (bs : Bytes) : (send s dest kind bs).hbm = s.hbm := rfl
@[simp] theorem send_rings (dest : OutTo) (kind : SentKind) (bs : Bytes) : (send s dest kind bs).rings = s.rings := rfl
@[simp] theorem send_offUnits (dest : OutTo) (kind : SentKind) (bs : Bytes) : (send s dest kind bs).offUnits = s.offUnits := rfl
@[simp] theorem send_mgr (dest : OutTo) (kind : SentKind) (bs : Bytes) : (send s dest kind bs).mgr = s.mgr := rfl
@[simp] theorem send_faults (dest : OutTo) (kind : SentKind) (bs : Bytes) : (send s dest kind bs).faults = s.faults := rfl
@[simp] theorem send_attic (dest : OutTo) (kind : SentKind) (bs : Bytes) : (send s dest kind bs).attic = s.attic := rfl
@[simp] theorem send_atticStore (dest : OutTo) (kind : SentKind) (bs : Bytes) : (send s dest kind bs).atticStore = s.atticStore := rfl
@[simp] theorem send_fw (dest : OutTo) (kind : SentKind) (bs : Bytes) : (send s dest kind bs).fw = s.fw := rfl
@[simp] theorem send_cup (dest : OutTo) (kind : SentKind) (bs : Bytes) : (send s dest kind bs).cup = s.cup := rfl
@[simp] theorem send_bnd (dest : OutTo) (kind : SentKind) (bs : Bytes) : (send s dest kind bs).bnd = s.bnd := rfl

end Sys2Proof.Machine
end

