-- ==== Sys2Proof/Laws/Base.lean ====
section
/-!
SUPPORT. Units by number after every update of them, streams of a tile, commands whose condition holds, and the memory of a suite.
-/
namespace Sys2Proof.Machine

variable (s : State)

@[simp] theorem getTile_setTile_same (t : Nat) (x : Tile) : getTile (setTile s t x) t = x := SMap.get_set_same _ _ _ _
@[simp] theorem getTile_updTile_same (t : Nat) (g : Tile → Tile) : getTile (updTile s t g) t = g (getTile s t) := SMap.get_set_same _ _ _ _
theorem getTile_setTile_other (t i : Nat) (x : Tile) (h : i ≠ t) : getTile (setTile s t x) i = getTile s i := SMap.get_set_other _ _ _ _ _ h
theorem getTile_updTile_other (t i : Nat) (g : Tile → Tile) (h : i ≠ t) : getTile (updTile s t g) i = getTile s i := SMap.get_set_other _ _ _ _ _ h
/-- Two updates of a tile are one. -/
theorem updTile_updTile (t : Nat) (g f : Tile → Tile) : updTile (updTile s t g) t f = updTile s t (fun x => f (g x)) := by
  simp [updTile, setTile, getTile, SMap.get_set_same, SMap.set_set]
@[simp] theorem getSuite_setSuite_same (n : Nat) (x : Suite) : getSuite (setSuite s n x) n = x := SMap.get_set_same _ _ _ _
@[simp] theorem getSuite_updSuite_same (n : Nat) (g : Suite → Suite) : getSuite (updSuite s n g) n = g (getSuite s n) := SMap.get_set_same _ _ _ _
theorem getSuite_updSuite_other (n i : Nat) (g : Suite → Suite) (h : i ≠ n) : getSuite (updSuite s n g) i = getSuite s i := SMap.get_set_other _ _ _ _ _ h
@[simp] theorem getEntry_setEntry_same (e : Nat) (x : StreamEntry) : getEntry (setEntry s e x) e = x := SMap.get_set_same _ _ _ _
@[simp] theorem getEntry_updEntry_same (e : Nat) (g : StreamEntry → StreamEntry) : getEntry (updEntry s e g) e = g (getEntry s e) := SMap.get_set_same _ _ _ _
theorem getEntry_updEntry_other (e i : Nat) (g : StreamEntry → StreamEntry) (h : i ≠ e) : getEntry (updEntry s e g) i = getEntry s i := SMap.get_set_other _ _ _ _ _ h
@[simp] theorem getWing_setWing_same (w : Nat) (x : Wing) : getWing (setWing s w x) w = x := SMap.get_set_same _ _ _ _
@[simp] theorem getWing_updWing_same (w : Nat) (g : Wing → Wing) : getWing (updWing s w g) w = g (getWing s w) := SMap.get_set_same _ _ _ _
theorem getWing_updWing_other (w i : Nat) (g : Wing → Wing) (h : i ≠ w) : getWing (updWing s w g) i = getWing s i := SMap.get_set_other _ _ _ _ _ h
@[simp] theorem getPort_setPort_same (p : Nat) (x : Port) : getPort (setPort s p x) p = x := SMap.get_set_same _ _ _ _
@[simp] theorem getPort_updPort_same (p : Nat) (g : Port → Port) : getPort (updPort s p g) p = g (getPort s p) := SMap.get_set_same _ _ _ _
theorem getPort_updPort_other (p i : Nat) (g : Port → Port) (h : i ≠ p) : getPort (updPort s p g) i = getPort s i := SMap.get_set_other _ _ _ _ _ h
@[simp] theorem getLantern_setLantern_same (l : Nat) (x : Lantern) : getLantern (setLantern s l x) l = x := SMap.get_set_same _ _ _ _
@[simp] theorem getLantern_updLantern_same (l : Nat) (g : Lantern → Lantern) : getLantern (updLantern s l g) l = g (getLantern s l) := SMap.get_set_same _ _ _ _
theorem getLantern_updLantern_other (l i : Nat) (g : Lantern → Lantern) (h : i ≠ l) : getLantern (updLantern s l g) i = getLantern s i := SMap.get_set_other _ _ _ _ _ h
@[simp] theorem getRing_setRing_same (f : Nat) (x : Ring) : getRing (setRing s f x) f = x := SMap.get_set_same _ _ _ _
@[simp] theorem getRing_updRing_same (f : Nat) (g : Ring → Ring) : getRing (updRing s f g) f = g (getRing s f) := SMap.get_set_same _ _ _ _
theorem getRing_updRing_other (f i : Nat) (g : Ring → Ring) (h : i ≠ f) : getRing (updRing s f g) i = getRing s i := SMap.get_set_other _ _ _ _ _ h

@[simp] theorem stream_setStream_same (c : TileCore) (k : KStream) (x : KState) : (c.setStream k x).stream k = x := by
  cases k <;> rfl
theorem stream_setStream_other (c : TileCore) (k j : KStream) (x : KState) (h : j ≠ k) : (c.setStream k x).stream j = c.stream j := by
  cases k <;> cases j <;> first | rfl | exact absurd rfl h

@[simp] theorem getStream_setStream_same (t : Nat) (k : KStream) (x : KState) : getStream (setStream s t k x) t k = x := by
  simp [getStream, setStream]
theorem getStream_setStream_other (t : Nat) (k j : KStream) (x : KState) (h : j ≠ k) :
    getStream (setStream s t k x) t j = getStream s t j := by
  simp [getStream, setStream, stream_setStream_other _ _ _ _ h]
/-- Setting a stream of a tile changes nothing else. -/
theorem setStream_tiles_only (t : Nat) (k : KStream) (x : KState) :
    setStream s t k x = { s with tiles := (setStream s t k x).tiles } := rfl

/-- A command whose condition holds has its effect. -/
theorem whenDo_true (c : Bool) (u : State) (h : c = true) : whenDo c s u = .next u := by simp [whenDo, h]
/-- A command whose condition does not hold leaves the block as it was. -/
theorem whenDo_false (c : Bool) (u : State) (h : c = false) : whenDo c s u = .next s := by simp [whenDo, h]
/-- Every command with a condition goes on. -/
theorem whenDo_next (c : Bool) (u : State) : ∃ v, whenDo c s u = .next v := ⟨_, rfl⟩

/-- A step with a command in front is that command on the rest of the queue. -/
theorem step_cons (c : Instr) (cs : List Instr) : step { s with pending := c :: cs } = exec c { s with pending := cs } := rfl

theorem suiteSetByte_wf (n a : Nat) (b : Byte) (h : Memory.wf s.hbm = true) : Memory.wf (suiteSetByte s n a b).hbm = true := by
  unfold suiteSetByte
  split
  · exact h
  · exact Memory.wf_write _ _ _ h

theorem suiteSetBytes_wf (bs : Bytes) (n a : Nat) (h : Memory.wf s.hbm = true) : Memory.wf (suiteSetBytes s n a bs).hbm = true := by
  induction bs generalizing s a with
  | nil => exact h
  | cons b bs ih => exact ih _ _ (suiteSetByte_wf s n a b h)

theorem suiteClear_wf (n a len : Nat) (h : Memory.wf s.hbm = true) : Memory.wf (suiteClear s n a len).hbm = true :=
  Memory.wf_filter _ _ h

/-- Writing the bytes of a suite changes nothing but the stacks' memory. -/
theorem suiteSetBytes_hbm_only (bs : Bytes) (n a : Nat) : suiteSetBytes s n a bs = { s with hbm := (suiteSetBytes s n a bs).hbm } := by
  induction bs generalizing s a with
  | nil => rfl
  | cons b bs ih =>
    simp only [suiteSetBytes]
    rw [ih]
    unfold suiteSetByte
    split <;> rfl

end Sys2Proof.Machine
end

