-- ==== Sys2Proof/Laws/Control.lean ====
section
/-!
SUPPORT. Issue of an instruction, events, records and the reading of memory without an ECC finding: what each changes.
-/
namespace Sys2Proof.Machine

variable (s : State)

/-- Outside an evaluation program, an effect stands as it is (rule R234). -/
theorem keepRestored_training (s1 : State) (t : Nat) (h : (getTile s t).evalMode = false) : keepRestored s s1 t = s1 := by
  unfold keepRestored evalEnded
  split <;> simp [h]

/-- An effect that leaves the tile in its evaluation program stands as it is (rule R234). -/
theorem keepRestored_same (s1 : State) (t : Nat) (h : (getTile s1 t).evalMode = (getTile s t).evalMode) : keepRestored s s1 t = s1 := by
  unfold keepRestored evalEnded
  split <;> simp [h]

/-- A stream that stands ready at an instruction has the effect that the command gives that instruction. -/
theorem issueAs_ready (t : Nat) (k : KStream) (f : KInst → Nat → Option State) (i : KInst) (w : Nat)
    (h1 : streamLive s t k = true) (h2 : (getStream s t k).phase = .ready) (h3 : (getStream s t k).haltPending = false)
    (h4 : fetchWord s t k = some w) (h5 : decodeKernel w = i) (hi : i ≠ .illegal) :
    issueAs s t k f = keepRestored s ((f i w).getD s) t := by
  unfold issueAs
  simp only [h1, h2, h3, h4, h5]
  cases i <;> simp_all

/-- An event changes the rings only. -/
theorem holdEvent_rings_only (f op n : Nat) (b : Bytes) : holdEvent s f op n b = { s with rings := (holdEvent s f op n b).rings } := rfl

theorem suiteEvent_rings_only (n op : Nat) (b : Bytes) : suiteEvent s n op b = { s with rings := (suiteEvent s n op b).rings } := rfl

/-- A record changes the fault log, the free counter and the rings only. -/
theorem recordFault_only (r : FaultRec) : recordFault s r =
    { s with faults := (recordFault s r).faults, free := s.free + 1, rings := (recordFault s r).rings } := by
  unfold recordFault
  dsimp only
  split <;> rfl

@[simp] theorem recordFault_tiles (r : FaultRec) : (recordFault s r).tiles = s.tiles := by rw [recordFault_only]
@[simp] theorem recordFault_suites (r : FaultRec) : (recordFault s r).suites = s.suites := by rw [recordFault_only]
@[simp] theorem recordFault_hbm (r : FaultRec) : (recordFault s r).hbm = s.hbm := by rw [recordFault_only]
@[simp] theorem recordFault_fuse (r : FaultRec) : (recordFault s r).fuse = s.fuse := by rw [recordFault_only]

/-- Counting no corrected bit leaves the tiles' cores alone. -/
theorem eccRead_nil (t : Nat) (k : KStream) (p : OpPlace) : ∃ f : Tile → Tile, (∀ x, ∃ c n, f x = { x with counts := c, cdcPending := n })
    ∧ eccRead s t k p [] = updTile s t f := by
  refine ⟨fun x => tileEvents (tileEvents x 0 (fun c n => { c with tsCorrected := satAdd 16 c.tsCorrected n })) 0
    (fun c k => { c with ibufCorrected := satAdd 16 c.ibufCorrected k }), fun x => ⟨_, _, rfl⟩, ?_⟩
  unfold eccRead countIbuf
  simp [poisonEntries, updTile_updTile]

@[simp] theorem eccRead_nil_suites (t : Nat) (k : KStream) (p : OpPlace) : (eccRead s t k p []).suites = s.suites := rfl
@[simp] theorem eccRead_nil_free (t : Nat) (k : KStream) (p : OpPlace) : (eccRead s t k p []).free = s.free := rfl

theorem eccRead_nil_tile (t : Nat) (k : KStream) (p : OpPlace) :
    ∃ c n, getTile (eccRead s t k p []) t = { getTile s t with counts := c, cdcPending := n } := by
  obtain ⟨f, hf, h⟩ := eccRead_nil s t k p
  rw [h, getTile_updTile_same]
  exact hf _

theorem eccRead_nil_other (t i : Nat) (k : KStream) (p : OpPlace) (h : i ≠ t) : getTile (eccRead s t k p []) i = getTile s i := by
  obtain ⟨f, -, hf⟩ := eccRead_nil s t k p
  rw [hf, getTile_updTile_other _ _ _ _ h]

end Sys2Proof.Machine
end

