-- ==== Sys2Proof/Laws/Frames.lean ====
section
/-!
SUPPORT. What each shared operation leaves alone: sending on a port, writing host memory, posting a reply, finishing a command, moving a
suite to a state.
-/
namespace Sys2Proof.Machine

/-- Two states that differ in what was sent, in the ports, the rings and the host's memory only. -/
def SentOnly (s u : State) : Prop := u = { s with ports := u.ports, outbox := u.outbox }

theorem SentOnly.refl (s : State) : SentOnly s s := rfl

theorem SentOnly.trans {s u v : State} (h : SentOnly s u) (k : SentOnly u v) : SentOnly s v := by
  unfold SentOnly at *
  rw [k, h]

theorem emitFlit_only (s : State) (p : Nat) (f : TxFlit) (rest : List TxFlit) : SentOnly s (emitFlit s p f rest) := rfl

theorem queueTx_only (s : State) (p : Nat) (f : TxFlit) : SentOnly s (queueTx s p f) := rfl

theorem pumpTx_only : ∀ (n : Nat) (ps : List Nat) (s : State), SentOnly s (pumpTx n ps s)
  | 0, _, s => SentOnly.refl s
  | _ + 1, [], s => SentOnly.refl s
  | n + 1, p :: ps, s => by
    unfold pumpTx
    split
    · exact pumpTx_only n ps s
    · split
      · exact (emitFlit_only ..).trans (pumpTx_only n _ _)
      · exact ((emitFlit_only ..).trans (queueTx_only ..)).trans (pumpTx_only n _ _)

theorem drainTx_only (s : State) (p : Nat) : SentOnly s (drainTx s p) := pumpTx_only ..

theorem sendFlit_only (s : State) (p type cls : Nat) (b : Bytes) : SentOnly s (sendFlit s p type cls b) :=
  (queueTx_only ..).trans (drainTx_only ..)

theorem forwardFlit_only (s : State) (p cls : Nat) (b : Bytes) (back : Nat × Nat) : SentOnly s (forwardFlit s p cls b back) :=
  (queueTx_only ..).trans (drainTx_only ..)

theorem sendControl_only (s : State) (p : Nat) (b : Bytes) : SentOnly s (sendControl s p b) := sendFlit_only ..

theorem foldl_only {α : Type} (f : State → α → State) (hf : ∀ st a, SentOnly st (f st a)) :
    ∀ (l : List α) (s : State), SentOnly s (l.foldl f s)
  | [], s => SentOnly.refl s
  | a :: l, s => SentOnly.trans (hf s a) (foldl_only f hf l (f s a))

theorem sendMgmt_only (s : State) (p : Nat) (b : Bytes) : SentOnly s (sendMgmt s p b) := by
  unfold sendMgmt
  exact SentOnly.trans (foldl_only _ (fun st i => sendFlit_only ..) _ s) rfl

theorem sendMgmt_mgr (s : State) (p : Nat) (b : Bytes) : (sendMgmt s p b).mgr = s.mgr := by rw [sendMgmt_only s p b]

/-- A command of this module's own goes out under the next tag. -/
theorem sendCommand_only (s : State) (port dest op suite flags : Nat) (b : Bytes) :
    sendCommand s port dest op suite flags b =
      { s with ports := (sendCommand s port dest op suite flags b).ports, outbox := (sendCommand s port dest op suite flags b).outbox,
               mgr := { s.mgr with nextTag := (s.mgr.nextTag + 1) % 2 ^ 32 } } := by
  unfold sendCommand
  dsimp only
  rw [sendMgmt_only s port _]

theorem sendToModule_only (s : State) (dest op suite flags : Nat) (b : Bytes) :
    sendToModule s dest op suite flags b =
      { s with ports := (sendToModule s dest op suite flags b).ports, outbox := (sendToModule s dest op suite flags b).outbox,
               mgr := { s.mgr with nextTag := (s.mgr.nextTag + 1) % 2 ^ 32 } } := by
  unfold sendToModule
  exact sendCommand_only ..

/-- Two states that differ in what posting a reply may change. -/
def PostOnly (s u : State) : Prop := u = { s with ports := u.ports, outbox := u.outbox, rings := u.rings, host := u.host }

theorem PostOnly.refl (s : State) : PostOnly s s := rfl

theorem PostOnly.trans {s u v : State} (h : PostOnly s u) (k : PostOnly u v) : PostOnly s v := by
  unfold PostOnly at *
  rw [k, h]

theorem SentOnly.post {s u : State} (h : SentOnly s u) : PostOnly s u := by
  unfold SentOnly at h
  unfold PostOnly
  rw [h]

theorem raiseMsix_only (s : State) (f v : Nat) : PostOnly s (raiseMsix s f v) := by
  unfold raiseMsix
  split <;> rfl

theorem postSlot_only (s : State) (f : Nat) (b : Bytes) : PostOnly s (postSlot s f b) := by
  unfold postSlot
  dsimp only
  split
  · rfl
  · split
    · refine PostOnly.trans ?_ (raiseMsix_only ..)
      rfl
    · rfl

theorem postBytes_only (s : State) (src : Src) (b : Bytes) : PostOnly s (postBytes s src b) := by
  unfold postBytes
  split
  · dsimp only
    split
    · split
      · rfl
      · exact postSlot_only ..
    · rfl
  · exact (sendMgmt_only ..).post

theorem finishBytes_only (s : State) (src : Src) (w : Waiting) (b : Bytes) : PostOnly s (finishBytes s src w b) := by
  unfold finishBytes
  dsimp only
  split
  · exact PostOnly.trans (u := updRing s _ _) rfl (postBytes_only ..)
  · rfl

theorem finishPlain_only (s : State) (src : Src) (w : Waiting) (status detail : Nat) (b : Bytes) : PostOnly s (finishPlain s src w status detail b) := by
  unfold finishPlain
  exact finishBytes_only ..

/-- Two states that differ in what finishing a command may change. -/
def EndOnly (s u : State) : Prop :=
  u = { s with ports := u.ports, outbox := u.outbox, rings := u.rings, host := u.host, mgr := { s.mgr with broadcasts := u.mgr.broadcasts } }

theorem EndOnly.refl (s : State) : EndOnly s s := rfl

/-- Only the broadcasts that a module gathers are taken out. -/
theorem EndOnly.mgr (s : State) (l : List Broadcast) : EndOnly s { s with mgr := { s.mgr with broadcasts := l } } := rfl

theorem EndOnly.trans {s u v : State} (h : EndOnly s u) (k : EndOnly u v) : EndOnly s v := by
  unfold EndOnly at *
  rw [k, h]

theorem PostOnly.ends {s u : State} (h : PostOnly s u) : EndOnly s u := by
  unfold PostOnly at h
  unfold EndOnly
  rw [h]

theorem foldl_ends {α : Type} (f : State → α → State) (hf : ∀ st a, EndOnly st (f st a)) :
    ∀ (l : List α) (s : State), EndOnly s (l.foldl f s)
  | [], s => EndOnly.refl s
  | a :: l, s => EndOnly.trans (hf s a) (foldl_ends f hf l (f s a))

theorem closeGather_only (s : State) (b : Broadcast) : EndOnly s (closeGather s b) := by
  unfold closeGather
  dsimp only
  split
  · rfl
  · split
    · exact EndOnly.trans (EndOnly.mgr s _) (finishPlain_only ..).ends
    · split
      · exact EndOnly.trans (EndOnly.mgr s _) (finishPlain_only ..).ends
      · exact EndOnly.trans (EndOnly.mgr s _) (finishPlain_only ..).ends

theorem gatherResult_only (s : State) (src : Src) (tag t : Nat) (f : Broadcast → Broadcast) : EndOnly s (gatherResult s src tag t f) := by
  unfold gatherResult
  split
  · exact EndOnly.refl s
  · dsimp only
    split
    · exact closeGather_only ..
    · rfl

theorem finish_only (s : State) (src : Src) (tag status detail : Nat) (b : Bytes) : EndOnly s (finish s src tag status detail b) := by
  unfold finish
  split
  · exact EndOnly.refl s
  · dsimp only
    split
    · split
      · exact gatherResult_only ..
      · exact (finishBytes_only ..).ends
    · exact (finishBytes_only ..).ends

theorem answerOne_only (s : State) (src : Src) (w : Waiting) (n : Nat) (x : SuiteState) : EndOnly s (answerOne s src w n x) := by
  unfold answerOne
  split <;> (try (split <;> (try split))) <;> first | exact EndOnly.refl s | exact finish_only ..

theorem answerJobs_only (s : State) (n : Nat) (x : SuiteState) : EndOnly s (answerJobs s n x) := by
  unfold answerJobs
  refine foldl_ends _ (fun st b => ?_) _ s
  split
  · exact EndOnly.refl st
  · split
    · exact EndOnly.refl st
    · exact gatherResult_only ..

theorem answerSuite_only (s : State) (n : Nat) (x : SuiteState) : EndOnly s (answerSuite s n x) := by
  unfold answerSuite
  exact EndOnly.trans (answerJobs_only ..) (foldl_ends _ (fun st p => foldl_ends _ (fun q w => answerOne_only ..) _ st) _ _)

/-- A change of device state posts an event. -/
theorem setDev_only (s : State) (d : DevState) : setDev s d = { s with dev := d, rings := (setDev s d).rings } := by
  unfold setDev
  split
  · rename_i h
    cases h
    rfl
  · rfl

theorem settleDev_only (s : State) : settleDev s = { s with dev := (settleDev s).dev, rings := (settleDev s).rings } := by
  unfold settleDev
  split <;> (try split) <;> first | rfl | (rw [setDev_only])

/-- A suite's change of state changes its state, the device's, and what answering the commands that await it changes. -/
theorem setSuiteState_only (s : State) (n : Nat) (x : SuiteState) :
    (getSuite (setSuiteState s n x) n) = { getSuite s n with state := x }
    ∧ (∀ m, m ≠ n → getSuite (setSuiteState s n x) m = getSuite s m)
    ∧ setSuiteState s n x = { s with suites := (setSuiteState s n x).suites, dev := (setSuiteState s n x).dev, rings := (setSuiteState s n x).rings,
                                           ports := (setSuiteState s n x).ports, outbox := (setSuiteState s n x).outbox,
                                           host := (setSuiteState s n x).host,
                                           mgr := { s.mgr with broadcasts := (setSuiteState s n x).mgr.broadcasts
                                                               jobs := (setSuiteState s n x).mgr.jobs } } := by
  unfold setSuiteState
  dsimp only
  split
  · rename_i h
    refine ⟨?_, fun m hm => rfl, rfl⟩
    rw [← h]
  · have h1 := answerSuite_only (settleDev (suiteEvent (settleJobs (updSuite s n (fun su => { su with state := x })) n) n 0x0380
      (natLE n 1 ++ natLE (suiteStateCode (getSuite s n).state) 1 ++ natLE (suiteStateCode x) 1 ++ natLE 0 1 ++ natLE (lowestStep s n) 4))) n x
    unfold EndOnly at h1
    rw [settleDev_only] at h1
    refine ⟨?_, fun m hm => ?_, ?_⟩
    · rw [settleDev_only, h1]
      exact getSuite_updSuite_same s n (fun su => { su with state := x })
    · rw [settleDev_only, h1]
      exact getSuite_updSuite_other s n m (fun su => { su with state := x }) hm
    · rw [settleDev_only, h1]
      rfl

end Sys2Proof.Machine
end

