-- ==== Sys2Proof/Laws/Keeps.lean ====
section
/-!
SUPPORT. What every operation keeps: the waiting commands and the fuses are as they were, and the stacks' memory, the host's memory and the
table of suites stay in their canonical forms. One lemma per operation that answers a state.
-/
namespace Sys2Proof.Machine

/-- `u` has the queue and the fuses of `o`, and is canonical where `o` is. -/
structure Keeps (o u : State) : Prop where
  pending : u.pending = o.pending
  fuse : u.fuse = o.fuse
  hbm : Memory.wf o.hbm = true → Memory.wf u.hbm = true
  host : Memory.wf o.host.mem = true → Memory.wf u.host.mem = true
  suites : SMap.sorted o.suites = true → SMap.sorted u.suites = true

theorem Keeps.refl (o : State) : Keeps o o := ⟨rfl, rfl, id, id, id⟩

theorem Keeps.trans {o u v : State} (h : Keeps o u) (k : Keeps u v) : Keeps o v :=
  ⟨k.pending.trans h.pending, k.fuse.trans h.fuse, k.hbm ∘ h.hbm, k.host ∘ h.host, k.suites ∘ h.suites⟩

/-- Nothing else of a state matters to what is kept. -/
theorem Keeps.upd (o u : State) (x1 x2 x5 x6 x7 x8 x9 x10 x11 x12 x14 x16 x17 x18 x19 x20 x21 x22 x23 x24) :
    Keeps o { pending := u.pending, free := x1, outbox := x2, host := u.host, fuse := u.fuse, dev := x5, bringup := x6, bell := x7, tiles := x8,
              wings := x9, ports := x10, portExtra := x11, lanterns := x12, suites := u.suites, streams := x14, hbm := u.hbm, rings := x16,
              offUnits := x17, mgr := x18, faults := x19, attic := x20, atticStore := x21, fw := x22, cup := x23, bnd := x24 } ↔ Keeps o u :=
  ⟨fun h => ⟨h.pending, h.fuse, h.hbm, h.host, h.suites⟩, fun h => ⟨h.pending, h.fuse, h.hbm, h.host, h.suites⟩⟩

theorem Keeps.ends {o u v : State} (k : EndOnly u v) (hm : Memory.wf u.host.mem = true → Memory.wf v.host.mem = true) (h : Keeps o u) : Keeps o v := by
  unfold EndOnly at k
  refine h.trans ⟨?_, ?_, ?_, hm, ?_⟩ <;> rw [k] <;> intros <;> assumption

theorem Keeps.foldl {α : Type} {o : State} {f : State → α → State} (l : List α) {s : State} (h : Keeps o s)
    (hf : ∀ v a, Keeps o v → Keeps o (f v a)) : Keeps o (l.foldl f s) := by
  induction l generalizing s with
  | nil => exact h
  | cons a l ih => exact ih (hf _ _ h)

theorem Keeps.foldl_fst {α β : Type} {o : State} {f : State × β → α → State × β} (l : List α) {s : State × β} (h : Keeps o s.1)
    (hf : ∀ v a, Keeps o v.1 → Keeps o (f v a).1) : Keeps o (l.foldl f s).1 := by
  induction l generalizing s with
  | nil => exact h
  | cons a l ih => exact ih (hf _ _ h)

theorem Keeps.foldl_snd {α β : Type} {o : State} {f : β × State → α → β × State} (l : List α) {s : β × State} (h : Keeps o s.2)
    (hf : ∀ v a, Keeps o v.2 → Keeps o (f v a).2) : Keeps o (l.foldl f s).2 := by
  induction l generalizing s with
  | nil => exact h
  | cons a l ih => exact ih (hf _ _ h)

theorem SMap.sorted_mapVals {α : Type} (f : Nat → α → α) (m : SMap α) (h : SMap.sorted m = true) : SMap.sorted (SMap.mapVals m f) = true := by
  induction m with
  | nil => rfl
  | cons p m ih =>
    cases m with
    | nil => rfl
    | cons q m =>
      simp only [SMap.sorted, Bool.and_eq_true] at h
      have := ih h.2
      simp only [SMap.mapVals, List.map_cons, SMap.sorted, Bool.and_eq_true] at this ⊢
      exact ⟨h.1, this⟩

variable {base s : State}

theorem setSuite_keeps (h : Keeps base s) (n : Nat) (x : Suite) : Keeps base (setSuite s n x) :=
  ⟨h.pending, h.fuse, h.hbm, h.host, fun k => SMap.sorted_set _ _ _ (h.suites k)⟩

theorem updSuite_keeps (h : Keeps base s) (n : Nat) (f : Suite → Suite) : Keeps base (updSuite s n f) := setSuite_keeps h _ _

theorem suiteSetByte_keeps (h : Keeps base s) (n a : Nat) (b : Byte) : Keeps base (suiteSetByte s n a b) := by
  unfold suiteSetByte
  split
  · exact h
  · exact ⟨h.pending, h.fuse, fun k => Memory.wf_write _ _ _ (h.hbm k), h.host, h.suites⟩

theorem suiteSetBytes_keeps (h : Keeps base s) (n a : Nat) (bs : Bytes) : Keeps base (suiteSetBytes s n a bs) := by
  induction bs generalizing s a with
  | nil => exact h
  | cons b bs ih => exact ih (suiteSetByte_keeps h n a b) _

theorem suiteClear_keeps (h : Keeps base s) (n a len : Nat) : Keeps base (suiteClear s n a len) :=
  ⟨h.pending, h.fuse, fun k => Memory.wf_filter _ _ (h.hbm k), h.host, h.suites⟩

theorem hostWrite_keeps (h : Keeps base s) (a : Nat) (bs : Bytes) : Keeps base (hostWrite s a bs) :=
  ⟨h.pending, h.fuse, h.hbm, fun k => Memory.wf_writeN _ _ _ (h.host k), h.suites⟩

theorem signRecord_keeps {base s : State} (h : Keeps base s) (idx : Nat) (stopped : Bool) : Keeps base (signRecord s idx stopped) := by
  unfold signRecord
  extract_lets
  split
  · exact (Keeps.upd ..).2 h
  · exact h

theorem setTile_keeps {base s : State} (h : Keeps base s) (t : Nat) (x : Tile) :
    Keeps base (setTile s t x) := by
  unfold setTile
  try dsimp only
  repeat' first | with_reducible assumption | simp only [Keeps.upd]

theorem updTile_keeps {base s : State} (h : Keeps base s) (t : Nat) (f : Tile → Tile) :
    Keeps base (updTile s t f) := by
  unfold updTile
  try dsimp only
  repeat' first | with_reducible assumption | with_reducible apply setTile_keeps | simp only [Keeps.upd]

theorem setEntry_keeps {base s : State} (h : Keeps base s) (e : Nat) (x : StreamEntry) :
    Keeps base (setEntry s e x) := by
  unfold setEntry
  try dsimp only
  repeat' first | with_reducible assumption | simp only [Keeps.upd]

theorem updEntry_keeps {base s : State} (h : Keeps base s) (e : Nat) (f : StreamEntry → StreamEntry) :
    Keeps base (updEntry s e f) := by
  unfold updEntry
  try dsimp only
  repeat' first | with_reducible assumption | with_reducible apply setEntry_keeps | simp only [Keeps.upd]

theorem setWing_keeps {base s : State} (h : Keeps base s) (w : Nat) (x : Wing) :
    Keeps base (setWing s w x) := by
  unfold setWing
  try dsimp only
  repeat' first | with_reducible assumption | simp only [Keeps.upd]

theorem updWing_keeps {base s : State} (h : Keeps base s) (w : Nat) (f : Wing → Wing) :
    Keeps base (updWing s w f) := by
  unfold updWing
  try dsimp only
  repeat' first | with_reducible assumption | with_reducible apply setWing_keeps | simp only [Keeps.upd]

theorem setPort_keeps {base s : State} (h : Keeps base s) (p : Nat) (x : Port) :
    Keeps base (setPort s p x) := by
  unfold setPort
  try dsimp only
  repeat' first | with_reducible assumption | simp only [Keeps.upd]

theorem updPort_keeps {base s : State} (h : Keeps base s) (p : Nat) (f : Port → Port) :
    Keeps base (updPort s p f) := by
  unfold updPort
  try dsimp only
  repeat' first | with_reducible assumption | with_reducible apply setPort_keeps | simp only [Keeps.upd]

theorem setLantern_keeps {base s : State} (h : Keeps base s) (l : Nat) (x : Lantern) :
    Keeps base (setLantern s l x) := by
  unfold setLantern
  try dsimp only
  repeat' first | with_reducible assumption | simp only [Keeps.upd]

theorem updLantern_keeps {base s : State} (h : Keeps base s) (l : Nat) (f : Lantern → Lantern) :
    Keeps base (updLantern s l f) := by
  unfold updLantern
  try dsimp only
  repeat' first | with_reducible assumption | with_reducible apply setLantern_keeps | simp only [Keeps.upd]

theorem setRing_keeps {base s : State} (h : Keeps base s) (f : Nat) (x : Ring) :
    Keeps base (setRing s f x) := by
  unfold setRing
  try dsimp only
  repeat' first | with_reducible assumption | simp only [Keeps.upd]

theorem updRing_keeps {base s : State} (h : Keeps base s) (n : Nat) (f : Ring → Ring) :
    Keeps base (updRing s n f) := by
  unfold updRing
  try dsimp only
  repeat' first | with_reducible assumption | with_reducible apply setRing_keeps | simp only [Keeps.upd]

theorem suiteRestore_keeps {base s : State} (h : Keeps base s) (n a len off : Nat) (m : Memory) :
    Keeps base (suiteRestore s n a len off m) := by
  unfold suiteRestore
  try dsimp only
  repeat' first | with_reducible assumption | with_reducible apply suiteClear_keeps | with_reducible apply suiteSetByte_keeps | (with_reducible apply Keeps.foldl) | (with_reducible apply Keeps.foldl_fst) | intro _ _ _ | split | simp only [Keeps.upd]

theorem draw_keeps {base s : State} (h : Keeps base s) :
    Keeps base (draw s).2 := by
  unfold draw
  try dsimp only
  repeat' first | with_reducible assumption | simp only [Keeps.upd]

theorem send_keeps {base s : State} (h : Keeps base s) (dest : OutTo) (kind : SentKind) (bs : Bytes) :
    Keeps base (send s dest kind bs) := by
  unfold send
  try dsimp only
  repeat' first | with_reducible assumption | simp only [Keeps.upd]

theorem portEvents_keeps {base s : State} (h : Keeps base s) (p n : Nat) (f : Port → Nat → Port) :
    Keeps base (portEvents s p n f) := by
  unfold portEvents
  try dsimp only
  repeat' first | with_reducible assumption | with_reducible apply updPort_keeps | simp only [Keeps.upd]

theorem emitFlit_keeps {base s : State} (h : Keeps base s) (p : Nat) (f : TxFlit) (rest : List TxFlit) :
    Keeps base (emitFlit s p f rest) := by
  unfold emitFlit
  try dsimp only
  repeat' first | with_reducible assumption | with_reducible apply send_keeps | with_reducible apply setPort_keeps | split | simp only [Keeps.upd]

theorem queueTx_keeps {base s : State} (h : Keeps base s) (p : Nat) (f : TxFlit) :
    Keeps base (queueTx s p f) := by
  unfold queueTx
  try dsimp only
  repeat' first | with_reducible assumption | with_reducible apply updPort_keeps | simp only [Keeps.upd]

theorem drainTx_keeps {base s : State} (h : Keeps base s) (p : Nat) : Keeps base (drainTx s p) := by
  have k := drainTx_only s p
  unfold SentOnly at k
  rw [k]
  exact (Keeps.upd ..).2 h

theorem sendFlit_keeps {base s : State} (h : Keeps base s) (p type cls : Nat) (content : Bytes) :
    Keeps base (sendFlit s p type cls content) := by
  unfold sendFlit
  try dsimp only
  repeat' first | with_reducible assumption | with_reducible apply drainTx_keeps | with_reducible apply queueTx_keeps | simp only [Keeps.upd]

theorem forwardFlit_keeps {base s : State} (h : Keeps base s) (p cls : Nat) (content : Bytes) (back : Nat × Nat) :
    Keeps base (forwardFlit s p cls content back) := by
  unfold forwardFlit
  try dsimp only
  repeat' first | with_reducible assumption | with_reducible apply drainTx_keeps | with_reducible apply queueTx_keeps | simp only [Keeps.upd]

theorem sendControl_keeps {base s : State} (h : Keeps base s) (p : Nat) (record : Bytes) :
    Keeps base (sendControl s p record) := by
  unfold sendControl
  try dsimp only
  repeat' first | with_reducible assumption | with_reducible apply sendFlit_keeps | simp only [Keeps.upd]

theorem sendMgmt_keeps {base s : State} (h : Keeps base s) (p : Nat) (packet : Bytes) :
    Keeps base (sendMgmt s p packet) := by
  unfold sendMgmt
  try dsimp only
  repeat' first | with_reducible assumption | with_reducible apply sendFlit_keeps | with_reducible apply updPort_keeps | (with_reducible apply Keeps.foldl) | (with_reducible apply Keeps.foldl_fst) | intro _ _ _ | split | simp only [Keeps.upd]

theorem stopRing_keeps {base s : State} (h : Keeps base s) (f code : Nat) :
    Keeps base (stopRing s f code) := by
  unfold stopRing
  try dsimp only
  repeat' first | with_reducible assumption | with_reducible apply updRing_keeps | simp only [Keeps.upd]

theorem raiseMsix_keeps {base s : State} (h : Keeps base s) (f v : Nat) :
    Keeps base (raiseMsix s f v) := by
  unfold raiseMsix
  try dsimp only
  repeat' first | with_reducible assumption | with_reducible apply send_keeps | with_reducible apply updRing_keeps | split | simp only [Keeps.upd]

theorem writeMsix_keeps {base s : State} (h : Keeps base s) (f o value : Nat) :
    Keeps base (writeMsix s f o value) := by
  unfold writeMsix
  try dsimp only
  repeat' first | with_reducible assumption | with_reducible apply send_keeps | with_reducible apply updRing_keeps | split | simp only [Keeps.upd]

theorem postSlot_keeps {base s : State} (h : Keeps base s) (f : Nat) (p : Bytes) :
    Keeps base (postSlot s f p) := by
  unfold postSlot
  try dsimp only
  repeat' first | with_reducible assumption | with_reducible apply hostWrite_keeps | with_reducible apply raiseMsix_keeps | with_reducible apply stopRing_keeps | with_reducible apply updRing_keeps | split | simp only [Keeps.upd]

theorem postBytes_keeps {base s : State} (h : Keeps base s) (src : Src) (bs : Bytes) :
    Keeps base (postBytes s src bs) := by
  unfold postBytes
  try dsimp only
  repeat' first | with_reducible assumption | with_reducible apply postSlot_keeps | with_reducible apply sendMgmt_keeps | with_reducible apply updRing_keeps | split | simp only [Keeps.upd]

theorem finishBytes_keeps {base s : State} (h : Keeps base s) (src : Src) (w : Waiting) (bs : Bytes) :
    Keeps base (finishBytes s src w bs) := by
  unfold finishBytes
  try dsimp only
  repeat' first | with_reducible assumption | with_reducible apply postBytes_keeps | with_reducible apply updRing_keeps | split | simp only [Keeps.upd]

theorem finishPlain_keeps {base s : State} (h : Keeps base s) (src : Src) (w : Waiting) (status detail : Nat) (body : Bytes) :
    Keeps base (finishPlain s src w status detail body) := by
  unfold finishPlain
  try dsimp only
  repeat' first | with_reducible assumption | with_reducible apply finishBytes_keeps | simp only [Keeps.upd]

theorem closeGather_keeps {base s : State} (h : Keeps base s) (b : Broadcast) :
    Keeps base (closeGather s b) := by
  unfold closeGather
  try dsimp only
  repeat' first | with_reducible assumption | with_reducible apply finishPlain_keeps | split | simp only [Keeps.upd]

theorem gatherResult_keeps {base s : State} (h : Keeps base s) (src : Src) (tag t : Nat) (f : Broadcast → Broadcast) :
    Keeps base (gatherResult s src tag t f) := by
  unfold gatherResult
  try dsimp only
  repeat' first | with_reducible assumption | with_reducible apply closeGather_keeps | split | simp only [Keeps.upd]

theorem finish_keeps {base s : State} (h : Keeps base s) (src : Src) (tag status detail : Nat) (body : Bytes) :
    Keeps base (finish s src tag status detail body) := by
  unfold finish
  try dsimp only
  repeat' first | with_reducible assumption | with_reducible apply finishPlain_keeps | with_reducible apply gatherResult_keeps | split | simp only [Keeps.upd]

theorem holdEvent_keeps {base s : State} (h : Keeps base s) (f opcode suite : Nat) (body : Bytes) :
    Keeps base (holdEvent s f opcode suite body) := by
  unfold holdEvent
  try dsimp only
  repeat' first | with_reducible assumption | with_reducible apply updRing_keeps | split | simp only [Keeps.upd]

theorem deviceEvent_keeps {base s : State} (h : Keeps base s) (opcode : Nat) (body : Bytes) :
    Keeps base (deviceEvent s opcode body) := by
  unfold deviceEvent
  try dsimp only
  repeat' first | with_reducible assumption | with_reducible apply holdEvent_keeps | simp only [Keeps.upd]

theorem suiteEvent_keeps {base s : State} (h : Keeps base s) (n opcode : Nat) (body : Bytes) :
    Keeps base (suiteEvent s n opcode body) := by
  unfold suiteEvent
  try dsimp only
  repeat' first | with_reducible assumption | with_reducible apply holdEvent_keeps | simp only [Keeps.upd]

theorem setDev_keeps {base s : State} (h : Keeps base s) (d : DevState) :
    Keeps base (setDev s d) := by
  unfold setDev
  try dsimp only
  repeat' first | with_reducible assumption | with_reducible apply deviceEvent_keeps | split | simp only [Keeps.upd]

theorem settleDev_keeps {base s : State} (h : Keeps base s) :
    Keeps base (settleDev s) := by
  unfold settleDev
  try dsimp only
  repeat' first | with_reducible assumption | with_reducible apply setDev_keeps | split | simp only [Keeps.upd]

theorem answerOne_keeps {base s : State} (h : Keeps base s) (src : Src) (w : Waiting) (n : Nat) (x : SuiteState) :
    Keeps base (answerOne s src w n x) := by
  unfold answerOne
  try dsimp only
  repeat' first | with_reducible assumption | with_reducible apply finish_keeps | split | simp only [Keeps.upd]

theorem answerJobs_keeps {base s : State} (h : Keeps base s) (n : Nat) (x : SuiteState) :
    Keeps base (answerJobs s n x) := by
  unfold answerJobs
  try dsimp only
  repeat' first | with_reducible assumption | with_reducible apply gatherResult_keeps | (with_reducible apply Keeps.foldl) | (with_reducible apply Keeps.foldl_fst) | intro _ _ _ | split | simp only [Keeps.upd]

theorem answerSuite_keeps {base s0 : State} (h : Keeps base s0) (n : Nat) (x : SuiteState) :
    Keeps base (answerSuite s0 n x) := by
  unfold answerSuite
  try dsimp only
  repeat' first | with_reducible assumption | with_reducible apply answerJobs_keeps | with_reducible apply answerOne_keeps | (with_reducible apply Keeps.foldl) | (with_reducible apply Keeps.foldl_fst) | intro _ _ _ | simp only [Keeps.upd]

theorem settleJobs_keeps {base s : State} (h : Keeps base s) (n : Nat) :
    Keeps base (settleJobs s n) := by
  unfold settleJobs
  try dsimp only
  repeat' first | with_reducible assumption | split | simp only [Keeps.upd]

theorem setSuiteState_keeps {base s : State} (h : Keeps base s) (n : Nat) (x : SuiteState) :
    Keeps base (setSuiteState s n x) := by
  unfold setSuiteState
  try dsimp only
  repeat' first | with_reducible assumption | with_reducible apply answerSuite_keeps | with_reducible apply settleDev_keeps | with_reducible apply settleJobs_keeps | with_reducible apply suiteEvent_keeps | with_reducible apply updSuite_keeps | split | simp only [Keeps.upd]

theorem recordFault_keeps {base s : State} (h : Keeps base s) (r0 : FaultRec) :
    Keeps base (recordFault s r0) := by
  unfold recordFault
  try dsimp only
  repeat' first | with_reducible assumption | with_reducible apply deviceEvent_keeps | with_reducible apply suiteEvent_keeps | split | simp only [Keeps.upd]

theorem updateFault_keeps {base s : State} (h : Keeps base s) (idx : Nat) (f : FaultRec → FaultRec) :
    Keeps base (updateFault s idx f) := by
  unfold updateFault
  try dsimp only
  repeat' first | with_reducible assumption | split | simp only [Keeps.upd]

theorem retireTile_keeps {base s : State} (h : Keeps base s) (t : Nat) :
    Keeps base (retireTile s t) := by
  unfold retireTile
  try dsimp only
  repeat' first | with_reducible assumption | with_reducible apply updTile_keeps | split | simp only [Keeps.upd]

theorem tileEvent_keeps {base s : State} (h : Keeps base s) (t : Nat) (cause cls idx : Nat) :
    Keeps base (tileEvent s t cause cls idx) := by
  unfold tileEvent
  try dsimp only
  repeat' first | with_reducible assumption | with_reducible apply retireTile_keeps | split | simp only [Keeps.upd]

theorem pcEvent_keeps {base s : State} (h : Keeps base s) (pc cause idx : Nat) :
    Keeps base (pcEvent s pc cause idx) := by
  unfold pcEvent
  try dsimp only
  repeat' first | with_reducible assumption | split | simp only [Keeps.upd]

theorem sendCommand_keeps {base s : State} (h : Keeps base s) (port dest opcode suite flags : Nat) (body : Bytes) :
    Keeps base (sendCommand s port dest opcode suite flags body) := by
  unfold sendCommand
  try dsimp only
  repeat' first | with_reducible assumption | with_reducible apply sendMgmt_keeps | simp only [Keeps.upd]

theorem sendToManager_keeps {base s : State} (h : Keeps base s) (opcode suite : Nat) (urgent : Bool) (body : Bytes) :
    Keeps base (sendToManager s opcode suite urgent body) := by
  unfold sendToManager
  try dsimp only
  repeat' first | with_reducible assumption | with_reducible apply sendCommand_keeps | simp only [Keeps.upd]

theorem sendToWorkers_keeps {base s : State} (h : Keeps base s) (opcode suite : Nat) (flags : Nat) (body : Bytes) :
    Keeps base (sendToWorkers s opcode suite flags body) := by
  unfold sendToWorkers
  try dsimp only
  repeat' first | with_reducible assumption | with_reducible apply sendCommand_keeps | (with_reducible apply Keeps.foldl) | (with_reducible apply Keeps.foldl_fst) | intro _ _ _ | simp only [Keeps.upd]

theorem sendToModule_keeps {base s : State} (h : Keeps base s) (dest opcode suite flags : Nat) (body : Bytes) :
    Keeps base (sendToModule s dest opcode suite flags body) := by
  unfold sendToModule
  try dsimp only
  repeat' first | with_reducible assumption | with_reducible apply sendCommand_keeps | split | simp only [Keeps.upd]

theorem nameHalt_keeps {base s : State} (h : Keeps base s) (n h step : Nat) :
    Keeps base (nameHalt s n h step) := by
  unfold nameHalt
  try dsimp only
  repeat' first | with_reducible assumption | with_reducible apply updSuite_keeps | split | simp only [Keeps.upd]

theorem chooseHalt_keeps {base s : State} (h : Keeps base s) (n step : Nat) :
    Keeps base (chooseHalt s n step) := by
  unfold chooseHalt
  try dsimp only
  repeat' first | with_reducible assumption | with_reducible apply nameHalt_keeps | with_reducible apply sendToModule_keeps | (with_reducible apply Keeps.foldl) | (with_reducible apply Keeps.foldl_fst) | intro _ _ _ | split | simp only [Keeps.upd]

theorem noticeAtTop_keeps {base s : State} (h : Keeps base s) (lineage : Bytes) (rank step : Nat) :
    Keeps base (noticeAtTop s lineage rank step) := by
  unfold noticeAtTop
  try dsimp only
  repeat' first | with_reducible assumption | split | simp only [Keeps.upd]

theorem blame_keeps {base s : State} (h : Keeps base s) (lineage : Bytes) (o : Nat × Nat) :
    Keeps base (blame s lineage o) := by
  unfold blame
  try dsimp only
  repeat' first | with_reducible assumption | with_reducible apply updSuite_keeps | (with_reducible apply Keeps.foldl) | (with_reducible apply Keeps.foldl_fst) | intro _ _ _ | simp only [Keeps.upd]

theorem poisonStep_keeps {base s : State} (h : Keeps base s) (n step idx : Nat) :
    Keeps base (poisonStep s n step idx) := by
  unfold poisonStep
  try dsimp only
  repeat' first | with_reducible assumption | with_reducible apply chooseHalt_keeps | with_reducible apply noticeAtTop_keeps | with_reducible apply sendToManager_keeps | with_reducible apply signRecord_keeps | with_reducible apply updSuite_keeps | with_reducible apply updateFault_keeps | split | simp only [Keeps.upd]

theorem haltTile_keeps {base s : State} (h : Keeps base s) (t : Nat) :
    Keeps base (haltTile s t) := by
  unfold haltTile
  try dsimp only
  repeat' first | with_reducible assumption | with_reducible apply updTile_keeps | simp only [Keeps.upd]

theorem restoreWindow_keeps {base s : State} (h : Keeps base s) (n : Nat) :
    Keeps base (restoreWindow s n) := by
  unfold restoreWindow
  try dsimp only
  repeat' first | with_reducible assumption | with_reducible apply setSuite_keeps | with_reducible apply updTile_keeps | (with_reducible apply Keeps.foldl) | (with_reducible apply Keeps.foldl_fst) | intro _ _ _ | split | simp only [Keeps.upd]

theorem windowEvent_keeps {base s : State} (h : Keeps base s) (n : Nat) (w : EvalWindow) (status : Nat) :
    Keeps base (windowEvent s n w status) := by
  unfold windowEvent
  try dsimp only
  repeat' first | with_reducible assumption | with_reducible apply suiteEvent_keeps | simp only [Keeps.upd]

theorem ckptEvent_keeps {base s : State} (h : Keeps base s) (n : Nat) (e : BellEvent) (status : Nat) :
    Keeps base (ckptEvent s n e status) := by
  unfold ckptEvent
  try dsimp only
  repeat' first | with_reducible assumption | with_reducible apply suiteEvent_keeps | simp only [Keeps.upd]

theorem absorbWindow_keeps {base s : State} (h : Keeps base s) (n : Nat) (w : EvalWindow) :
    Keeps base (absorbWindow s n w) := by
  unfold absorbWindow
  try dsimp only
  repeat' first | with_reducible assumption | with_reducible apply updSuite_keeps | (with_reducible apply Keeps.foldl) | (with_reducible apply Keeps.foldl_fst) | intro _ _ _ | split | simp only [Keeps.upd]

theorem endWindow_keeps {base s : State} (h : Keeps base s) (n status : Nat) :
    Keeps base (endWindow s n status) := by
  unfold endWindow
  try dsimp only
  repeat' first | with_reducible assumption | with_reducible apply absorbWindow_keeps | with_reducible apply restoreWindow_keeps | with_reducible apply updSuite_keeps | with_reducible apply windowEvent_keeps | split | simp only [Keeps.upd]

theorem keepRestored_keeps {base s1 : State} (h : Keeps base s1) (s : State) (t : Nat) : Keeps base (keepRestored s s1 t) := by
  unfold keepRestored
  repeat' first | with_reducible exact h | with_reducible apply updTile_keeps | split

theorem confirmFault_keeps {base s : State} (h : Keeps base s) (n step idx : Nat) (eval : Bool) :
    Keeps base (confirmFault s n step idx eval) := by
  unfold confirmFault
  try dsimp only
  repeat' first | with_reducible assumption | with_reducible apply endWindow_keeps | with_reducible apply poisonStep_keeps | split | simp only [Keeps.upd]

theorem consequentRecord_keeps {base s : State} (h : Keeps base s) (t : Nat) (k : KStream) (word : Nat) :
    Keeps base (consequentRecord s t k word) := by
  unfold consequentRecord
  try dsimp only
  repeat' first | with_reducible assumption | with_reducible apply recordFault_keeps | split | simp only [Keeps.upd]

theorem faultStream_keeps {base s : State} (h : Keeps base s) (t : Nat) (k : KStream) (f : KFault) (word : Nat) :
    Keeps base (faultStream s t k f word) := by
  unfold faultStream
  try dsimp only
  repeat' first | with_reducible assumption | with_reducible apply confirmFault_keeps | with_reducible apply consequentRecord_keeps | with_reducible apply recordFault_keeps | with_reducible apply setTile_keeps | with_reducible apply signRecord_keeps | with_reducible apply tileEvent_keeps | split | simp only [Keeps.upd]

theorem raiseFlags_keeps {base s : State} (h : Keeps base s) (t : Nat) (k : KStream) (f : Flags) :
    Keeps base (raiseFlags s t k f) := by
  unfold raiseFlags
  try dsimp only
  repeat' first | with_reducible assumption | with_reducible apply updTile_keeps | simp only [Keeps.upd]

theorem setStream_keeps {base s : State} (h : Keeps base s) (t : Nat) (k : KStream) (x : KState) :
    Keeps base (setStream s t k x) := by
  unfold setStream
  try dsimp only
  repeat' first | with_reducible assumption | with_reducible apply updTile_keeps | simp only [Keeps.upd]

theorem advance_keeps {base s : State} (h : Keeps base s) (t : Nat) (k : KStream) :
    Keeps base (advance s t k) := by
  unfold advance
  try dsimp only
  repeat' first | with_reducible assumption | with_reducible apply setStream_keeps | simp only [Keeps.upd]

theorem stallAt_keeps {base s : State} (h : Keeps base s) (t : Nat) (k : KStream) (code : Nat) :
    Keeps base (stallAt s t k code) := by
  unfold stallAt
  try dsimp only
  repeat' first | with_reducible assumption | with_reducible apply setStream_keeps | simp only [Keeps.upd]

theorem issueAs_keeps {base s : State} (h : Keeps base s) (t : Nat) (k : KStream) (f : KInst → Nat → Option State)
    (hf : ∀ i w u, f i w = some u → Keeps base u) : Keeps base (issueAs s t k f) := by
  have key : ∀ i w, Keeps base ((f i w).getD s) := by
    intro i w
    cases e : f i w with
    | none => exact h
    | some u => exact hf i w u e
  unfold issueAs
  dsimp only
  repeat' first | with_reducible exact h | apply key | with_reducible apply keepRestored_keeps | with_reducible apply stallAt_keeps | with_reducible apply faultStream_keeps | split

theorem setToken_keeps {base s : State} (h : Keeps base s) (t tok : Nat) (v : TokenState) :
    Keeps base (setToken s t tok v) := by
  unfold setToken
  try dsimp only
  repeat' first | with_reducible assumption | with_reducible apply updTile_keeps | simp only [Keeps.upd]

theorem setLanding_keeps {base s : State} (h : Keeps base s) (t l : Nat) (x : Landing) :
    Keeps base (setLanding s t l x) := by
  unfold setLanding
  try dsimp only
  repeat' first | with_reducible assumption | with_reducible apply updTile_keeps | simp only [Keeps.upd]

theorem updStep_keeps {base s : State} (h : Keeps base s) (n u : Nat) (f : StepAcc → StepAcc) :
    Keeps base (updStep s n u f) := by
  unfold updStep
  try dsimp only
  repeat' first | with_reducible assumption | with_reducible apply updSuite_keeps | simp only [Keeps.upd]

theorem closeKernel_keeps {base s : State} (h : Keeps base s) (t : Nat) (k : KStream) :
    Keeps base (closeKernel s t k) := by
  unfold closeKernel
  try dsimp only
  repeat' first | with_reducible assumption | with_reducible apply setStream_keeps | with_reducible apply updStep_keeps | with_reducible apply updSuite_keeps | split | simp only [Keeps.upd]

theorem openKernel_keeps {base s : State} (h : Keeps base s) (t : Nat) (k : KStream) (kernel duration : Nat) :
    Keeps base (openKernel s t k kernel duration) := by
  unfold openKernel
  try dsimp only
  repeat' first | with_reducible assumption | with_reducible apply setStream_keeps | simp only [Keeps.upd]

theorem resumeInMark_keeps {base s : State} (h : Keeps base s) (t : Nat) (k : KStream) :
    Keeps base (resumeInMark s t k) := by
  unfold resumeInMark
  try dsimp only
  repeat' first | with_reducible assumption | with_reducible apply openKernel_keeps | with_reducible apply setStream_keeps | split | simp only [Keeps.upd]

theorem countIbuf_keeps {base s : State} (h : Keeps base s) (t : Nat) (ecc : List EccHit) :
    Keeps base (countIbuf s t ecc) := by
  unfold countIbuf
  try dsimp only
  repeat' first | with_reducible assumption | with_reducible apply updTile_keeps | simp only [Keeps.upd]

theorem settleCheckpoints_keeps {base s : State} (h : Keeps base s) (n : Nat) :
    Keeps base (settleCheckpoints s n) := by
  unfold settleCheckpoints
  try dsimp only
  repeat' first | with_reducible assumption | with_reducible apply setSuite_keeps | with_reducible apply suiteEvent_keeps | (with_reducible apply Keeps.foldl) | (with_reducible apply Keeps.foldl_fst) | intro _ _ _ | split | simp only [Keeps.upd]

theorem settleAll_keeps {base s : State} (h : Keeps base s) :
    Keeps base (settleAll s) := by
  unfold settleAll
  try dsimp only
  repeat' first | with_reducible assumption | with_reducible apply settleCheckpoints_keeps | (with_reducible apply Keeps.foldl) | (with_reducible apply Keeps.foldl_fst) | intro _ _ _ | simp only [Keeps.upd]

theorem tileSecded_keeps {base s : State} (h : Keeps base s) (t : Nat) (p : OpPlace) (k : KStream) (h : EccHit) :
    Keeps base (tileSecded s t p k h) := by
  unfold tileSecded
  try dsimp only
  repeat' first | with_reducible assumption | with_reducible apply confirmFault_keeps | with_reducible apply recordFault_keeps | with_reducible apply signRecord_keeps | with_reducible apply tileEvent_keeps | split | simp only [Keeps.upd]

theorem eccRead_keeps {base s : State} (h : Keeps base s) (t : Nat) (k : KStream) (p : OpPlace) (ecc : List EccHit) :
    Keeps base (eccRead s t k p ecc) := by
  unfold eccRead
  try dsimp only
  repeat' first | with_reducible assumption | with_reducible apply countIbuf_keeps | with_reducible apply tileSecded_keeps | with_reducible apply updTile_keeps | (with_reducible apply Keeps.foldl) | (with_reducible apply Keeps.foldl_fst) | intro _ _ _ | simp only [Keeps.upd]

theorem releaseHalt_keeps {base s : State} (h : Keeps base s) (t : Nat) :
    Keeps base (releaseHalt s t) := by
  unfold releaseHalt
  try dsimp only
  repeat' first | with_reducible assumption | with_reducible apply updTile_keeps | split | simp only [Keeps.upd]

theorem karWhenFree_keeps {base s : State} (h : Keeps base s) (t : Nat) :
    Keeps base (karWhenFree s t) := by
  unfold karWhenFree
  try dsimp only
  repeat' first | with_reducible assumption | with_reducible apply updTile_keeps | simp only [Keeps.upd]

theorem recallRecord_keeps {base s : State} (h : Keeps base s) (kept : Option FaultRec) :
    Keeps base (recallRecord s kept) := by
  unfold recallRecord
  try dsimp only
  repeat' first | with_reducible assumption | split | simp only [Keeps.upd]

theorem finishResolution_keeps {base s0 : State} (h : Keeps base s0) (r : Resolution) (cls : Nat) (values : List Nat) :
    Keeps base (finishResolution s0 r cls values) := by
  unfold finishResolution
  try dsimp only
  repeat' first | with_reducible assumption | with_reducible apply confirmFault_keeps | with_reducible apply karWhenFree_keeps | with_reducible apply recallRecord_keeps | with_reducible apply releaseHalt_keeps | with_reducible apply settleAll_keeps | with_reducible apply signRecord_keeps | with_reducible apply tileEvent_keeps | with_reducible apply updSuite_keeps | with_reducible apply updateFault_keeps | split | simp only [Keeps.upd]

theorem disagree_keeps {base s : State} (h : Keeps base s) (t : Nat) (k : KStream) (cause : Nat) (p : OpPlace) (values : List Nat) :
    Keeps base (disagree s t k cause p values) := by
  unfold disagree
  try dsimp only
  repeat' first | with_reducible assumption | with_reducible apply finishResolution_keeps | with_reducible apply haltTile_keeps | with_reducible apply recordFault_keeps | with_reducible apply updTile_keeps | split | simp only [Keeps.upd]

theorem dropVerdict_keeps {base s : State} (h : Keeps base s) (t id : Nat) :
    Keeps base (dropVerdict s t id) := by
  unfold dropVerdict
  try dsimp only
  repeat' first | with_reducible assumption | with_reducible apply updTile_keeps | simp only [Keeps.upd]

theorem addVerdict_keeps {base s : State} (h : Keeps base s) (t : Nat) (v : Verdict) :
    Keeps base (addVerdict s t v) := by
  unfold addVerdict
  try dsimp only
  repeat' first | with_reducible assumption | with_reducible apply updTile_keeps | simp only [Keeps.upd]

theorem applyVerdict_keeps {base s : State} (h : Keeps base s) (t : Nat) (c : Checker) (obs : CheckObs) :
    Keeps base (applyVerdict s t c obs) := by
  unfold applyVerdict
  try dsimp only
  repeat' first | with_reducible assumption | with_reducible apply disagree_keeps | with_reducible apply dropVerdict_keeps | split | simp only [Keeps.upd]

theorem endThirdRuns_keeps {base s : State} (h : Keeps base s) (t : Nat) :
    Keeps base (endThirdRuns s t) := by
  unfold endThirdRuns
  try dsimp only
  repeat' first | with_reducible assumption | with_reducible apply finishResolution_keeps | (with_reducible apply Keeps.foldl) | (with_reducible apply Keeps.foldl_fst) | intro _ _ _ | simp only [Keeps.upd]

theorem recordExtent_keeps {base s : State} (h : Keeps base s) (c : Ctx) (id : Nat) (x : Tensor) (e0 : Extent) (track wrote : Bool) :
    Keeps base (recordExtent s c id x e0 track wrote) := by
  unfold recordExtent
  try dsimp only
  repeat' first | with_reducible assumption | with_reducible apply updStep_keeps | split | simp only [Keeps.upd]

theorem dropTransfers_keeps {base s : State} (h : Keeps base s) (e n : Nat) :
    Keeps base (dropTransfers s e n) := by
  unfold dropTransfers
  try dsimp only
  repeat' first | with_reducible assumption | with_reducible apply setLanding_keeps | simp only [Keeps.upd]

theorem absorbEntry_keeps {base s : State} (h : Keeps base s) (e : Nat) (st : EntryState) (spare : Nat) (queued : Bool) :
    Keeps base (absorbEntry s e st spare queued) := by
  unfold absorbEntry
  try dsimp only
  repeat' first | with_reducible assumption | with_reducible apply dropTransfers_keeps | with_reducible apply setEntry_keeps | with_reducible apply updSuite_keeps | split | simp only [Keeps.upd]

theorem stopStream_keeps {base s : State} (h : Keeps base s) (t : Nat) (k : KStream) (f : KFault) :
    Keeps base (stopStream s t k f) := by
  unfold stopStream
  try dsimp only
  repeat' first | with_reducible assumption | with_reducible apply updTile_keeps | split | simp only [Keeps.upd]

theorem stopStreams_keeps {base s : State} (h : Keeps base s) (t : Nat) (ks : List KStream) (f : KFault) :
    Keeps base (stopStreams s t ks f) := by
  unfold stopStreams
  try dsimp only
  repeat' first | with_reducible assumption | with_reducible apply stopStream_keeps | (with_reducible apply Keeps.foldl) | (with_reducible apply Keeps.foldl_fst) | intro _ _ _ | simp only [Keeps.upd]

theorem nameOther_keeps {base s : State} (h : Keeps base s) (e causeIdx : Nat) :
    Keeps base (nameOther s e causeIdx) := by
  unfold nameOther
  try dsimp only
  repeat' first | with_reducible assumption | with_reducible apply updateFault_keeps | split | simp only [Keeps.upd]

theorem noticeAt_keeps {base s : State} (h : Keeps base s) (e : Nat) (disable : Bool) (causeIdx : Nat) :
    Keeps base (noticeAt s e disable causeIdx) := by
  unfold noticeAt
  try dsimp only
  repeat' first | with_reducible assumption | with_reducible apply absorbEntry_keeps | with_reducible apply nameOther_keeps | with_reducible apply recordFault_keeps | with_reducible apply stopStreams_keeps | with_reducible apply updSuite_keeps | split | simp only [Keeps.upd]

theorem noticeByManagers_keeps {base s : State} (h : Keeps base s) (dest : Nat) (record : Bytes) :
    Keeps base (noticeByManagers s dest record) := by
  unfold noticeByManagers
  try dsimp only
  repeat' first | with_reducible assumption | with_reducible apply sendMgmt_keeps | split | simp only [Keeps.upd]

theorem notifyPeer_keeps {base s : State} (h : Keeps base s) (e : Nat) (disable : Bool) (idx : Nat) :
    Keeps base (notifyPeer s e disable idx) := by
  unfold notifyPeer
  try dsimp only
  repeat' first | with_reducible assumption | with_reducible apply noticeAt_keeps | with_reducible apply noticeByManagers_keeps | with_reducible apply sendControl_keeps | split | simp only [Keeps.upd]

theorem nameDiscards_keeps {base s : State} (h : Keeps base s) (e tag : Nat) (lost : Option Nat) (idx : Nat) :
    Keeps base (nameDiscards s e tag lost idx) := by
  unfold nameDiscards
  try dsimp only
  repeat' first | with_reducible assumption | split | simp only [Keeps.upd]

theorem timeOut_keeps {base s : State} (h : Keeps base s) (e : Nat) (txn : Txn) (cause : Nat) :
    Keeps base (timeOut s e txn cause) := by
  unfold timeOut
  try dsimp only
  repeat' first | with_reducible assumption | with_reducible apply absorbEntry_keeps | with_reducible apply confirmFault_keeps | with_reducible apply nameDiscards_keeps | with_reducible apply notifyPeer_keeps | with_reducible apply recordFault_keeps | with_reducible apply setSuiteState_keeps | with_reducible apply stopStreams_keeps | with_reducible apply updSuite_keeps | split | simp only [Keeps.upd]

theorem disableNow_keeps {base s : State} (h : Keeps base s) (e : Nat) :
    Keeps base (disableNow s e) := by
  unfold disableNow
  try dsimp only
  repeat' first | with_reducible assumption | with_reducible apply absorbEntry_keeps | with_reducible apply consequentRecord_keeps | with_reducible apply notifyPeer_keeps | with_reducible apply stopStreams_keeps | (with_reducible apply Keeps.foldl) | (with_reducible apply Keeps.foldl_fst) | intro _ _ _ | simp only [Keeps.upd]

theorem disableEntry_keeps {base s : State} (h : Keeps base s) (e : Nat) :
    Keeps base (disableEntry s e) := by
  unfold disableEntry
  try dsimp only
  repeat' first | with_reducible assumption | with_reducible apply disableNow_keeps | with_reducible apply setEntry_keeps | split | simp only [Keeps.upd]

theorem discardAt_keeps {base s : State} (h : Keeps base s) (p : Nat) (notOwned : Bool) :
    Keeps base (discardAt s p notOwned) := by
  unfold discardAt
  try dsimp only
  repeat' first | with_reducible assumption | with_reducible apply updPort_keeps | split | simp only [Keeps.upd]

theorem strayTag_keeps {base s : State} (h : Keeps base s) (e tag : Nat) :
    Keeps base (strayTag s e tag) := by
  unfold strayTag
  try dsimp only
  repeat' first | with_reducible assumption | with_reducible apply recordFault_keeps | with_reducible apply setEntry_keeps | with_reducible apply updSuite_keeps | with_reducible apply updWing_keeps | split | simp only [Keeps.upd]

theorem controlIn_keeps {base s : State} (h : Keeps base s) (p : Nat) (r : Bytes) (act : Nat → State) (ha : ∀ e, Keeps base (act e)) :
    Keeps base (controlIn s p r act) := by
  unfold controlIn
  try dsimp only
  repeat' first | with_reducible exact h | apply ha | assumption | with_reducible apply discardAt_keeps | with_reducible apply sendControl_keeps | split | simp only [Keeps.upd]

theorem noticeIn_keeps {base s : State} (h : Keeps base s) (p : Nat) (r : Bytes) : Keeps base (noticeIn s p r) := by
  unfold noticeIn
  dsimp only
  repeat' first
    | with_reducible exact h
    | with_reducible apply noticeAt_keeps
    | with_reducible apply discardAt_keeps
    | with_reducible apply noticeByManagers_keeps
    | exact controlIn_keeps h _ _ _ (fun e => noticeAt_keeps h ..)
    | split

theorem supplyEvent_keeps {base s : State} (h : Keeps base s) (kind : Nat) :
    Keeps base (supplyEvent s kind) := by
  unfold supplyEvent
  try dsimp only
  repeat' first | with_reducible assumption | with_reducible apply deviceEvent_keeps | simp only [Keeps.upd]

theorem raiseThrottle_keeps {base s : State} (h : Keeps base s) :
    Keeps base (raiseThrottle s) := by
  unfold raiseThrottle
  try dsimp only
  repeat' first | with_reducible assumption | with_reducible apply supplyEvent_keeps | split | simp only [Keeps.upd]

theorem markRow_keeps {base s : State} (h : Keeps base s) (pc row idx : Nat) :
    Keeps base (markRow s pc row idx) := by
  unfold markRow
  try dsimp only
  repeat' first | with_reducible assumption | with_reducible apply pcEvent_keeps | with_reducible apply setWing_keeps | split | simp only [Keeps.upd]

theorem zeroAccess_keeps {base s : State} (h : Keeps base s) (pc addr : Nat) : Keeps base (zeroAccess s pc addr) :=
  ⟨h.pending, h.fuse, fun k => Memory.wf_clear _ _ _ (h.hbm k), h.host, h.suites⟩

theorem correctedError_keeps {base s : State} (h : Keeps base s) (pc addr : Nat) :
    Keeps base (correctedError s pc addr) := by
  unfold correctedError
  try dsimp only
  repeat' first | with_reducible assumption | with_reducible apply markRow_keeps | with_reducible apply setWing_keeps | split | simp only [Keeps.upd]

theorem reportLost_keeps {base s : State} (h : Keeps base s) (pc addr cause step : Nat) (op : FaultOp) (eval : Bool) :
    Keeps base (reportLost s pc addr cause step op eval) := by
  unfold reportLost
  try dsimp only
  repeat' first | with_reducible assumption | with_reducible apply confirmFault_keeps | with_reducible apply markRow_keeps | with_reducible apply pcEvent_keeps | with_reducible apply recordFault_keeps | with_reducible apply signRecord_keeps | with_reducible apply updWing_keeps | split | simp only [Keeps.upd]

theorem uncorrectable_keeps {base s : State} (h : Keeps base s) (pc addr cause step : Nat) (op : FaultOp) (eval : Bool) :
    Keeps base (uncorrectable s pc addr cause step op eval) := by
  unfold uncorrectable
  try dsimp only
  repeat' first | with_reducible assumption | with_reducible apply reportLost_keeps | with_reducible apply zeroAccess_keeps | simp only [Keeps.upd]

theorem cacheDirtyLost_keeps {base s : State} (h : Keeps base s) (wing line way off step : Nat) (op : FaultOp) (eval : Bool) :
    Keeps base (cacheDirtyLost s wing line way off step op eval) := by
  unfold cacheDirtyLost
  try dsimp only
  repeat' first | with_reducible assumption | with_reducible apply confirmFault_keeps | with_reducible apply recordFault_keeps | with_reducible apply signRecord_keeps | with_reducible apply updWing_keeps | with_reducible apply zeroAccess_keeps | split | simp only [Keeps.upd]

theorem memObs_keeps {base s : State} (h : Keeps base s) (step : Nat) (op : FaultOp) (eval : Bool) (cause : Nat) (o : MemObs) :
    Keeps base (memObs s step op eval cause o) := by
  unfold memObs
  try dsimp only
  repeat' first | with_reducible assumption | with_reducible apply cacheDirtyLost_keeps | with_reducible apply correctedError_keeps | with_reducible apply uncorrectable_keeps | with_reducible apply updWing_keeps | split | simp only [Keeps.upd]

theorem readObs_keeps {base s : State} (h : Keeps base s) (n : Nat) (obs : List MemObs) :
    Keeps base (readObs s n obs) := by
  unfold readObs
  try dsimp only
  repeat' first | with_reducible assumption | with_reducible apply memObs_keeps | (with_reducible apply Keeps.foldl) | (with_reducible apply Keeps.foldl_fst) | intro _ _ _ | simp only [Keeps.upd]

theorem touchLine_keeps {base s : State} (h : Keeps base s) (n key count : Nat) (streamPolicy write : Bool) :
    Keeps base (touchLine s n key count streamPolicy write) := by
  unfold touchLine
  try dsimp only
  repeat' first | with_reducible assumption | with_reducible apply setWing_keeps | split | simp only [Keeps.upd]

theorem dirtyLines_keeps {base s : State} (h : Keeps base s) (n a len : Nat) :
    Keeps base (dirtyLines s n a len) := by
  unfold dirtyLines
  try dsimp only
  repeat' first | with_reducible assumption | split | simp only [Keeps.upd]

theorem dropLines_keeps {base s : State} (h : Keeps base s) (pcs : List Nat) :
    Keeps base (dropLines s pcs) := by
  unfold dropLines
  try dsimp only
  repeat' first | with_reducible assumption | simp only [Keeps.upd]

theorem scrubObs_keeps {base s : State} (h : Keeps base s) (step : Nat) (o : MemObs) :
    Keeps base (scrubObs s step o) := by
  unfold scrubObs
  try dsimp only
  repeat' first | with_reducible assumption | with_reducible apply correctedError_keeps | with_reducible apply reportLost_keeps | with_reducible apply uncorrectable_keeps | split | simp only [Keeps.upd]

theorem issueQueue_keeps {base s : State} (h : Keeps base s) (t : Nat) (k : KStream) (q : QOp) (w : Nat) :
    Keeps base (issueQueue s t k q w) := by
  unfold issueQueue
  try dsimp only
  repeat' first | with_reducible assumption | with_reducible apply advance_keeps | with_reducible apply faultStream_keeps | with_reducible apply setLanding_keeps | with_reducible apply stallAt_keeps | with_reducible apply updEntry_keeps | with_reducible apply updSuite_keeps | with_reducible apply updTile_keeps | split | simp only [Keeps.upd]

theorem notePeak_keeps {base s : State} (h : Keeps base s) (x : StreamEntry) :
    Keeps base (notePeak s x) := by
  unfold notePeak
  try dsimp only
  repeat' first | with_reducible assumption | with_reducible apply updPort_keeps | split | simp only [Keeps.upd]

theorem postSlots_keeps {base s : State} (h : Keeps base s) (x : StreamEntry) (tag n : Nat) :
    Keeps base (postSlots s x tag n) := by
  unfold postSlots
  try dsimp only
  repeat' first | with_reducible assumption | with_reducible apply sendControl_keeps | with_reducible apply updEntry_keeps | split | simp only [Keeps.upd]

theorem finishTxn_keeps {base s : State} (h : Keeps base s) (e : Nat) (txn : Txn) :
    Keeps base (finishTxn s e txn) := by
  unfold finishTxn
  try dsimp only [done]
  repeat' first | with_reducible assumption | with_reducible apply disableNow_keeps | with_reducible apply setEntry_keeps | with_reducible apply setLanding_keeps | split | simp only [Keeps.upd]

theorem absorbTxn_keeps {base s : State} (h : Keeps base s) (e : Nat) (txn : Txn) :
    Keeps base (absorbTxn s e txn) := by
  unfold absorbTxn
  try dsimp only
  repeat' first | with_reducible assumption | with_reducible apply consequentRecord_keeps | with_reducible apply finishTxn_keeps | with_reducible apply stopStream_keeps | with_reducible apply updEntry_keeps | with_reducible apply updSuite_keeps | split | simp only [Keeps.upd]

theorem countViolation_keeps {base s : State} (h : Keeps base s) (n step tag : Nat) (o : NetObs) :
    Keeps base (countViolation s n step tag o) := by
  unfold countViolation
  try dsimp only
  repeat' first | with_reducible assumption | with_reducible apply recordFault_keeps | with_reducible apply updWing_keeps | split | simp only [Keeps.upd]

theorem sendStarted_keeps {base s : State} (h : Keeps base s) (x : StreamEntry) (data : Bytes) :
    Keeps base (sendStarted s x data) := by
  unfold sendStarted
  try dsimp only
  repeat' first | with_reducible assumption | with_reducible apply postSlots_keeps | with_reducible apply sendFlit_keeps | split | simp only [Keeps.upd]

theorem landInbound_keeps {base s0 : State} (h : Keeps base s0) (txn : Txn) (arr : Arrival) :
    Keeps base (landInbound s0 txn arr) := by
  unfold landInbound
  try dsimp only [done]
  repeat' first | with_reducible assumption | with_reducible apply disagree_keeps | with_reducible apply eccRead_keeps | with_reducible apply raiseFlags_keeps | with_reducible apply setLanding_keeps | with_reducible apply updTile_keeps | split | simp only [Keeps.upd]

theorem touchLines_keeps {base s : State} (h : Keeps base s) (n a : Nat) (streamPolicy write : Bool) :
    Keeps base (touchLines s n a streamPolicy write) := by
  unfold touchLines
  try dsimp only
  repeat' first | with_reducible assumption | with_reducible apply touchLine_keeps | (with_reducible apply Keeps.foldl) | (with_reducible apply Keeps.foldl_fst) | intro _ _ _ | split | simp only [Keeps.upd]

theorem completeRead_keeps {base s : State} (h : Keeps base s) (e : Nat) (x : StreamEntry) (txn : Txn) (a : Nat) (obs : List MemObs) (dup : Int) (ecc : List EccHit) :
    Keeps base (completeRead s e x txn a obs dup ecc) := by
  unfold completeRead
  try dsimp only
  repeat' first | with_reducible assumption | with_reducible apply finishTxn_keeps | with_reducible apply landInbound_keeps | with_reducible apply memObs_keeps | with_reducible apply touchLines_keeps | (with_reducible apply Keeps.foldl) | (with_reducible apply Keeps.foldl_fst) | intro _ _ _ | split | simp only [Keeps.upd]

theorem digestWrite_keeps {base s : State} (h : Keeps base s) (x : StreamEntry) (txn : Txn) (off : Nat) (data : Bytes) (eval : Bool) :
    Keeps base (digestWrite s x txn off data eval) := by
  unfold digestWrite
  try dsimp only
  repeat' first | with_reducible assumption | with_reducible apply updStep_keeps | with_reducible apply updSuite_keeps | (with_reducible apply Keeps.foldl) | (with_reducible apply Keeps.foldl_fst) | intro _ _ _ | split | simp only [Keeps.upd]

theorem completeWrite_keeps {base s : State} (h : Keeps base s) (e : Nat) (x : StreamEntry) (txn : Txn) (a : Nat) :
    Keeps base (completeWrite s e x txn a) := by
  unfold completeWrite
  try dsimp only
  repeat' first | with_reducible assumption | with_reducible apply digestWrite_keeps | with_reducible apply finishTxn_keeps | with_reducible apply suiteSetBytes_keeps | with_reducible apply touchLines_keeps | simp only [Keeps.upd]

theorem completeTile_keeps {base s : State} (h : Keeps base s) (e : Nat) (x : StreamEntry) (txn : Txn) (dup : Int) (ecc : List EccHit) :
    Keeps base (completeTile s e x txn dup ecc) := by
  unfold completeTile
  try dsimp only
  repeat' first | with_reducible assumption | with_reducible apply finishTxn_keeps | with_reducible apply landInbound_keeps | with_reducible apply setEntry_keeps | with_reducible apply strayTag_keeps | split | simp only [Keeps.upd]

theorem completeFold_keeps {base s : State} (h : Keeps base s) (e : Nat) (x : StreamEntry) (txn : Txn) (dup : Int) (ecc : List EccHit) :
    Keeps base (completeFold s e x txn dup ecc) := by
  unfold completeFold
  try dsimp only
  repeat' first | with_reducible assumption | with_reducible apply finishTxn_keeps | with_reducible apply landInbound_keeps | with_reducible apply setEntry_keeps | split | simp only [Keeps.upd]

theorem returnCredit_keeps {base s : State} (h : Keeps base s) (p cls : Nat) :
    Keeps base (returnCredit s p cls) := by
  unfold returnCredit
  try dsimp only
  repeat' first | with_reducible assumption | with_reducible apply sendControl_keeps | simp only [Keeps.upd]

theorem ackTag_keeps {base s : State} (h : Keeps base s) (e tag : Nat) :
    Keeps base (ackTag s e tag) := by
  unfold ackTag
  try dsimp only
  repeat' first | with_reducible assumption | with_reducible apply finishTxn_keeps | with_reducible apply strayTag_keeps | split | simp only [Keeps.upd]

theorem postFold_keeps {base s : State} (h : Keeps base s) (n : Nat) (eval : Bool) :
    Keeps base (postFold s n eval) := by
  unfold postFold
  try dsimp only
  repeat' first | with_reducible assumption | with_reducible apply postSlots_keeps | with_reducible apply setEntry_keeps | (with_reducible apply Keeps.foldl) | (with_reducible apply Keeps.foldl_fst) | intro _ _ _ | split | simp only [Keeps.upd]

theorem takeSnapshot_keeps {base s : State} (h : Keeps base s) (n u : Nat) :
    Keeps base (takeSnapshot s n u) := by
  unfold takeSnapshot
  try dsimp only
  repeat' first | with_reducible assumption | with_reducible apply setSuite_keeps | (with_reducible apply Keeps.foldl) | (with_reducible apply Keeps.foldl_fst) | intro _ _ _ | split | simp only [Keeps.upd]

theorem passGate_keeps {base s : State} (h : Keeps base s) (t : Nat) (k : KStream) (n u : Nat) :
    Keeps base (passGate s t k n u) := by
  unfold passGate
  try dsimp only
  repeat' first | with_reducible assumption | with_reducible apply postFold_keeps | with_reducible apply setStream_keeps | with_reducible apply setSuite_keeps | with_reducible apply takeSnapshot_keeps | split | simp only [Keeps.upd]

theorem settlePcs_keeps {base s : State} (h : Keeps base s) (n : Nat) :
    Keeps base (settlePcs s n) := by
  unfold settlePcs
  try dsimp only
  repeat' first | with_reducible assumption | with_reducible apply dropLines_keeps | split | simp only [Keeps.upd]

theorem replan_keeps {base s0 : State} (h : Keeps base s0) (n : Nat) :
    Keeps base (replan s0 n) := by
  unfold replan
  try dsimp only
  repeat' first | with_reducible assumption | with_reducible apply settlePcs_keeps | with_reducible apply suiteClear_keeps | with_reducible apply suiteSetByte_keeps | with_reducible apply updSuite_keeps | (with_reducible apply Keeps.foldl) | (with_reducible apply Keeps.foldl_fst) | intro _ _ _ | split | simp only [Keeps.upd]

theorem unseatAll_keeps {base s : State} (h : Keeps base s) (n : Nat) :
    Keeps base (unseatAll s n) := by
  unfold unseatAll
  try dsimp only
  repeat' first | with_reducible assumption | split | simp only [Keeps.upd]

theorem settleRetirement_keeps {base s : State} (h : Keeps base s) (n : Nat) :
    Keeps base (settleRetirement s n) := by
  unfold settleRetirement
  try dsimp only
  repeat' first | with_reducible assumption | with_reducible apply retireTile_keeps | (with_reducible apply Keeps.foldl) | (with_reducible apply Keeps.foldl_fst) | intro _ _ _ | split | simp only [Keeps.upd]

theorem mapSuite_keeps {base s : State} (h : Keeps base s) (n : Nat) (cores : SMap TileCore) (fresh : Bool) :
    Keeps base (mapSuite s n cores fresh) := by
  unfold mapSuite
  try dsimp only
  repeat' first | with_reducible assumption | with_reducible apply setSuite_keeps | with_reducible apply unseatAll_keeps | with_reducible apply updTile_keeps | (with_reducible apply Keeps.foldl) | (with_reducible apply Keeps.foldl_fst) | intro _ _ _ | split | simp only [Keeps.upd]

theorem buildRoutes_keeps {base s : State} (h : Keeps base s) (n : Nat) :
    Keeps base (buildRoutes s n) := by
  unfold buildRoutes
  try dsimp only
  repeat' first | with_reducible assumption | with_reducible apply setSuite_keeps | split | simp only [Keeps.upd]

theorem bindEntries_keeps {base s0 : State} (h : Keeps base s0) (n : Nat) (how : BindAs) :
    Keeps base (bindEntries s0 n how) := by
  unfold bindEntries
  try dsimp only
  repeat' first | with_reducible assumption | with_reducible apply buildRoutes_keeps | with_reducible apply postSlots_keeps | with_reducible apply setEntry_keeps | (with_reducible apply Keeps.foldl) | (with_reducible apply Keeps.foldl_fst) | intro _ _ _ | split | simp only [Keeps.upd]

theorem freeEntries_keeps {base s : State} (h : Keeps base s) (n : Nat) :
    Keeps base (freeEntries s n) := by
  unfold freeEntries
  try dsimp only
  repeat' first | with_reducible assumption | simp only [Keeps.upd]

theorem absorbAll_keeps {base s : State} (h : Keeps base s) (e : Nat) :
    Keeps base (absorbAll s e) := by
  unfold absorbAll
  try dsimp only
  repeat' first | with_reducible assumption | with_reducible apply absorbEntry_keeps | simp only [Keeps.upd]

theorem dropQueued_keeps {base s : State} (h : Keeps base s) (e : Nat) :
    Keeps base (dropQueued s e) := by
  unfold dropQueued
  try dsimp only [done]
  repeat' first | with_reducible assumption | with_reducible apply setLanding_keeps | split | simp only [Keeps.upd]

theorem stopEntry_keeps {base s : State} (h : Keeps base s) (e : Nat) :
    Keeps base (stopEntry s e) := by
  unfold stopEntry
  try dsimp only
  repeat' first | with_reducible assumption | with_reducible apply absorbAll_keeps | with_reducible apply dropQueued_keeps | with_reducible apply sendControl_keeps | with_reducible apply updEntry_keeps | with_reducible apply updSuite_keeps | split | simp only [Keeps.upd]

theorem haltSuiteTiles_keeps {base s : State} (h : Keeps base s) (n : Nat) :
    Keeps base (haltSuiteTiles s n) := by
  unfold haltSuiteTiles
  try dsimp only
  repeat' first | with_reducible assumption | split | simp only [Keeps.upd]

theorem discardFrom_keeps {base s : State} (h : Keeps base s) (n u : Nat) :
    Keeps base (discardFrom s n u) := by
  unfold discardFrom
  try dsimp only
  repeat' first | with_reducible assumption | with_reducible apply setSuite_keeps | with_reducible apply suiteEvent_keeps | (with_reducible apply Keeps.foldl) | (with_reducible apply Keeps.foldl_fst) | intro _ _ _ | simp only [Keeps.upd]

theorem dropWindows_keeps {base s : State} (h : Keeps base s) (n u status : Nat) :
    Keeps base (dropWindows s n u status) := by
  unfold dropWindows
  try dsimp only
  repeat' first | with_reducible assumption | with_reducible apply updSuite_keeps | with_reducible apply windowEvent_keeps | (with_reducible apply Keeps.foldl) | (with_reducible apply Keeps.foldl_fst) | intro _ _ _ | simp only [Keeps.upd]

theorem dropPending_keeps {base s : State} (h : Keeps base s) (n u status : Nat) :
    Keeps base (dropPending s n u status) := by
  unfold dropPending
  try dsimp only
  repeat' first | with_reducible assumption | with_reducible apply ckptEvent_keeps | with_reducible apply dropWindows_keeps | with_reducible apply updSuite_keeps | (with_reducible apply Keeps.foldl) | (with_reducible apply Keeps.foldl_fst) | intro _ _ _ | simp only [Keeps.upd]

theorem holdStep_keeps {base s : State} (h : Keeps base s) (n : Nat) :
    Keeps base (holdStep s n) := by
  unfold holdStep
  try dsimp only
  repeat' first | with_reducible assumption | with_reducible apply updSuite_keeps | simp only [Keeps.upd]

theorem beginReset_keeps {base s : State} (h : Keeps base s) (n : Nat) :
    Keeps base (beginReset s n) := by
  unfold beginReset
  try dsimp only
  repeat' first | with_reducible assumption | with_reducible apply dropPending_keeps | with_reducible apply haltSuiteTiles_keeps | with_reducible apply restoreWindow_keeps | with_reducible apply setSuiteState_keeps | with_reducible apply stopEntry_keeps | with_reducible apply updSuite_keeps | (with_reducible apply Keeps.foldl) | (with_reducible apply Keeps.foldl_fst) | intro _ _ _ | split | simp only [Keeps.upd]

theorem haltForRollback_keeps {base s : State} (h : Keeps base s) (n u : Nat) : Keeps base (haltForRollback s n u) := by
  unfold haltForRollback
  extract_lets st0 s0 keep quiet s1 s2 s3
  have k0 : Keeps base s0 := dropPending_keeps (restoreWindow_keeps h n) ..
  have k1 : Keeps base quiet := setSuite_keeps k0 ..
  have k2 : Keeps base s1 := Keeps.foldl _ (haltSuiteTiles_keeps k1 n) (fun v a k => absorbAll_keeps k a)
  have k3 : Keeps base s2 := updSuite_keeps (beginReset_keeps (discardFrom_keeps k2 n u) n) ..
  have k4 : Keeps base s3 := by
    show Keeps base (if st0 = .preempted then setSuiteState s2 n .draining else s2)
    split
    · exact setSuiteState_keeps k3 ..
    · exact k3
  exact updSuite_keeps k4 ..

theorem zeroSuiteTiles_keeps {base s : State} (h : Keeps base s) (n : Nat) :
    Keeps base (zeroSuiteTiles s n) := by
  unfold zeroSuiteTiles
  try dsimp only
  repeat' first | with_reducible assumption | split | simp only [Keeps.upd]

theorem finishReset_keeps {base s : State} (h : Keeps base s) (n : Nat) :
    Keeps base (finishReset s n) := by
  unfold finishReset
  try dsimp only
  repeat' first | with_reducible assumption | with_reducible apply bindEntries_keeps | with_reducible apply discardFrom_keeps | with_reducible apply holdStep_keeps | with_reducible apply setSuite_keeps | with_reducible apply settleRetirement_keeps | with_reducible apply zeroSuiteTiles_keeps | split | simp only [Keeps.upd]

theorem restoreTensors_keeps {base s : State} (h : Keeps base s) (n : Nat) (m : Memory) (others : Bool) :
    Keeps base (restoreTensors s n m others) := by
  unfold restoreTensors
  try dsimp only
  repeat' first | with_reducible assumption | with_reducible apply suiteClear_keeps | with_reducible apply suiteRestore_keeps | (with_reducible apply Keeps.foldl) | (with_reducible apply Keeps.foldl_fst) | intro _ _ _ | split | simp only [Keeps.upd]

theorem addRunRecord_keeps {base s : State} (h : Keeps base s) (n : Nat) (m : Bytes) :
    Keeps base (addRunRecord s n m) := by
  unfold addRunRecord
  try dsimp only
  repeat' first | with_reducible assumption | with_reducible apply updSuite_keeps | split | simp only [Keeps.upd]

theorem beginSliceAt_keeps {base s : State} (h : Keeps base s) (n bell : Nat) :
    Keeps base (beginSliceAt s n bell) := by
  unfold beginSliceAt
  try dsimp only
  repeat' first | with_reducible assumption | with_reducible apply updSuite_keeps | split | simp only [Keeps.upd]

theorem beginSlice_keeps {base s : State} (h : Keeps base s) (n : Nat) :
    Keeps base (beginSlice s n) := by
  unfold beginSlice
  try dsimp only
  repeat' first | with_reducible assumption | with_reducible apply beginSliceAt_keeps | simp only [Keeps.upd]

theorem foldResolutions_keeps {base s : State} (h : Keeps base s) (n : Nat) :
    Keeps base (foldResolutions s n) := by
  unfold foldResolutions
  try dsimp only
  repeat' first | with_reducible assumption | split | simp only [Keeps.upd]

theorem launch_keeps {base s : State} (h : Keeps base s) (n first : Nat) (fresh : Bool) :
    Keeps base (launch s n first fresh) := by
  unfold launch
  try dsimp only
  repeat' first | with_reducible assumption | with_reducible apply addRunRecord_keeps | with_reducible apply beginSlice_keeps | with_reducible apply bindEntries_keeps | with_reducible apply foldResolutions_keeps | with_reducible apply mapSuite_keeps | with_reducible apply setSuiteState_keeps | with_reducible apply unseatAll_keeps | with_reducible apply updSuite_keeps | split | simp only [Keeps.upd]

theorem restoreCheckpoint_keeps {base s : State} (h : Keeps base s) (n : Nat) (c : Checkpoint) :
    Keeps base (restoreCheckpoint s n c) := by
  unfold restoreCheckpoint
  try dsimp only
  repeat' first | with_reducible assumption | with_reducible apply restoreTensors_keeps | with_reducible apply updSuite_keeps | simp only [Keeps.upd]

theorem faultSuite_keeps {base s : State} (h : Keeps base s) (n : Nat) :
    Keeps base (faultSuite s n) := by
  unfold faultSuite
  try dsimp only
  repeat' first | with_reducible assumption | with_reducible apply setSuiteState_keeps | simp only [Keeps.upd]

theorem restorePoint_keeps {base s : State} (h : Keeps base s) (n : Nat) (x : State × Nat) (hx : restorePoint s n = some x) : Keeps base x.1 := by
  unfold restorePoint at hx
  dsimp only at hx
  split at hx
  · cases hx
    exact h
  · split at hx
    · cases hx
      dsimp only
      refine updSuite_keeps ?_ _ _
      exact restoreTensors_keeps h _ _ _
    · obtain ⟨c, -, rfl⟩ := Option.map_eq_some_iff.1 hx
      exact restoreCheckpoint_keeps (replan_keeps h n) _ _

theorem finishStop_keeps {base s : State} (h : Keeps base s) (n : Nat) :
    Keeps base (finishStop s n) := by
  unfold finishStop
  try dsimp only
  repeat' first | with_reducible assumption | with_reducible apply bindEntries_keeps | with_reducible apply dropWindows_keeps | with_reducible apply holdStep_keeps | with_reducible apply restoreWindow_keeps | with_reducible apply setSuiteState_keeps | with_reducible apply settleRetirement_keeps | with_reducible apply unseatAll_keeps | with_reducible apply updSuite_keeps | simp only [Keeps.upd]

theorem stopSaved_keeps {base s : State} (h : Keeps base s) (n : Nat) :
    Keeps base (stopSaved s n) := by
  unfold stopSaved
  try dsimp only
  repeat' first | with_reducible assumption | with_reducible apply bindEntries_keeps | with_reducible apply dropPending_keeps | with_reducible apply holdStep_keeps | with_reducible apply setSuiteState_keeps | with_reducible apply updSuite_keeps | simp only [Keeps.upd]

theorem deliverHere_keeps {base s : State} (h : Keeps base s) (lineage : Bytes) (step t : Nat) (r : ScaleRecord) :
    Keeps base (deliverHere s lineage step t r) := by
  unfold deliverHere
  try dsimp only
  repeat' first | with_reducible assumption | with_reducible apply updStep_keeps | (with_reducible apply Keeps.foldl) | (with_reducible apply Keeps.foldl_fst) | intro _ _ _ | simp only [Keeps.upd]

theorem takeRecords_keeps {base s : State} (h : Keeps base s) (n : Nat) (payload : Bytes) :
    Keeps base (takeRecords s n payload) := by
  unfold takeRecords
  try dsimp only
  repeat' first | with_reducible assumption | with_reducible apply updStep_keeps | (with_reducible apply Keeps.foldl) | (with_reducible apply Keeps.foldl_fst) | intro _ _ _ | simp only [Keeps.upd]

theorem mergeAtTop_keeps {base s : State} (h : Keeps base s) (payload : Bytes) :
    Keeps base (mergeAtTop s payload) := by
  unfold mergeAtTop
  try dsimp only
  repeat' first | with_reducible assumption | with_reducible apply deliverHere_keeps | with_reducible apply sendToModule_keeps | (with_reducible apply Keeps.foldl) | (with_reducible apply Keeps.foldl_fst) | intro _ _ _ | split | simp only [Keeps.upd]

theorem sendRecords_keeps {base s : State} (h : Keeps base s) (n u : Nat) :
    Keeps base (sendRecords s n u) := by
  unfold sendRecords
  try dsimp only
  repeat' first | with_reducible assumption | with_reducible apply mergeAtTop_keeps | with_reducible apply sendToManager_keeps | (with_reducible apply Keeps.foldl) | (with_reducible apply Keeps.foldl_fst) | intro _ _ _ | split | simp only [Keeps.upd]

theorem completeStep_keeps {base s : State} (h : Keeps base s) (n u : Nat) :
    Keeps base (completeStep s n u) := by
  unfold completeStep
  try dsimp only
  repeat' first | with_reducible assumption | with_reducible apply sendRecords_keeps | with_reducible apply setSuite_keeps | split | simp only [Keeps.upd]

theorem startRetrain_keeps {base s : State} (h : Keeps base s) (p kind : Nat) :
    Keeps base (startRetrain s p kind) := by
  unfold startRetrain
  try dsimp only
  repeat' first | with_reducible assumption | with_reducible apply updPort_keeps | split | simp only [Keeps.upd]

theorem rejectFlit_keeps {base s : State} (h : Keeps base s) (p : Nat) :
    Keeps base (rejectFlit s p) := by
  unfold rejectFlit
  try dsimp only
  repeat' first | with_reducible assumption | with_reducible apply send_keeps | with_reducible apply setPort_keeps | simp only [Keeps.upd]

theorem countFec_keeps {base s : State} (h : Keeps base s) (p : Nat) (fec : FecObs) :
    Keeps base (countFec s p fec) := by
  unfold countFec
  try dsimp only
  repeat' first | with_reducible assumption | with_reducible apply portEvents_keeps | with_reducible apply uncorrectable_keeps | with_reducible apply updPort_keeps | split | simp only [Keeps.upd]

theorem idleAfter_keeps {base s : State} (h : Keeps base s) (s0 : State) (p : Nat) : Keeps base (idleAfter s0 s p) := by
  unfold idleAfter
  split
  · exact send_keeps h ..
  · exact h

theorem downPort_keeps {base s : State} (h : Keeps base s) (p : Nat) (record : Bool) :
    Keeps base (downPort s p record) := by
  unfold downPort
  try dsimp only
  repeat' first | with_reducible assumption | with_reducible apply recordFault_keeps | with_reducible apply signRecord_keeps | with_reducible apply updPort_keeps | split | simp only [Keeps.upd]

theorem sendCapability_keeps {base s : State} (h : Keeps base s) (p : Nat) :
    Keeps base (sendCapability s p) := by
  unfold sendCapability
  try dsimp only
  repeat' first | with_reducible assumption | with_reducible apply send_keeps | simp only [Keeps.upd]

theorem resumeTx_keeps {base s : State} (h : Keeps base s) (p : Nat) :
    Keeps base (resumeTx s p) := by
  unfold resumeTx
  try dsimp only
  repeat' first | with_reducible assumption | with_reducible apply drainTx_keeps | with_reducible apply send_keeps | with_reducible apply updPort_keeps | (with_reducible apply Keeps.foldl) | (with_reducible apply Keeps.foldl_fst) | intro _ _ _ | simp only [Keeps.upd]

theorem answerPort_keeps {base s : State} (h : Keeps base s) (p : Nat) :
    Keeps base (answerPort s p) := by
  unfold answerPort
  try dsimp only
  repeat' first | with_reducible assumption | with_reducible apply finish_keeps | (with_reducible apply Keeps.foldl) | (with_reducible apply Keeps.foldl_fst) | intro _ _ _ | split | simp only [Keeps.upd]

theorem joinManagement_keeps {base s : State} (h : Keeps base s) (p : Nat) :
    Keeps base (joinManagement s p) := by
  unfold joinManagement
  try dsimp only
  repeat' first | with_reducible assumption | with_reducible apply updPort_keeps | simp only [Keeps.upd]

theorem takeTable_keeps {base s : State} (h : Keeps base s) (table : Bytes) :
    Keeps base (takeTable s table) := by
  unfold takeTable
  try dsimp only
  repeat' first | with_reducible assumption | with_reducible apply sendMgmt_keeps | split | simp only [Keeps.upd]

theorem sendTable_keeps {base s : State} (h : Keeps base s) :
    Keeps base (sendTable s) := by
  unfold sendTable
  try dsimp only
  repeat' first | with_reducible assumption | with_reducible apply sendMgmt_keeps | split | simp only [Keeps.upd]

theorem setJob_keeps {base s : State} (h : Keeps base s) (no : Nat) (j : Job) :
    Keeps base (setJob s no j) := by
  unfold setJob
  try dsimp only
  repeat' first | with_reducible assumption | simp only [Keeps.upd]

theorem updJob_keeps {base s : State} (h : Keeps base s) (no : Nat) (f : Job → Job) :
    Keeps base (updJob s no f) := by
  unfold updJob
  try dsimp only
  repeat' first | with_reducible assumption | with_reducible apply setJob_keeps | simp only [Keeps.upd]

theorem jobEvent_keeps {base s : State} (h : Keeps base s) (lineage : Bytes) (kind verdict no step rank : Nat) :
    Keeps base (jobEvent s lineage kind verdict no step rank) := by
  unfold jobEvent
  try dsimp only
  repeat' first | with_reducible assumption | with_reducible apply deviceEvent_keeps | with_reducible apply holdEvent_keeps | (with_reducible apply Keeps.foldl) | (with_reducible apply Keeps.foldl_fst) | intro _ _ _ | simp only [Keeps.upd]

theorem addJobRecord_keeps {base s : State} (h : Keeps base s) (no : Nat) (m : Bytes) :
    Keeps base (addJobRecord s no m) := by
  unfold addJobRecord
  try dsimp only
  repeat' first | with_reducible assumption | with_reducible apply setJob_keeps | with_reducible apply updSuite_keeps | (with_reducible apply Keeps.foldl) | (with_reducible apply Keeps.foldl_fst) | intro _ _ _ | simp only [Keeps.upd]

theorem takeJobMap_keeps {base s : State} (h : Keeps base s) (n : Nat) (p : Bytes) :
    Keeps base (takeJobMap s n p) := by
  unfold takeJobMap
  try dsimp only
  repeat' first | with_reducible assumption | with_reducible apply updSuite_keeps | (with_reducible apply Keeps.foldl) | (with_reducible apply Keeps.foldl_fst) | intro _ _ _ | split | simp only [Keeps.upd]

theorem sendJobMaps_keeps {base s : State} (h : Keeps base s) (no : Nat) (lineage : Bytes) :
    Keeps base (sendJobMaps s no lineage) := by
  unfold sendJobMaps
  try dsimp only
  repeat' first | with_reducible assumption | with_reducible apply sendToModule_keeps | with_reducible apply takeJobMap_keeps | (with_reducible apply Keeps.foldl) | (with_reducible apply Keeps.foldl_fst) | intro _ _ _ | split | simp only [Keeps.upd]

theorem haltJob_keeps {base s : State} (h : Keeps base s) (no step : Nat) :
    Keeps base (haltJob s no step) := by
  unfold haltJob
  try dsimp only
  repeat' first | with_reducible assumption | with_reducible apply chooseHalt_keeps | with_reducible apply sendToModule_keeps | with_reducible apply setJob_keeps | (with_reducible apply Keeps.foldl) | (with_reducible apply Keeps.foldl_fst) | intro _ _ _ | split | simp only [Keeps.upd]

theorem takeVerdict_keeps {base s : State} (h : Keeps base s) (n u v : Nat) :
    Keeps base (takeVerdict s n u v) := by
  unfold takeVerdict
  try dsimp only
  repeat' first | with_reducible assumption | with_reducible apply disagree_keeps | with_reducible apply updSuite_keeps | split | simp only [Keeps.upd]

theorem sendVerdict_keeps {base s : State} (h : Keeps base s) (no u v : Nat) :
    Keeps base (sendVerdict s no u v) := by
  unfold sendVerdict
  try dsimp only
  repeat' first | with_reducible assumption | with_reducible apply sendToModule_keeps | with_reducible apply takeVerdict_keeps | (with_reducible apply Keeps.foldl) | (with_reducible apply Keeps.foldl_fst) | intro _ _ _ | split | simp only [Keeps.upd]

theorem stopJob_keeps {base s : State} (h : Keeps base s) (no step cause : Nat) :
    Keeps base (stopJob s no step cause) := by
  unfold stopJob
  try dsimp only
  repeat' first | with_reducible assumption | with_reducible apply addJobRecord_keeps | with_reducible apply haltJob_keeps | with_reducible apply jobEvent_keeps | with_reducible apply sendVerdict_keeps | with_reducible apply updJob_keeps | simp only [Keeps.upd]

theorem leaveJob_keeps {base s : State} (h : Keeps base s) (n : Nat) :
    Keeps base (leaveJob s n) := by
  unfold leaveJob
  try dsimp only
  repeat' first | with_reducible assumption | with_reducible apply beginReset_keeps | with_reducible apply updSuite_keeps | simp only [Keeps.upd]

theorem beginTakeover_keeps {base s : State} (h : Keeps base s) (n : Nat) (p : Bytes) :
    Keeps base (beginTakeover s n p) := by
  unfold beginTakeover
  try dsimp only
  repeat' first | with_reducible assumption | with_reducible apply updSuite_keeps | simp only [Keeps.upd]

theorem sendExpel_keeps {base s : State} (h : Keeps base s) (no step : Nat) (rs : List Nat) (m : Nat × Nat) :
    Keeps base (sendExpel s no step rs m) := by
  unfold sendExpel
  try dsimp only
  repeat' first | with_reducible assumption | with_reducible apply sendToModule_keeps | simp only [Keeps.upd]

theorem sendExpels_keeps {base s : State} (h : Keeps base s) (no step : Nat) (rs : List Nat) :
    Keeps base (sendExpels s no step rs) := by
  unfold sendExpels
  try dsimp only
  repeat' first | with_reducible assumption | with_reducible apply sendExpel_keeps | (with_reducible apply Keeps.foldl) | (with_reducible apply Keeps.foldl_fst) | intro _ _ _ | simp only [Keeps.upd]

theorem sendTakeover_keeps {base s : State} (h : Keeps base s) (no r : Nat) (sp : Nat × Nat) (step source sourceModule gone : Nat) :
    Keeps base (sendTakeover s no r sp step source sourceModule gone) := by
  unfold sendTakeover
  try dsimp only
  repeat' first | with_reducible assumption | with_reducible apply beginTakeover_keeps | with_reducible apply sendToModule_keeps | split | simp only [Keeps.upd]

theorem assignSpare_keeps {base s : State} (h : Keeps base s) (no r step source sourceModule : Nat) :
    Keeps base (assignSpare s no r step source sourceModule) := by
  unfold assignSpare
  try dsimp only
  repeat' first | with_reducible assumption | with_reducible apply jobEvent_keeps | with_reducible apply leaveJob_keeps | with_reducible apply sendTakeover_keeps | with_reducible apply setJob_keeps | with_reducible apply updSuite_keeps | (with_reducible apply Keeps.foldl) | (with_reducible apply Keeps.foldl_fst) | intro _ _ _ | split | simp only [Keeps.upd]

theorem recordRankFailed_keeps {base s : State} (h : Keeps base s) (lineage : Bytes) (r step : Nat) (stopped : Bool) :
    Keeps base (recordRankFailed s lineage r step stopped) := by
  unfold recordRankFailed
  try dsimp only
  repeat' first | with_reducible assumption | with_reducible apply blame_keeps | with_reducible apply recordFault_keeps | with_reducible apply signRecord_keeps | simp only [Keeps.upd]

theorem fromCheckpoint_keeps {base s : State} (h : Keeps base s) (lineage : Bytes) (c : Nat) :
    Keeps base (fromCheckpoint s lineage c) := by
  unfold fromCheckpoint
  try dsimp only
  repeat' first | with_reducible assumption | with_reducible apply updSuite_keeps | (with_reducible apply Keeps.foldl) | (with_reducible apply Keeps.foldl_fst) | intro _ _ _ | simp only [Keeps.upd]

theorem failRank_keeps {base s : State} (h : Keeps base s) (no r step : Nat) (gone : Bool) : Keeps base (failRank s no r step gone) := by
  unfold failRank
  dsimp only
  split
  · exact stopJob_keeps (recordRankFailed_keeps h ..) ..
  · have k := fun c => haltJob_keeps (fromCheckpoint_keeps (recordRankFailed_keeps h (getJob s no).lineage r step false) (getJob s no).lineage c) no step
    refine assignSpare_keeps ?_ ..
    split
    · exact k _
    · exact sendExpel_keeps (k _) ..

theorem processLost_keeps {base s : State} (h : Keeps base s) (no : Nat) :
    Keeps base (processLost s no) := by
  unfold processLost
  try dsimp only
  repeat' first | with_reducible assumption | with_reducible apply failRank_keeps | with_reducible apply updJob_keeps | (with_reducible apply Keeps.foldl) | (with_reducible apply Keeps.foldl_fst) | intro _ _ _ | split | simp only [Keeps.upd]

theorem haltInPlace_keeps {base s : State} (h : Keeps base s) (no step : Nat) :
    Keeps base (haltInPlace s no step) := by
  unfold haltInPlace
  try dsimp only
  repeat' first | with_reducible assumption | with_reducible apply haltJob_keeps | with_reducible apply updSuite_keeps | (with_reducible apply Keeps.foldl) | (with_reducible apply Keeps.foldl_fst) | intro _ _ _ | simp only [Keeps.upd]

theorem expelRanks_keeps {base s : State} (h : Keeps base s) (no step : Nat) (rs : List Nat) (source : Nat → Nat) :
    Keeps base (expelRanks s no step rs source) := by
  unfold expelRanks
  try dsimp only
  repeat' first | with_reducible assumption | with_reducible apply assignSpare_keeps | with_reducible apply haltInPlace_keeps | with_reducible apply sendExpels_keeps | with_reducible apply stopJob_keeps | (with_reducible apply Keeps.foldl) | (with_reducible apply Keeps.foldl_fst) | intro _ _ _ | split | simp only [Keeps.upd]

theorem decideVote_keeps {base s : State} (h : Keeps base s) (no : Nat) : Keeps base (decideVote s no) := by
  unfold decideVote
  extract_lets j u gs vs out sp again v s1 s2 s3 idx r1 s4
  have k3 : Keeps base s3 := jobEvent_keeps (addJobRecord_keeps (setJob_keeps h ..) ..) ..
  have k4 : Keeps base s4 := by
    by_cases e : sp = []
    · rw [show s4 = s3 from if_pos e]
      exact k3
    · rw [show s4 = _ from if_neg e]
      exact signRecord_keeps (recordFault_keeps (blame_keeps k3 ..) ..) ..
  clear_value s4 v
  repeat' first | with_reducible exact k4 | with_reducible apply sendVerdict_keeps | with_reducible apply haltJob_keeps | with_reducible apply expelRanks_keeps | with_reducible apply stopJob_keeps | with_reducible apply jobEvent_keeps | split

theorem receiveVote_keeps {base s : State} (h : Keeps base s) (p : Bytes) :
    Keeps base (receiveVote s p) := by
  unfold receiveVote
  try dsimp only
  repeat' first | with_reducible assumption | with_reducible apply decideVote_keeps | with_reducible apply setJob_keeps | split | simp only [Keeps.upd]

theorem tryVote_keeps {base s : State} (h : Keeps base s) (n : Nat) :
    Keeps base (tryVote s n) := by
  unfold tryVote
  try dsimp only
  repeat' first | with_reducible assumption | with_reducible apply receiveVote_keeps | with_reducible apply sendToManager_keeps | with_reducible apply updSuite_keeps | split | simp only [Keeps.upd]

theorem stopAtGate_keeps {base s : State} (h : Keeps base s) (n : Nat) :
    Keeps base (stopAtGate s n) := by
  unfold stopAtGate
  try dsimp only
  repeat' first | with_reducible assumption | with_reducible apply setSuiteState_keeps | with_reducible apply updSuite_keeps | split | simp only [Keeps.upd]

theorem stopForLost_keeps {base s : State} (h : Keeps base s) (n : Nat) :
    Keeps base (stopForLost s n) := by
  unfold stopForLost
  try dsimp only
  repeat' first | with_reducible assumption | with_reducible apply stopAtGate_keeps | with_reducible apply stopSaved_keeps | split | simp only [Keeps.upd]

theorem writeTensors_keeps {base s : State} (h : Keeps base s) (n : Nat) (im : Image) (data : List (Nat × Bytes)) :
    Keeps base (writeTensors s n im data) := by
  unfold writeTensors
  try dsimp only
  repeat' first | with_reducible assumption | with_reducible apply suiteSetBytes_keeps | (with_reducible apply Keeps.foldl) | (with_reducible apply Keeps.foldl_fst) | intro _ _ _ | split | simp only [Keeps.upd]

theorem takeoverDone_keeps {base s : State} (h : Keeps base s) (no r step : Nat) :
    Keeps base (takeoverDone s no r step) := by
  unfold takeoverDone
  try dsimp only
  repeat' first | with_reducible assumption | with_reducible apply addJobRecord_keeps | with_reducible apply jobEvent_keeps | with_reducible apply sendJobMaps_keeps | with_reducible apply setJob_keeps | with_reducible apply updSuite_keeps | (with_reducible apply Keeps.foldl) | (with_reducible apply Keeps.foldl_fst) | intro _ _ _ | simp only [Keeps.upd]

theorem takeoverFailed_keeps {base s : State} (h : Keeps base s) (no r step source : Nat) :
    Keeps base (takeoverFailed s no r step source) := by
  unfold takeoverFailed
  try dsimp only
  repeat' first | with_reducible assumption | with_reducible apply haltJob_keeps | with_reducible apply jobEvent_keeps | with_reducible apply sendTakeover_keeps | with_reducible apply sendVerdict_keeps | with_reducible apply stopJob_keeps | split | simp only [Keeps.upd]

theorem finishTakeover_keeps {base s : State} (h : Keeps base s) (n : Nat) (im : Image) (p : Bytes) (data : List (Nat × Bytes)) (scale : Bytes) :
    Keeps base (finishTakeover s n im p data scale) := by
  unfold finishTakeover
  try dsimp only
  repeat' first | with_reducible assumption | with_reducible apply restoreCheckpoint_keeps | with_reducible apply updSuite_keeps | with_reducible apply writeTensors_keeps | split | simp only [Keeps.upd]

theorem takeoverLost_keeps {base s : State} (h : Keeps base s) (no r step source sourceModule : Nat) :
    Keeps base (takeoverLost s no r step source sourceModule) := by
  unfold takeoverLost
  try dsimp only
  repeat' first | with_reducible assumption | with_reducible apply assignSpare_keeps | with_reducible apply stopJob_keeps | split | simp only [Keeps.upd]

theorem answerTakeover_keeps {base s : State} (h : Keeps base s) (n status : Nat) :
    Keeps base (answerTakeover s n status) := by
  unfold answerTakeover
  try dsimp only
  repeat' first | with_reducible assumption | with_reducible apply finish_keeps | (with_reducible apply Keeps.foldl) | (with_reducible apply Keeps.foldl_fst) | intro _ _ _ | simp only [Keeps.upd]

theorem noteStepComplete_keeps {base s : State} (h : Keeps base s) (n u : Nat) :
    Keeps base (noteStepComplete s n u) := by
  unfold noteStepComplete
  try dsimp only
  repeat' first | with_reducible assumption | with_reducible apply completeStep_keeps | with_reducible apply settleCheckpoints_keeps | with_reducible apply tryVote_keeps | split | simp only [Keeps.upd]

theorem noteBoundary_keeps {base s : State} (h : Keeps base s) (n : Nat) :
    Keeps base (noteBoundary s n) := by
  unfold noteBoundary
  try dsimp only
  repeat' first | with_reducible assumption | with_reducible apply updSuite_keeps | split | simp only [Keeps.upd]

theorem endMark_keeps {base s : State} (h : Keeps base s) (t : Nat) (k : KStream) (word : Nat) :
    Keeps base (endMark s t k word) := by
  unfold endMark
  try dsimp only
  repeat' first | with_reducible assumption | with_reducible apply faultStream_keeps | with_reducible apply noteBoundary_keeps | with_reducible apply noteStepComplete_keeps | with_reducible apply setStream_keeps | split | simp only [Keeps.upd]

theorem finishMark_keeps {base s : State} (h : Keeps base s) (t : Nat) (k : KStream) (last : Bool) (duration kernel word : Nat) :
    Keeps base (finishMark s t k last duration kernel word) := by
  unfold finishMark
  try dsimp only
  repeat' first | with_reducible assumption | with_reducible apply closeKernel_keeps | with_reducible apply endMark_keeps | with_reducible apply noteBoundary_keeps | with_reducible apply openKernel_keeps | with_reducible apply setStream_keeps | split | simp only [Keeps.upd]

theorem popEvent_keeps {base s : State} (h : Keeps base s) (id : Nat) :
    Keeps base (popEvent s id) := by
  unfold popEvent
  try dsimp only
  repeat' first | with_reducible assumption | simp only [Keeps.upd]

theorem seatEval_keeps {base s : State} (h : Keeps base s) (n t v : Nat) (im : Image) (w : EvalWindow) :
    Keeps base (seatEval s n t v im w) := by
  unfold seatEval
  try dsimp only
  repeat' first | with_reducible assumption | with_reducible apply setTile_keeps | split | simp only [Keeps.upd]

theorem stopBellwaits_keeps {base s : State} (h : Keeps base s) (n : Nat) :
    Keeps base (stopBellwaits s n) := by
  unfold stopBellwaits
  try dsimp only
  repeat' first | with_reducible assumption | split | simp only [Keeps.upd]

theorem requestPreempt_keeps {base s : State} (h : Keeps base s) (n : Nat) :
    Keeps base (requestPreempt s n) := by
  unfold requestPreempt
  try dsimp only
  repeat' first | with_reducible assumption | with_reducible apply stopBellwaits_keeps | with_reducible apply updSuite_keeps | simp only [Keeps.upd]

theorem requestResume_keeps {base s : State} (h : Keeps base s) (n : Nat) :
    Keeps base (requestResume s n) := by
  unfold requestResume
  try dsimp only
  repeat' first | with_reducible assumption | with_reducible apply updSuite_keeps | simp only [Keeps.upd]

theorem gangSettled_keeps {base s : State} (h : Keeps base s) (n action id : Nat) :
    Keeps base (gangSettled s n action id) := by
  unfold gangSettled
  try dsimp only
  repeat' first | with_reducible assumption | with_reducible apply finish_keeps | with_reducible apply gatherResult_keeps | (with_reducible apply Keeps.foldl) | (with_reducible apply Keeps.foldl_fst) | intro _ _ _ | split | simp only [Keeps.upd]

theorem release_keeps {base s : State} (h : Keeps base s) (t : Nat) (k : KStream) (n : Nat) :
    Keeps base (release s t k n) := by
  unfold release
  try dsimp only
  repeat' first | with_reducible assumption | with_reducible apply passGate_keeps | with_reducible apply resumeInMark_keeps | with_reducible apply setStream_keeps | split | simp only [Keeps.upd]

theorem noteStops_keeps {base s : State} (h : Keeps base s) (n : Nat) :
    Keeps base (noteStops s n) := by
  unfold noteStops
  try dsimp only
  repeat' first | with_reducible assumption | split | simp only [Keeps.upd]

theorem finishPreempt_keeps {base s : State} (h : Keeps base s) (n : Nat) :
    Keeps base (finishPreempt s n) := by
  unfold finishPreempt
  try dsimp only
  repeat' first | with_reducible assumption | with_reducible apply noteStops_keeps | with_reducible apply requestResume_keeps | with_reducible apply setSuite_keeps | with_reducible apply setSuiteState_keeps | with_reducible apply settleRetirement_keeps | with_reducible apply stopSaved_keeps | with_reducible apply unseatAll_keeps | split | simp only [Keeps.upd]

theorem wakeStream_keeps {base s : State} (h : Keeps base s) (t : Nat) (k : KStream) :
    Keeps base (wakeStream s t k) := by
  unfold wakeStream
  try dsimp only
  repeat' first | with_reducible assumption | with_reducible apply resumeInMark_keeps | with_reducible apply setStream_keeps | split | simp only [Keeps.upd]

theorem restoreSuite_keeps {base s0 : State} (h : Keeps base s0) (n : Nat) :
    Keeps base (restoreSuite s0 n) := by
  unfold restoreSuite
  try dsimp only
  repeat' first | with_reducible assumption | with_reducible apply addRunRecord_keeps | with_reducible apply beginSlice_keeps | with_reducible apply bindEntries_keeps | with_reducible apply mapSuite_keeps | with_reducible apply replan_keeps | with_reducible apply seatEval_keeps | with_reducible apply setSuiteState_keeps | with_reducible apply updSuite_keeps | with_reducible apply wakeStream_keeps | (with_reducible apply Keeps.foldl) | (with_reducible apply Keeps.foldl_fst) | intro _ _ _ | split | simp only [Keeps.upd]

theorem refreshMirror_keeps {base s : State} (h : Keeps base s) (l : Nat) :
    Keeps base (refreshMirror s l) := by
  unfold refreshMirror
  try dsimp only
  repeat' first | with_reducible assumption | with_reducible apply updLantern_keeps | (with_reducible apply Keeps.foldl) | (with_reducible apply Keeps.foldl_fst) | intro _ _ _ | split | simp only [Keeps.upd]

theorem updUse_keeps {base s : State} (h : Keeps base s) (l : Nat) (f : LanternUse → LanternUse) :
    Keeps base (updUse s l f) := by
  unfold updUse
  try dsimp only
  repeat' first | with_reducible assumption | simp only [Keeps.upd]

theorem setLanternState_keeps {base s : State} (h : Keeps base s) (l st : Nat) :
    Keeps base (setLanternState s l st) := by
  unfold setLanternState
  try dsimp only
  repeat' first | with_reducible assumption | with_reducible apply deviceEvent_keeps | with_reducible apply refreshMirror_keeps | with_reducible apply updLantern_keeps | with_reducible apply updPort_keeps | (with_reducible apply Keeps.foldl) | (with_reducible apply Keeps.foldl_fst) | intro _ _ _ | split | simp only [Keeps.upd]

theorem countSwitch_keeps {base s : State} (h : Keeps base s) (p : Nat) :
    Keeps base (countSwitch s p) := by
  unfold countSwitch
  try dsimp only
  repeat' first | with_reducible assumption | with_reducible apply updUse_keeps | simp only [Keeps.upd]

theorem loseFeed_keeps {base s : State} (h : Keeps base s) (p : Nat) :
    Keeps base (loseFeed s p) := by
  unfold loseFeed
  try dsimp only
  repeat' first | with_reducible assumption | with_reducible apply countSwitch_keeps | with_reducible apply downPort_keeps | with_reducible apply updPort_keeps | split | simp only [Keeps.upd]

theorem darken_keeps {base s : State} (h : Keeps base s) (l st : Nat) :
    Keeps base (darken s l st) := by
  unfold darken
  try dsimp only
  repeat' first | with_reducible assumption | with_reducible apply loseFeed_keeps | with_reducible apply setLanternState_keeps | (with_reducible apply Keeps.foldl) | (with_reducible apply Keeps.foldl_fst) | intro _ _ _ | split | simp only [Keeps.upd]

theorem takeFeeds_keeps {base s : State} (h : Keeps base s) :
    Keeps base (takeFeeds s) := by
  unfold takeFeeds
  try dsimp only
  repeat' first | with_reducible assumption | with_reducible apply startRetrain_keeps | with_reducible apply updPort_keeps | (with_reducible apply Keeps.foldl) | (with_reducible apply Keeps.foldl_fst) | intro _ _ _ | split | simp only [Keeps.upd]

theorem lanternEvent_keeps {base s : State} (h : Keeps base s) (l cause : Nat) :
    Keeps base (lanternEvent s l cause) := by
  unfold lanternEvent
  try dsimp only
  repeat' first | with_reducible assumption | with_reducible apply recordFault_keeps | with_reducible apply signRecord_keeps | with_reducible apply updUse_keeps | split | simp only [Keeps.upd]

theorem answerLantern_keeps {base s : State} (h : Keeps base s) (l : Nat) :
    Keeps base (answerLantern s l) := by
  unfold answerLantern
  try dsimp only
  repeat' first | with_reducible assumption | with_reducible apply finish_keeps | (with_reducible apply Keeps.foldl) | (with_reducible apply Keeps.foldl_fst) | intro _ _ _ | simp only [Keeps.upd]

theorem checkWiring_keeps {base s : State} (h : Keeps base s) (l : Nat) (rose : List Nat) :
    Keeps base (checkWiring s l rose) := by
  unfold checkWiring
  try dsimp only
  repeat' first | with_reducible assumption | with_reducible apply updPort_keeps | (with_reducible apply Keeps.foldl) | (with_reducible apply Keeps.foldl_fst) | intro _ _ _ | split | simp only [Keeps.upd]

theorem enterLevels_keeps {base s : State} (h : Keeps base s) (l : Nat) (levels : List Int) :
    Keeps base (enterLevels s l levels) := by
  unfold enterLevels
  try dsimp only
  repeat' first | with_reducible assumption | with_reducible apply updLantern_keeps | with_reducible apply updPort_keeps | (with_reducible apply Keeps.foldl) | (with_reducible apply Keeps.foldl_fst) | intro _ _ _ | split | simp only [Keeps.upd]

theorem judge_keeps {base s : State} (h : Keeps base s) (l hours : Nat) :
    Keeps base (judge s l hours) := by
  unfold judge
  try dsimp only [draw]
  repeat' first | with_reducible assumption | with_reducible apply darken_keeps | with_reducible apply draw_keeps | with_reducible apply lanternEvent_keeps | with_reducible apply recordFault_keeps | with_reducible apply refreshMirror_keeps | with_reducible apply setLanternState_keeps | with_reducible apply signRecord_keeps | with_reducible apply updLantern_keeps | with_reducible apply updUse_keeps | (with_reducible apply Keeps.foldl) | (with_reducible apply Keeps.foldl_fst) | intro _ _ _ | split | simp only [Keeps.upd]

theorem setBellState_keeps {base s : State} (h : Keeps base s) (x : BellState) :
    Keeps base (setBellState s x) := by
  unfold setBellState
  try dsimp only
  repeat' first | with_reducible assumption | with_reducible apply deviceEvent_keeps | split | simp only [Keeps.upd]

theorem startBelfry_keeps {base s : State} (h : Keeps base s) :
    Keeps base (startBelfry s) := by
  unfold startBelfry
  try dsimp only
  repeat' first | with_reducible assumption | with_reducible apply setBellState_keeps | split | simp only [Keeps.upd]

theorem stopBelfry_keeps {base s : State} (h : Keeps base s) :
    Keeps base (stopBelfry s) := by
  unfold stopBelfry
  try dsimp only
  repeat' first | with_reducible assumption | with_reducible apply setBellState_keeps | simp only [Keeps.upd]

theorem countStep_keeps {base s : State} (h : Keeps base s) (c : Nat) : Keeps base (countStep s c) :=
 by
  unfold countStep
  refine ⟨h.pending, h.fuse, h.hbm, h.host, fun k => ?_⟩
  dsimp only
  have := SMap.sorted_mapVals ?f _ (h.suites k)
  exact this

theorem followSync_keeps {base s : State} (h : Keeps base s) (record : Bytes) (edge : Int) :
    Keeps base (followSync s record edge) := by
  unfold followSync
  try dsimp only
  repeat' first | with_reducible assumption | with_reducible apply countStep_keeps | with_reducible apply setBellState_keeps | split | simp only [Keeps.upd]

theorem relaySync_keeps {base s : State} (h : Keeps base s) (port : Nat) (record : Bytes) (time : Nat) :
    Keeps base (relaySync s port record time) := by
  unfold relaySync
  try dsimp only
  repeat' first | with_reducible assumption | with_reducible apply sendControl_keeps | (with_reducible apply Keeps.foldl) | (with_reducible apply Keeps.foldl_fst) | intro _ _ _ | split | simp only [Keeps.upd]

theorem unitRecords_keeps {base s : State} (h : Keeps base s) (cls i cause opcode : Nat) :
    Keeps base (unitRecords s cls i cause opcode) := by
  unfold unitRecords
  try dsimp only
  repeat' first | with_reducible assumption | with_reducible apply confirmFault_keeps | with_reducible apply recordFault_keeps | with_reducible apply signRecord_keeps | (with_reducible apply Keeps.foldl) | (with_reducible apply Keeps.foldl_fst) | intro _ _ _ | split | simp only [Keeps.upd]

theorem absorbReaching_keeps {base s : State} (h : Keeps base s) (f : Nat → Bool) :
    Keeps base (absorbReaching s f) := by
  unfold absorbReaching
  try dsimp only
  repeat' first | with_reducible assumption | with_reducible apply absorbTxn_keeps | (with_reducible apply Keeps.foldl) | (with_reducible apply Keeps.foldl_fst) | intro _ _ _ | simp only [Keeps.upd]

theorem answerUnits_keeps {base s : State} (h : Keeps base s) :
    Keeps base (answerUnits s) := by
  unfold answerUnits
  try dsimp only [done]
  repeat' first | with_reducible assumption | with_reducible apply finish_keeps | (with_reducible apply Keeps.foldl) | (with_reducible apply Keeps.foldl_fst) | intro _ _ _ | split | simp only [Keeps.upd]

theorem settlePorts_keeps {base s : State} (h : Keeps base s) :
    Keeps base (settlePorts s) := by
  unfold settlePorts
  try dsimp only
  repeat' first | with_reducible assumption | with_reducible apply downPort_keeps | with_reducible apply updPort_keeps | (with_reducible apply Keeps.foldl) | (with_reducible apply Keeps.foldl_fst) | intro _ _ _ | split | simp only [Keeps.upd]

theorem disableUnit_keeps {base s : State} (h : Keeps base s) (cls i : Nat) :
    Keeps base (disableUnit s cls i) := by
  unfold disableUnit
  try dsimp only
  repeat' first | with_reducible assumption | with_reducible apply disableEntry_keeps | with_reducible apply haltTile_keeps | with_reducible apply settlePorts_keeps | with_reducible apply updPort_keeps | with_reducible apply updTile_keeps | (with_reducible apply Keeps.foldl) | (with_reducible apply Keeps.foldl_fst) | intro _ _ _ | split | simp only [Keeps.upd]

theorem enableUnit_keeps {base s : State} (h : Keeps base s) (cls i : Nat) :
    Keeps base (enableUnit s cls i) := by
  unfold enableUnit
  try dsimp only
  repeat' first | with_reducible assumption | with_reducible apply startRetrain_keeps | with_reducible apply takeFeeds_keeps | with_reducible apply updPort_keeps | with_reducible apply updTile_keeps | split | simp only [Keeps.upd]

theorem beginTileReset_keeps {base s : State} (h : Keeps base s) (t : Nat) :
    Keeps base (beginTileReset s t) := by
  unfold beginTileReset
  try dsimp only
  repeat' first | with_reducible assumption | with_reducible apply absorbEntry_keeps | with_reducible apply haltTile_keeps | with_reducible apply notifyPeer_keeps | with_reducible apply updTile_keeps | (with_reducible apply Keeps.foldl) | (with_reducible apply Keeps.foldl_fst) | intro _ _ _ | split | simp only [Keeps.upd]

theorem dropLatches_keeps {base s : State} (h : Keeps base s) (k size : Nat) :
    Keeps base (dropLatches s k size) := by
  unfold dropLatches
  try dsimp only
  repeat' first | with_reducible assumption | simp only [Keeps.upd]

theorem endTileReset_keeps {base s : State} (h : Keeps base s) (t : Nat) :
    Keeps base (endTileReset s t) := by
  unfold endTileReset
  try dsimp only
  repeat' first | with_reducible assumption | with_reducible apply dropLatches_keeps | with_reducible apply updTile_keeps | simp only [Keeps.upd]

theorem beginWingReset_keeps {base s : State} (h : Keeps base s) (w : Nat) :
    Keeps base (beginWingReset s w) := by
  unfold beginWingReset
  try dsimp only
  repeat' first | with_reducible assumption | with_reducible apply beginTileReset_keeps | with_reducible apply updWing_keeps | (with_reducible apply Keeps.foldl) | (with_reducible apply Keeps.foldl_fst) | intro _ _ _ | simp only [Keeps.upd]

theorem atticFault_keeps {base s : State} (h : Keeps base s) (f : Attic → Attic) :
    Keeps base (atticFault s f) := by
  unfold atticFault
  try dsimp only
  repeat' first | with_reducible assumption | simp only [Keeps.upd]

theorem readAttic_keeps {base s : State} (h : Keeps base s) :
    Keeps base (readAttic s) := by
  unfold readAttic
  try dsimp only
  repeat' first | with_reducible assumption | split | simp only [Keeps.upd]

theorem managementLane_keeps {base s : State} (h : Keeps base s) :
    Keeps base (managementLane s) := by
  unfold managementLane
  try dsimp only
  repeat' first | with_reducible assumption | with_reducible apply updPort_keeps | split | simp only [Keeps.upd]

theorem strapRole_keeps {base s : State} (h : Keeps base s) :
    Keeps base (strapRole s) := by
  unfold strapRole
  try dsimp only
  repeat' first | with_reducible assumption | split | simp only [Keeps.upd]

theorem darkLanterns_keeps {base s : State} (h : Keeps base s) :
    Keeps base (darkLanterns s) := by
  unfold darkLanterns
  try dsimp only
  repeat' first | with_reducible assumption | split | simp only [Keeps.upd]

theorem blocksReset_keeps {base s : State} (h : Keeps base s) (warm sleep : Bool) : Keeps base (blocksReset s warm sleep) := by
  unfold blocksReset
  extract_lets meters keepTile keepWing keepRing b1 b2 b3 b4 b5 s1 retiring s1' s2 s3 s4 c
  have k1 : Keeps base s1 := ⟨h.pending, h.fuse, fun k => by
    show Memory.wf (if warm then s.hbm else []) = true
    split
    · exact h.hbm k
    · rfl, h.host, fun _ => rfl⟩
  have k1' : Keeps base s1' := by
    by_cases e : retiring = [] ∧ s.attic.pcsMarked = []
    · rw [show s1' = s1 from if_pos e]
      exact k1
    · rw [show s1' = _ from if_neg e]
      exact atticFault_keeps k1 _
  have k3 : Keeps base s3 := strapRole_keeps (stopBelfry_keeps k1')
  have k4 : Keeps base s4 := by
    show Keeps base (if warm then s3 else darkLanterns s3)
    split
    · exact k3
    · exact darkLanterns_keeps k3
  exact managementLane_keeps ((Keeps.upd ..).2 k4)

theorem beginDeviceReset_keeps {base s : State} (h : Keeps base s) (level cause : Nat) :
    Keeps base (beginDeviceReset s level cause) := by
  unfold beginDeviceReset
  try dsimp only
  repeat' first | with_reducible assumption | with_reducible apply haltSuiteTiles_keeps | with_reducible apply setDev_keeps | (with_reducible apply Keeps.foldl) | (with_reducible apply Keeps.foldl_fst) | intro _ _ _ | split | simp only [Keeps.upd]

theorem beginWaking_keeps {base s0 : State} (h : Keeps base s0) (full warm : Bool) :
    Keeps base (beginWaking s0 full warm) := by
  unfold beginWaking
  try dsimp only
  repeat' first | with_reducible assumption | with_reducible apply setDev_keeps | with_reducible apply strapRole_keeps | with_reducible apply updTile_keeps | (with_reducible apply Keeps.foldl) | (with_reducible apply Keeps.foldl_fst) | intro _ _ _ | split | simp only [Keeps.upd]

theorem failBringup_keeps {base s : State} (h : Keeps base s) (code : Nat) :
    Keeps base (failBringup s code) := by
  unfold failBringup
  try dsimp only
  repeat' first | with_reducible assumption | with_reducible apply atticFault_keeps | with_reducible apply setDev_keeps | split | simp only [Keeps.upd]

theorem emptyAttic_keeps {base s : State} (h : Keeps base s) :
    Keeps base (emptyAttic s) := by
  unfold emptyAttic
  try dsimp only
  repeat' first | with_reducible assumption | with_reducible apply atticFault_keeps | simp only [Keeps.upd]

theorem wakeDevice_keeps {base s : State} (h : Keeps base s) (full : Bool) :
    Keeps base (wakeDevice s full) := by
  unfold wakeDevice
  try dsimp only
  repeat' first | with_reducible assumption | with_reducible apply beginWaking_keeps | with_reducible apply blocksReset_keeps | simp only [Keeps.upd]

theorem resetDevice_keeps {base s : State} (h : Keeps base s) (level cause : Nat) :
    Keeps base (resetDevice s level cause) := by
  unfold resetDevice
  try dsimp only
  repeat' first | with_reducible assumption | with_reducible apply beginDeviceReset_keeps | with_reducible apply emptyAttic_keeps | split | simp only [Keeps.upd]

theorem enterTesting_keeps {base s : State} (h : Keeps base s) (slot : Nat) :
    Keeps base (enterTesting s slot) := by
  unfold enterTesting
  try dsimp only
  repeat' first | with_reducible assumption | with_reducible apply setDev_keeps | with_reducible apply startBelfry_keeps | with_reducible apply takeFeeds_keeps | split | simp only [Keeps.upd]

theorem recordDown_keeps {base s : State} (h : Keeps base s) :
    Keeps base (recordDown s) := by
  unfold recordDown
  try dsimp only
  repeat' first | with_reducible assumption | with_reducible apply recordFault_keeps | with_reducible apply signRecord_keeps | with_reducible apply updateFault_keeps | split | simp only [Keeps.upd]

theorem settleReady_keeps {base s : State} (h : Keeps base s) :
    Keeps base (settleReady s) := by
  unfold settleReady
  try dsimp only [draw]
  repeat' first | with_reducible assumption | with_reducible apply atticFault_keeps | with_reducible apply draw_keeps | with_reducible apply recordDown_keeps | with_reducible apply sendTable_keeps | with_reducible apply setDev_keeps | split | simp only [Keeps.upd]

theorem applyRepairs_keeps {base s : State} (h : Keeps base s) (wing : Nat) :
    Keeps base (applyRepairs s wing) := by
  unfold applyRepairs
  try dsimp only
  repeat' first | with_reducible assumption | with_reducible apply updWing_keeps | (with_reducible apply Keeps.foldl) | (with_reducible apply Keeps.foldl_fst) | intro _ _ _ | simp only [Keeps.upd]

theorem testRow_keeps {base s : State} (h : Keeps base s) (pc row : Nat) :
    Keeps base (testRow s pc row) := by
  unfold testRow
  try dsimp only
  repeat' first | with_reducible assumption | with_reducible apply atticFault_keeps | with_reducible apply pcEvent_keeps | with_reducible apply recordFault_keeps | with_reducible apply signRecord_keeps | with_reducible apply updWing_keeps | split | simp only [Keeps.upd]

theorem answerKar_keeps {base s : State} (h : Keeps base s) (t : Nat) (passed : Bool) :
    Keeps base (answerKar s t passed) := by
  unfold answerKar
  try dsimp only
  repeat' first | with_reducible assumption | with_reducible apply finish_keeps | with_reducible apply updRing_keeps | (with_reducible apply Keeps.foldl) | (with_reducible apply Keeps.foldl_fst) | intro _ _ _ | split | simp only [Keeps.upd]

theorem cdcRecord_keeps {base s : State} (h : Keeps base s) (cls i domain : Nat) :
    Keeps base (cdcRecord s cls i domain) := by
  unfold cdcRecord
  try dsimp only
  repeat' first | with_reducible assumption | with_reducible apply recordFault_keeps | with_reducible apply signRecord_keeps | simp only [Keeps.upd]

theorem poisonHolders_keeps {base s : State} (h : Keeps base s) (cls i idx : Nat) :
    Keeps base (poisonHolders s cls i idx) := by
  unfold poisonHolders
  try dsimp only
  repeat' first | with_reducible assumption | with_reducible apply confirmFault_keeps | (with_reducible apply Keeps.foldl) | (with_reducible apply Keeps.foldl_fst) | intro _ _ _ | split | simp only [Keeps.upd]

theorem supplyEventMv_keeps {base s : State} (h : Keeps base s) (kind mv : Nat) :
    Keeps base (supplyEventMv s kind mv) := by
  unfold supplyEventMv
  try dsimp only
  repeat' first | with_reducible assumption | with_reducible apply deviceEvent_keeps | simp only [Keeps.upd]

theorem sampleInput_keeps {base s : State} (h : Keeps base s) (mv : Nat) :
    Keeps base (sampleInput s mv) := by
  unfold sampleInput
  try dsimp only
  repeat' first | with_reducible assumption | simp only [Keeps.upd]

theorem sampleRaw_keeps {base s : State} (h : Keeps base s) (mv : Nat) :
    Keeps base (sampleRaw s mv) := by
  unfold sampleRaw
  try dsimp only
  repeat' first | with_reducible assumption | split | simp only [Keeps.upd]

theorem railsDown_keeps {base s : State} (h : Keeps base s) (kind low : Nat) : Keeps base (railsDown s kind low) := by
  unfold railsDown
  extract_lets from_ s1 s2 c
  have k1 : Keeps base s1 := atticFault_keeps h _
  have k2 : Keeps base s2 := blocksReset_keeps (s := { s1 with hbm := [] }) ⟨k1.pending, k1.fuse, fun _ => rfl, k1.host, k1.suites⟩ ..
  exact (Keeps.upd ..).2 k2

theorem readSensor_keeps {base s : State} (h : Keeps base s) (n : Nat) (t : Int) :
    Keeps base (readSensor s n t) := by
  unfold readSensor
  try dsimp only
  repeat' first | with_reducible assumption | (with_reducible apply Keeps.foldl) | (with_reducible apply Keeps.foldl_fst) | intro _ _ _ | split | simp only [Keeps.upd]

theorem updGov_keeps {base s : State} (h : Keeps base s) (t : Nat) (f : Governor → Governor) :
    Keeps base (updGov s t f) := by
  unfold updGov
  try dsimp only
  repeat' first | with_reducible assumption | with_reducible apply updTile_keeps | simp only [Keeps.upd]

theorem postWaiting_keeps {base s : State} (h : Keeps base s) (src : Src) :
    Keeps base (postWaiting s src) := by
  unfold postWaiting
  try dsimp only
  repeat' first | with_reducible assumption | with_reducible apply postBytes_keeps | with_reducible apply updRing_keeps | (with_reducible apply Keeps.foldl) | (with_reducible apply Keeps.foldl_fst) | intro _ _ _ | split | simp only [Keeps.upd]

theorem receivePacket_keeps {base s : State} (h : Keeps base s) (src : Src) (raw : Bytes) :
    Keeps base (receivePacket s src raw) := by
  unfold receivePacket
  try dsimp only
  repeat' first | with_reducible assumption | with_reducible apply postWaiting_keeps | with_reducible apply updRing_keeps | split | simp only [Keeps.upd]

theorem readSlots_keeps {base s : State} (h : Keeps base s) (f fuel : Nat) : Keeps base (readSlots s f fuel) := by
  induction fuel generalizing s with
  | zero => exact h
  | succ fuel ih =>
    rw [readSlots]
    extract_lets r
    split
    · exact h
    · rename_i n _
      clear_value n
      split
      · exact stopRing_keeps h ..
      · exact ih (receivePacket_keeps (updRing_keeps h ..) ..)

theorem ringTail_keeps {base s : State} (h : Keeps base s) (f value : Nat) :
    Keeps base (ringTail s f value) := by
  unfold ringTail
  try dsimp only
  repeat' first | with_reducible assumption | with_reducible apply readSlots_keeps | with_reducible apply stopRing_keeps | with_reducible apply updRing_keeps | split | simp only [Keeps.upd]

theorem ringHead_keeps {base s : State} (h : Keeps base s) (f value : Nat) :
    Keeps base (ringHead s f value) := by
  unfold ringHead
  try dsimp only
  repeat' first | with_reducible assumption | with_reducible apply postWaiting_keeps | with_reducible apply stopRing_keeps | with_reducible apply updRing_keeps | split | simp only [Keeps.upd]

theorem ringOn_keeps {base s : State} (h : Keeps base s) (f value : Nat) :
    Keeps base (ringOn s f value) := by
  unfold ringOn
  try dsimp only
  repeat' first | with_reducible assumption | with_reducible apply updRing_keeps | split | simp only [Keeps.upd]

theorem ringOff_keeps {base s : State} (h : Keeps base s) (f value : Nat) :
    Keeps base (ringOff s f value) := by
  unfold ringOff
  try dsimp only
  repeat' first | with_reducible assumption | with_reducible apply updRing_keeps | simp only [Keeps.upd]

theorem keepOr_keeps {base s t : State} (h : Keeps base s) (k : Keeps base t) (f addr value : Nat) : Keeps base (keepOr s f addr value t) := by
  unfold keepOr
  split
  · exact (Keeps.upd ..).2 h
  · exact k

theorem writeReady_keeps {base s : State} (h : Keeps base s) (n value : Nat) :
    Keeps base (writeReady s n value) := by
  unfold writeReady
  try dsimp only
  repeat' first | with_reducible assumption | with_reducible apply updSuite_keeps | simp only [Keeps.upd]

theorem done_keeps {base s : State} (h : Keeps base s) (body : Bytes) :
    Keeps base (done s body).1 := by
  unfold done
  try dsimp only
  repeat' first | with_reducible assumption | simp only [Keeps.upd]

theorem deny_keeps {base s : State} (h : Keeps base s) (status detail : Nat) :
    Keeps base (deny s status detail).1 := by
  unfold deny
  try dsimp only
  repeat' first | with_reducible assumption | simp only [Keeps.upd]

theorem denyState_keeps {base s : State} (h : Keeps base s) (n : Nat) :
    Keeps base (denyState s n).1 := by
  unfold denyState
  try dsimp only [deny]
  repeat' first | with_reducible assumption | with_reducible apply deny_keeps | with_reducible apply done_keeps | simp only [Keeps.upd]

theorem later_keeps {base s : State} (h : Keeps base s) :
    Keeps base (later s).1 := by
  unfold later
  try dsimp only
  repeat' first | with_reducible assumption | simp only [Keeps.upd]

theorem updWaiting_keeps {base s : State} (h : Keeps base s) (src : Src) (tag : Nat) (f : Waiting → Waiting) :
    Keeps base (updWaiting s src tag f) := by
  unfold updWaiting
  try dsimp only
  repeat' first | with_reducible assumption | with_reducible apply updRing_keeps | split | simp only [Keeps.upd]

theorem setNote_keeps {base s : State} (h : Keeps base s) (src : Src) (tag : Nat) (note : List Nat) :
    Keeps base (setNote s src tag note) := by
  unfold setNote
  try dsimp only
  repeat' first | with_reducible assumption | with_reducible apply updWaiting_keeps | simp only [Keeps.upd]

theorem wait_keeps {base s : State} (h : Keeps base s) (src : Src) (tag : Nat) (note : List Nat) :
    Keeps base (wait s src tag note).1 := by
  unfold wait
  try dsimp only
  repeat' first | with_reducible assumption | with_reducible apply setNote_keeps | simp only [Keeps.upd]

theorem dropSilent_keeps {base s : State} (h : Keeps base s) (src : Src) (tag : Nat) (discarded : Bool) :
    Keeps base (dropSilent s src tag discarded) := by
  unfold dropSilent
  try dsimp only
  repeat' first | with_reducible assumption | with_reducible apply updRing_keeps | split | simp only [Keeps.upd]

theorem helloEffect_keeps {base s : State} (h : Keeps base s) (src : Src) (body : Bytes) :
    Keeps base (helloEffect s src body).1 := by
  unfold helloEffect
  try dsimp only [done, deny]
  repeat' first | with_reducible assumption | with_reducible apply deny_keeps | with_reducible apply done_keeps | with_reducible apply updRing_keeps | with_reducible apply setNote_keeps | with_reducible apply denyState_keeps | split | simp only [Keeps.upd]

theorem emptySuite_keeps {base s : State} (h : Keeps base s) (n : Nat) :
    Keeps base (emptySuite s n) := by
  unfold emptySuite
  try dsimp only
  repeat' first | with_reducible assumption | with_reducible apply freeEntries_keeps | with_reducible apply setSuiteState_keeps | with_reducible apply unseatAll_keeps | with_reducible apply updSuite_keeps | simp only [Keeps.upd]

theorem abortWhere_keeps {base s : State} (h : Keeps base s) (op : Nat) (f : Src → Waiting → Bool) :
    Keeps base (abortWhere s op f) := by
  unfold abortWhere
  try dsimp only
  repeat' first | with_reducible assumption | with_reducible apply emptySuite_keeps | with_reducible apply finish_keeps | (with_reducible apply Keeps.foldl) | (with_reducible apply Keeps.foldl_fst) | intro _ _ _ | split | simp only [Keeps.upd]

theorem abortKar_keeps {base s : State} (h : Keeps base s) (op : Nat) (f : Nat → Bool) :
    Keeps base (abortKar s op f) := by
  unfold abortKar
  try dsimp only
  repeat' first | with_reducible assumption | with_reducible apply abortWhere_keeps | simp only [Keeps.upd]

theorem resetTileEffect_keeps {base s : State} (h : Keeps base s) (src : Src) (tag t : Nat) :
    Keeps base (resetTileEffect s src tag t).1 := by
  unfold resetTileEffect
  try dsimp only [deny, later]
  repeat' first | with_reducible assumption | with_reducible apply abortKar_keeps | with_reducible apply beginTileReset_keeps | with_reducible apply deny_keeps | with_reducible apply later_keeps | with_reducible apply setNote_keeps | with_reducible apply unitRecords_keeps | with_reducible apply denyState_keeps | with_reducible apply done_keeps | split | simp only [Keeps.upd]

theorem resetWingEffect_keeps {base s : State} (h : Keeps base s) (src : Src) (tag w : Nat) :
    Keeps base (resetWingEffect s src tag w).1 := by
  unfold resetWingEffect
  try dsimp only [deny, later]
  repeat' first | with_reducible assumption | with_reducible apply abortKar_keeps | with_reducible apply beginWingReset_keeps | with_reducible apply deny_keeps | with_reducible apply later_keeps | with_reducible apply setNote_keeps | with_reducible apply unitRecords_keeps | with_reducible apply denyState_keeps | with_reducible apply done_keeps | split | simp only [Keeps.upd]

theorem resetSuiteEffect_keeps {base s : State} (h : Keeps base s) (src : Src) (tag n : Nat) :
    Keeps base (resetSuiteEffect s src tag n).1 := by
  unfold resetSuiteEffect
  try dsimp only [done, later]
  repeat' first | with_reducible assumption | with_reducible apply abortWhere_keeps | with_reducible apply beginReset_keeps | with_reducible apply done_keeps | with_reducible apply finishReset_keeps | with_reducible apply later_keeps | with_reducible apply setNote_keeps | with_reducible apply setSuiteState_keeps | with_reducible apply updSuite_keeps | split | simp only [Keeps.upd]

theorem disableEffect_keeps {base s : State} (h : Keeps base s) (src : Src) (tag c i : Nat) :
    Keeps base (disableEffect s src tag c i).1 := by
  unfold disableEffect
  try dsimp only [deny, later]
  repeat' first | with_reducible assumption | with_reducible apply abortKar_keeps | with_reducible apply abortWhere_keeps | with_reducible apply answerUnits_keeps | with_reducible apply deny_keeps | with_reducible apply disableUnit_keeps | with_reducible apply later_keeps | with_reducible apply setNote_keeps | with_reducible apply unitRecords_keeps | with_reducible apply denyState_keeps | with_reducible apply done_keeps | split | simp only [Keeps.upd]

theorem writeReg_keeps {base s : State} (h : Keeps base s) (t : Nat) (v : VCtx) (i dtype : Nat) (d : Int) (keep : Bool) (res : Nat → LaneRes) :
    Keeps base (writeReg s t v i dtype d keep res).s := by
  unfold writeReg
  dsimp only
  exact updTile_keeps h ..

theorem writeStore_keeps {base s : State} (h : Keeps base s) (t : Nat) (v : VCtx) (r : Region) (g : GenScale) (keep : Bool) (res : Nat → LaneRes) :
    Keeps base (writeStore s t v r g keep res).s := by
  unfold writeStore
  dsimp only
  split <;> dsimp only
  · refine updTile_keeps ?_ ..
    exact (Keeps.upd ..).2 h
  · refine recordExtent_keeps (updTile_keeps ?_ ..) ..
    exact (Keeps.upd ..).2 h

theorem writeDest_keeps {base s : State} (h : Keeps base s) (t : Nat) (v : VCtx) (dst : Dest) (dtype : Nat) (d : Int) (keep : Bool)
    (res : Nat → LaneRes) : Keeps base (writeDest s t v dst dtype d keep res).s := by
  cases dst with
  | none => exact h
  | reg i => exact writeReg_keeps h ..
  | store r g => exact writeStore_keeps h ..

theorem writeMask_keeps {base s : State} (h : Keeps base s) (t : Nat) (v : VCtx) (i : Nat) (keep : Bool) (res : Nat → Bool) :
    Keeps base (writeMask s t v i keep res) := by
  unfold writeMask
  try dsimp only
  repeat' first | with_reducible assumption | with_reducible apply updTile_keeps | (with_reducible apply Keeps.foldl) | (with_reducible apply Keeps.foldl_fst) | intro _ _ _ | split | simp only [Keeps.upd]

theorem Check.bind_ok {α β : Type} {x : Check α} {f : α → Check β} {b : β} (h : (x >>= f) = .ok b) : ∃ a, x = .ok a ∧ f a = .ok b := by
  cases x with
  | error e => cases h
  | ok a => exact ⟨a, rfl, h⟩

theorem vopWrite_keeps {base s : State} (h : Keeps base s) (t : Nat) (v : VCtx) (o : VopOp) (dst : Dest) (d : Int) (xs : List Source) (r : Written)
    (hr : vopWrite s t v o dst d xs = .ok (some r)) : Keeps base r.s := by
  unfold vopWrite at hr
  obtain ⟨_, -, hr⟩ := Check.bind_ok hr
  split at hr
  · cases hr
    exact writeMask_keeps h ..
  · cases hr
    exact writeDest_keeps h ..

theorem vopEffect_keeps {base s : State} (h : Keeps base s) (t : Nat) (v : VCtx) (o : VopOp) (bank : Option (Nat × Nat)) (r : Written)
    (hr : vopEffect s t v o bank = .ok (some r)) : Keeps base r.s := by
  unfold vopEffect at hr
  obtain ⟨_, -, hr⟩ := Check.bind_ok hr
  obtain ⟨_, -, hr⟩ := Check.bind_ok hr
  split at hr
  · cases hr
    exact writeMask_keeps h ..
  · obtain ⟨first, -, hr⟩ := Check.bind_ok hr
    cases first with
    | none => cases hr
    | some xs0 =>
    obtain ⟨_, -, hr⟩ := Check.bind_ok hr
    obtain ⟨dst, -, hr⟩ := Check.bind_ok hr
    cases dst with
    | none => cases hr
    | some dst =>
      obtain ⟨_, -, hr⟩ := Check.bind_ok hr
      obtain ⟨_, -, hr⟩ := Check.bind_ok hr
      obtain ⟨d, -, hr⟩ := Check.bind_ok hr
      cases d with
      | none => cases hr
      | some d =>
        dsimp only at hr
        split at hr
        · cases hr
          exact writeDest_keeps h ..
        · obtain ⟨again, -, hr⟩ := Check.bind_ok hr
          cases again with
          | none => cases hr
          | some xs => exact vopWrite_keeps h _ _ _ _ _ _ _ hr

theorem vectorIssue_keeps {base s : State} (h : Keeps base s) (t : Nat) (k : KStream) (w : Nat) (ecc : List EccHit) (vrec mask c : Nat)
    (sr checked amiss external : Bool) (effect : State → VCtx → Option (Nat × Nat) → Check (Option Written))
    (he : ∀ st v b r, Keeps base st → effect st v b = .ok (some r) → Keeps base r.s) :
    Keeps base (vectorIssue s t k w ecc vrec mask c sr checked amiss external effect) := by
  unfold vectorIssue
  dsimp only
  repeat' first
    | with_reducible assumption
    | with_reducible apply faultStream_keeps
    | with_reducible apply stallAt_keeps
    | with_reducible apply advance_keeps
    | with_reducible apply addVerdict_keeps
    | with_reducible apply raiseFlags_keeps
    | (refine he _ _ _ _ ?_ (by assumption); with_reducible apply eccRead_keeps)
    | split

theorem putUnit_keeps {base s : State} (h : Keeps base s) (t i : Nat) (u : RedUnit) :
    Keeps base (putUnit s t i u) := by
  unfold putUnit
  try dsimp only
  repeat' first | with_reducible assumption | with_reducible apply updTile_keeps | split | simp only [Keeps.upd]

theorem addLanes_keeps {base s : State} (h : Keeps base s) (t : Nat) (v : VCtx) (o : VredOp) (src : Source) (u0 : RedUnit) :
    Keeps base (addLanes s t v o src u0).s := putUnit_keeps h ..

theorem addExps_keeps {base s : State} (h : Keeps base s) (t : Nat) (v : VCtx) (o : VredOp) (src : Source) (u0 : RedUnit) :
    Keeps base (addExps s t v o src u0).s := by
  unfold addExps
  dsimp only
  split
  · dsimp only
    split
    · exact putUnit_keeps h ..
    · exact writeReg_keeps (putUnit_keeps h ..) ..
  · dsimp only
    split
    · exact putUnit_keeps h ..
    · exact writeReg_keeps (putUnit_keeps h ..) ..

theorem readOut_keeps {base s : State} (h : Keeps base s) (t : Nat) (v : VCtx) (o : VredOp) (r : Written)
    (hr : readOut s t v o = .ok (some r)) : Keeps base r.s := by
  unfold readOut at hr
  obtain ⟨_, -, hr⟩ := Check.bind_ok hr
  obtain ⟨_, -, hr⟩ := Check.bind_ok hr
  obtain ⟨_, -, hr⟩ := Check.bind_ok hr
  obtain ⟨dst, -, hr⟩ := Check.bind_ok hr
  cases dst with
  | none => cases hr
  | some dst =>
    obtain ⟨_, -, hr⟩ := Check.bind_ok hr
    obtain ⟨d, -, hr⟩ := Check.bind_ok hr
    cases d with
    | none => cases hr
    | some d =>
      cases hr
      exact writeDest_keeps h ..

theorem vredEffect_keeps {base s : State} (h : Keeps base s) (t : Nat) (v : VCtx) (o : VredOp) (bank : Option (Nat × Nat)) (r : Written)
    (hr : vredEffect s t v o bank = .ok (some r)) : Keeps base r.s := by
  unfold vredEffect at hr
  obtain ⟨_, -, hr⟩ := Check.bind_ok hr
  split at hr
  · exact readOut_keeps h _ _ _ _ hr
  · obtain ⟨d, -, hr⟩ := Check.bind_ok hr
    cases d with
    | none => cases hr
    | some d =>
      obtain ⟨src, -, hr⟩ := Check.bind_ok hr
      cases src with
      | none => cases hr
      | some src =>
        obtain ⟨_, -, hr⟩ := Check.bind_ok hr
        obtain ⟨_, -, hr⟩ := Check.bind_ok hr
        obtain ⟨_, -, hr⟩ := Check.bind_ok hr
        obtain ⟨_, -, hr⟩ := Check.bind_ok hr
        dsimp only at hr
        split at hr
        · obtain ⟨_, -, hr⟩ := Check.bind_ok hr
          obtain ⟨_, -, hr⟩ := Check.bind_ok hr
          obtain ⟨_, -, hr⟩ := Check.bind_ok hr
          cases hr
          exact addExps_keeps h ..
        · cases hr
          exact addLanes_keeps h ..

theorem settleSpares_keeps {base s : State} (h : Keeps base s) (n : Option Nat) :
    Keeps base (settleSpares s n) := by
  unfold settleSpares
  try dsimp only
  repeat' first | with_reducible assumption | with_reducible apply updSuite_keeps | with_reducible apply updTile_keeps | (with_reducible apply Keeps.foldl) | (with_reducible apply Keeps.foldl_fst) | intro _ _ _ | split | simp only [Keeps.upd]

theorem takeWays_keeps {base s : State} (h : Keeps base s) (n : Nat) (ways : SMap Nat) :
    Keeps base (takeWays s n ways) := by
  unfold takeWays
  try dsimp only
  repeat' first | with_reducible assumption | with_reducible apply updWing_keeps | (with_reducible apply Keeps.foldl) | (with_reducible apply Keeps.foldl_fst) | intro _ _ _ | simp only [Keeps.upd]

theorem removeSuite_keeps {base s0 : State} (h : Keeps base s0) (n : Nat) : Keeps base (removeSuite s0 n) := by
  unfold removeSuite
  extract_lets s pcs s1 b s2
  have k1 : Keeps base s1 := unseatAll_keeps (freeEntries_keeps (settlePcs_keeps h n) ..) ..
  have k2 : Keeps base s2 := ⟨k1.pending, k1.fuse, k1.hbm, k1.host, fun k => SMap.sorted_erase _ _ (k1.suites k)⟩
  exact updRing_keeps k2 ..

theorem lostWriteBacks_keeps {base after : State} (h : Keeps base after) (s : State) (n : Nat) (obs : List MemObs) :
    Keeps base (lostWriteBacks s n obs after) := by
  unfold lostWriteBacks
  refine Keeps.foldl _ h (fun v o k => ?_)
  split
  · split
    · exact cacheDirtyLost_keeps k ..
    · exact k
  · exact k

theorem setLoad_keeps {base s : State} (h : Keeps base s) (n status detail loc : Nat) :
    Keeps base (setLoad s n status detail loc) := by
  unfold setLoad
  try dsimp only
  repeat' first | with_reducible assumption | with_reducible apply updSuite_keeps | simp only [Keeps.upd]

theorem copyImageArea_keeps {base s : State} (h : Keeps base s) (n : Nat) (raw : Bytes) (ss : List Section) :
    Keeps base (copyImageArea s n raw ss) := by
  unfold copyImageArea
  exact Keeps.foldl_snd _ h (fun v x k => suiteSetBytes_keeps k ..)

theorem initTensors_keeps {base s : State} (h : Keeps base s) (n : Nat) (raw : Bytes) (im : Image) :
    Keeps base (initTensors s n raw im) := by
  unfold initTensors
  try dsimp only
  repeat' first | with_reducible assumption | with_reducible apply suiteClear_keeps | with_reducible apply suiteSetBytes_keeps | (with_reducible apply Keeps.foldl) | (with_reducible apply Keeps.foldl_fst) | intro _ _ _ | split | simp only [Keeps.upd]

theorem seatLoaded_keeps {base s : State} (h : Keeps base s) (n : Nat) (im : Image) :
    Keeps base (seatLoaded s n im) := by
  unfold seatLoaded
  try dsimp only
  repeat' first | with_reducible assumption | with_reducible apply updTile_keeps | (with_reducible apply Keeps.foldl) | (with_reducible apply Keeps.foldl_fst) | intro _ _ _ | split | simp only [Keeps.upd]

theorem loadRefused_keeps {base s : State} (h : Keeps base s) (src : Src) (tag n status : Nat) (raw : Bytes) :
    Keeps base (loadRefused s src tag n status raw) := by
  unfold loadRefused
  try dsimp only
  repeat' first | with_reducible assumption | with_reducible apply emptySuite_keeps | with_reducible apply finish_keeps | with_reducible apply setLoad_keeps | simp only [Keeps.upd]

theorem finishLoad_keeps {base s : State} (h : Keeps base s) (src : Src) (w : Waiting) :
    Keeps base (finishLoad s src w) := by
  unfold finishLoad
  try dsimp only
  repeat' first | with_reducible assumption | with_reducible apply bindEntries_keeps | with_reducible apply copyImageArea_keeps | with_reducible apply dirtyLines_keeps | with_reducible apply emptySuite_keeps | with_reducible apply finish_keeps | with_reducible apply freeEntries_keeps | with_reducible apply initTensors_keeps | with_reducible apply loadRefused_keeps | with_reducible apply seatLoaded_keeps | with_reducible apply setLoad_keeps | with_reducible apply setSuite_keeps | with_reducible apply setSuiteState_keeps | with_reducible apply settlePcs_keeps | with_reducible apply settleSpares_keeps | with_reducible apply updSuite_keeps | split | simp only [Keeps.upd]

theorem bindRegions_keeps {base s : State} (h : Keeps base s) (n : Nat) :
    Keeps base (bindRegions s n) := by
  unfold bindRegions
  try dsimp only
  repeat' first | with_reducible assumption | with_reducible apply updEntry_keeps | (with_reducible apply Keeps.foldl) | (with_reducible apply Keeps.foldl_fst) | intro _ _ _ | split | simp only [Keeps.upd]

theorem setBindings_keeps {base s : State} (h : Keeps base s) (n kind : Nat) (bs kept : List Binding) (manifest : Bytes) :
    Keeps base (setBindings s n kind bs kept manifest) := by
  unfold setBindings
  try dsimp only
  repeat' first | with_reducible assumption | with_reducible apply bindRegions_keeps | with_reducible apply setSuite_keeps | split | simp only [Keeps.upd]

theorem finishInputWrite_keeps {base s : State} (h : Keeps base s) (src : Src) (w : Waiting) :
    Keeps base (finishInputWrite s src w) := by
  unfold finishInputWrite
  try dsimp only
  repeat' first | with_reducible assumption | with_reducible apply dirtyLines_keeps | with_reducible apply finish_keeps | with_reducible apply suiteSetBytes_keeps | split | simp only [Keeps.upd]

theorem fwState_keeps {base s : State} (h : Keeps base s) (stage : Nat) :
    Keeps base (fwState s stage) := by
  unfold fwState
  try dsimp only
  repeat' first | with_reducible assumption | with_reducible apply deviceEvent_keeps | simp only [Keeps.upd]

theorem finishStage_keeps {base s : State} (h : Keeps base s) :
    Keeps base (finishStage s) := by
  unfold finishStage
  try dsimp only
  repeat' first | with_reducible assumption | with_reducible apply fwState_keeps | split | simp only [Keeps.upd]

theorem collect_keeps {base s : State} (h : Keeps base s) (sg : Bytes) :
    Keeps base (collect s sg) := by
  unfold collect
  try dsimp only
  repeat' first | with_reducible assumption | split | simp only [Keeps.upd]

theorem sendSignatures_keeps {base s : State} (h : Keeps base s) (since : Nat) :
    Keeps base (sendSignatures s since) := by
  unfold sendSignatures
  try dsimp only
  repeat' first | with_reducible assumption | with_reducible apply collect_keeps | with_reducible apply sendCommand_keeps | (with_reducible apply Keeps.foldl) | (with_reducible apply Keeps.foldl_fst) | intro _ _ _ | split | simp only [Keeps.upd]

theorem openGather_keeps {base s : State} (h : Keeps base s) (b : Broadcast) :
    Keeps base (openGather s b) := by
  unfold openGather
  try dsimp only
  repeat' first | with_reducible assumption | simp only [Keeps.upd]

theorem putHalf_keeps {base s : State} (h : Keeps base s) (b part crc : Nat) (data : Bytes) :
    Keeps base (putHalf s b part crc data) := by
  unfold putHalf
  try dsimp only
  repeat' first | with_reducible assumption | with_reducible apply finishStage_keeps | split | simp only [Keeps.upd]

theorem scheduleEvent_keeps {base s : State} (h : Keeps base s) (e : BellEvent) (x : State × BellEvent) (hx : scheduleEvent s e = some x) :
    Keeps base x.1 := by
  unfold scheduleEvent at hx
  dsimp only at hx
  split at hx
  · cases hx
  · cases hx
    exact (Keeps.upd ..).2 h

theorem scheduleAndReply_keeps {base s : State} (h : Keeps base s) (e : BellEvent) : Keeps base (scheduleAndReply s e).1 := by
  unfold scheduleAndReply
  split
  · exact h
  · next t x e => exact scheduleEvent_keeps h _ (t, x) e

theorem releaseEffect_keeps {base s : State} (h : Keeps base s) (l : Nat) (force : Bool) :
    Keeps base (releaseEffect s l force).1 := by
  unfold releaseEffect
  try dsimp only [done, deny]
  repeat' first | with_reducible assumption | with_reducible apply countSwitch_keeps | with_reducible apply darken_keeps | with_reducible apply deny_keeps | with_reducible apply done_keeps | with_reducible apply updPort_keeps | with_reducible apply setNote_keeps | with_reducible apply denyState_keeps | (with_reducible apply Keeps.foldl) | (with_reducible apply Keeps.foldl_fst) | intro _ _ _ | split | simp only [Keeps.upd]

theorem finishTensorRead_keeps {base s : State} (h : Keeps base s) (src : Src) (w : Waiting) :
    Keeps base (finishTensorRead s src w) := by
  unfold finishTensorRead
  try dsimp only
  repeat' first | with_reducible assumption | with_reducible apply finish_keeps | with_reducible apply hostWrite_keeps | split | simp only [Keeps.upd]

theorem actAsTop_keeps {base s : State} (h : Keeps base s) :
    Keeps base (actAsTop s) := by
  unfold actAsTop
  try dsimp only
  repeat' first | with_reducible assumption | split | simp only [Keeps.upd]

theorem toMembers_keeps {base s : State} (h : Keeps base s) (b0 : Broadcast) (ms : List (Nat × Nat)) (op flags : Nat) (payload : Bytes)
    (own : State → Nat → Effect) (ho : ∀ st m, Keeps base st → Keeps base (own st m).1) :
    Keeps base (toMembers s b0 ms op flags payload own).1 := by
  unfold toMembers
  refine Keeps.foldl_fst _ h (fun v m k => ?_)
  have := ho v.1 m.2 k
  split
  · split
    · next e => rw [e] at this; exact this
    · next e => rw [e] at this; exact this
  · split
    · exact sendToModule_keeps k ..
    · exact k

theorem settleGather_keeps {base : State} {x : State × Broadcast} (h : Keeps base x.1) : Keeps base (settleGather x) := by
  unfold settleGather
  repeat' first | with_reducible exact h | with_reducible apply closeGather_keeps | with_reducible apply openGather_keeps | split

theorem jobCommand_keeps {base s : State} (h : Keeps base s) (src : Src) (p : Packet) (no op : Nat) (payload : Bytes)
    (own : State → Nat → Effect) (ho : ∀ st m, Keeps base st → Keeps base (own st m).1) :
    Keeps base (jobCommand s src p no op payload own).1 := by
  unfold jobCommand
  split
  · exact h
  · split
    · exact h
    · exact settleGather_keeps (toMembers_keeps (actAsTop_keeps h) _ _ _ _ _ _ ho)

theorem dropRank_keeps {base s : State} (h : Keeps base s) (n : Nat) :
    Keeps base (dropRank s n) := by
  unfold dropRank
  try dsimp only
  repeat' first | with_reducible assumption | with_reducible apply updSuite_keeps | simp only [Keeps.upd]

theorem mapRound_keeps {base s : State} (h : Keeps base s) (no : Nat) (b0 : Broadcast) (resume : Bytes) :
    Keeps base (mapRound s no b0 resume).1 := by
  unfold mapRound
  try dsimp only
  repeat' first | with_reducible assumption | with_reducible apply sendToModule_keeps | with_reducible apply takeJobMap_keeps | with_reducible apply updJob_keeps | (with_reducible apply Keeps.foldl) | (with_reducible apply Keeps.foldl_fst) | intro _ _ _ | split | simp only [Keeps.upd]

theorem takeRank_keeps {base s : State} (h : Keeps base s) (n r : Nat) (j : Job) (spare : Bool) :
    Keeps base (takeRank s n r j spare) := by
  unfold takeRank
  try dsimp only
  repeat' first | with_reducible assumption | with_reducible apply discardFrom_keeps | with_reducible apply updSuite_keeps | split | simp only [Keeps.upd]

theorem commitRound_keeps {base s : State} (h : Keeps base s) (no : Nat) (b0 : Broadcast) :
    Keeps base (commitRound s no b0).1 := by
  unfold commitRound
  try dsimp only
  repeat' first | with_reducible assumption | with_reducible apply addJobRecord_keeps | with_reducible apply sendToModule_keeps | with_reducible apply setJob_keeps | with_reducible apply takeRank_keeps | (with_reducible apply Keeps.foldl) | (with_reducible apply Keeps.foldl_fst) | intro _ _ _ | split | simp only [Keeps.upd]

theorem dropGather_keeps {base s : State} (h : Keeps base s) (b : Broadcast) :
    Keeps base (dropGather s b) := by
  unfold dropGather
  try dsimp only
  repeat' first | with_reducible assumption | simp only [Keeps.upd]

theorem failStart_keeps {base s : State} (h : Keeps base s) (no : Nat) (b : Broadcast) (status detail : Nat) :
    Keeps base (failStart s no b status detail) := by
  unfold failStart
  try dsimp only
  repeat' first | with_reducible assumption | with_reducible apply dropGather_keeps | with_reducible apply dropRank_keeps | with_reducible apply finish_keeps | with_reducible apply sendToModule_keeps | with_reducible apply updJob_keeps | (with_reducible apply Keeps.foldl) | (with_reducible apply Keeps.foldl_fst) | intro _ _ _ | split | simp only [Keeps.upd]

theorem finishStart_keeps {base s : State} (h : Keeps base s) (no : Nat) (b : Broadcast) :
    Keeps base (finishStart s no b) := by
  unfold finishStart
  try dsimp only
  repeat' first | with_reducible assumption | with_reducible apply closeGather_keeps | with_reducible apply launch_keeps | (with_reducible apply Keeps.foldl) | (with_reducible apply Keeps.foldl_fst) | intro _ _ _ | simp only [Keeps.upd]

theorem advanceStart_keeps {base s : State} (h : Keeps base s) (no : Nat) (b : Broadcast) :
    Keeps base (advanceStart s no b) := by
  unfold advanceStart
  try dsimp only
  repeat' first | with_reducible assumption | with_reducible apply commitRound_keeps | with_reducible apply failStart_keeps | with_reducible apply finishStart_keeps | split | simp only [Keeps.upd]

theorem beginStart_keeps {base s : State} (h : Keeps base s) (src : Src) (tag no : Nat) (resume : Bytes) :
    Keeps base (beginStart s src tag no resume) := by
  unfold beginStart
  try dsimp only
  repeat' first | with_reducible assumption | with_reducible apply advanceStart_keeps | with_reducible apply mapRound_keeps | with_reducible apply openGather_keeps | simp only [Keeps.upd]

theorem startEffect_keeps {base s : State} (h : Keeps base s) (src : Src) (p : Packet) (n : Nat) (body : Bytes) :
    Keeps base (startEffect s src p n body).1 := by
  unfold startEffect
  try dsimp only [deny, denyState, later]
  repeat' first | with_reducible assumption | with_reducible apply actAsTop_keeps | with_reducible apply beginStart_keeps | with_reducible apply deny_keeps | with_reducible apply denyState_keeps | with_reducible apply later_keeps | with_reducible apply setJob_keeps | with_reducible apply setNote_keeps | with_reducible apply done_keeps | split | simp only [Keeps.upd]

theorem gangEvent_keeps {base s : State} (h : Keeps base s) (n action bell : Nat) (x : State × BellEvent) (hx : gangEvent s n action bell = some x) :
    Keeps base x.1 := scheduleEvent_keeps h _ x hx

theorem gangJob_keeps {base s : State} (h : Keeps base s) (no action bell : Nat) : Keeps base (gangJob s no action bell) := by
  unfold gangJob
  refine Keeps.foldl _ h (fun v r k => ?_)
  split
  · cases e : gangEvent v r.2.2 action bell with
    | none => exact k
    | some x => exact gangEvent_keeps k _ _ _ x e
  · exact sendToModule_keeps k ..

theorem gangForward_keeps {base s : State} (h : Keeps base s) (src : Src) (p : Packet) (n op action : Nat) :
    Keeps base (gangForward s src p n op action).1 := by
  unfold gangForward
  try dsimp only [denyState, wait, deny]
  repeat' first | with_reducible assumption | with_reducible apply denyState_keeps | with_reducible apply gangJob_keeps | with_reducible apply sendCommand_keeps | with_reducible apply wait_keeps | with_reducible apply setNote_keeps | with_reducible apply done_keeps | with_reducible apply deny_keeps | split | simp only [Keeps.upd]

theorem askResume_keeps {base s : State} (h : Keeps base s) (n : Nat) :
    Keeps base (askResume s n) := by
  unfold askResume
  try dsimp only
  repeat' first | with_reducible assumption | with_reducible apply requestResume_keeps | with_reducible apply updSuite_keeps | split | simp only [Keeps.upd]

theorem resumeRank_keeps {base s : State} (h : Keeps base s) (n step : Nat) :
    Keeps base (resumeRank s n step).1 := by
  unfold resumeRank
  try dsimp only [done, deny, denyState]
  repeat' first | with_reducible assumption | with_reducible apply deny_keeps | with_reducible apply denyState_keeps | with_reducible apply done_keeps | with_reducible apply replan_keeps | with_reducible apply restoreCheckpoint_keeps | with_reducible apply updSuite_keeps | with_reducible apply setNote_keeps | split | simp only [Keeps.upd]

theorem resumeRemote_keeps {base s : State} (h : Keeps base s) (n : Nat) (body : Bytes) : Keeps base (resumeRemote s n body).1 := by
  unfold resumeRemote
  have k := resumeRank_keeps h n (fieldAt body 4 4)
  dsimp only
  split
  · next e =>
    rw [e] at k
    dsimp only at k ⊢
    exact updSuite_keeps k ..
  · exact k

theorem resumeOwn_keeps {base s : State} (h : Keeps base s) (ns : List Nat) (step : Nat) : Keeps base (resumeOwn s ns step).1 := by
  unfold resumeOwn
  refine Keeps.foldl_fst _ h (fun v n k => ?_)
  have r := resumeRank_keeps k n step
  split
  · exact k
  · split <;> · next e => rw [e] at r; exact r

theorem resumeJob_keeps {base s : State} (h : Keeps base s) (src : Src) (p : Packet) (body : Bytes) : Keeps base (resumeJob s src p body).1 := by
  unfold resumeJob
  dsimp only
  split
  · exact h
  · split
    · exact h
    · split
      · exact h
      · have k := resumeOwn_keeps h (((getJob s (fieldAt body 1 1)).ranks.filter (fun r => r.2.1 == ownId s)).map (fun r => r.2.2)) (fieldAt body 4 4)
        split
        · exact h
        · next e =>
          rw [e] at k
          split <;> split <;> first
            | exact h
            | (dsimp only [later]; with_reducible refine beginStart_keeps (setJob_keeps (actAsTop_keeps ?_) ..) ..; exact k)

theorem resumeSuite_keeps {base s : State} (h : Keeps base s) (src : Src) (p : Packet) (n : Nat) :
    Keeps base (resumeSuite s src p n).1 := by
  unfold resumeSuite
  try dsimp only [deny, denyState, later]
  repeat' first | with_reducible assumption | with_reducible apply askResume_keeps | with_reducible apply deny_keeps | with_reducible apply denyState_keeps | with_reducible apply gangForward_keeps | with_reducible apply later_keeps | with_reducible apply setLoad_keeps | with_reducible apply updSuite_keeps | with_reducible apply setNote_keeps | with_reducible apply done_keeps | split | simp only [Keeps.upd]

theorem stopNow_keeps {base s : State} (h : Keeps base s) (n : Nat) :
    Keeps base (stopNow s n) := by
  unfold stopNow
  try dsimp only
  repeat' first | with_reducible assumption | with_reducible apply nameHalt_keeps | with_reducible apply updSuite_keeps | simp only [Keeps.upd]

theorem stopSuite_keeps {base s : State} (h : Keeps base s) (src : Src) (p : Packet) (n mode : Nat) :
    Keeps base (stopSuite s src p n mode).1 := by
  unfold stopSuite
  try dsimp only [done, denyState, wait, deny]
  repeat' first | with_reducible assumption | with_reducible apply abortWhere_keeps | with_reducible apply denyState_keeps | with_reducible apply done_keeps | with_reducible apply failStart_keeps | with_reducible apply stopAtGate_keeps | with_reducible apply stopNow_keeps | with_reducible apply stopSaved_keeps | with_reducible apply wait_keeps | with_reducible apply setNote_keeps | with_reducible apply deny_keeps | split | simp only [Keeps.upd]

theorem recordStop_keeps {base s : State} (h : Keeps base s) (no step : Nat) :
    Keeps base (recordStop s no step) := by
  unfold recordStop
  try dsimp only
  repeat' first | with_reducible assumption | with_reducible apply addJobRecord_keeps | simp only [Keeps.upd]

theorem stopMember_keeps {base s : State} (h : Keeps base s) (n : Nat) :
    Keeps base (stopMember s n).1 := by
  unfold stopMember
  try dsimp only [done, denyState, later, deny]
  repeat' first | with_reducible assumption | with_reducible apply denyState_keeps | with_reducible apply done_keeps | with_reducible apply later_keeps | with_reducible apply stopAtGate_keeps | with_reducible apply stopSaved_keeps | split | simp only [Keeps.upd]

theorem stopJobCommand_keeps {base s : State} (h : Keeps base s) (src : Src) (p : Packet) (body : Bytes) :
    Keeps base (stopJobCommand s src p body).1 := by
  unfold stopJobCommand
  try dsimp only [done, deny, denyState, later]
  repeat' first | with_reducible assumption | with_reducible apply deny_keeps | with_reducible apply denyState_keeps | with_reducible apply done_keeps | with_reducible apply failStart_keeps | with_reducible apply later_keeps | with_reducible apply nameHalt_keeps | with_reducible apply recordStop_keeps | with_reducible apply sendVerdict_keeps | with_reducible apply settleGather_keeps | with_reducible apply stopMember_keeps | with_reducible apply toMembers_keeps | with_reducible apply updJob_keeps | with_reducible apply setNote_keeps | (with_reducible apply Keeps.foldl) | (with_reducible apply Keeps.foldl_fst) | intro _ _ _ | split | simp only [Keeps.upd]

theorem stepEvent_keeps {base s : State} (h : Keeps base s) (n opcode step bell : Nat) :
    Keeps base (stepEvent s n opcode step bell).1 := by
  unfold stepEvent
  try dsimp only [deny]
  repeat' first | with_reducible assumption | with_reducible apply deny_keeps | with_reducible apply scheduleAndReply_keeps | with_reducible apply setNote_keeps | with_reducible apply denyState_keeps | with_reducible apply done_keeps | split | simp only [Keeps.upd]

theorem evalAt_keeps {base s : State} (h : Keeps base s) (n : Nat) (body : Bytes) :
    Keeps base (evalAt s n body).1 := by
  unfold evalAt
  try dsimp only [denyState, deny]
  repeat' first | with_reducible assumption | with_reducible apply denyState_keeps | with_reducible apply stepEvent_keeps | split | simp only [Keeps.upd]

theorem checkpointAt_keeps {base s : State} (h : Keeps base s) (n : Nat) (body : Bytes) :
    Keeps base (checkpointAt s n body).1 := by
  unfold checkpointAt
  try dsimp only [denyState, deny]
  repeat' first | with_reducible assumption | with_reducible apply denyState_keeps | with_reducible apply stepEvent_keeps | split | simp only [Keeps.upd]

theorem finishCheckpointRead_keeps {base s : State} (h : Keeps base s) (src : Src) (w : Waiting) :
    Keeps base (finishCheckpointRead s src w) := by
  unfold finishCheckpointRead
  try dsimp only
  repeat' first | with_reducible assumption | with_reducible apply finish_keeps | with_reducible apply hostWrite_keeps | split | simp only [Keeps.upd]

theorem listCheckpoint_keeps {base s : State} (h : Keeps base s) (n step : Nat) (im : Image) (m : Memory) :
    Keeps base (listCheckpoint s n step im m).1 := by
  unfold listCheckpoint
  try dsimp only
  repeat' first | with_reducible assumption | with_reducible apply setSuite_keeps | split | simp only [Keeps.upd]

theorem finishCheckpointWrite_keeps {base s : State} (h : Keeps base s) (src : Src) (w : Waiting) : Keeps base (finishCheckpointWrite s src w) := by
  unfold finishCheckpointWrite
  dsimp only
  split
  · exact finish_keeps h ..
  · split
    · exact finish_keeps h ..
    · split
      · split <;> · next e =>
          refine finish_keeps ?_ ..
          have k := listCheckpoint_keeps (setSuite_keeps h ..) .. |> fun k => e ▸ k
          exact k
      · exact finish_keeps (setSuite_keeps h ..) ..

theorem finishDigestRead_keeps {base s : State} (h : Keeps base s) (src : Src) (w : Waiting) :
    Keeps base (finishDigestRead s src w) := by
  unfold finishDigestRead
  try dsimp only
  repeat' first | with_reducible assumption | with_reducible apply finish_keeps | with_reducible apply hostWrite_keeps | split | simp only [Keeps.upd]

theorem finishRunRecordRead_keeps {base s : State} (h : Keeps base s) (src : Src) (w : Waiting) :
    Keeps base (finishRunRecordRead s src w) := by
  unfold finishRunRecordRead
  try dsimp only
  repeat' first | with_reducible assumption | with_reducible apply finish_keeps | with_reducible apply hostWrite_keeps | split | simp only [Keeps.upd]

theorem managerRole_keeps {base s : State} (h : Keeps base s) (take : Nat) :
    Keeps base (managerRole s take).1 := by
  unfold managerRole
  try dsimp only [done, deny]
  repeat' first | with_reducible assumption | with_reducible apply deny_keeps | with_reducible apply done_keeps | with_reducible apply setNote_keeps | with_reducible apply denyState_keeps | split | simp only [Keeps.upd]

theorem askNext_keeps {base s : State} (h : Keeps base s) (note : List Nat) :
    Keeps base (askNext s note) := by
  unfold askNext
  try dsimp only
  repeat' first | with_reducible assumption | simp only [Keeps.upd]

theorem sendHello_keeps {base s : State} (h : Keeps base s) (port : Nat) :
    Keeps base (sendHello s port) := by
  unfold sendHello
  try dsimp only
  repeat' first | with_reducible assumption | with_reducible apply sendMgmt_keeps | simp only [Keeps.upd]

theorem openFrom_keeps {base s : State} (h : Keeps base s) (port : Nat) (fields : Bytes) (peer : Nat) :
    Keeps base (openFrom s port fields peer) := by
  unfold openFrom
  try dsimp only
  repeat' first | with_reducible assumption | with_reducible apply updRing_keeps | simp only [Keeps.upd]

theorem offeredId_keeps {base s : State} (h : Keeps base s) :
    Keeps base (offeredId s).2 := by
  unfold offeredId
  try dsimp only [draw]
  repeat' first | with_reducible assumption | with_reducible apply draw_keeps | split | simp only [Keeps.upd]

theorem beginAttach_keeps {base s : State} (h : Keeps base s) (src : Src) (tag : Nat) (body : Bytes) :
    Keeps base (beginAttach s src tag body).1 := by
  unfold beginAttach
  try dsimp only [deny, later]
  repeat' first | with_reducible assumption | with_reducible apply askNext_keeps | with_reducible apply deny_keeps | with_reducible apply later_keeps | with_reducible apply openGather_keeps | with_reducible apply sendHello_keeps | with_reducible apply setNote_keeps | with_reducible apply denyState_keeps | with_reducible apply done_keeps | split | simp only [Keeps.upd]

theorem acceptAttach_keeps {base s : State} (h : Keeps base s) (port : Nat) (p : Packet) :
    Keeps base (acceptAttach s port p).1 := by
  unfold acceptAttach
  try dsimp only [draw, done, deny, denyState]
  repeat' first | with_reducible assumption | with_reducible apply deny_keeps | with_reducible apply denyState_keeps | with_reducible apply done_keeps | with_reducible apply draw_keeps | with_reducible apply sendMgmt_keeps | with_reducible apply startBelfry_keeps | with_reducible apply setNote_keeps | split | simp only [Keeps.upd]

theorem leaveManager_keeps {base s : State} (h : Keeps base s) :
    Keeps base (leaveManager s) := by
  unfold leaveManager
  try dsimp only
  repeat' first | with_reducible assumption | with_reducible apply startBelfry_keeps | split | simp only [Keeps.upd]

theorem forgetWorker_keeps {base s : State} (h : Keeps base s) (m port : Nat) :
    Keeps base (forgetWorker s m port) := by
  unfold forgetWorker
  try dsimp only
  repeat' first | with_reducible assumption | with_reducible apply updRing_keeps | simp only [Keeps.upd]

theorem detachEffect_keeps {base s : State} (h : Keeps base s) (src : Src) (tag m : Nat) :
    Keeps base (detachEffect s src tag m).1 := by
  unfold detachEffect
  try dsimp only [done, deny, later]
  repeat' first | with_reducible assumption | with_reducible apply askNext_keeps | with_reducible apply deny_keeps | with_reducible apply done_keeps | with_reducible apply forgetWorker_keeps | with_reducible apply later_keeps | with_reducible apply openGather_keeps | with_reducible apply sendCommand_keeps | with_reducible apply setNote_keeps | with_reducible apply denyState_keeps | split | simp only [Keeps.upd]

theorem spareEffect_keeps {base s : State} (h : Keeps base s) (src : Src) (p : Packet) (body : Bytes) : Keeps base (spareEffect s src p body).1 := by
  unfold spareEffect
  extract_lets no new j spares
  clear_value spares
  split
  · exact h
  · split
    · exact h
    · split
      · exact h
      · exact settleGather_keeps (toMembers_keeps (setJob_keeps (actAsTop_keeps h) ..) _ _ _ _ _ (fun st _ => done st (natLE spares.length 4)) (fun _ _ k => k))

theorem expelEffect_keeps {base s : State} (h : Keeps base s) (src : Src) (p : Packet) (body : Bytes) :
    Keeps base (expelEffect s src p body).1 := by
  unfold expelEffect
  try dsimp only [deny, denyState, later]
  repeat' first | with_reducible assumption | with_reducible apply assignSpare_keeps | with_reducible apply deny_keeps | with_reducible apply denyState_keeps | with_reducible apply haltInPlace_keeps | with_reducible apply later_keeps | with_reducible apply sendExpels_keeps | with_reducible apply settleGather_keeps | with_reducible apply stopJob_keeps | with_reducible apply setNote_keeps | with_reducible apply done_keeps | (with_reducible apply Keeps.foldl) | (with_reducible apply Keeps.foldl_fst) | intro _ _ _ | split | simp only [Keeps.upd]

theorem gangRank_keeps {base s : State} (h : Keeps base s) (n action bell : Nat) :
    Keeps base (gangRank s n action bell).1 := by
  unfold gangRank
  try dsimp only [deny, later]
  repeat' first | with_reducible assumption | with_reducible apply deny_keeps | with_reducible apply gangEvent_keeps | with_reducible apply later_keeps | with_reducible apply setNote_keeps | with_reducible apply denyState_keeps | with_reducible apply done_keeps | split | simp only [Keeps.upd]

theorem topNotice_keeps {base s : State} (h : Keeps base s) (lineage : Bytes) (rank step : Nat) (o : Nat × Nat) :
    Keeps base (topNotice s lineage rank step o) := by
  unfold topNotice
  try dsimp only
  repeat' first | with_reducible assumption | with_reducible apply blame_keeps | with_reducible apply haltJob_keeps | with_reducible apply noticeAtTop_keeps | split | simp only [Keeps.upd]

theorem commitRank_keeps {base s : State} (h : Keeps base s) (n : Nat) (body : Bytes) :
    Keeps base (commitRank s n body) := by
  unfold commitRank
  try dsimp only
  repeat' first | with_reducible assumption | with_reducible apply discardFrom_keeps | with_reducible apply launch_keeps | with_reducible apply takeJobMap_keeps | with_reducible apply updSuite_keeps | split | simp only [Keeps.upd]

theorem mapEffect_keeps {base s : State} (h : Keeps base s) (n : Nat) (body : Bytes) :
    Keeps base (mapEffect s n body).1 := by
  unfold mapEffect
  try dsimp only [done, deny, denyState]
  repeat' first | with_reducible assumption | with_reducible apply commitRank_keeps | with_reducible apply deny_keeps | with_reducible apply denyState_keeps | with_reducible apply done_keeps | with_reducible apply takeJobMap_keeps | with_reducible apply updSuite_keeps | with_reducible apply setNote_keeps | split | simp only [Keeps.upd]

theorem slotEvent_keeps {base s : State} (h : Keeps base s) (n : Nat) (body : Bytes) :
    Keeps base (slotEvent s n body).1 := by
  unfold slotEvent
  try dsimp only []
  repeat' first | with_reducible assumption | with_reducible apply scheduleAndReply_keeps | simp only [Keeps.upd]

theorem sendRelay_keeps {base s : State} (h : Keeps base s) (p : Packet) (port : Nat) :
    Keeps base (sendRelay s p port) := by
  unfold sendRelay
  try dsimp only
  repeat' first | with_reducible assumption | with_reducible apply sendMgmt_keeps | simp only [Keeps.upd]

theorem editWaiting_keeps {base s : State} (h : Keeps base s) (src : Src) (w : Waiting) (f : Waiting → Waiting) :
    Keeps base (editWaiting s src w f) := by
  unfold editWaiting
  try dsimp only
  repeat' first | with_reducible assumption | with_reducible apply updRing_keeps | split | simp only [Keeps.upd]

theorem dropWaiting_keeps {base s : State} (h : Keeps base s) (src : Src) (w : Waiting) :
    Keeps base (dropWaiting s src w) := by
  unfold dropWaiting
  try dsimp only
  repeat' first | with_reducible assumption | with_reducible apply updRing_keeps | simp only [Keeps.upd]

theorem relayOn_keeps {base s : State} (h : Keeps base s) (src : Src) (w : Waiting) (port : Nat) :
    Keeps base (relayOn s src w port) := by
  unfold relayOn
  try dsimp only
  repeat' first | with_reducible assumption | with_reducible apply dropWaiting_keeps | with_reducible apply editWaiting_keeps | with_reducible apply sendRelay_keeps | split | simp only [Keeps.upd]

theorem relayPacket_keeps {base s : State} (h : Keeps base s) (src : Src) (w : Waiting) :
    Keeps base (relayPacket s src w) := by
  unfold relayPacket
  try dsimp only
  repeat' first | with_reducible assumption | with_reducible apply askNext_keeps | with_reducible apply dropWaiting_keeps | with_reducible apply editWaiting_keeps | with_reducible apply finish_keeps | with_reducible apply relayOn_keeps | with_reducible apply sendHello_keeps | split | simp only [Keeps.upd]

theorem relayBroadcast_keeps {base s : State} (h : Keeps base s) (src : Src) (w : Waiting) :
    Keeps base (relayBroadcast s src w) := by
  unfold relayBroadcast
  try dsimp only
  repeat' first | with_reducible assumption | with_reducible apply editWaiting_keeps | with_reducible apply openGather_keeps | with_reducible apply sendRelay_keeps | (with_reducible apply Keeps.foldl) | (with_reducible apply Keeps.foldl_fst) | intro _ _ _ | split | simp only [Keeps.upd]

theorem passReply_keeps {base s : State} (h : Keeps base s) (src : Src) (w : Waiting) (p : Packet) (port : Nat) (r : ReplyIn) :
    Keeps base (passReply s src w p port r) := by
  unfold passReply
  try dsimp only
  repeat' first | with_reducible assumption | with_reducible apply finishBytes_keeps | split | simp only [Keeps.upd]

theorem endAsk_keeps {base s : State} (h : Keeps base s) (src : Src) (tag status detail : Nat) (fields : Bytes) :
    Keeps base (endAsk s src tag status detail fields) := by
  unfold endAsk
  try dsimp only
  repeat' first | with_reducible assumption | with_reducible apply dropGather_keeps | with_reducible apply finish_keeps | split | simp only [Keeps.upd]

theorem afterHello_keeps {base s : State} (h : Keeps base s) (src : Src) (tag port : Nat) (r : ReplyIn) :
    Keeps base (afterHello s src tag port r) := by
  unfold afterHello
  try dsimp only
  repeat' first | with_reducible assumption | with_reducible apply askNext_keeps | with_reducible apply dropGather_keeps | with_reducible apply endAsk_keeps | with_reducible apply offeredId_keeps | with_reducible apply openFrom_keeps | with_reducible apply openGather_keeps | with_reducible apply relayOn_keeps | with_reducible apply sendCommand_keeps | split | simp only [Keeps.upd]

theorem afterAttach_keeps {base s : State} (h : Keeps base s) (src : Src) (tag port offered : Nat) (r : ReplyIn) :
    Keeps base (afterAttach s src tag port offered r) := by
  unfold afterAttach
  try dsimp only
  repeat' first | with_reducible assumption | with_reducible apply endAsk_keeps | split | simp only [Keeps.upd]

theorem afterDetach_keeps {base s : State} (h : Keeps base s) (src : Src) (tag m port : Nat) (r : ReplyIn) :
    Keeps base (afterDetach s src tag m port r) := by
  unfold afterDetach
  try dsimp only
  repeat' first | with_reducible assumption | with_reducible apply endAsk_keeps | with_reducible apply forgetWorker_keeps | split | simp only [Keeps.upd]

theorem afterRound_keeps {base s : State} (h : Keeps base s) (t idx no kind : Nat) (r : ReplyIn) :
    Keeps base (afterRound s t idx no kind r) := by
  unfold afterRound
  try dsimp only
  repeat' first | with_reducible assumption | with_reducible apply advanceStart_keeps | with_reducible apply updJob_keeps | split | simp only [Keeps.upd]

theorem afterAsk_keeps {base s0 : State} (h : Keeps base s0) (t port : Nat) (note : List Nat) (r : ReplyIn) :
    Keeps base (afterAsk s0 t port note r) := by
  unfold afterAsk
  try dsimp only
  repeat' first | with_reducible assumption | with_reducible apply afterAttach_keeps | with_reducible apply afterDetach_keeps | with_reducible apply afterHello_keeps | with_reducible apply afterRound_keeps | with_reducible apply finish_keeps | with_reducible apply takeoverDone_keeps | with_reducible apply takeoverFailed_keeps | with_reducible apply takeoverLost_keeps | split | simp only [Keeps.upd]

theorem passSignature_keeps {base s : State} (h : Keeps base s) (fields : Bytes) :
    Keeps base (passSignature s fields) := by
  unfold passSignature
  try dsimp only
  repeat' first | with_reducible assumption | with_reducible apply collect_keeps | with_reducible apply sendCommand_keeps | split | simp only [Keeps.upd]

theorem takeReply_keeps {base s : State} (h : Keeps base s) (port : Nat) (p : Packet) :
    Keeps base (takeReply s port p) := by
  unfold takeReply
  try dsimp only
  repeat' first | with_reducible assumption | with_reducible apply afterAsk_keeps | with_reducible apply gatherResult_keeps | with_reducible apply passReply_keeps | with_reducible apply passSignature_keeps | split | simp only [Keeps.upd]

theorem hearFrom_keeps {base s : State} (h : Keeps base s) (port : Nat) (p : Packet) :
    Keeps base (hearFrom s port p) := by
  unfold hearFrom
  try dsimp only
  repeat' first | with_reducible assumption | split | simp only [Keeps.upd]

theorem takePacket_keeps {base s : State} (h : Keeps base s) (port : Nat) (raw : Bytes) :
    Keeps base (takePacket s port raw) := by
  unfold takePacket
  try dsimp only
  repeat' first | with_reducible assumption | with_reducible apply hearFrom_keeps | with_reducible apply receivePacket_keeps | with_reducible apply takeReply_keeps | split | simp only [Keeps.upd]

/-- Clearing a field of a register keeps what a state keeps. -/
def RcField.Ok (f : RcField) : Prop := ∀ base s v, Keeps base s → Keeps base (f.put s v)

def RcField.AllOk (l : List RcField) : Prop := ∀ f ∈ l, f.Ok

theorem RcField.allOk_nil : RcField.AllOk [] := by
  intro f hf
  cases hf

theorem RcField.allOk_cons {f : RcField} {l : List RcField} (h : f.Ok) (k : RcField.AllOk l) : RcField.AllOk (f :: l) := by
  intro g hg
  rcases List.mem_cons.1 hg with rfl | hg
  · exact h
  · exact k g hg

theorem RcField.allOk_ite {c : Prop} [Decidable c] {x y : List RcField} (h : AllOk x) (k : AllOk y) : AllOk (if c then x else y) := by
  split
  · exact h
  · exact k

theorem hallRc_ok (a : Nat) : RcField.AllOk (hallRc a) := by
  unfold hallRc
  extract_lets n m counts job mgr flt brg
  repeat' first
    | with_reducible exact RcField.allOk_nil
    | with_reducible refine RcField.allOk_cons ?_ ?_
    | with_reducible refine RcField.allOk_ite ?_ ?_
    | split
    | (intro base s v h; first
        | (dsimp only [counts]; with_reducible exact updSuite_keeps h ..)
        | (dsimp only [job]; with_reducible exact updSuite_keeps h ..)
        | (dsimp only; with_reducible exact updRing_keeps h ..)
        | (dsimp only [mgr, flt, brg]; exact (Keeps.upd ..).2 h))

theorem wingRc_ok (a o : Nat) : RcField.AllOk (wingRc a o) := by
  unfold wingRc
  dsimp only
  repeat' first
    | with_reducible exact RcField.allOk_nil
    | with_reducible refine RcField.allOk_cons ?_ ?_
    | with_reducible refine RcField.allOk_ite ?_ ?_
    | split
    | (intro base s v h; dsimp only; first
        | with_reducible exact updSuite_keeps h ..
        | with_reducible exact updTile_keeps h ..
        | with_reducible exact updWing_keeps h ..
        | with_reducible exact updPort_keeps h ..
        | with_reducible exact updRing_keeps h ..
        | with_reducible exact updLantern_keeps h ..
        | exact (Keeps.upd ..).2 h)

theorem tileRc_ok (a o : Nat) : RcField.AllOk (tileRc a o) := by
  unfold tileRc
  dsimp only
  repeat' first
    | with_reducible exact RcField.allOk_nil
    | with_reducible refine RcField.allOk_cons ?_ ?_
    | with_reducible refine RcField.allOk_ite ?_ ?_
    | split
    | (intro base s v h; dsimp only; first
        | with_reducible exact updSuite_keeps h ..
        | with_reducible exact updTile_keeps h ..
        | with_reducible exact updWing_keeps h ..
        | with_reducible exact updPort_keeps h ..
        | with_reducible exact updRing_keeps h ..
        | with_reducible exact updLantern_keeps h ..
        | exact (Keeps.upd ..).2 h)

theorem spireRc_ok (a o : Nat) : RcField.AllOk (spireRc a o) := by
  unfold spireRc
  dsimp only
  repeat' first
    | with_reducible exact RcField.allOk_nil
    | with_reducible refine RcField.allOk_cons ?_ ?_
    | with_reducible refine RcField.allOk_ite ?_ ?_
    | split
    | (intro base s v h; dsimp only; first
        | with_reducible exact updSuite_keeps h ..
        | with_reducible exact updTile_keeps h ..
        | with_reducible exact updWing_keeps h ..
        | with_reducible exact updPort_keeps h ..
        | with_reducible exact updRing_keeps h ..
        | with_reducible exact updLantern_keeps h ..
        | exact (Keeps.upd ..).2 h)

theorem rcFields_ok (a : Nat) : RcField.AllOk (rcFields a) := by
  unfold rcFields
  dsimp only
  repeat' first
    | with_reducible exact hallRc_ok _
    | with_reducible exact wingRc_ok _ _
    | with_reducible exact tileRc_ok _ _
    | with_reducible exact spireRc_ok _ _
    | with_reducible exact RcField.allOk_nil
    | with_reducible refine RcField.allOk_cons ?_ ?_
    | with_reducible refine RcField.allOk_ite ?_ ?_
    | split
    | (intro base s v h; dsimp only; first
        | with_reducible exact updSuite_keeps h ..
        | with_reducible exact updTile_keeps h ..
        | with_reducible exact updWing_keeps h ..
        | with_reducible exact updPort_keeps h ..
        | with_reducible exact updRing_keeps h ..
        | with_reducible exact updLantern_keeps h ..
        | exact (Keeps.upd ..).2 h)

theorem clearRc_keeps {base s : State} (h : Keeps base s) (a : Nat) : Keeps base (clearRc s a) := by
  have key : ∀ (g : State → RcField → Nat) (l : List RcField) (st : State), (∀ f ∈ l, f.Ok) → Keeps base st →
      Keeps base (l.foldl (fun st f => f.put st (g st f)) st) := by
    intro g l
    induction l with
    | nil => intro st _ k; exact k
    | cons f l ih =>
      intro st hl k
      exact ih _ (fun f hf => hl f (List.mem_cons_of_mem _ hf)) (hl f (List.mem_cons_self ..) base st _ k)
  unfold clearRc
  dsimp only
  split
  · exact (Keeps.upd ..).2 (key _ _ s (rcFields_ok a) h)
  · exact key _ _ s (rcFields_ok a) h

theorem complete_keeps {base s : State} (h : Keeps base s) (f v : Nat) :
    Keeps base (complete s f v) := by
  unfold complete
  try dsimp only
  repeat' first | with_reducible assumption | with_reducible apply send_keeps | simp only [Keeps.upd]

theorem completeOnes_keeps {base s : State} (h : Keeps base s) (f size : Nat) :
    Keeps base (completeOnes s f size) := by
  unfold completeOnes
  try dsimp only
  repeat' first | with_reducible assumption | with_reducible apply send_keeps | simp only [Keeps.upd]

theorem writeRing_keeps {base s : State} (h : Keeps base s) (f o v : Nat) :
    Keeps base (writeRing s f o v) := by
  unfold writeRing
  try dsimp only
  repeat' first | with_reducible assumption | with_reducible apply ringHead_keeps | with_reducible apply ringOff_keeps | with_reducible apply ringOn_keeps | with_reducible apply ringTail_keeps | with_reducible apply updRing_keeps | split | simp only [Keeps.upd]

theorem storeReg_keeps {base s : State} (h : Keeps base s) (a v0 : Nat) :
    Keeps base (storeReg s a v0) := by
  unfold storeReg
  try dsimp only
  repeat' first | with_reducible assumption | with_reducible apply updSuite_keeps | with_reducible apply writeReady_keeps | with_reducible apply writeRing_keeps | split | simp only [Keeps.upd]

theorem writeFunc_keeps {base s : State} (h : Keeps base s) (f addr v : Nat) :
    Keeps base (writeFunc s f addr v) := by
  unfold writeFunc
  try dsimp only
  repeat' first | with_reducible assumption | with_reducible apply storeReg_keeps | with_reducible apply writeMsix_keeps | split | simp only [Keeps.upd]

theorem endpointReset_keeps {base s : State} (h : Keeps base s) :
    Keeps base (endpointReset s) := by
  unfold endpointReset
  try dsimp only
  repeat' first | with_reducible assumption | split | simp only [Keeps.upd]

theorem selectBypass_keeps {base s : State} (h : Keeps base s) :
    Keeps base (selectBypass s) := by
  unfold selectBypass
  try dsimp only
  repeat' first | with_reducible assumption | simp only [Keeps.upd]

theorem answerMctp_keeps {base s : State} (h : Keeps base s) (type : Nat) (body : Bytes) :
    Keeps base (answerMctp s type body) := by
  unfold answerMctp
  try dsimp only
  repeat' first | with_reducible assumption | with_reducible apply send_keeps | simp only [Keeps.upd]

theorem refuseMctp_keeps {base s : State} (h : Keeps base s) (type : Nat) :
    Keeps base (refuseMctp s type) := by
  unfold refuseMctp
  try dsimp only
  repeat' first | with_reducible assumption | with_reducible apply send_keeps | simp only [Keeps.upd]

theorem applyKept_keeps {base s : State} (h : Keeps base s) (w : Nat × Nat × Nat) :
    Keeps base (applyKept s w) := by
  unfold applyKept
  try dsimp only
  repeat' first | with_reducible assumption | with_reducible apply storeReg_keeps | simp only [Keeps.upd]
end Sys2Proof.Machine
end

