-- ==== Sys2Proof/Laws/Goes.lean ====
section
/-!
SUPPORT. What a command answers: a next state that keeps what the lemmas of Laws/Keeps.lean say. One lemma per way a meaning is put
together; a command's own lemma follows by unfolding its meaning and applying these and the lemmas of the operations it calls.
-/
namespace Sys2Proof.Machine

/-- A command answers a next state that keeps what `base` has. -/
def Goes (base : State) (o : Host.Outcome State Fault Refusal) : Prop := ∃ u, o = .next u ∧ Keeps base u

theorem ok_goes {base u : State} (h : Keeps base u) : Goes base (ok u) := ⟨u, rfl, h⟩
theorem next_goes {base u : State} (h : Keeps base u) : Goes base (.next u) := ⟨u, rfl, h⟩

theorem whenDo_goes {base s t : State} (h : Keeps base s) (k : Keeps base t) (c : Bool) : Goes base (whenDo c s t) := by
  refine ⟨_, rfl, ?_⟩
  split
  · exact k
  · exact h

theorem runCommand_goes {base s : State} (h : Keeps base s) (op : Nat) (src : Src) (tag : Nat)
    (eff : State → Src → Packet → Nat → Bytes → Effect) (he : ∀ st x p n b, Keeps base st → Keeps base (eff st x p n b).1) :
    Goes base (runCommand op src tag s eff) := by
  unfold runCommand
  split
  · exact next_goes h
  · extract_lets p n s1 e t
    have k1 : Keeps base s1 := updRing_keeps h _ _
    have ke : Keeps base e.1 := by
      clear_value s1
      show Keeps base (if _ then _ else _ : Effect).1
      split
      · exact k1
      · split
        · exact k1
        · split
          · exact k1
          · exact he _ _ _ _ _ k1
    clear_value e
    refine whenDo_goes h ?_ _
    dsimp only [t]
    split
    · exact ke
    · split
      · exact dropSilent_keeps ke ..
      · exact finish_keeps ke ..

/-- What an instruction answers, where it answers, keeps what `base` has. -/
def KeepsO (base : State) (o : Option State) : Prop := ∀ u, o = some u → Keeps base u
theorem KeepsO.none {base : State} : KeepsO base Option.none := fun _ h => by cases h
theorem KeepsO.some {base u : State} (h : Keeps base u) : KeepsO base (Option.some u) := fun _ k => by cases k; exact h
/-- An instruction issued from a stream. -/
theorem issueAs_keeps_of {base s : State} (h : Keeps base s) (t : Nat) (k : KStream) (f : KInst → Nat → Option State)
    (hf : ∀ i w, KeepsO base (f i w)) : Keeps base (issueAs s t k f) := issueAs_keeps h t k f hf

theorem serveMctp_goes {base s t : State} (h : Keeps base s) (k : Keeps base t) (type : Nat) (rom : Bool) : Goes base (serveMctp s type rom t) := by
  refine whenDo_goes h ?_ _
  split
  · exact k
  · exact refuseMctp_keeps h ..

theorem execLoop_goes {base s : State} (h : Keeps base s) (tile : Nat) (st : KStream) : Goes base (execLoop tile st s) := by
  refine ok_goes (issueAs_keeps_of h _ _ _ (fun i w => ?_))
  cases i <;> try exact KeepsO.none
  dsimp only
  by_cases c : 4 ≤ (getStream s tile st).loops.length
  · simp only [c, true_or, if_true]
    exact KeepsO.some (faultStream_keeps h ..)
  · split <;> split <;> first
      | exact KeepsO.some (faultStream_keeps h ..)
      | exact KeepsO.some (setStream_keeps h ..)

theorem execJobRestoreComplete_goes {base s : State} (h : Keeps base s) (suite : Nat) (obs : List MemObs) :
    Goes base (execJobRestoreComplete suite obs s) := by
  refine whenDo_goes h ?_ _
  have k0 := readObs_keeps h suite obs
  generalize readObs s suite obs = s0 at k0 ⊢
  cases e : restorePoint s0 suite with
  | none => exact faultSuite_keeps k0 ..
  | some x =>
    have k := restorePoint_keeps k0 suite x e
    obtain ⟨s1, u⟩ := x
    dsimp only at k ⊢
    split
    · exact faultSuite_keeps k ..
    · exact updSuite_keeps (addRunRecord_keeps (launch_keeps (discardFrom_keeps k ..) ..) ..) ..

theorem execPowerLoss_goes {base s : State} (h : Keeps base s) : Goes base (execPowerLoss s) := by
  unfold execPowerLoss
  refine whenDo_goes h ?_ _
  exact ⟨h.pending, h.fuse, fun _ => rfl, h.host, fun _ => rfl⟩

theorem execMemoryTestComplete_goes {base s : State} (h : Keeps base s) (wing : Nat) (rows : List (Nat × Nat)) :
    Goes base (execMemoryTestComplete wing rows s) := by
  unfold execMemoryTestComplete
  extract_lets b s1 c s2
  have k1 : Keeps base s1 := Keeps.foldl _ h (fun v r k => testRow_keeps k ..)
  clear_value s1
  refine whenDo_goes h (settleReady_keeps ?_) _
  exact ⟨k1.pending, k1.fuse, fun k => Memory.wf_filter _ _ (k1.hbm k), k1.host, k1.suites⟩

theorem execTelemetrySample_goes {base s : State} (h : Keeps base s) (sample : Telemetry) : Goes base (execTelemetrySample sample s) := by
  unfold execTelemetrySample
  extract_lets s1 put c s2
  have k1 : Keeps base s1 := Keeps.foldl _ (sampleRaw_keeps (sampleInput_keeps h _) _) (fun v r k => readSensor_keeps k ..)
  clear_value s1
  have k2 : Keeps base s2 := (Keeps.upd ..).2 k1
  clear_value s2
  refine whenDo_goes h ?_ _
  refine ⟨k2.pending, k2.fuse, k2.hbm, k2.host, fun k => ?_⟩
  have := SMap.sorted_mapVals ?f _ (k2.suites k)
  exact this

theorem execSleep_goes {base s : State} (h : Keeps base s) (src : Src) (tag : Nat) : Goes base (execSleep src tag s) := by
  refine runCommand_goes h _ _ _ _ (fun st _ _ _ _ k => ?_)
  dsimp only
  split
  · exact k
  · refine setDev_keeps ?_ _
    exact ⟨k.pending, k.fuse, k.hbm, k.host, fun _ => rfl⟩

theorem execFwActivate_goes {base s : State} (h : Keeps base s) (src : Src) (tag : Nat) : Goes base (execFwActivate src tag s) := by
  refine runCommand_goes h _ _ _ _ (fun st _ _ _ body k => ?_)
  dsimp only
  split
  · exact k
  · split
    · exact k
    · split
      · split <;> exact k
      · split
        · exact k
        · next t x e =>
          have k1 := scheduleEvent_keeps (base := base) ?_ _ (t, x) e
          · exact (Keeps.upd ..).2 k1
          · exact (Keeps.upd ..).2 k

end Sys2Proof.Machine
end

