-- ==== Sys2Proof/Tests/Slice0.lean ====
section
/-!
SUPPORT. Tests: what WellFormed refuses, worked examples of the spec, and for every statement of Certificates/Slice0/Obligations.lean that
has hypotheses, states and operands that meet them (`test_meets_…`).
-/
open Sys2Proof Sys2Proof.Machine Sys2Proof.Says

set_option Elab.async false

namespace Sys2Proof.Tests

/-- A suite that runs, with an image whose virtual tile 0 runs the words `ws` on stream F. -/
def program (ws : List Nat) : Image := { vtiles := [(0, { f := { instrs := ws } })] }

/-- A machine whose tile 0 holds virtual tile 0 of suite 0, with stream F at `x`, its words in the buffer, and the tokens `toks`. -/
def onTile (ws : List Nat) (x : KState) (toks : List TokenState) : State :=
  { dev := .running
    tiles := [(0, { suite := some 0, vtile := 0, fold := 1, core := { tokens := toks, f := { x with bufHi := ws.length } } })]
    suites := [(0, { state := .running, image := some (program ws), res := { tiles := [0], pcs := [0] } })] }

/-- All eleven tokens held by F. -/
def allF : List TokenState := List.replicate 11 (.held .f)

def wNop : Nat := 0x01 * 2 ^ 56
def wWait (sel n : Nat) : Nat := 0x12 * 2 ^ 56 + sel * 2 ^ 53 + n
def wTake (tok : Nat) : Nat := 0x18 * 2 ^ 56 + tok
def wPass (target tok : Nat) : Nat := 0x19 * 2 ^ 56 + target * 2 ^ 4 + tok
def wMark (d kn : Nat) : Nat := 0x40 * 2 ^ 56 + d * 2 ^ 24 + kn
def wBell (offset : Nat) : Nat := 0x48 * 2 ^ 56 + offset
def wBellSlot (slot : Nat) : Nat := 0x48 * 2 ^ 56 + 2 ^ 55 + slot * 2 ^ 32
def wLoop (trip body : Nat) : Nat := 0x50 * 2 ^ 56 + (trip - 1) * 2 ^ 32 + body

theorem test_meets_ControlInstructionsMoveOnOrStall_moves :
    issues (onTile [wNop] {} allF) 0 .f .nop wNop
    ∧ (issues (onTile [wWait 0 15] {} allF) 0 .f (.wait 0 15) (wWait 0 15)
      ∧ holds (onTile [wWait 0 15] {} allF) 0 .f (waitToken 0) = true ∧ waitDone (onTile [wWait 0 15] {} allF) 0 .f 0 15 = true)
    ∧ (streamLive (onTile [wWait 6 0] { phase := .waiting 6 0 } allF) 0 .f = true
      ∧ waitDone (onTile [wWait 6 0] { phase := .waiting 6 0 } allF) 0 .f 6 0 = true)
    ∧ (issues (onTile [wPass 2 10] {} allF) 0 .f (.pass 2 10) (wPass 2 10)
      ∧ holds (onTile [wPass 2 10] {} allF) 0 .f 10 = true ∧ streamOfCode 2 ≠ .f)
    ∧ (streamLive (onTile [wTake 0] { phase := .taking 0 } [.transit .f]) 0 .f = true
      ∧ tokenIdle (onTile [wTake 0] { phase := .taking 0 } [.transit .f]) 0 0 = true)
    ∧ (streamLive (onTile [wBell 0] { phase := .bellWaiting none 0 } allF) 0 .f = true
      ∧ bellTarget (onTile [wBell 0] { phase := .bellWaiting none 0 } allF) 0 none 0
          ≤ (onTile [wBell 0] { phase := .bellWaiting none 0 } allF).bell.count) := by decide

/-- One transfer of F queued on IN0. -/
def queued : State := updTile (onTile [wWait 0 0] {} allF) 0 (fun x => { x with landings := [(0, { queue := [{}] })] })

theorem test_meets_ControlInstructionsMoveOnOrStall_stalls :
    (issues queued 0 .f (.wait 0 0) (wWait 0 0) ∧ holds queued 0 .f (waitToken 0) = true ∧ waitDone queued 0 .f 0 0 = false)
    ∧ (issues (onTile [wTake 10] {} []) 0 .f (.take 10) (wTake 10) ∧ holds (onTile [wTake 10] {} []) 0 .f 10 = false)
    ∧ issues (onTile [wMark 0xFFFFFF 0xFFFE] {} []) 0 .f (.mark false 0xFFFFFF 0xFFFE) (wMark 0xFFFFFF 0xFFFE)
    ∧ (issues (onTile [wBell 1] { leading := true } []) 0 .f (.bellwait false 0 1) (wBell 1)
      ∧ (onTile [wBell 1] { leading := true } []).bell.count < (getStream (onTile [wBell 1] { leading := true } []) 0 .f).openBell + 1)
    ∧ issues (onTile [wBellSlot 15] { leading := true } []) 0 .f (.bellwait true 15 0) (wBellSlot 15) := by decide

/-- Three loops open, the innermost at its last instruction. -/
def looping (i : Nat) : KState := { pc := 4, loops := [⟨1, 9, 1, 0⟩, ⟨2, 8, 1, 0⟩, ⟨3, 5, 3, i⟩] }

theorem test_meets_LoopsFetchesAndGatesGoOn_loops :
    issues (onTile [wLoop (2 ^ 24) 4096] {} []) 0 .f (.loop (2 ^ 24) 4096) (wLoop (2 ^ 24) 4096)
    ∧ (issues (onTile [0, wLoop 1 1] { pc := 1, loops := [⟨1, 3, 1, 0⟩] } []) 0 .f (.loop 1 1) (wLoop 1 1) ∧ 1 + 1 + 1 ≤ 3)
    ∧ (issues (onTile [wLoop 1 1] { loops := List.replicate 4 ⟨0, 9, 1, 0⟩ } []) 0 .f (.loop 1 1) (wLoop 1 1)
      ∧ 4 ≤ (List.replicate 4 (⟨0, 9, 1, 0⟩ : LoopFrame)).length)
    ∧ ((looping 0).loops = [⟨1, 9, 1, 0⟩, ⟨2, 8, 1, 0⟩] ++ [⟨3, 5, 3, 0⟩] ∧ (looping 0).pc + 1 = 5 ∧ 0 + 1 < 3)
    ∧ ((looping 2).loops = [⟨1, 9, 1, 0⟩, ⟨2, 8, 1, 0⟩] ++ [⟨3, 5, 3, 2⟩] ∧ 3 ≤ 2 + 1) := by decide

/-- A drained `mark` of kernel 7, and a stream at the gate of step 2. -/
def drained7 : State := onTile [wMark 5 7] { phase := .draining } []
def atGate2 : State :=
  updTile (onTile [] { phase := .atGate, step := 2 } []) 0 (fun x => { x with core := { x.core with b := { step := 2 }, u := { step := 1 } } })

theorem test_meets_LoopsFetchesAndGatesGoOn_others :
    ((getTile (onTile [wNop, wNop] {} []) 0).suite = some 0 ∧ (getStream (onTile [wNop, wNop] {} []) 0 .f).loops = []
      ∧ (getStream (onTile [wNop, wNop] {} []) 0 .f).bufHi ≤ (getStream (onTile [wNop, wNop] {} []) 0 .f).pc + 4096)
    ∧ ((getStream drained7 0 .f).phase = .draining ∧ fetchWord drained7 0 .f = some (wMark 5 7) ∧ decodeKernel (wMark 5 7) = .mark false 5 7
      ∧ streamLive drained7 0 .f = true ∧ streamDrained drained7 0 .f = true ∧ (getSuite drained7 0).slice.stopping = false
      ∧ isCut drained7 0 .f 7 = false)
    ∧ (tileRuns atGate2 0 = true ∧ (getStream atGate2 0 .f).phase = .atGate ∧ (getSuite atGate2 0).state = .running
      ∧ gateOpen atGate2 0 .f 2 = true ∧ (getSuite atGate2 0).job.snapshot = false) := by decide

/-- Suite 0 with an image of one Q8 tensor, one H16 tensor, a stream, and the tables the instructions below name. -/
def richImage (ws : List Nat) : Image :=
  { vtiles := [(0, { f := { instrs := ws, descs := [{}, { kind := 1 }, { kind := 2 }, { tensor := 1, base := 1024 }, { kind := 2, tensor := 0xFFFFFF }], passes := [{}],
                            vecs := [{ xsKind := 1 }], coords := [{}] } })]
    tensors := [(0, { fmt := .q8a, shape := [4, 64] }), (1, { fmt := .h16, shape := [64] })]
    plan := { levels := [.fixed 1] } }

/-- Tile 0 with the rich image, stream F at `x` with its words, every token held by F, and entry 0 a memory entry of 512 bytes. -/
def rich (ws : List Nat) (out : Bool) : State :=
  { dev := .running
    tiles := [(0, { suite := some 0, vtile := 0, fold := 1, core := { tokens := allF, f := { bufHi := ws.length } } })]
    suites := [(0, { state := .running, image := some (richImage ws), res := { tiles := [0], pcs := [0] } })]
    streams := [(0, { state := .bound, regionLen := 512, outbound := out })] }

def wQ (out : Bool) : Nat := (if out then 0x11 else 0x10) * 2 ^ 56 + 0 * 2 ^ 26 + 1 * 2 ^ 16
def qOp (out : Bool) : QOp := ⟨out, 0, 0, 0, 0, 1, 1⟩
def oneTransfer : Transfer := {}
def full16 (l : Nat) (s : State) : State := setLanding s 0 l { queue := List.replicate 16 oneTransfer }

/-- What a check answers, where it admits the instruction. -/
def admits' {α : Type} (c : Check (Option α)) : Bool :=
  match c with
  | .ok (some _) => true
  | _ => false

/-- A raw BANK transfer of three transactions between bank 0 and the suite's memory. -/
def wBankQ (out : Bool) : Nat := (if out then 0x11 else 0x10) * 2 ^ 56 + 2 * 2 ^ 53 + 4 * 2 ^ 26 + 1 * 2 ^ 16 + 2
def bankOp (out : Bool) : QOp := ⟨out, 2, 0, 0, 4, 1, 3⟩
def bankQ (out : Bool) : State := setEntry (rich [wBankQ out] out) 0 { state := .bound, regionLen := 1536, outbound := out }

theorem test_meets_TransfersAreQueued :
    (issues (rich [wQ false] false) 0 .f (.q (qOp false)) (wQ false) ∧ (qOp false).layout ≠ 2
      ∧ holds (rich [wQ false] false) 0 .f (landingToken 0) = true
      ∧ (∃ c, ctxOf (rich [wQ false] false) 0 .f = some c
          ∧ admits' (queueCheck (rich [wQ false] false) c 0 (tileProgram (rich [wQ false] false) 0 .f) [] .f (qOp false)) = true)
      ∧ (getLanding (rich [wQ false] false) 0 0).queue.length < 16)
    ∧ (issues (full16 2 (rich [wQ true] true)) 0 .f (.q (qOp true)) (wQ true) ∧ holds (full16 2 (rich [wQ true] true)) 0 .f (landingToken 2) = true
      ∧ (∃ c, ctxOf (full16 2 (rich [wQ true] true)) 0 .f = some c
          ∧ admits' (queueCheck (full16 2 (rich [wQ true] true)) c 0 (tileProgram (rich [wQ true] true) 0 .f) [] .f (qOp true)) = true)
      ∧ 16 ≤ (getLanding (full16 2 (rich [wQ true] true)) 0 2).queue.length) :=
  ⟨⟨by decide +kernel, by decide +kernel, by decide +kernel, ⟨_, rfl, by decide +kernel⟩, by decide +kernel⟩, by decide +kernel, by decide +kernel,
    ⟨_, rfl, by decide +kernel⟩, by decide +kernel⟩

theorem test_meets_TransfersAreQueued_bank :
    ∀ out, out ∈ [false, true] → issues (bankQ out) 0 .f (.q (bankOp out)) (wBankQ out)
      ∧ (∃ c, ctxOf (bankQ out) 0 .f = some c ∧ admits' (queueCheck (bankQ out) c 0 (tileProgram (bankQ out) 0 .f) [] .f (bankOp out)) = true)
      ∧ holds (bankQ out) 0 .f (landingToken (if out then 2 else 0)) = true
      ∧ (∃ d, needDesc (tileProgram (bankQ out) 0 .f).descs 4 2 = .ok d ∧ holds (bankQ out) 0 .f (tokBK ((descEff d []).toNat / 16384 % 4)) = true) := by
  intro out h
  cases out <;> exact ⟨by decide +kernel, ⟨_, rfl, by decide +kernel⟩, by decide +kernel, ⟨_, rfl, by decide +kernel⟩⟩

def wMm : Nat := 0x20 * 2 ^ 56 + 1 * 2 ^ 54 + 1 * 2 ^ 52 + 3 * 2 ^ 45
def mmOp : MmOp := ⟨1, 1, false, false, 0, 0, false, 3, 0, 0, 0⟩
/-- One pass of one cell in the engine. -/
def passing : State := updTile (rich [wNop] false) 0 (fun x => { x with passes := [{ m := 1, n := 1, cells := [(0, { sum := 5 })] }] })

/-- A merge into bank 3 is queued on IN1. -/
def merging : State := setLanding (rich [wMm] false) 0 1 { queue := [{ layout := 2, tsBase := 3 * 16384 }] }

theorem test_meets_MatrixPassesSpillIntoTheirBank :
    (issues (rich [wMm] false) 0 .f (.mm mmOp) wMm ∧ holdsAll (rich [wMm] false) 0 .f [tokME, tokBK 3] = true
      ∧ (∃ c, ctxOf (rich [wMm] false) 0 .f = some c
          ∧ admits' (mmSetup (rich [wMm] false) c (tileProgram (rich [wMm] false) 0 .f) [] mmOp) = true)
      ∧ bankMerges (rich [wMm] false) 0 3 = [] ∧ bankReads (rich [wMm] false) 0 3 = [])
    ∧ (issues merging 0 .f (.mm mmOp) wMm ∧ holdsAll merging 0 .f [tokME, tokBK 3] = true ∧ bankMerges merging 0 3 ≠ [] ∧ programLost [] = false
      ∧ (∃ c, ctxOf merging 0 .f = some c ∧ admits' (mmSetup merging c (tileProgram merging 0 .f) [] mmOp) = true))
    ∧ programLost [⟨.program, true⟩] = true
    ∧ ((getTile passing 0).passes = [{ m := 1, n := 1, cells := [(0, { sum := 5 })] }] ∧ SMap.has [(0, ({ sum := 5 } : Cell))] 0 = true) :=
  ⟨⟨by decide +kernel, by decide +kernel, ⟨_, rfl, by decide +kernel⟩, by decide +kernel, by decide +kernel⟩,
   ⟨by decide +kernel, by decide +kernel, by decide +kernel, by decide +kernel, _, rfl, by decide +kernel⟩, by decide +kernel, by decide +kernel⟩

/-- A verdict of every checker still to come. -/
def judging (x : Verdict) : State := updTile (rich [wNop] false) 0 (fun y => { y with verdicts := [x] })

theorem test_meets_VerdictsAcceptOrHaltTheTile :
    (nextVerdict (judging { lhs := 5, rhs := 5 }) 0 .me = some { lhs := 5, rhs := 5 } ∧ residue ((5 : Nat) + (0 : Int)) = 5)
    ∧ residue ((5 : Nat) + (1 : Int)) ≠ 5
    ∧ nextVerdict (judging { mismatch := true }) 0 .me = some { mismatch := true }
    ∧ nextVerdict (judging { checker := .ve }) 0 .ve = some { checker := .ve }
    ∧ nextVerdict (judging { checker := .cu }) 0 .cu = some { checker := .cu }
    ∧ nextVerdict (judging { checker := .ve, mismatch := true }) 0 .ve = some { checker := .ve, mismatch := true }
    ∧ nextVerdict (judging { checker := .cu, mismatch := true }) 0 .cu = some { checker := .cu, mismatch := true } ∧ (1 : Nat) ≠ 2
    ∧ (1 : Int) % (2 ^ 61 - 1) ≠ 0 := by decide +kernel

def vopOf (op dst sa sb sc c vrec : Nat) : VopOp := ⟨op, dst, sa, sb, sc, 0, false, false, 0, c, vrec⟩
def wVop (o : VopOp) : Nat := 0x30 * 2 ^ 56 + o.op * 2 ^ 50 + o.dst * 2 ^ 44 + o.sa * 2 ^ 38 + o.sb * 2 ^ 32 + o.sc * 2 ^ 26 + o.c * 2 ^ 10 + o.vrec
def vredOf (vmode kind src dst : Nat) : VredOp := ⟨vmode, kind, 15, src, dst, 0, false, false, 1, 256, 0x3FF⟩
def wVred (o : VredOp) : Nat :=
  0x31 * 2 ^ 56 + o.vmode * 2 ^ 54 + o.kind * 2 ^ 51 + o.unit * 2 ^ 47 + o.src * 2 ^ 41 + o.dst * 2 ^ 35 + o.dtype * 2 ^ 28 + o.c * 2 ^ 19 + o.vrec
/-- v1 and v2 hold H16; unit 15 is a sum of H16. -/
def vectors (ws : List Nat) : State :=
  updTile (rich ws false) 0 (fun x => { x with vregs := [(1, { type := .h16 }), (2, { type := .h16 })], units := [(15, { kind := 0, type := .h16 })] })

/-- The instruction stands ready: `vectorReady` with the setting that the state gives. -/
theorem test_meets_VectorInstructionsComplete :
    (issues (vectors [wVop (vopOf 0x02 3 1 2 63 256 0x3FF)]) 0 .f (.vop (vopOf 0x02 3 1 2 63 256 0x3FF)) (wVop (vopOf 0x02 3 1 2 63 256 0x3FF))
      ∧ ∃ cx v, vectorReady (vectors [wVop (vopOf 0x02 3 1 2 63 256 0x3FF)]) 0 .f (wVop (vopOf 0x02 3 1 2 63 256 0x3FF)) 0x3FF 0 256 false false cx v none
        ∧ admits' (vopEffect (eccRead (vectors [wVop (vopOf 0x02 3 1 2 63 256 0x3FF)]) 0 .f
            (placeOf (vectors [wVop (vopOf 0x02 3 1 2 63 256 0x3FF)]) 0 .f (wVop (vopOf 0x02 3 1 2 63 256 0x3FF))) []) 0 v (vopOf 0x02 3 1 2 63 256 0x3FF) none) = true)
    ∧ (issues (vectors [wVred (vredOf 2 0 63 3)]) 0 .f (.vred (vredOf 2 0 63 3)) (wVred (vredOf 2 0 63 3))
      ∧ ∃ cx v, vectorReady (vectors [wVred (vredOf 2 0 63 3)]) 0 .f (wVred (vredOf 2 0 63 3)) 0x3FF 0 256 false false cx v none
        ∧ admits' (vredEffect (eccRead (vectors [wVred (vredOf 2 0 63 3)]) 0 .f
            (placeOf (vectors [wVred (vredOf 2 0 63 3)]) 0 .f (wVred (vredOf 2 0 63 3))) []) 0 v (vredOf 2 0 63 3) none) = true) :=
  ⟨⟨by decide +kernel, _, ⟨_, _, _, _, {}, false, [], none, false, _⟩, ⟨rfl, by decide +kernel, rfl, rfl, .inl rfl, rfl⟩, by decide +kernel⟩,
   ⟨by decide +kernel, _, ⟨_, _, _, _, {}, false, [], none, false, _⟩, ⟨rfl, by decide +kernel, rfl, rfl, .inl rfl, rfl⟩, by decide +kernel⟩⟩

theorem test_meets_VectorInstructionsComplete_ownership :
    issues (onTile [wVop (vopOf 0x22 1 0 7 63 0 0)] {} []) 0 .f (.vop (vopOf 0x22 1 0 7 63 0 0)) (wVop (vopOf 0x22 1 0 7 63 0 0))
    ∧ holds (onTile [wVop (vopOf 0x22 1 0 7 63 0 0)] {} []) 0 .f tokVE = false := by decide +kernel

def cvtOp : CvtOp := ⟨0, false, false, 0, false, 1, 1, 2, 3, 0x3FF, true⟩
def wCvt : Nat := 0x38 * 2 ^ 56 + 0 * 2 ^ 43 + 0 * 2 ^ 36 + 2 * 2 ^ 26 + 3 * 2 ^ 16 + 0x3FF * 2 ^ 6 + 2 ^ 5
def wDig : Nat := 0x3C * 2 ^ 56 + 0 * 2 ^ 28 + 0 * 2 ^ 18 + 0 * 2 ^ 8

theorem test_meets_ConversionsAndDigestsComplete :
    (issues (rich [wCvt] false) 0 .f (.cvt cvtOp) wCvt ∧ holds (rich [wCvt] false) 0 .f tokCU = true
      ∧ (∃ c, ctxOf (rich [wCvt] false) 0 .f = some c
          ∧ admits' (cvtSetup (rich [wCvt] false) c (tileProgram (rich [wCvt] false) 0 .f) [] cvtOp) = true)
      ∧ cvtBank (tileProgram (rich [wCvt] false) 0 .f) [] cvtOp = some 0 ∧ holds (rich [wCvt] false) 0 .f (tokBK 0) = true
      ∧ bankBusy (rich [wCvt] false) 0 0 = false ∧ bankReads (rich [wCvt] false) 0 0 = [])
    ∧ (issues (rich [wDig] false) 0 .f (.dig 1 0 0) wDig
      ∧ needDesc (tileProgram (rich [wDig] false) 0 .f).descs 0 0 = .ok {} ∧ needRec (tileProgram (rich [wDig] false) 0 .f).coords 0 = .ok {}
      ∧ (∃ c, ctxOf (rich [wDig] false) 0 .f = some c ∧ c.eval = false ∧ (ctxTensor c 0).isSome = true)
      ∧ descEff ({} : Desc) [] + (64 * 1 : Nat) ≤ 0x800000) :=
  ⟨⟨by decide +kernel, by decide +kernel, ⟨_, rfl, by decide +kernel⟩, by decide +kernel, by decide +kernel, by decide +kernel, by decide +kernel⟩,
   by decide +kernel, rfl, rfl, ⟨_, rfl, rfl, by decide +kernel⟩, by decide +kernel⟩

/-- A suite whose tensor 1 has a managed scale entry, decided up to step 1, with the step before it complete. -/
def managed : State :=
  updSuite (rich [] false) 0 (fun x => { x with
    scale := [(1, ⟨1, .h16, true, false, false, 1, 0, 0, 0, 0, 1, 1, 0, 0, 0, [], [], [], {}, {}⟩)]
    steps := [(1, { complete := true })], firstStep := 2 })

theorem test_meets_ScaleRecordsAndDecisionsFollow :
    (getSuite managed 0).state ≠ .absent ∧ SMap.has (getSuite managed 0).scale 1 = true
    ∧ ((SMap.get {} (getSuite managed 0).steps 1).complete = true ∧ (SMap.get {} (getSuite managed 0).steps 1).written.contains 1 = false
      ∧ (domainTensors (getSuite managed 0)).contains 1 = false)
    ∧ (recordsStand (getSuite managed 0) 1 0 = true ∧ recordsStand (getSuite managed 0) 1 1 = true) := by decide +kernel

/-- One transfer of one transaction queued on IN0 or OUT0 of tile 0, and one already in flight under the highest tag. -/
def moving (out : Bool) : State :=
  setEntry (setLanding (rich [wNop] out) 0 (if out then 2 else 0) { queue := [{ id := 1 }, { id := 7, started := 1 }], creditsUsed := 255 }) 0
    { state := .bound, regionLen := 512, outbound := out, seqNext := 2 ^ 32 - 1
      inFlight := [{ tag := 2 ^ 32 - 2, transfer := 7, landing := if out then 2 else 0, data := [1#8] }] }

theorem test_meets_LandingTransactionsTakeTagsInOrder :
    nextTransfer (getLanding (moving false) 0 0) = some { id := 1 } ∧ mayStart (moving false) 0 (getLanding (moving false) 0 0) { id := 1 } = true
    ∧ (nextPcs (moving false) 0 { id := 1 }).all (fun p => !(getWing (moving false) (p / 64)).inReset) = true
    ∧ (nextPcs (moving false) 0 { id := 1 }).any (fun p => unitOff (moving false) 3 p) = false := by decide +kernel

theorem test_meets_MemoryTransactionsMoveTheirBytes :
    ((getEntry (moving true) 0).state = .bound ∧ (getEntry (moving true) 0).type = typeMemory
      ∧ (getEntry (moving true) 0).inFlight.find? (fun t => t.tag == 2 ^ 32 - 2) = some { tag := 2 ^ 32 - 2, transfer := 7, landing := 2, data := [1#8] }
      ∧ memoryAddr (moving true) (getEntry (moving true) 0) { tag := 2 ^ 32 - 2, transfer := 7, landing := 2, data := [1#8] } = some 0)
    ∧ (memoryAddr (moving false) (getEntry (moving false) 0) { tag := 2 ^ 32 - 2, transfer := 7, data := [1#8] } = some 0
      ∧ transferOf (moving false) { tag := 2 ^ 32 - 2, transfer := 7, data := [1#8] } = some { id := 7, started := 1 })
    ∧ ((getEntry (moving true) 0).draining = false ∧ ({ tag := 2 ^ 32 - 2, transfer := 7, landing := 2, data := [1#8] } : Txn).lost = none) := by decide +kernel

theorem test_meets_SuiteAddressesNeverShareAPlace :
    [5, 3].Nodup ∧ 1024 % 512 = 0 ∧ place 2047 [5, 3] 1024 = some (3, 1023) ∧ place 2048 [5, 3] 1024 = none := by decide +kernel

theorem test_meets_SuiteMemoryReadsBack :
    Memory.wf (rich [] false).hbm = true ∧ (getSuite (rich [] false) 0).res.pcs.Nodup ∧ (∀ p ∈ (getSuite (rich [] false) 0).res.pcs, p < 512)
    ∧ (rich [] false).fuse.stackGib ≤ 96
    ∧ 96 * 2 ^ 24 - 1 < (getSuite (rich [] false) 0).res.pcs.length * pcCapacity (rich [] false) := by decide +kernel

/-- Wings 0 and 7 trained, with a row that needs repair, one under repair, a multiple to come and a line held. -/
def memorySystem : State :=
  { dev := .running
    wings := [(0, { trained := true, needRepair := [(0, 5)], spares := [(spareKey 0 5, 1)], pendingMult := some (2, true), lines := [(9, { dirty := true })] }),
              (7, { trained := true, repairActive := some (2 ^ 21 * 511 + (2 ^ 21 - 1)) })] }

theorem test_meets_MemoryMaintenanceChangesNoByte :
    memoryAlive memorySystem = true
    ∧ (wingPresent memorySystem (511 / 64) = true ∧ (getWing memorySystem (511 / 64)).trained = true
      ∧ (2 ^ 24 * 96 - 64) % 64 = 0 ∧ 2 ^ 24 * 96 - 64 < pcCapacity memorySystem)
    ∧ ((getWing memorySystem (0 / 64)).repairActive = none ∧ (getWing memorySystem (0 / 64)).needRepair.contains (0, 5) = true
      ∧ sparesLeft memorySystem 0 5 ≠ 0)
    ∧ (getWing memorySystem (511 / 64)).repairActive = some (2 ^ 21 * 511 + (2 ^ 21 - 1))
    ∧ ((getWing memorySystem 0).refreshMult = 0 ∧ (340 : Int) < 341 ∧ (341 : Int) ≤ 380 ∧ (380 : Int) < 420 ∧ (getWing memorySystem 7).refreshMult < 2)
    ∧ (getWing memorySystem 0).pendingMult = some (2, true)
    ∧ SMap.has (getWing memorySystem 0).lines 9 = true := by decide +kernel

/-- A port that is UP, held whole by suite 0, with an entry of a type on it and one transaction in flight. -/
def onPort (x : StreamEntry) : State :=
  { dev := .running, mgr := { moduleId := 3 }
    tiles := [(0, { suite := some 0, vtile := 0, fold := 1 })]
    ports := [(0, { state := portUp, feed := 0, linkVersion := 2, txWidth := 16, rxWidth := 16, credits := startCredits }),
              (1, { state := portUp, feed := 0, linkVersion := 2, txWidth := 16, rxWidth := 16, credits := startCredits })]
    suites := [(0, { state := .running, image := some (richImage []), res := { tiles := [0], pcs := [0], ports := [(0, 16), (1, 16)] }
                     job := { routes := [(0, natLE 9 4 ++ natLE 1 1 ++ natLE 0 3)] } })]
    streams := [(5, { x with state := .bound, inFlight := [{ tag := 4 }] })] }

theorem test_meets_TimeoutsAndDisablesEndTheEntry :
    ((getEntry (onPort {}) 5).state = .bound ∧ (flightOf (getEntry (onPort {}) 5) 4).isSome = true ∧ (getEntry (onPort {}) 5).type = typeMemory)
    ∧ ((getEntry (onPort { type := typeRemote, outbound := true, port := 0 }) 5).outbound = true ∧ typeRemote ≠ typeInput)
    ∧ (getEntry (onPort { type := typeInput }) 5).type = typeInput
    ∧ ((getEntry (onPort { draining := true }) 5).state = .bound ∧ (getEntry (onPort { draining := true }) 5).draining = true)
    ∧ (portUpFor (onPort { type := typeRemote, port := 0 }) 0 = true ∧ ownsPort (onPort { type := typeRemote, port := 0 }) 0 5 = true
      ∧ fieldAt (controlRec 3 1 5 3 0) 2 2 = 5 ∧ fieldAt (controlRec 3 1 5 3 0) 4 4 = ownId (onPort {}) ∧ fieldAt (controlRec 3 1 5 3 0) 0 1 = 3
      ∧ fieldAt (controlRec 4 1 5 3 0) 0 1 = 4) := by decide +kernel

theorem test_meets_FabricTrafficReachesItsEntry :
    (fieldAt (controlRec 1 256 5 3 0xFFFFFF00) 0 1 = 1 ∧ fieldAt (controlRec 1 256 5 3 0xFFFFFF00) 2 2 = 5
      ∧ (getEntry (onPort { type := typeRemote, outbound := true, port := 0 }) 5).outbound = true)
    ∧ fieldAt (controlRec 2 1 5 3 4) 0 1 = 2
    ∧ flightOf (getEntry (onPort { type := typeRemote, outbound := true, port := 0 }) 5) 4 = some { tag := 4 } ∧ ({ tag := 4 } : Txn).lost = none
    ∧ ((dataContent 3 5 0 4 (List.replicate 512 7#8)).length = 524 ∧ fieldAt (dataContent 3 5 0 4 (List.replicate 512 7#8)) 0 4 = ownId (onPort {})
      ∧ fieldAt (dataContent 3 5 0 4 (List.replicate 512 7#8)) 4 2 = 5 ∧ fieldAt (dataContent 3 5 0 4 (List.replicate 512 7#8)) 8 4 = 4
      ∧ isFoldEntry (onPort { type := typeRemote, port := 0 }) (getEntry (onPort { type := typeRemote, port := 0 }) 5) = false
      ∧ (getPort (onPort {}) 0).linkVersion ≠ 1 ∧ fieldAt (dataContent 3 5 0 4 (List.replicate 512 7#8)) 6 1 = 0
      ∧ fieldAt (dataContent 3 5 0 4 (List.replicate 512 7#8)) 7 1 = 0 ∧ (getEntry (onPort { type := typeRemote, port := 0 }) 5).outbound = false)
    ∧ (fieldAt (dataContent 9 5 2 4 (List.replicate 512 7#8)) 0 4 = 9 ∧ fieldAt (dataContent 9 5 2 4 (List.replicate 512 7#8)) 6 1 < 3
      ∧ forwardPort (onPort {}) 0 9 = some 1 ∧ (getPort (onPort {}) 1).linkVersion ≠ 1)
    ∧ 3 < fieldAt (dataContent 3 5 4 4 (List.replicate 512 7#8)) 6 1
    ∧ ownsPort (onPort {}) 0 6 = false := by decide +kernel

set_option maxRecDepth 100000
/-- A flit whose CRC is right. -/
def flit (type seq : Nat) : Bytes := flitBytes type seq 0 0 []

theorem test_meets_LinkLayerAcceptsInOrder :
    portUpFor (onPort {}) 0 = true
    ∧ ((List.replicate 536 (1#8 : Byte)).length = 536
      ∧ fieldAt (List.replicate 536 (1#8 : Byte)) 532 4 ≠ crc32 ((List.replicate 536 (1#8 : Byte)).take 532))
    ∧ ((flit 3 0).length = 536 ∧ fieldAt (flit 3 0) 532 4 = crc32 ((flit 3 0).take 532) ∧ flitFormOk (flit 3 0) = true)
    ∧ (fieldAt (flit 9 0) 532 4 = crc32 ((flit 9 0).take 532) ∧ flitFormOk (flit 9 0) = false ∧ fieldAt (flit 9 0) 0 1 / 16 ≠ 0
      ∧ fieldAt (flit 9 0) 1 3 = (getPort (onPort {}) 0).rxSeq ∧ (SMap.get {} (onPort {}).portExtra 0).cdcHeld = false)
    ∧ (unacked (getPort (updPort (onPort {}) 0 (fun x => { x with replay := [(1, [])] })) 0).replay 0 ≠ []
      ∧ (getPort (updPort (onPort {}) 0 (fun x => { x with retries := 7 })) 0).retries + 1 < 9
      ∧ 9 ≤ (getPort (updPort (onPort {}) 0 (fun x => { x with retries := 8 })) 0).retries + 1)
    ∧ (fieldAt (controlRec 5 1 4 0 0) 0 1 = 5 ∧ fieldAt (controlRec 5 1 4 0 0) 2 2 ≤ 4 ∧ (getPort (onPort {}) 0).waitTx = []) := by decide +kernel

def portAt (x : Port) : State := { dev := .running, ports := [(15, x)] }
def allLanes : Nat := 2 ^ 18 - 1

theorem test_meets_PortsTrainToTheirWidth :
    portPresent (portAt {}) 15 = true
    ∧ ((getPort (portAt { state := portUp }) 15).state = portUp ∧ (getPort (portAt { state := portUp }) 15).switching = none)
    ∧ (getPort (portAt { state := portUp, switching := some 1 }) 15).switching = some 1
    ∧ (trainedPort { state := portRetraining } 0xFF allLanes false).isSome = true
    ∧ trainedPort { state := portRetraining } 0x7F allLanes false = none
    ∧ ((trainedPort (withFar { state := portRetraining, retrainKind := 1 } (natLE 7 4 ++ natLE 1 1 ++ natLE 6 4)) allLanes 0xFFF true).isSome = true
      ∧ commonVersion 6 ≠ 0)
    ∧ trainedPort (withFar { state := portRetraining, retrainKind := 1 } []) allLanes 0x7F true = none
    ∧ ((getPort (portAt { state := portTraining, feed := 1 }) 15).feed ≠ 2 ∧ 8 ≤ (lanesOf 0xFF).length ∧ 8 ≤ (lanesOf allLanes).length
      ∧ commonVersion (fieldAt (natLE 7 4 ++ natLE 1 1 ++ natLE 2 4) 5 4) ≠ 0)
    ∧ ((portAt { state := portDown }).dev = .running ∧ (getPort (portAt { state := portDown }) 15).disabled = false)
    ∧ ([({ port := 15 } : WorkerInfo)].any (fun w => w.port == 15)) = true := by decide +kernel

theorem test_meets_WidthFollowsQualifiedLanes :
    (lanesOf allLanes).length = 18 ∧ (lanesOf 0xFFFF).length = 16 ∧ (lanesOf 0x7FFF).length = 15 ∧ (lanesOf 0xFFF).length = 12
    ∧ (lanesOf 0x7FF).length = 11 ∧ (lanesOf 0x3FC00).length = 8 ∧ (lanesOf 0x7F).length = 7
    ∧ (trainedPort {} 0x3FC00 0xFFF true).isSome = true
    ∧ (portPresent (portAt { state := portTraining }) 15 = true ∧ (getPort (portAt { state := portTraining }) 15).state = portTraining) := by decide +kernel

theorem test_meets_BellEdgesCountOne :
    (({ bell := { state := .locked, offset := -5 } } : State).bell.state ≠ .off) ∧ ({ bell := { state := .holdover, offset := 5 } } : State).bell.state = .holdover := by
  decide +kernel

/-- A worker whose Belfry follows its manager on port 2, and a module without a manager. -/
def follows (st : BellState) : State :=
  { dev := .running, mgr := { role := 1, workers := [{ port := 4, module := 6 }] }, bell := { state := st, source := 3, port := 2, count := 1000, good := 9, reqSent := some 77 } }
def alone (st : BellState) : State := { dev := .running, bell := { state := st, source := 2, refValid := true } }
def bellRec (sub time count : Nat) : Bytes := natLE 6 1 ++ natLE sub 1 ++ natLE time 2 ++ natLE count 8
def slotEvent : State := { alone .locked with bell := { events := [{ id := 1, opcode := 0x0802, suite := 0, arg := 31, value := 9 }] } }

theorem test_meets_BellRecordsAndReferencesSteerTheBelfry :
    (syncArrives (follows .acquiring) 2 (bellRec 0 65535 1000) ∧ fieldAt (bellRec 0 65535 1000) 4 8 = (follows .acquiring).bell.count
      ∧ (65535 : Int) = (fieldAt (bellRec 0 65535 1000) 2 2 : Int) + (follows .acquiring).bell.pathDelay ∧ 10 ≤ (follows .acquiring).bell.good + 1)
    ∧ (syncArrives (follows .holdover) 2 (bellRec 0 0 999) ∧ fieldAt (bellRec 0 0 999) 4 8 ≠ (follows .holdover).bell.count)
    ∧ ((bellPorts (follows .locked)).contains 4 = true ∧ isBellRecord (bellRec 1 0 0) 1 = true)
    ∧ (isBellRecord (bellRec 2 5 77) 2 = true ∧ (follows .locked).bell.reqSent = some (fieldAt (bellRec 2 5 77) 4 8) ∧ (follows .locked).bell.delays = [])
    ∧ (follows .locked).mgr.workers.any (fun w => !w.lost && w.port == 4) = true
    ∧ (hasManager (follows .locked) = true ∧ (follows .locked).bell.source = 3)
    ∧ (follows .locked).bell.lastSync + 1000 ≤ (follows .locked).bell.count
    ∧ ((alone .locked).bell.source = 2 ∧ (alone .locked).bell.state = .locked ∧ (follows .locked).bell.source ≠ 2)
    ∧ (hasManager (alone .holdover) = false ∧ (alone .holdover).bell.state = .holdover)
    ∧ (dueEvent slotEvent 1 0x0802).isSome = true := by decide +kernel

theorem test_meets_CrossingsAreHeldAndResynchronised :
    ({ dev := .running } : State).dev = .running ∧ wingPresent {} (79 / 10) = true ∧ (getTile {} 79).health.inReset = false
    ∧ (getPort (portAt { state := portUp }) 15).state = portUp ∧ (getWing {} 7).inReset = false := by decide +kernel

/-- Port 0 with its near feed selected, and Lanterns 0 and 1 in two states. -/
def lit (a b : Nat) (x : Port) : State := { dev := .running, ports := [(0, x)], lanterns := [(0, { state := a, serial := 9 }), (1, { state := b })] }

theorem test_meets_FeedsAndLanternsChangeState :
    ((getPort (lit 7 3 { feed := 0, state := portUp }) 0).feed ≠ 2 ∧ selectFeed (lit 7 3 { feed := 0, state := portUp }) 0 = 1
      ∧ feedLit (lit 7 3 { feed := 0, state := portUp }) 0 0 = true ∧ feedLit (lit 7 3 { feed := 0, state := portUp }) 0 1 = true)
    ∧ ((getPort (lit 7 3 { switching := some 1 }) 0).switching = some 1 ∧ (getPort (lit 7 3 { switching := some 1 }) 0).retrainWanted = false)
    ∧ ((getPort (lit 6 3 { feed := 0 }) 0).feed = 0 ∧ feedLit (lit 6 3 { feed := 0 }) 0 1 = true ∧ (getPort (lit 6 3 { feed := 0 }) 0).miswired.contains 1 = false)
    ∧ feedLit (lit 6 0 { feed := 0 }) 0 1 = false
    ∧ ((getLantern (lit 0 0 {}) 3).state = 0 ∧ (lit 0 0 {}).dev ≠ .off)
    ∧ (getLantern (lit 5 0 {}) 0).state ≠ 0
    ∧ ((getLantern (lit 1 0 {}) 0).state = 1 ∧ (lit 1 0 {}).attic.serialsBanned.contains (getLantern (lit 1 0 {}) 0).serial = false)
    ∧ (getLantern (lit 2 0 {}) 0).state = 2 ∧ isLit (lit 3 0 {}) 0 = true := by decide +kernel

/-- A top manager with two workers and one job, and a worker whose suite 0 holds rank 0. -/
def jobOne : Job := { ranks := [(0, (6, 0))], started := true, lineage := List.replicate 16 1#8, votes := [(0, [])], voteBell := some 5 }
def top (j : Job) : State :=
  { dev := .running, bell := { count := 10000005, state := .locked }
    mgr := { role := 2, moduleId := 0, workers := [{ module := 6, port := 2 }, { module := 7, port := 3 }], jobs := [(0, j)] } }
def rankHere (j : JobState) (st : SuiteState) : State :=
  { dev := .running, bell := { count := 50, state := .locked }, mgr := { role := 1, moduleId := 6, parent := 0, parentPort := 2 }
    suites := [(0, { state := st, image := some (richImage []), job := { j with rank := some 0, nRanks := 2, lineage := List.replicate 16 1#8 } })] }

theorem test_meets_ManagersAndWorkersAreWatched :
    ((top jobOne).mgr.workers.find? (fun x => x.module == 6 && !x.lost)).isSome = true
    ∧ ((top jobOne).mgr.workers.any (fun w => w.module == 7 && !w.lost) = true
      ∧ ∀ p, p ∈ (top jobOne).mgr.jobs → p.2.started = true → ∀ r, r ∈ p.2.ranks → r.2.1 ≠ 7)
    ∧ ((top jobOne).mgr.workers.any (fun w => w.module == 6 && !w.lost) = true ∧ (top jobOne).mgr.jobs = [(0, jobOne)] ∧ jobOne.ranks = [(0, (6, 0))])
    ∧ ((rankHere {} .running).mgr.role = 1 ∧ ∃ p, p ∈ (rankHere {} .running).suites ∧ p.2.job.rank.isSome = true ∧ p.2.state = .running)
    ∧ (getJob (top jobOne) 0).spares = []
    ∧ (lowestSpare (getJob (top { jobOne with spares := [(9, 1), (7, 2)] }) 0).spares = some (7, 2)
      ∧ (SMap.get (0xFFFFFFFF, 0xFF) (getJob (top jobOne) 0).ranks 0).1 ≠ ownId (top jobOne) ∧ suitesOf (top jobOne) jobOne.lineage = []) :=
  ⟨by decide +kernel, by decide +kernel, by decide +kernel, ⟨by decide +kernel, _, List.mem_singleton_self _, rfl, rfl⟩, by decide +kernel, by decide +kernel⟩

theorem test_meets_GroupVerdictFollowsTheMajority :
    (∀ r, r ∈ [4, 5] → SMap.has [(4, [1#8]), (5, [1#8])] r = true ∧ SMap.get [] [(4, [1#8]), (5, [1#8])] r = [1#8])
    ∧ groupVerdict [(4, [1#8]), (5, [1#8])] [4, 5, 6] = (1, [6])
    ∧ groupVerdict [(4, [1#8]), (5, [2#8])] [4, 5] = (2, []) := by decide +kernel

theorem test_meets_VotesAreTakenAndDecided :
    (isTop (rankHere {} .running) = false ∧ (getSuite (rankHere {} .running) 0).job.rank.isSome = true
      ∧ (getSuite (rankHere {} .running) 0).job.votePending = none)
    ∧ ((getSuite (rankHere { votePending := some 64 } .preempted) 0).image.isSome = true
      ∧ (getSuite (rankHere { votePending := some 64 } .preempted) 0).job.votePending = some 64)
    ∧ ((getJob (top jobOne) 0).voteBell = some 5 ∧ (getJob (top jobOne) 0).votes ≠ [] ∧ 5 + (top jobOne).mgr.voteTimeout ≤ (top jobOne).bell.count)
    ∧ (top jobOne).bell.count < 6 + (top jobOne).mgr.voteTimeout := by decide +kernel


/-- Suite 0 of a worker in the state `x`, with the tiles `ts`. -/
def job0 (x : Suite) (ts : SMap Tile := []) : State := { rankHere {} .running with suites := [(0, x)], tiles := ts }
def haltable (st : SuiteState) (j : JobState) : Suite :=
  { state := st, image := some (richImage []), res := { tiles := [0], pcs := [0], granted := [0] }
    job := { j with rank := some 0, nRanks := 2, lineage := List.replicate 16 1#8 }, steps := [(3, {}), (7, {})] }
def restorable (s : State) (n : Nat) : Bool := match restorePoint s n with
  | some p => decide (resumeFailure p.1 n = none)
  | none => false
def notMappable (s : State) (n : Nat) : Bool := match restorePoint s n with
  | some p => (resumeFailure p.1 n).isSome
  | none => false
def toRestore (j : JobState) : State := job0 (haltable .draining { j with rollback := true, haltStep := 5 })
def crowded : State := job0 { haltable .draining { rollback := true, haltStep := 5, inPlace := true } with res := {} }
def takeoverBody (kind : Nat) : Bytes := List.replicate 16 7#8 ++ natLE 3 4 ++ natLE 12 4 ++ natLE kind 1

theorem test_meets_RanksHaltAndRestore :
    (isTop (job0 (haltable .running { haltBell := some 50 })) = false
      ∧ (getSuite (job0 (haltable .running { haltBell := some 50 })) 0).job.rank.isSome = true ∧ 50 ≤ (job0 {}).bell.count ∧ (job0 {}).bell.count < 51)
    ∧ (drained (toRestore {}) 0 = true ∧ suiteStreams (toRestore {}) 0 = [] ∧ (getSuite (toRestore {}) 0).job.rollback = true
      ∧ (restorePoint (toRestore {}) 0).isNone = true)
    ∧ restorable (toRestore { inPlace := true }) 0 = true
    ∧ (drained crowded 0 = true ∧ suiteStreams crowded 0 = [] ∧ notMappable crowded 0 = true)
    ∧ (takeoverReady (haltable .loaded {}) (takeoverBody 1) = true ∧ isTop (job0 (haltable .loaded { takeover := some (takeoverBody 1) })) = false) := by
  decide +kernel

/-- The bytes of a packet of `op` with the flags, the tag and the payload given. -/
def wire (op flags tag : Nat) (payload : Bytes) : Bytes := packetBytes { opcode := op, flags := flags, tag := tag, payload := payload }
/-- Port 2 up and the management of a module of the role served. -/
def linked (fw : Firmware) : State := { rankHere {} .running with fw := fw, ports := [(2, { state := portUp })] }
def envelope (dest src hops op : Nat) : Packet :=
  { opcode := op, flags := 8, tag := 4, payload := natLE dest 4 ++ natLE src 4 ++ List.replicate 4 0#8 ++ natLE hops 1 ++ List.replicate 3 0#8 }
/-- A packet that waits at port 2 to be relayed. -/
def relaying (dest hops op : Nat) : State :=
  { linked { serving := true } with rings := [(ringKey (.link 2), { queue := [{ pkt := envelope dest 1 hops op }] })]
                                    mgr := { role := 1, moduleId := 6, parent := 0, parentPort := 2, workers := [{ module := 9, port := 5 }] } }
def orphan : State := { relaying 5 0 0x0201 with mgr := { moduleId := 6 } }
/-- A broadcast of `op` with the tag 7 that waits for module 6. -/
def asking (op : Nat) : State :=
  { top jobOne with rings := [(0, { queue := [{ pkt := { opcode := op, flags := 2, tag := 7 }, executing := true }] })]
                    mgr := { (top jobOne).mgr with broadcasts := [{ src := .ring 0, tag := 7, waiting := [6] }] } }

theorem test_meets_ManagementPacketsArriveAndAreRelayed :
    ((linked {}).dev ≠ .off ∧ portPresent (linked {}) 2 = true ∧ (getPort (linked {}) 2).state = portUp)
    ∧ (bit (parsePacket (wire 0x0201 0 7 [])).flags 0 = false ∧ 16 ≤ (wire 0x0201 0 7 []).length
      ∧ fieldAt (wire 0x0201 0 7 []) 12 4 = crc32 ((wire 0x0201 0 7 []).take 12 ++ (parsePacket (wire 0x0201 0 7 [])).payload))
    ∧ (bit (parsePacket [0#8, 1#8]).flags 0 = true
      ∧ fieldAt [0#8, 1#8] 12 4 ≠ crc32 ([0#8, 1#8].take 12 ++ (parsePacket [0#8, 1#8]).payload))
    ∧ (bit (parsePacket (wire 0x0201 1 7 (natLE 0 8))).flags 0 = true ∧ SMap.has (linked {}).mgr.asked 7 = false ∧ (linked {}).mgr.broadcasts = []
      ∧ (linked {}).rings = [] ∧ (parsePacket (wire 0x0201 1 7 (natLE 0 8))).opcode = 0x0201 ∧ unheeded 0x0201 = false)
    ∧ ((getRing (relaying 9 2 0x0201) (ringKey (.link 2))).queue.find? (fun w => w.pkt.tag == 4 && isRelayed w.pkt && !w.executing && w.reply.isNone)
        = some { pkt := envelope 9 1 2 0x0201 }
      ∧ startable (relaying 9 2 0x0201) (.link 2) { pkt := envelope 9 1 2 0x0201 } = true ∧ isHere (relaying 9 2 0x0201) (.link 2) (envelope 9 1 2 0x0201) = false
      ∧ nextPort (relaying 9 2 0x0201) (.link 2) (envelope 9 1 2 0x0201) = some 5 ∧ isAttaching (relaying 9 2 0x0201) (envelope 9 1 2 0x0201) = false
      ∧ isSilent (envelope 9 1 2 0x0201) (bodyOf (envelope 9 1 2 0x0201)) = false)
    ∧ (startable orphan (.link 2) { pkt := envelope 5 1 0 0x0201 } = true ∧ isHere orphan (.link 2) (envelope 5 1 0 0x0201) = false
      ∧ nextPort orphan (.link 2) (envelope 5 1 0 0x0201) = none)
    ∧ (isHere (relaying 9 6 0x0201) (.link 2) (envelope 9 1 6 0x0201) = false ∧ 6 ≤ fieldAt (envelope 9 1 6 0x0201).payload 12 1)
    ∧ ((asking 0x0201).mgr.broadcasts.find? (fun x => x.tag == 7) = some { src := .ring 0, tag := 7, waiting := [6] }
      ∧ executingOf (asking 0x0201) (.ring 0) 7 = some { pkt := { opcode := 0x0201, flags := 2, tag := 7 }, executing := true }
      ∧ 0 + gatherWait (asking 0x0201) { pkt := { opcode := 0x0201, flags := 2, tag := 7 }, executing := true } ≤ (asking 0x0201).bell.count)
    ∧ (executingOf (asking 0x0501) (.ring 0) 7).isSome = true := by decide +kernel

/-- A suite that runs on tile 0 with virtual tile 0 of the image, its three streams at `k`, and the bell event `e`. -/
def running (x : Suite) (k : KState) (tile : Tile := {}) (es : List BellEvent := []) : State :=
  { dev := .running, bell := { count := 100, state := .locked, events := es }, suites := [(0, { x with state := .running, res := { tiles := [0], pcs := [0], granted := [0] } })]
    tiles := [(0, { tile with suite := some 0, vtile := 0, core := { f := k, b := k, u := k } })] }
def evalEvent (step : Nat) : BellEvent := { id := 1, bell := 100, opcode := 0x0305, suite := 0, step := step }
def windowed (w : EvalWindow) : Suite := { image := some (richImage []), window := some w, closedGate := some (w.step + 1) }
def atGate (step : Nat) : KState := { phase := .atGate, step := step }

theorem test_meets_EvaluationWindowsRunBetweenSteps :
    (dueEvent (running {} { step := 3 } {} [evalEvent 3]) 1 0x0305 = some (evalEvent 3)
      ∧ (getSuite (running {} { step := 3 } {} [evalEvent 3]) 0).window = none ∧ stepStatus (running {} { step := 3 } {} [evalEvent 3]) 0 3 = 0)
    ∧ (dueEvent (running {} { step := 5 } {} [evalEvent 3]) 1 0x0305 = some (evalEvent 3) ∧ stepStatus (running {} { step := 5 } {} [evalEvent 3]) 0 3 ≠ 0)
    ∧ ((getSuite (running (windowed { step := 3 }) (atGate 4)) 0).window = some { step := 3 } ∧ (getSuite (running (windowed { step := 3 }) (atGate 4)) 0).ckptEvent = none
      ∧ allAtGate (running (windowed { step := 3 }) (atGate 4)) 0 (3 + 1) = true)
    ∧ ((getSuite (running (windowed { step := 3, started := true, resident := [(0, 0)] }) {} { evalMode := true }) 0).window
        = some { step := 3, started := true, resident := [(0, 0)] }
      ∧ (richImage []).vtiles.all (fun v => ([] : List Nat).contains v.1 || (residents (running (windowed { step := 3, started := true, resident := [(0, 0)] }) {} { evalMode := true }) 0).any
          (fun p => p.2 == v.1 && evalDone (running (windowed { step := 3, started := true, resident := [(0, 0)] }) {} { evalMode := true }) p.1)) = true) := by
  decide +kernel

def ckptEvent (step : Nat) : BellEvent := { id := 1, bell := 100, opcode := 0x0400, suite := 0, step := step }
def copying (n : Nat) : Suite :=
  { image := some { richImage [] with checkpoints := n }, ckptEvent := some (ckptEvent 3), holdU := some 4, steps := [(3, { complete := true })] }

theorem test_meets_CheckpointsCopyTheState :
    (dueEvent (running {} { step := 3 } {} [ckptEvent 3]) 1 0x0400 = some (ckptEvent 3) ∧ (getSuite (running {} { step := 3 } {} [ckptEvent 3]) 0).ckptEvent = none
      ∧ stepStatus (running {} { step := 3 } {} [ckptEvent 3]) 0 3 = 0 ∧ stepStatus (running {} { step := 5 } {} [ckptEvent 3]) 0 3 ≠ 0)
    ∧ ((getSuite (running (copying 1) (atGate 4)) 0).ckptEvent = some (ckptEvent 3) ∧ copyReady (running (copying 1) (atGate 4)) 0 3 = true
      ∧ checkpointSlot (getSuite (running (copying 1) (atGate 4)) 0) { richImage [] with checkpoints := 1 } = some (0, []))
    ∧ (copyReady (running (copying 0) (atGate 4)) 0 3 = true ∧ (checkpointSlot (getSuite (running (copying 0) (atGate 4)) 0) { richImage [] with checkpoints := 0 }).isNone = true) := by
  decide +kernel

def sliced (more : SMap Suite) : State :=
  { running { slice := { slice := 50, sliceStart := 20, charged := 80 } } {} with suites := (0, { (getSuite (running {} {}) 0) with slice := { slice := 50, sliceStart := 20, charged := 80 } }) :: more }
def gangEvent (arg : Nat) : BellEvent := { id := 1, bell := 100, opcode := 0x0506, suite := 0, arg := arg }
def waitingNext : Suite := { state := .preempted, res := { tiles := [0] }, slice := { waitingSlice := true } }

theorem test_meets_SlicesAndGangsMoveSuites :
    ((getSuite (sliced []) 0).state = .running ∧ 0 < (getSuite (sliced []) 0).slice.slice ∧ (getSuite (sliced []) 0).slice.stopping = false
      ∧ (getSuite (sliced []) 0).slice.sliceStart + (getSuite (sliced []) 0).slice.charged ≤ (sliced []).bell.count ∧ nextInRotation (sliced []) 0 = none)
    ∧ (nextInRotation (sliced [(3, waitingNext)]) 0 = some 3
      ∧ (getSuite (sliced [(3, waitingNext)]) 0).slice.sliceStart + (getSuite (sliced [(3, waitingNext)]) 0).slice.charged ≤ (sliced []).bell.count)
    ∧ (dueEvent (running {} {} {} [gangEvent 0]) 1 0x0506 = some (gangEvent 0) ∧ (gangEvent 0).suite = 0)
    ∧ (dueEvent { running {} {} {} [gangEvent 1] with suites := [(0, waitingNext)] } 1 0x0506 = some (gangEvent 1) ∧ (gangEvent 1).arg ≠ 0) := by decide +kernel

/-- Suite 0 stops for a pre-emption on tile 0, which has the streams f, b and u, and perhaps on tile 1. -/
def stopping (f b u : KState) (toks : List TokenState) (more : SMap Tile) : State :=
  { dev := .running, suites := [(0, { state := .running, image := some (richImage []), res := { tiles := [0, 1] }, slice := { stopping := true } })]
    tiles := (0, { suite := some 0, vtile := 0, core := { tokens := toks, f := f, b := b, u := u } }) :: more }
def stoppedK : KState := { stopped := true }
def wanting : State := stopping stoppedK { phase := .taking 2 } stoppedK allF []
def gateWanting : State := stopping (atGate 3) { phase := .taking 2, step := 3 } (atGate 3) allF []

theorem test_meets_PreemptionSavesEveryTile :
    ((getTile wanting 0).suite = some 0 ∧ (getSuite wanting 0).state = .running ∧ (getSuite wanting 0).slice.stopping = true
      ∧ (getStream wanting 0 .f).stopped = true ∧ (getStream wanting 0 .f).phase = .ready ∧ (getStream wanting 0 .f).halted = false ∧ releaseDue wanting 0 .f = true)
    ∧ ((getStream gateWanting 0 .f).phase = .atGate ∧ releaseDue gateWanting 0 .f = true
      ∧ ∀ v, v ∈ suiteSteps gateWanting 0 → (getStream gateWanting 0 .f).step ≤ v + 1)
    ∧ ((getSuite (stopping stoppedK stoppedK stoppedK [] [(1, { suite := some 0, vtile := 1 })]) 0).image.isSome = true
      ∧ saveReady (stopping stoppedK stoppedK stoppedK [] [(1, { suite := some 0, vtile := 1 })]) 0 = true
      ∧ (getTile (stopping stoppedK stoppedK stoppedK [] [(1, { suite := some 0, vtile := 1 })]) 1).saved = false)
    ∧ (saveReady (stopping stoppedK stoppedK stoppedK [] []) 0 = true
      ∧ ∀ p, p ∈ (stopping stoppedK stoppedK stoppedK [] []).tiles → p.2.suite = some 0 → p.1 = 0) := by decide +kernel

def resumable : State := { dev := .running, suites := [(0, { state := .preempted, image := some (richImage []), res := { tiles := [0], pcs := [0], granted := [0] }, slice := { resumeAsked := true } })] }
/-- A tile folded over virtual tiles 0 and 1, of which 0 is resident and at the end of its segment. -/
def folded (eval : Bool) (w : Option EvalWindow) : State :=
  { dev := .running, suites := [(0, { state := .running, image := some (richImage []), res := { tiles := [0] }, vmap := [(0, 0), (1, 0)], window := w })]
    tiles := [(0, { suite := some 0, vtile := 0, fold := 2, evalMode := eval, core := { f := atGate 3, b := atGate 3, u := atGate 3 } })] }
def drainingSuite (j : JobState) (ts : SMap Tile) : State := { dev := .running, suites := [(0, { state := .draining, job := j })], tiles := ts }

theorem test_meets_SuitesResumeSwapAndDrain :
    (resumeDue resumable 0 = true ∧ groupBusy resumable 0 = false ∧ resumeFailure (updSuite resumable 0 (fun x => { x with excluded := [] })) 0 = none)
    ∧ (SMap.has (getSuite (folded false none) 0).vmap 1 = true ∧ SMap.get 0xFF (getSuite (folded false none) 0).vmap 1 = 0
      ∧ segmentEnd (folded false none) 0 = true ∧ resolutionOf (folded false none) 0 = none
      ∧ (∀ k, ((SMap.get {} (getSuite (folded false none) 0).saves 1 : TileCore).stream k).cutWait = false))
    ∧ (segmentEnd (folded true (some {})) 0 = true ∧ (getSuite (folded true (some {})) 0).window = some {} ∧ ({} : EvalWindow).programsDone.contains 1 = false)
    ∧ ((∀ v, v ∈ suiteSteps (running { slice := { stopAfter := some 3 } } (atGate 4)) 0 → 3 < v)
      ∧ (∀ p, p ∈ suiteStreams (running { slice := { stopAfter := some 3 } } (atGate 4)) 0 → (getStream (running { slice := { stopAfter := some 3 } } (atGate 4)) p.1 p.2).phase = .atGate)
      ∧ drained (running { slice := { stopAfter := some 3 } } (atGate 4)) 0 = true)
    ∧ drained (drainingSuite {} [(0, { suite := some 0 })]) 0 = true
    ∧ (drained (drainingSuite { rollback := true } [(0, { suite := some 0 })]) 0 = true
      ∧ suiteStreams (drainingSuite { rollback := true } [(0, { suite := some 0 })]) 0 ≠ []) := by
  refine ⟨by decide +kernel, ⟨by decide +kernel, by decide +kernel, by decide +kernel, by decide +kernel, ?_⟩, by decide +kernel, by decide +kernel, by decide +kernel, by decide +kernel⟩
  intro k; cases k <;> decide +kernel

/-- One disagreement of tile 0, whose first value was 1 and whose checker's was 2, with a third tile or none. -/
def oneRes (third : Option Nat) : Resolution := { tile := 0, value := 1, check := 2, third := third, suite := 0, record := 4 }
def disputed (third : Option Nat) (present : List Nat) : State :=
  { dev := .running, fuse := { wings := present }, faults := { resolutions := [oneRes third] } }

theorem test_meets_DisagreementsAreResolvedByRepeats :
    (resolutionOf (disputed none []) 0 = some (oneRes none) ∧ (oneRes none).third = none ∧ (oneRes none).check ≠ (oneRes none).value
      ∧ thirdTile (disputed none []) 0 = none)
    ∧ (resolutionOf (disputed none [0]) 0 = some (oneRes none) ∧ (thirdTile (disputed none [0]) 0).isSome = true)
    ∧ (resolutionOf (disputed (some 5) [0]) 0 = some (oneRes (some 5)) ∧ (oneRes (some 5)).third ≠ none) := by decide +kernel

/-- A kernel of 10 bells' duration and 5 of grace that began at 0, at bell `now`. -/
def longKernel (now : Nat) : State :=
  { running { slice := { grace := 5 } } { kernel := some 7, duration := 10, grace := 5 } with bell := { count := now, state := .locked } }

theorem test_meets_StreamFaultsHaltTheTile :
    (issues (onTile [wTake 10] {} allF) 0 .f (.take 10) (wTake 10) ∧ holds (onTile [wTake 10] {} allF) 0 .f 10 = true)
    ∧ (issues (onTile [wPass 1 10] {} []) 0 .f (.pass 1 10) (wPass 1 10) ∧ holds (onTile [wPass 1 10] {} []) 0 .f 10 = false)
    ∧ (issues (onTile [wPass 0 10] {} allF) 0 .f (.pass 0 10) (wPass 0 10) ∧ holds (onTile [wPass 0 10] {} allF) 0 .f 10 = true ∧ streamOfCode 0 = .f)
    ∧ (issues (onTile [wWait 0 15] {} []) 0 .f (.wait 0 15) (wWait 0 15) ∧ holds (onTile [wWait 0 15] {} []) 0 .f (waitToken 0) = false)
    ∧ (getTile ({} : State) 79).suite = none
    ∧ (tileRuns (longKernel 16) 0 = true ∧ (getStream (longKernel 16) 0 .f).kernel.isSome = true ∧ (getStream (longKernel 16) 0 .f).duration
        + (getStream (longKernel 16) 0 .f).grace < kernelBells (longKernel 16) (getStream (longKernel 16) 0 .f)
      ∧ (getSuite (longKernel 16) 0).state = .running)
    ∧ (tileRuns (longKernel 15) 0 = true
      ∧ kernelBells (longKernel 15) (getStream (longKernel 15) 0 .f) ≤ (getStream (longKernel 15) 0 .f).duration + (getStream (longKernel 15) 0 .f).grace) := by
  decide +kernel

def storing (w : Bool) (tk : Nat) : AtticStore :=
  { bank0 := some { seq := 4 }, bank1 := some { seq := if tk = 0 then 3 else 5 }, taken := tk, seq := if tk = 0 then 4 else 5, writing := w
    pendingFault := true, pendingOther := true }

theorem test_meets_AtticWritesTakeTheOtherBank :
    (({ dev := .standby, atticStore := storing false 0 } : State).dev ≠ .off ∧ (storing false 0).writing = false ∧ (storing false 0).pendingFault = true)
    ∧ ((storing true 0).writing = true ∧ (storing true 0).taken = 0 ∧ (storing true 0).bank0 = some { seq := 4 } ∧ (storing true 0).seq = 4)
    ∧ ((storing true 1).taken = 1 ∧ (storing true 1).bank1 = some { seq := 5 } ∧ (storing true 1).seq < 2 ^ 32) := by decide +kernel

def tested : State :=
  { dev := .testing, fuse := { wings := [0] }, bringup := { stacksTrained := [0], memTested := [0], karDone := List.range 10 } }

theorem test_meets_PowerOnLeadsToReady :
    (({} : State).dev = .off ∧ 44000 ≤ 44000 ∧ 59500 ≤ 59500)
    ∧ (({ dev := .standby } : State).dev = .standby ∧ thermalHold { dev := .standby } = false)
    ∧ (({ dev := .faulted, bringup := { code := 4 } } : State).bringup.code ≤ 4)
    ∧ (({ dev := .waking } : State).bringup.fusesRead = false ∧ takenBank ({ dev := .waking } : State).atticStore ≠ none
      ∧ ({ dev := .waking } : State).cup.railsUp = false)
    ∧ (takenBank ({ dev := .waking, atticStore := { bank0 := none } } : State).atticStore = none)
    ∧ (({ dev := .waking, bringup := { fusesRead := true } } : State).attic.fwActive = 0
      ∧ ({ dev := .waking, bringup := { fusesRead := true } } : State).fw.slotA.valid = true)
    ∧ (({ dev := .waking, bringup := { fusesRead := true }, fw := { slotB := { valid := true } } } : State).fw.slotB.valid = true)
    ∧ (wingPresent { dev := .testing } 7 = true ∧ ({ dev := .testing } : State).bringup.stacksTrained.contains 7 = false
      ∧ ({ dev := .testing } : State).bringup.stackRetries.contains 7 = false
      ∧ ({ dev := .testing, bringup := { stackRetries := [7] } } : State).bringup.stackRetries.contains 7 = true)
    ∧ (({ dev := .testing, bringup := { stacksTrained := [7] } } : State).bringup.stacksTrained.contains 7 = true
      ∧ ({ dev := .testing, bringup := { stacksTrained := [7] } } : State).bringup.memTested.contains 7 = false)
    ∧ (wingPresent { dev := .testing } (79 / 10) = true ∧ (getTile { dev := .testing } 79).health.retired = false
      ∧ ({ dev := .testing } : State).bringup.karDone.contains 79 = false ∧ tileBusy { dev := .testing } 79 = false)
    ∧ ((presentWings tested).all tested.bringup.memTested.contains = true
      ∧ (presentTiles tested).all (fun t => tested.bringup.karDone.contains t || (getTile tested t).health.retired) = true
      ∧ (presentPorts tested).all (fun p => (getPort tested p).feed == 2 || (getPort tested p).state != portTraining) = true) := by decide +kernel

def inReset : State := { dev := .running, tiles := [(79, { health := { inReset := true } })], wings := [(7, { inReset := true, drained := true })] }

theorem test_meets_ResetsKeepWhatTheirLevelKeeps :
    (getTile inReset 79).health.inReset = true ∧ (getWing inReset 7).inReset = true ∧ (getWing inReset 7).drained = true ∧ inReset.dev = .running
    ∧ (({ dev := .draining, bringup := { warm := true } } : State).bringup.sleeping = false ∧ ({ dev := .draining } : State).bringup.warm = false
      ∧ ({ dev := .draining, bringup := { sleeping := true } } : State).bringup.sleeping = true) := by decide +kernel

def activating : State := { dev := .ready, bell := { count := 9, state := .locked }, fw := { actPending := true, actBell := 9 } }
def serving : State := { dev := .ready, bell := { count := 600000000 }, fw := { serving := true } }

theorem test_meets_FirmwareActivatesAndConfirms :
    (activating.fw.actPending = true ∧ activating.fw.actBell ≤ activating.bell.count ∧ activating.bell.state ≠ .off
      ∧ activating.suites.any (fun p => p.2.job.haltBell == some activating.fw.actBell && decide (p.2.state = .running)) = false)
    ∧ (({ fw := { inActivation := true } } : State).fw.fellBack = false ∧ ({ fw := { inActivation := true, fellBack := true } } : State).fw.fellBack = true)
    ∧ (serving.fw.serving = true ∧ serving.fw.inActivation = false ∧ serving.fw.confirmed = false
      ∧ serving.fw.servedBell + 600000000 ≤ serving.bell.count) := by decide +kernel

def powered (d : DevState) (c : Cupola) : State := { dev := d, cup := c }

theorem test_meets_SupplyAndHeatAreActedOn :
    ((powered .ready {}).dev ≠ .off ∧ (powered .ready {}).cup.warn = false ∧ (powered .ready { warn := true }).cup.warn = true
      ∧ (powered .ready {}).dev ≠ .standby ∧ (powered .ready {}).cup.throttle = false)
    ∧ (36000 ≤ 36000 ∧ 36000 < 42000 ∧ 19 < 20)
    ∧ ((powered .standby { down := some 4 }).dev = .standby ∧ (powered .standby { down := some 4 }).cup.down = some 4)
    ∧ ((powered .ready { throttle := true }).cup.throttle = true ∧ (powered .ready { throttle := true }).wings.all (fun p => decide (p.2.temp ≤ 412)) = true)
    ∧ ((powered .standby { down := some 5 }).cup.down = some 5
      ∧ ((powered .standby { down := some 5 }).cup.thermalWakes.filter
          (fun t => decide ((powered .standby { down := some 5 }).attic.lifetimeS < t + 86400))).length < 3) := by decide +kernel

def governed (g : Governor) : State := { dev := .running, tiles := [(79, { gov := g })] }

theorem test_meets_GovernorsAndTelemetryFollowTheMeters :
    (clocked (governed {}) 79 = true ∧ (getTile (governed {}) 79).gov.currentSteps < 60 ∧ (getTile (governed {}) 79).gov.tempSteps < 60
      ∧ (getTile (governed {}) 79).gov.tempSteps = 0)
    ∧ (0 < (getTile (governed { tempSteps := 1 }) 79).gov.tempSteps)
    ∧ tileMhz (governed { tempSteps := 60 }) 79 = 800
    ∧ (getTile (governed { paused := true }) 79).gov.paused = true
    ∧ (({ bell := { state := .locked } } : State).bell.state ≠ .off)
    ∧ ((governed {}).dev ≠ .off ∧ (governed {}).dev ≠ .standby ∧ (governed {}).dev ≠ .waking) := by decide +kernel

/-- Function `f`'s ring, with the Hall serving; suite 0 exists. -/
def ringed (f : Nat) (r : Ring) (act : Bool) : State :=
  { dev := .ready, bnd := { perst := false }, fw := { serving := true, inActivation := act }, rings := [(f, r)], suites := [(0, { state := .empty })] }

theorem test_meets_RingsTakeDoorbellsAndEvents :
    (reachable (ringed 0 {} true) 0 = true ∧ reachable (ringed 1 {} true) 1 = true ∧ (ringed 0 {} true).fw.inActivation = true
      ∧ (if (1 : Nat) = 0 then 5 else 1 - 1) < 8 ∧ (getSuite (ringed 1 {} true) 0).state ≠ .absent)
    ∧ (reachable (ringed 0 { enable := true } false) 0 = true ∧ (getRing (ringed 0 { enable := true } false) 0).enable = true
      ∧ (getRing (ringed 0 { enable := true } false) 0).stopped = false
      ∧ 2 ^ (getRing (ringed 0 { enable := true } false) 0).sqLog2 ≤ 16 % 4096 ∧ 15 % 4096 < 2 ^ (getRing (ringed 0 { enable := true } false) 0).sqLog2
      ∧ 0 % 4096 = (getRing (ringed 0 { enable := true } false) 0).sqHead)
    ∧ ((2 % 4096 + 2 ^ 4 - 1) % 2 ^ 4 ≤ ((getRing (ringed 0 { enable := true, cqHead := 1, cqTail := 2 } false) 0).cqTail + 2 ^ 4
        - (getRing (ringed 0 { enable := true, cqHead := 1, cqTail := 2 } false) 0).cqHead) % 2 ^ 4)
    ∧ (bit 3 0 = true ∧ (getRing (ringed 0 {} false) 0).enable = false ∧ bit 2 0 = false)
    ∧ ((getRing (ringed 0 { enable := true, held := [{}], features := 32 } false) 0).held = [{}]
      ∧ bit (getRing (ringed 0 { enable := true, held := [{}], features := 32 } false) 0).features 5 = true
      ∧ 8 < freeSlots (getRing (ringed 0 { enable := true, held := [{}], features := 32 } false) 0))
    ∧ freeSlots (getRing (ringed 0 { held := [{}], cqTail := 7 } false) 0) ≤ 8 := by decide +kernel

def posting (failing : List (Nat × Nat)) : State :=
  { ringed 0 { enable := true, irqEn := true, cqBase := 0x10000, shadow := 0x8000, cqTail := 15 } false with host := { failing := failing } }

theorem test_meets_PostedPacketsFillTheSlotAtTheTail :
    (hostFails (posting []) (0x10000 + 4096 * 15) 16 = false ∧ hostFails (posting []) 0x8000 4 = false ∧ 0x8000 + 4 ≤ 0x10000 + 4096 * 15
      ∧ Memory.wf (posting []).host.mem = true)
    ∧ hostFails (posting [(0x10000, 0x10000)]) ((getRing (posting []) 0).cqBase + 4096 * (getRing (posting []) 0).cqTail) 16 = true := by decide +kernel

theorem test_meets_RegistersReadClearAndWrite :
    (accessible (ringed 0 {} false) 0 0x1FFFFFC = true ∧ pfOffset (ringed 0 {} false) 0 0 = some 0 ∧ (ringed 0 {} false).dev ≠ .waking
      ∧ blockInReset (ringed 0 {} false) 0 = false ∧ (ringed 0 {} false).fw.inActivation = false ∧ highOf 0 = some 4
      ∧ pfOffset (ringed 0 {} false) 0 0x10018 = some 0x10018 ∧ blockInReset (ringed 0 {} false) 0x10018 = false ∧ (rcFields 0x10018).length = 2)
    ∧ (accessible (ringed 1 {} false) 1 0 = true)
    ∧ (accessible { inReset with bnd := { perst := false } } 0 0x14F0000 = true
      ∧ blockInReset { inReset with bnd := { perst := false } } 0x14F0000 = true)
    ∧ (accessible { ringed 0 {} false with dev := .waking } 0 0 = true)
    ∧ imaged { suites := [(7, { state := .loaded })] } 7 = true := by decide +kernel

def atPins (d : DevState) (code : Nat) (b : Boundary) : State := { dev := d, bringup := { code := code }, bnd := b }

theorem test_meets_TheBoundaryAndManagementInterfaceAnswer :
    ((atPins .ready 0 { perst := false }).bnd.perst = false ∧ endpointOn (atPins .ready 0 { perst := false }) = true
      ∧ endpointOn (atPins .standby 0 { perst := false }) = false ∧ (atPins .ready 0 {}).bnd.perst = true)
    ∧ ((atPins .ready 0 { perst := false }).bnd.d3hot.contains 8 = false ∧ (atPins .ready 0 { d3hot := [8] }).bnd.d3hot.contains 8 = true)
    ∧ ((atPins .ready 0 {}).dev ≠ .off ∧ (atPins .ready 0 {}).dev ≠ .faulted ∧ (atPins .faulted 4 {}).dev = .faulted)
    ∧ (noFirmware (atPins .faulted 4 {}) = true ∧ noFirmware (atPins .ready 0 {}) = false ∧ (atPins .faulted 4 { pldmUpdate := 2 }).bnd.pldmUpdate = 2)
    ∧ (hallAnswers (atPins .ready 0 { spdmState := 3 }) = true ∧ 3 ≤ (atPins .ready 0 { spdmState := 3 }).bnd.spdmState
      ∧ (atPins .ready 0 {}).bnd.spdmState < 3) := by decide +kernel

set_option synthInstance.maxSize 100000

/-- A waiting command of the physical function, with the tag 7. -/
def asked (op n : Nat) (b : Bytes) : Waiting := { pkt := { opcode := op, suite := n, tag := 7, payload := b } }
/-- `s` with that command in the physical function's queue, the ring open. -/
def cmd (s : State) (op n : Nat) (b : Bytes) : State :=
  { s with bnd := { s.bnd with perst := false }, fw := { s.fw with serving := true }
           rings := [(0, { enable := true, session := true, queue := [asked op n b] })] }
abbrev RunsOn (s : State) (op n : Nat) (b : Bytes) : Prop := Runs (cmd s op n b) (.ring 0) 7 op (asked op n b) n b

def ready : State := { dev := .ready }
/-- Suite 0 in a state, and nothing else. -/
def suite0 (x : Suite) : State := { dev := .running, suites := [(0, x)] }
def faultHeld : State := { dev := .ready, faults := { held := [{ index := 4, suite := 0 }], next := 5, signatures := [(4, [1#8])] }, suites := [(0, { state := .empty })] }
def z (n : Nat) : Bytes := List.replicate n 0#8

theorem test_meets_QueriesReplyWithTheirFields :
    (RunsOn ready 0x0000 0xFF (z 16) ∧ (commonVersions (z 16)).findIdx? (fun l => l.isEmpty) = some 0)
    ∧ (RunsOn ready 0x0000 0xFF (List.replicate 16 0xFF#8) ∧ (commonVersions (List.replicate 16 0xFF#8)).findIdx? (fun l => l.isEmpty) = none)
    ∧ RunsOn ready 0x0001 0xFF (z 4) ∧ RunsOn ready 0x0001 0xFF (natLE 2 4) ∧ RunsOn ready 0x0800 0xFF [] ∧ RunsOn ready 0x0801 0xFF (z 4)
    ∧ RunsOn ready 0x0900 0xFF [] ∧ RunsOn ready 0x0903 0xFF (natLE 3 4) ∧ RunsOn ready 0x0704 0xFF [] ∧ RunsOn ready 0x0702 0xFF []
    ∧ (RunsOn ready 0x0600 0xFF (z 4) ∧ visible (cmd ready 0x0600 0xFF (z 4)) 0xFF = [])
    ∧ (RunsOn faultHeld 0x0600 0 (natLE 4 4) ∧ visible (cmd faultHeld 0x0600 0 (natLE 4 4)) 0 = [{ index := 4, suite := 0 }] ∧ fieldAt (natLE 4 4) 0 4 ≤ 4)
    ∧ (RunsOn faultHeld 0x0601 0 (natLE 4 4) ∧ (visible faultHeld 0).find? (fun r => r.index == fieldAt (natLE 4 4) 0 4) = some { index := 4, suite := 0 })
    ∧ (RunsOn faultHeld 0x0601 0 (natLE 3 4) ∧ ∀ r, r ∈ visible faultHeld 0 → r.index ≠ fieldAt (natLE 3 4) 0 4)
    ∧ (RunsOn faultHeld 0x0602 0xFF (natLE 4 4 ++ z 4) ∧ signatureAt faultHeld (fieldAt (natLE 4 4 ++ z 4) 0 4) = some [1#8])
    ∧ (RunsOn faultHeld 0x0602 0xFF (natLE 9 4 ++ z 4) ∧ signatureAt faultHeld (fieldAt (natLE 9 4 ++ z 4) 0 4) = none)
    ∧ (RunsOn (suite0 { state := .empty }) 0x0401 0 [] ∧ (getSuite (suite0 { state := .empty }) 0).image.isNone = true)
    ∧ (RunsOn (suite0 { state := .loaded, image := some (richImage []) }) 0x0401 0 []
      ∧ (getSuite (suite0 { state := .loaded, image := some (richImage []) }) 0).image.isSome = true)
    ∧ (RunsOn (suite0 { state := .empty, res := { blocks := 1 } }) 0x0F01 0 (natLE 1000 2 ++ natLE 25 2)
      ∧ 1024 * (getSuite (suite0 { state := .empty, res := { blocks := 1 } }) 0).res.blocks < fieldAt (natLE 1000 2 ++ natLE 25 2) 0 2 + fieldAt (natLE 1000 2 ++ natLE 25 2) 2 2)
    ∧ (RunsOn (suite0 { state := .empty, res := { blocks := 1 } }) 0x0F01 0 (natLE 1000 2 ++ natLE 24 2)
      ∧ fieldAt (natLE 1000 2 ++ natLE 24 2) 0 2 + fieldAt (natLE 1000 2 ++ natLE 24 2) 2 2
        ≤ 1024 * (getSuite (suite0 { state := .empty, res := { blocks := 1 } }) 0).res.blocks) := by decide +kernel

def unitBody (c sub i : Nat) : Bytes := natLE c 1 ++ natLE sub 1 ++ z 2 ++ natLE i 4
def resetBody (l i : Nat) : Bytes := natLE l 1 ++ z 1 ++ natLE i 2
def tilesBody (ts : List Nat) : Bytes := natLE (ts.foldl (fun a t => a + 2 ^ t) 0) 10
def capped : Bytes := tilesBody [0, 79] ++ natLE 900 2

theorem test_meets_DeviceCommandsHaveTheirEffect_device :
    (Runs { cmd ready 0x0100 0xFF (z 4) with dev := .standby, rings := [(16, { queue := [asked 0x0100 0xFF (z 4)] })] } (.link 0) 7 0x0100 (asked 0x0100 0xFF (z 4)) 0xFF (z 4)
      ∧ RunsOn ready 0x0100 0xFF (z 4))
    ∧ (RunsOn ready 0x0101 0xFF [] ∧ ready.suites.any (fun q => awake q.2) = false)
    ∧ (RunsOn { ready with suites := [(0, { state := .preempted })] } 0x0101 0xFF [] ∧ ([(0, ({ state := .preempted } : Suite))] : SMap Suite).any (fun q => awake q.2) = true)
    ∧ (RunsOn ready 0x0102 0xFF (resetBody 0 79) ∧ fieldAt (resetBody 0 79) 0 1 = 0 ∧ usableTile (cmd ready 0x0102 0xFF (resetBody 0 79)) (fieldAt (resetBody 0 79) 2 2) = true
      ∧ usableTile { ready with fuse := { wings := [] } } (fieldAt (resetBody 0 79) 2 2) = false)
    ∧ (RunsOn ready 0x0102 0xFF (resetBody 1 7) ∧ fieldAt (resetBody 1 7) 0 1 = 1 ∧ wingPresent ready (fieldAt (resetBody 1 7) 2 2) = true
      ∧ wingPresent { ready with fuse := { wings := [] } } 7 = false)
    ∧ (RunsOn (suite0 { state := .running }) 0x0102 0 (resetBody 2 0) ∧ fieldAt (resetBody 2 0) 0 1 = 2)
    ∧ RunsOn (suite0 { state := .faulted }) 0x0102 0 (resetBody 2 0) ∧ RunsOn (suite0 { state := .draining }) 0x0102 0 (resetBody 2 0)
    ∧ RunsOn (suite0 { state := .preempted }) 0x0102 0 (resetBody 2 0) ∧ RunsOn (suite0 { state := .empty }) 0x0102 0 (resetBody 2 0)
    ∧ RunsOn (suite0 { state := .loaded }) 0x0102 0 (resetBody 2 0)
    ∧ (RunsOn ready 0x0102 0xFF (resetBody 3 0) ∧ fieldAt (resetBody 3 0) 0 1 = 3 ∧ RunsOn ready 0x0102 0xFF (resetBody 4 0)) := by decide +kernel

theorem test_meets_DeviceCommandsHaveTheirEffect_units :
    (∀ p, p ∈ [(0, 79), (1, 319), (2, 7), (3, 511), (4, 15)] →
      RunsOn ready 0x0103 0xFF (if p.1 = 1 then unitBody 1 (p.2 % 4) (p.2 / 4) else unitBody p.1 0 p.2)
      ∧ namedUnit (if p.1 = 1 then unitBody 1 (p.2 % 4) (p.2 / 4) else unitBody p.1 0 p.2) = p
      ∧ unitThere (cmd ready 0x0103 0xFF []) p.1 p.2 = true ∧ unitDisabled ready p.1 p.2 = false
      ∧ RunsOn ready 0x0104 0xFF (if p.1 = 1 then unitBody 1 (p.2 % 4) (p.2 / 4) else unitBody p.1 0 p.2))
    ∧ unitThere { ready with fuse := { wings := [] } } 0 79 = false
    ∧ unitDisabled { ready with tiles := [(79, { health := { disabled := true } })] } 0 79 = true
    ∧ (RunsOn ready 0x0F03 0xFF (tilesBody [0, 79]) ∧ setBits (tilesBody [0, 79]) 0 10 = [0, 79]
      ∧ (∀ t, t ∈ [0, 79] → usableTile ready t = true ∧ tileHeld ready t = false)
      ∧ RunsOn ready 0x0F03 0xFF (tilesBody []) ∧ setBits (tilesBody []) 0 10 = [])
    ∧ ([0, 79].find? (fun t => !(usableTile { ready with fuse := { wings := [0] } } t)) = some 79)
    ∧ ([0, 79].find? (tileHeld (suite0 { res := { tiles := [79] } })) = some 79)
    ∧ (RunsOn ready 0x0F02 0xFF (natLE 15 4) ∧ portPresent ready (fieldAt (natLE 15 4) 0 1) = true ∧ (getPort ready 15).disabled = false
      ∧ portInUse ready 15 = false ∧ portInUse (suite0 { state := .running, res := { ports := [(15, 1)] } }) 15 = true)
    ∧ (RunsOn { lit 3 3 { feed := 0 } with lanterns := [(0, { state := 3 })] } 0x0904 0xFF (natLE 0 4) ∧ bit (fieldAt (natLE 0 4) 1 1) 0 = false
      ∧ (stuckPorts (cmd { lit 3 3 { feed := 0 } with lanterns := [(0, { state := 3 })] } 0x0904 0xFF (natLE 0 4)) (fieldAt (natLE 0 4) 0 1)).head? = some 0
      ∧ bit (fieldAt (natLE 256 4) 1 1) 0 = true)
    ∧ (RunsOn (lit 3 3 { feed := 0 }) 0x0904 0xFF (natLE 3 4) ∧ stuckPorts (lit 3 3 { feed := 0 }) (fieldAt (natLE 3 4) 0 1) = [])
    ∧ (RunsOn (lit 0 3 {}) 0x0905 0xFF (natLE 0 4) ∧ (getLantern (lit 0 3 {}) 0).state = 0 ∧ (getLantern (lit 0 3 {}) 1).state ≠ 0)
    ∧ (RunsOn (suite0 { state := .empty, res := { tiles := [0] } }) 0x0901 0 capped ∧ 79 ∈ setBits capped 0 10
      ∧ (79 : Nat) ∉ (getSuite (suite0 { state := .empty, res := { tiles := [0] } }) 0).res.tiles
      ∧ (∀ t, t ∈ setBits capped 0 10 → t ∈ (getSuite (suite0 { state := .empty, res := { tiles := [0, 79] } }) 0).res.tiles)
      ∧ RunsOn ready 0x0901 0xFF capped)
    ∧ RunsOn ready 0x0902 0xFF (natLE 800 4) := by decide +kernel

/-- The slot in service holds no valid image, so its digest is zeros; the other stage is as given. -/
def staged (fw : Firmware) (es : List BellEvent) : State :=
  { dev := .ready, fw := { fw with slotA := {} }, bell := { count := 5, state := .locked, events := es, nextEvent := 2 } }
def stageBody (digest : Byte) : Bytes := List.replicate 48 digest ++ natLE 4096 4 ++ natLE 9 4
def actBody (digest : Byte) : Bytes := List.replicate 48 digest ++ natLE 100 8
def cancelEvent (op : Nat) : BellEvent := { id := 1, bell := 50, opcode := op, suite := 0xFF }

theorem test_meets_DeviceCommandsHaveTheirEffect_others :
    (RunsOn faultHeld 0x0604 0 (natLE 3 4) ∧ (∀ r, r ∈ visible faultHeld 0 → fieldAt (natLE 3 4) 0 4 < r.index))
    ∧ (RunsOn faultHeld 0x0604 0xFF (natLE 4 4) ∧ (visible faultHeld 0xFF).any (fun r => decide (r.index ≤ fieldAt (natLE 4 4) 0 4)) = true)
    ∧ (RunsOn (staged { actPending := true } []) 0x0700 0xFF (stageBody 0#8))
    ∧ (RunsOn (staged {} []) 0x0700 0xFF (stageBody 0#8) ∧ (staged {} []).fw.actPending = false
      ∧ bytesAt (stageBody 0#8) 0 48 = slotDigest (staged {} []).fw (staged {} []).fw.active)
    ∧ (RunsOn (staged {} []) 0x0700 0xFF (stageBody 1#8) ∧ bytesAt (stageBody 1#8) 0 48 ≠ slotDigest (staged {} []).fw (staged {} []).fw.active
      ∧ fieldAt (stageBody 1#8) 48 4 ≠ 0 ∧ (staged {} []).fw.active ≤ 1)
    ∧ (RunsOn (staged { stage := 1, stagedLength := 4097 } []) 0x0701 0xFF (natLE 1 4 ++ natLE 1 4 ++ natLE 0 4 ++ z 2048)
      ∧ fieldAt (natLE 1 4 ++ natLE 1 4 ++ natLE 0 4 ++ z 2048) 0 4 < stagedBlocks (staged { stage := 1, stagedLength := 4097 } []).fw
      ∧ (staged {} []).fw.stage ≠ 1)
    ∧ (RunsOn (staged {} []) 0x0703 0xFF (actBody 0#8) ∧ (staged {} []).fw.stage ≠ 2 ∧ (staged {} []).fw.stage ≠ 3)
    ∧ (RunsOn (staged { stage := 2, stagedDigest := z 48 } []) 0x0703 0xFF (actBody 0#8)
      ∧ bytesAt (actBody 0#8) 0 48 = (staged { stage := 2, stagedDigest := z 48 } []).fw.stagedDigest
      ∧ bytesAt (actBody 0#8) 0 48 = slotDigest (staged { stage := 2, stagedDigest := z 48 } []).fw 0)
    ∧ (RunsOn (staged { stage := 2, stagedDigest := List.replicate 48 1#8 } []) 0x0703 0xFF (actBody 1#8)
      ∧ bytesAt (actBody 1#8) 0 48 = (staged { stage := 2, stagedDigest := List.replicate 48 1#8 } []).fw.stagedDigest
      ∧ bytesAt (actBody 1#8) 0 48 ≠ slotDigest (staged { stage := 2, stagedDigest := List.replicate 48 1#8 } []).fw 0
      ∧ (pendingEvents (staged { stage := 2, stagedDigest := List.replicate 48 1#8 } [])).length < 1024)
    ∧ (RunsOn (staged {} []) 0x0803 0xFF (natLE 1 4) ∧ (∀ e, e ∈ seenEvents (staged {} []) 0xFF → e.id = fieldAt (natLE 1 4) 0 4 → e.bell ≤ (staged {} []).bell.count))
    ∧ (∀ op, op ∈ [0x0506, 0x0802, 0x0703] → RunsOn (staged {} [cancelEvent op]) 0x0803 0xFF (natLE 1 4)
      ∧ (seenEvents (staged {} [cancelEvent op]) 0xFF).find? (fun e => e.id == fieldAt (natLE 1 4) 0 4 && decide ((staged {} [cancelEvent op]).bell.count < e.bell))
        = some (cancelEvent op)) := by decide +kernel

/-- A digest that the kernel can compute: of the empty image that is staged. -/
def brokenStage : State := staged { stage := 3, stagedDigest := sha384 [] } []

theorem test_meets_DeviceCommandsHaveTheirEffect_broken :
    RunsOn brokenStage 0x0703 0xFF (sha384 [] ++ natLE 100 8) ∧ brokenStage.fw.stage = 3
      ∧ bytesAt (sha384 [] ++ natLE 100 8) 0 48 = brokenStage.fw.stagedDigest
      ∧ sha384 (stagedBytes brokenStage.fw) = bytesAt (sha384 [] ++ natLE 100 8) 0 48 := by decide +kernel

/-- CREATE_SUITE of the tiles given, one block of entries, everything else empty. -/
def createBody (ts : List Nat) (blocks : Nat) : Bytes := tilesBody ts ++ z 2 ++ z 64 ++ z 16 ++ natLE blocks 1 ++ z 3 ++ z 16
def withJob (r : Nat × Nat) : State := { suite0 { state := .loaded } with mgr := { role := 2, moduleId := 0, jobs := [(0, { started := true, ranks := [(0, r)] })] } }

/-- Tensor 0 is an input of one image, 64 bytes, read by an INPUT entry of kind 0. -/
def inputImage : Image :=
  { tensors := [(0, { fmt := .b32, role := 0, shape := [4, 4] })], streams := 1
    decls := [{ type := 1, tensor := 0, trainCount := 1 }] }
def bindBody (n kind len : Nat) : Bytes := z 48 ++ natLE kind 1 ++ z 1 ++ natLE n 2 ++ z 4 ++ (natLE 0 3 ++ z 1 ++ natLE 0 5 ++ natLE len 5 ++ z 2)
def loadedIn (st : SuiteState) : State := suite0 { state := st, image := some inputImage, res := { pcs := [0] }, bindings := [{ len := 128 }] }
def inputBody (tensor off len : Nat) : Bytes := natLE tensor 3 ++ z 5 ++ natLE off 8 ++ z 8 ++ natLE len 8
def ckptOf (step : Nat) (vouched : Bool) : Checkpoint := { step := step, complete := true, vouched := vouched }
def withCkpts (cs : List Checkpoint) : State := suite0 { state := .loaded, image := some (richImage []), checkpoints := cs }

theorem test_meets_SuiteCommandsHaveTheirEffect_made :
    RunsOn (suite0 { state := .empty }) 0x0200 0 (createBody [79] 1)
    ∧ (RunsOn ready 0x0200 7 (createBody [79] 1) ∧ (getSuite ready 7).state = .absent ∧ resourceBad (settleSpares (taken (cmd ready 0x0200 7 (createBody [79] 1)) (.ring 0) (asked 0x0200 7 (createBody [79] 1))) none) (askedRes (createBody [79] 1)) = some (0x0306, 79))
    ∧ (RunsOn ready 0x0200 7 (createBody [78] 1) ∧ resourceBad (settleSpares (taken (cmd ready 0x0200 7 (createBody [78] 1)) (.ring 0) (asked 0x0200 7 (createBody [78] 1))) none) (askedRes (createBody [78] 1)) = none)
    ∧ RunsOn (suite0 { state := .running }) 0x0201 0 []
    ∧ (RunsOn (withJob (0, 0)) 0x0201 0 [] ∧ namedInJob (withJob (0, 0)) 0 = true)
    ∧ (RunsOn (withJob (0, 1)) 0x0201 0 [] ∧ namedInJob (withJob (0, 1)) 0 = false)
    ∧ RunsOn (suite0 { state := .running }) 0x0202 0 (z 80) ∧ RunsOn (suite0 { state := .empty }) 0x0202 0 (z 80) := by decide +kernel

theorem test_meets_SuiteCommandsHaveTheirEffect_bound :
    (RunsOn (suite0 { state := .empty }) 0x0203 0 (bindBody 1 0 128) ∧ (getSuite (suite0 { state := .empty }) 0).image.isNone = true)
    ∧ (RunsOn (loadedIn .running) 0x0203 0 (bindBody 1 0 128) ∧ fieldAt (bindBody 1 0 128) 48 1 = 0)
    ∧ (RunsOn (loadedIn .loaded) 0x0203 0 (bindBody 1 0 100)
      ∧ bindingsBad (cmd (loadedIn .loaded) 0x0203 0 (bindBody 1 0 100)) 0 inputImage (askedBindings (bindBody 1 0 100)) [] = true)
    ∧ (RunsOn (loadedIn .loaded) 0x0203 0 (bindBody 1 0 128)
      ∧ ((getSuite (loadedIn .loaded) 0).evalNext.getD (getSuite (loadedIn .loaded) 0).bindings).filter (fun x => x.kind != fieldAt (bindBody 1 0 128) 48 1) = []
      ∧ bindingsBad (cmd (loadedIn .loaded) 0x0203 0 (bindBody 1 0 128)) 0 inputImage (askedBindings (bindBody 1 0 128)) [] = false)
    ∧ (RunsOn (loadedIn .running) 0x0203 0 (bindBody 0 1 0) ∧ fieldAt (bindBody 0 1 0) 48 1 = 1
      ∧ bindingsBad (cmd (loadedIn .running) 0x0203 0 (bindBody 0 1 0)) 0 inputImage (askedBindings (bindBody 0 1 0)) [{ len := 128 }] = false)
    ∧ RunsOn (suite0 { state := .empty }) 0x0204 0 (inputBody 0 0 64)
    ∧ (RunsOn (loadedIn .loaded) 0x0204 0 (inputBody 1 0 64) ∧ bindingOf (getSuite (loadedIn .loaded) 0) (fieldAt (inputBody 1 0 64) 0 3) (fieldAt (inputBody 1 0 64) 3 1) = none)
    ∧ (RunsOn (loadedIn .loaded) 0x0204 0 (inputBody 0 64 64)
      ∧ bindingOf (getSuite (loadedIn .loaded) 0) (fieldAt (inputBody 0 64 64) 0 3) (fieldAt (inputBody 0 64 64) 3 1) = some { len := 128 }
      ∧ fieldAt (inputBody 0 64 64) 8 8 + fieldAt (inputBody 0 64 64) 24 8 ≤ 128)
    ∧ (RunsOn (loadedIn .loaded) 0x0204 0 (inputBody 0 65 64) ∧ 128 < fieldAt (inputBody 0 65 64) 8 8 + fieldAt (inputBody 0 65 64) 24 8)
    ∧ RunsOn (suite0 { state := .empty }) 0x0F00 0 (inputBody 0 0 64)
    ∧ (RunsOn (loadedIn .faulted) 0x0F00 0 (inputBody 0 0 64) ∧ SMap.has inputImage.tensors (fieldAt (inputBody 0 0 64) 0 3) = true
      ∧ fieldAt (inputBody 0 0 64) 8 8 + fieldAt (inputBody 0 0 64) 24 8 ≤ storedBytes (SMap.get {} inputImage.tensors (fieldAt (inputBody 0 0 64) 0 3)))
    ∧ (RunsOn (loadedIn .preempted) 0x0F00 0 (inputBody 1 0 64) ∧ SMap.has inputImage.tensors (fieldAt (inputBody 1 0 64) 0 3) = false) := by decide +kernel

theorem test_meets_SuiteCommandsHaveTheirEffect_read :
    RunsOn (suite0 { state := .empty }) 0x0402 0 (natLE 3 4 ++ z 28)
    ∧ (RunsOn (withCkpts [ckptOf 3 false]) 0x0402 0 (natLE 3 4 ++ z 28)
      ∧ (getSuite (withCkpts [ckptOf 3 false]) 0).checkpoints.any (fun c => c.step == fieldAt (natLE 3 4 ++ z 28) 0 4) = true)
    ∧ (RunsOn (withCkpts [ckptOf 3 false]) 0x0402 0 (natLE 4 4 ++ z 28)
      ∧ (getSuite (withCkpts [ckptOf 3 false]) 0).checkpoints.all (fun c => c.step != fieldAt (natLE 4 4 ++ z 28) 0 4) = true)
    ∧ RunsOn (suite0 { state := .running }) 0x0403 0 (natLE 4 4 ++ z 28)
    ∧ (RunsOn (withCkpts [ckptOf 3 true]) 0x0403 0 (natLE 4 4 ++ z 28)
      ∧ (checkpointSlot { (getSuite (withCkpts [ckptOf 3 true]) 0) with checkpoints := (getSuite (withCkpts [ckptOf 3 true]) 0).checkpoints.filter (fun c => c.step != fieldAt (natLE 4 4 ++ z 28) 0 4) } (richImage [])).isNone = true)
    ∧ (RunsOn (withCkpts []) 0x0403 0 (natLE 4 4 ++ z 28)
      ∧ (checkpointSlot { (getSuite (withCkpts []) 0) with checkpoints := (getSuite (withCkpts []) 0).checkpoints.filter (fun c => c.step != fieldAt (natLE 4 4 ++ z 28) 0 4) } (richImage [])).isSome = true)
    ∧ RunsOn (suite0 { state := .empty }) 0x0404 0 (z 24) ∧ RunsOn (withCkpts []) 0x0404 0 (z 24)
    ∧ (RunsOn { ready with mgr := { role := 1 } } 0x0405 0xFF (z 32) ∧ takesJobs { ready with mgr := { role := 1 } } = false)
    ∧ (RunsOn ready 0x0405 0xFF (z 32) ∧ takesJobs ready = true ∧ SMap.has ready.mgr.jobs (fieldAt (z 32) 0 1) = false)
    ∧ (RunsOn { ready with mgr := { jobs := [(0, {})] } } 0x0405 0xFF (z 32) ∧ SMap.has ([(0, {})] : SMap Job) (fieldAt (z 32) 0 1) = true) := by decide +kernel

/-- The same command, now executing; host memory fails where it is told to. -/
def transferring (s : State) (op n : Nat) (b : Bytes) (failing : List (Nat × Nat)) : State :=
  { s with bnd := { s.bnd with perst := false }, host := { failing := failing }
           rings := [(0, { enable := true, session := true, cmdVersion := 3, imageVersions := [1, 2], digestVersions := [1], queue := [{ asked op n b with executing := true }] })] }
abbrev ExecutesOn (s : State) (op n : Nat) (b : Bytes) (failing : List (Nat × Nat)) : Prop :=
  Executes (transferring s op n b failing) (.ring 0) 7 op { asked op n b with executing := true } ∧ targetOf (.ring 0) (asked op n b).pkt = n ∧ bodyOf (asked op n b).pkt = b
def loadBody (d : Bytes) : Bytes := z 8 ++ natLE 64 8 ++ d

theorem test_meets_BulkTransfersComplete :
    (ExecutesOn (suite0 { state := .empty }) 0x0202 0 (loadBody (z 48)) [(0, 4)]
      ∧ hostFails (transferring (suite0 { state := .empty }) 0x0202 0 (loadBody (z 48)) [(0, 4)]) (fieldAt (loadBody (z 48)) 0 8) (fieldAt (loadBody (z 48)) 8 8) = true)
    ∧ (ExecutesOn (suite0 { state := .empty }) 0x0202 0 (loadBody (z 48)) []
      ∧ hostFails (transferring (suite0 { state := .empty }) 0x0202 0 (loadBody (z 48)) []) (fieldAt (loadBody (z 48)) 0 8) (fieldAt (loadBody (z 48)) 8 8) = false
      ∧ imageDigest (hostBytes (transferring (suite0 { state := .empty }) 0x0202 0 (loadBody (z 48)) []) (fieldAt (loadBody (z 48)) 0 8) (fieldAt (loadBody (z 48)) 8 8)) ≠ bytesAt (loadBody (z 48)) 16 48)
    ∧ (ExecutesOn (loadedIn .loaded) 0x0204 0 (inputBody 0 0 64) [] ∧ (bindingOf (getSuite (loadedIn .loaded) 0) (fieldAt (inputBody 0 0 64) 0 3) (fieldAt (inputBody 0 0 64) 3 1)).isSome = true
      ∧ hostFails (transferring (loadedIn .loaded) 0x0204 0 (inputBody 0 0 64) []) (fieldAt (inputBody 0 0 64) 16 8) (fieldAt (inputBody 0 0 64) 24 8) = false
      ∧ hostFails (transferring (loadedIn .loaded) 0x0204 0 (inputBody 0 0 64) [(63, 1)]) (fieldAt (inputBody 0 0 64) 16 8) (fieldAt (inputBody 0 0 64) 24 8) = true)
    ∧ (ExecutesOn (loadedIn .loaded) 0x0F00 0 (inputBody 0 0 64) [] ∧ ExecutesOn (loadedIn .loaded) 0x0F00 0 (inputBody 0 0 64) [(63, 1)])
    ∧ (ExecutesOn (withCkpts [ckptOf 3 false]) 0x0402 0 (natLE 3 4 ++ z 20 ++ natLE 64 8) [(0, 1)]
      ∧ (getSuite (withCkpts [ckptOf 3 false]) 0).checkpoints.find? (fun c => c.step == fieldAt (natLE 3 4 ++ z 20 ++ natLE 64 8) 0 4) = some (ckptOf 3 false)
      ∧ hostFails (transferring ready 0 0 [] [(0, 1)]) 0 64 = true ∧ hostFails (transferring ready 0 0 [] []) 0 64 = false)
    ∧ (ExecutesOn (withCkpts []) 0x0403 0 (natLE 3 4 ++ z 20 ++ natLE 64 8) [] ∧ bit (fieldAt (natLE 3 4 ++ z 20 ++ natLE 64 8) 4 1) 0 = false
      ∧ ExecutesOn (withCkpts []) 0x0403 0 (natLE 3 4 ++ natLE 1 4 ++ z 16 ++ natLE 64 8) [] ∧ bit (fieldAt (natLE 3 4 ++ natLE 1 4 ++ z 16 ++ natLE 64 8) 4 1) 0 = true)
    ∧ ExecutesOn (withCkpts []) 0x0404 0 (z 16 ++ natLE 480 8) []
    ∧ ExecutesOn { ready with mgr := { jobs := [(0, {})] } } 0x0405 0xFF (z 24 ++ natLE 64 8) [] := by decide +kernel

/-- An image whose load fails its first check: 64 zero bytes. -/
theorem test_meets_BulkTransfersComplete_refused :
    ∃ st, loadFailure (loadBase (transferring (suite0 { state := .empty }) 0x0202 0 (loadBody (imageDigest (z 64))) []) 0) 0 {} (z 64) = some st := ⟨_, rfl⟩

/-- A top manager that runs rank 0 of job 0 in its own suite 0. -/
def soloJob : Job := { ranks := [(0, (0, 0))] }
def solo (j : Job) (x : Suite) : State :=
  { dev := .running, mgr := { role := 2, moduleId := 0, jobs := [(0, j)] }
    suites := [(0, { x with image := some (richImage []), res := { tiles := [0], pcs := [0], granted := [0] } })] }
def ganged (st : SuiteState) : Suite := { state := st, job := { rank := some 0, nRanks := 2 } }
/-- A START of job 0 on `n` ranks with one level of size 1. -/
def startBody (n : Nat) : Bytes := z 2 ++ natLE 1 2 ++ natLE n 4 ++ natLE 1 2 ++ z 14
def withMgr (m : Manager) : State := { dev := .ready, mgr := m }
def topMgr (m : Manager) : State := withMgr { m with role := 2, moduleId := 0 }
/-- A worker-role module, which takes no jobs. -/
def asWorker (s : State) : State := { s with mgr := { role := 1, moduleId := 6, parent := 0, parentPort := 2 } }
/-- A START of job 0 that waits for answers, beside the command. -/
def startingUp (s : State) (op n : Nat) (b : Bytes) : State :=
  { cmd s op n b with
    rings := [(0, { enable := true, session := true, queue := [asked op n b] }), (1, { queue := [{ asked 0x0300 0xFF (startBody 1) with executing := true }] })]
    mgr := { s.mgr with broadcasts := [{ src := .ring 1, tag := 7 }] } }

theorem test_meets_ExecutionCommandsStartAndStop_start :
    (RunsOn (asWorker ready) 0x0300 0xFF (startBody 1) ∧ takesJobs (asWorker ready) = false)
    ∧ (RunsOn (solo { soloJob with started := true } { state := .running }) 0x0300 0xFF (startBody 1)
      ∧ takesJobs (solo { soloJob with started := true } { state := .running }) = true)
    ∧ (RunsOn (solo {} { state := .loaded }) 0x0300 0xFF (startBody 1) ∧ (getJob (solo {} { state := .loaded }) (fieldAt (startBody 1) 0 1)).ranks = []
      ∧ (getJob (solo {} { state := .loaded }) (fieldAt (startBody 1) 0 1)).started = false)
    ∧ (RunsOn (solo soloJob { state := .loaded }) 0x0300 0xFF (startBody 2)
      ∧ (jobRefusal (solo soloJob { state := .loaded }) soloJob (fieldAt (startBody 2) 4 4) (some (givenLevels (startBody 2)))).isSome = true)
    ∧ (RunsOn (solo soloJob { state := .loaded }) 0x0300 0xFF (startBody 1)
      ∧ jobRefusal (cmd (solo soloJob { state := .loaded }) 0x0300 0xFF (startBody 1)) soloJob (fieldAt (startBody 1) 4 4) (some (givenLevels (startBody 1))) = none
      ∧ ∀ g, g ∈ (solo soloJob { state := .loaded }).mgr.broadcasts → g.src ≠ .ring 0 ∨ g.tag ≠ 7) := by decide +kernel

/-- A request that a worker module has sent on to its top manager, at port 2. -/
def sentOn (op n : Nat) (b : Bytes) : Waiting :=
  { pkt := { opcode := op, suite := n, tag := 7, flags := 8, payload := natLE 0 4 ++ natLE 6 4 ++ z 8 ++ b } }
def gangTop (op : Nat) (b : Bytes) : State :=
  { solo { ranks := [(0, (6, 0)), (1, (7, 0))], nRanks := 2, started := true } { state := .loaded } with
    bnd := { perst := false }, fw := { serving := true }, rings := [(18, { queue := [sentOn op 0 b] })] }
def preemptedSaved : Suite := { state := .preempted, saves := [(0, { f := atGate 4, b := atGate 4, u := atGate 4 })] }

theorem test_meets_ExecutionCommandsStartAndStop_preempt :
    (RunsOn (solo soloJob { state := .loaded }) 0x0301 0 (z 4) ∧ forwardedFor (solo soloJob { state := .loaded }) (asked 0x0301 0 (z 4)).pkt = none)
    ∧ (RunsOn (solo soloJob { state := .running }) 0x0301 0 (z 4) ∧ multiRank (getSuite (solo soloJob { state := .running }) 0) = false)
    ∧ (RunsOn (solo { soloJob with started := true, nRanks := 2 } (ganged .running)) 0x0301 0 (z 4)
      ∧ multiRank (getSuite (solo { soloJob with started := true, nRanks := 2 } (ganged .running)) 0) = true
      ∧ isTop (solo { soloJob with started := true, nRanks := 2 } (ganged .running)) = true
      ∧ jobWithRank (solo { soloJob with started := true, nRanks := 2 } (ganged .running)) 0 0 = some 0)
    ∧ (RunsOn (asWorker (solo {} (ganged .running))) 0x0301 0 (z 4) ∧ isTop (asWorker (solo {} (ganged .running))) = false)
    ∧ (Runs (gangTop 0x0301 (z 4)) (.link 2) 7 0x0301 (sentOn 0x0301 0 (z 4)) 0 (z 4) ∧ forwardedFor (gangTop 0x0301 (z 4)) (sentOn 0x0301 0 (z 4)).pkt = some 0)
    ∧ (Runs (gangTop 0x0302 (z 8)) (.link 2) 7 0x0302 (sentOn 0x0302 0 (z 8)) 0 (z 8) ∧ forwardedFor (gangTop 0x0302 (z 8)) (sentOn 0x0302 0 (z 8)).pkt = some 0)
    ∧ (RunsOn (solo soloJob { state := .loaded }) 0x0302 0 (z 8) ∧ fieldAt (z 8) 0 1 = 0)
    ∧ (RunsOn (solo soloJob { state := .preempted }) 0x0302 0 (z 8) ∧ multiRank (getSuite (solo soloJob { state := .preempted }) 0) = false
      ∧ resumeFailure (updSuite (taken (cmd (solo soloJob { state := .preempted }) 0x0302 0 (z 8)) (.ring 0) (asked 0x0302 0 (z 8))) 0 (fun x => { x with excluded := [] })) 0 = none
      ∧ groupBusy (solo soloJob { state := .preempted }) 0 = false)
    ∧ (RunsOn { solo soloJob { state := .preempted } with fuse := { wings := [] } } 0x0302 0 (z 8)
      ∧ (resumeFailure (updSuite { solo soloJob { state := .preempted } with fuse := { wings := [] } } 0 (fun x => { x with excluded := [] })) 0).isSome = true) := by
  decide +kernel

def resumeBody (cause step : Nat) : Bytes := natLE 1 1 ++ natLE 0 1 ++ natLE cause 1 ++ z 1 ++ natLE step 4
/-- A digest that no kernel evaluation needs to compute: of a checkpoint of the rich image with an empty header. -/
def noHeader : Bytes := contentDigest (checkpointBytes (richImage []) { header := z 216 ++ z 48 })
def lastCkpt (l : Byte) : Checkpoint := { ckptOf 64 true with lineage := List.replicate 16 l, header := z 216 ++ noHeader }
def resumable1 (l : Byte) : State := solo { soloJob with lineage := List.replicate 16 1#8 } { state := .loaded, checkpoints := [lastCkpt l] }

theorem z_length (n : Nat) : (z n).length = n := List.length_replicate

theorem header_at (d : Bytes) (h : d.length = 48) : bytesAt (z 216 ++ d) 0 headerSize = z 216 ++ (d ++ z (headerSize - 264)) := by
  have hl : (z 216 ++ d).length = 264 := by rw [List.length_append, z_length, h]
  show ((z 216 ++ d).drop 0).take headerSize ++ List.replicate (headerSize - (((z 216 ++ d).drop 0).take headerSize).length) 0#8 = _
  rw [List.drop_zero, List.take_of_length_le (by rw [hl]; decide), hl, List.append_assoc]
  rfl

theorem contentDigest_header (d rest : Bytes) (h : d.length = 48) :
    contentDigest (bytesAt (z 216 ++ d) 0 headerSize ++ rest) = sha384 (z 216 ++ bytesAt [] 0 48 ++ (z (headerSize - 264) ++ rest)) := by
  have hl : (z 216 ++ d).length = 264 := by rw [List.length_append, z_length, h]
  rw [header_at d h, contentDigest]
  have h1 : (z 216 ++ (d ++ z (headerSize - 264)) ++ rest).take 216 = z 216 := by
    rw [List.append_assoc, List.take_left' (z_length 216)]
  have h2 : (z 216 ++ (d ++ z (headerSize - 264)) ++ rest).drop 264 = z (headerSize - 264) ++ rest := by
    rw [← List.append_assoc, List.append_assoc _ _ rest, List.drop_left' hl]
  rw [h1, h2]

theorem noHeader_length : noHeader.length = 48 := rfl

theorem test_checkpoint_vouched (l : Byte) (su : Suite) (h : su.checkpoints = [lastCkpt l]) : checkpointFor su (richImage []) 64 = .ok (lastCkpt l) := by
  have e : bytesAt (lastCkpt l).header 216 48 = contentDigest (checkpointBytes (richImage []) (lastCkpt l)) := by
    have e1 : bytesAt (lastCkpt l).header 216 48 = noHeader := by
      show ((z 216 ++ noHeader).drop 216).take 48 ++ List.replicate (48 - (((z 216 ++ noHeader).drop 216).take 48).length) 0#8 = noHeader
      rw [List.drop_left' (z_length 216), List.take_of_length_le (Nat.le_of_eq noHeader_length), noHeader_length]
      exact List.append_nil _
    rw [e1]
    show contentDigest (bytesAt (z 216 ++ z 48) 0 headerSize ++ stateBytes (richImage []) [] ++ scaleTableBytes [])
      = contentDigest (bytesAt (z 216 ++ noHeader) 0 headerSize ++ stateBytes (richImage []) [] ++ scaleTableBytes [])
    rw [List.append_assoc, List.append_assoc, contentDigest_header _ _ (z_length 48), contentDigest_header _ _ noHeader_length]
  have f : su.checkpoints.find? (fun c => c.step == 64) = some (lastCkpt l) := by rw [h]; rfl
  have g : (lastCkpt l).complete = true := rfl
  have k : scalesSpan (lastCkpt l).scale = true := rfl
  simp only [checkpointFor, f, g, e, k, decide_true, Bool.and_self, if_true]

theorem resumeRank_one (l : Byte) (s : State) (hi : (getSuite s 0).image = some (richImage [])) (hs : (getSuite s 0).state = .loaded)
    (hc : (getSuite s 0).checkpoints = [lastCkpt l]) (hf : resumeFailure s 0 = none) :
    resumeRank s 0 64 = done (updSuite (restoreCheckpoint (replan s 0) 0 (lastCkpt l)) 0 (fun x => { x with startAt := 65 }))
      (bytesAt (List.replicate 16 l) 0 16) := by
  simp only [resumeRank, hs, hi, if_true, test_checkpoint_vouched l _ hc, hf]
  rfl

theorem resumeOwn_one (l : Byte) (s : State) (hi : (getSuite s 0).image = some (richImage [])) (hs : (getSuite s 0).state = .loaded)
    (hc : (getSuite s 0).checkpoints = [lastCkpt l]) (hf : resumeFailure s 0 = none) :
    ∃ s1, resumeOwn s [0] 64 = (s1, none, [List.replicate 16 l]) := by
  have hr : resumeRank s 0 64 = done (updSuite (restoreCheckpoint (replan s 0) 0 (lastCkpt l)) 0 (fun x => { x with startAt := 65 }))
      (bytesAt (List.replicate 16 l) 0 16) :=
    resumeRank_one l s hi hs hc hf
  refine ⟨updSuite (restoreCheckpoint (replan s 0) 0 (lastCkpt l)) 0 (fun x => { x with startAt := 65 }), ?_⟩
  show (match resumeRank s 0 64 with
      | (st, some (0, _, l)) => (st, none, [] ++ [l])
      | (st, some (x, d, _)) => (st, some (x, d), [])
      | (st, none) => (st, none, [])) = _
  rw [hr]
  rfl

/-- A request that the top manager, module 0, sends down to suite 0 of worker 6, and that worker. -/
def sentDown (op : Nat) (b : Bytes) : Waiting :=
  { pkt := { opcode := op, suite := 0, tag := 7, flags := 8, payload := natLE 6 4 ++ natLE 0 4 ++ z 8 ++ b } }
def viaManager (x : Suite) (w : Waiting) : State :=
  { dev := .running, bnd := { perst := false }, fw := { serving := true }, rings := [(18, { queue := [w] })]
    mgr := { role := 1, moduleId := 6, parent := 0, parentPort := 2 }
    suites := [(0, { x with image := some (richImage []), res := { tiles := [0], pcs := [0], granted := [0] } })] }
def resumeDown : Waiting := sentDown 0x0302 (resumeBody 0 64)
theorem test_meets_ExecutionCommandsStartAndStop_resume :
    (RunsOn (asWorker ready) 0x0302 0xFF (resumeBody 0 64) ∧ takesJobs (asWorker ready) = false ∧ fieldAt (resumeBody 0 64) 0 1 = 1)
    ∧ (RunsOn (solo soloJob { state := .running }) 0x0302 0xFF (resumeBody 0 64)
      ∧ (jobRefusal (cmd (solo soloJob { state := .running }) 0x0302 0xFF (resumeBody 0 64)) soloJob 1 none).isSome = true)
    ∧ (RunsOn (solo soloJob { state := .loaded }) 0x0302 0xFF (resumeBody 0 64)
      ∧ jobRefusal (cmd (solo soloJob { state := .loaded }) 0x0302 0xFF (resumeBody 0 64)) soloJob 1 none = none
      ∧ (resumeOwn (taken (cmd (solo soloJob { state := .loaded }) 0x0302 0xFF (resumeBody 0 64)) (.ring 0) (asked 0x0302 0xFF (resumeBody 0 64))) [0] 64).2.1.isSome = true)
    ∧ (∀ l, l ∈ [1#8, 2#8] → RunsOn (resumable1 l) 0x0302 0xFF (resumeBody 0 64)
      ∧ jobRefusal (cmd (resumable1 l) 0x0302 0xFF (resumeBody 0 64)) (getJob (resumable1 l) 0) 1 none = none
      ∧ ((getJob (resumable1 l) (fieldAt (resumeBody 0 64) 1 1)).ranks.filter (fun r => r.2.1 == ownId (resumable1 l))).map (fun r => r.2.2) = [0])
    ∧ (bytesAt (getJob (resumable1 2#8) 0).lineage 0 16 = List.replicate 16 1#8 ∧ bytesAt (getJob (resumable1 1#8) 0).lineage 0 16 = List.replicate 16 1#8
      ∧ List.replicate 16 2#8 ≠ List.replicate 16 1#8 ∧ (getJob (resumable1 1#8) 0).lineage ≠ [] ∧ (getJob (resumable1 2#8) 0).lineage ≠ [])
    ∧ (fieldAt (resumeBody 0 64) 2 1 = 0 ∧ fieldAt (resumeBody 4 64) 2 1 = 4
      ∧ ∀ l, l ∈ [1#8, 2#8] → breakCause (((some 0).bind (fun m => (getSuite (resumable1 l) m).checkpoints.find? (fun c => c.step == 64))).map (fun c => c.header) |>.getD []) 0 1 = 0
        ∧ breakCause (((some 0).bind (fun m => (getSuite (resumable1 l) m).checkpoints.find? (fun c => c.step == 64))).map (fun c => c.header) |>.getD []) 4 1 = 4)
    ∧ RunsOn (solo soloJob { state := .loaded }) 0x0302 0xFF (z 16)
    ∧ (RunsOn (solo soloJob { state := .preempted }) 0x0302 0 (natLE 1 8)
      ∧ forwardedFor (cmd (solo soloJob { state := .preempted }) 0x0302 0 (natLE 1 8)) (asked 0x0302 0 (natLE 1 8)).pkt = none)
    ∧ (Runs (viaManager { state := .preempted } resumeDown) (.link 2) 7 0x0302 resumeDown 0 (resumeBody 0 64)
      ∧ forwardedFor (viaManager { state := .preempted } resumeDown) resumeDown.pkt = none)
    ∧ (Runs (viaManager { state := .loaded, checkpoints := [lastCkpt 1#8] } resumeDown) (.link 2) 7 0x0302 resumeDown 0 (resumeBody 0 64)
      ∧ forwardedFor (viaManager { state := .loaded, checkpoints := [lastCkpt 1#8] } resumeDown) resumeDown.pkt = none) := by decide +kernel

theorem test_meets_ExecutionCommandsStartAndStop_resumed (l : Byte) (h : l = 1#8 ∨ l = 2#8) :
    ∃ s1, resumeOwn (taken (cmd (resumable1 l) 0x0302 0xFF (resumeBody 0 64)) (.ring 0) (asked 0x0302 0xFF (resumeBody 0 64))) [0]
      (fieldAt (resumeBody 0 64) 4 4) = (s1, none, [List.replicate 16 l]) :=
  resumeOwn_one l _ rfl rfl rfl (by rcases h with rfl | rfl <;> decide +kernel)

theorem test_meets_ExecutionCommandsStartAndStop_resumedDown :
    ∃ s1 d l, resumeRank (taken (viaManager { state := .loaded, checkpoints := [lastCkpt 1#8] } resumeDown) (.link 2) resumeDown) 0
      (fieldAt (resumeBody 0 64) 4 4) = (s1, some (0, d, l)) :=
  ⟨_, _, _, resumeRank_one 1#8 _ rfl rfl rfl (by decide +kernel)⟩

theorem test_meets_ExecutionCommandsStartAndStop_stop :
    (RunsOn (solo soloJob preemptedSaved) 0x0303 0 (z 4)
      ∧ startingWith (taken (cmd (solo soloJob preemptedSaved) 0x0303 0 (z 4)) (.ring 0) (asked 0x0303 0 (z 4))) 0 = none
      ∧ (taken (cmd (solo soloJob preemptedSaved) 0x0303 0 (z 4)) (.ring 0) (asked 0x0303 0 (z 4))).rings.any
          (fun q => q.2.queue.any (fun x => x.executing && x.pkt.opcode == 0x0202 && targetOf (keySrc q.1) x.pkt == 0)) = false)
    ∧ RunsOn (solo soloJob { state := .loaded }) 0x0303 0 (z 4)
    ∧ (RunsOn (solo soloJob { state := .running }) 0x0303 0 (z 4) ∧ fieldAt (z 4) 0 1 = 0)
    ∧ (RunsOn (solo soloJob { state := .running }) 0x0303 0 (natLE 1 4) ∧ fieldAt (natLE 1 4) 0 1 = 1
      ∧ startingWith (taken (cmd (solo soloJob { state := .running }) 0x0303 0 (natLE 1 4)) (.ring 0) (asked 0x0303 0 (natLE 1 4))) 0 = none)
    ∧ (Runs (startingUp (solo soloJob { state := .loaded }) 0x0303 0 (z 4)) (.ring 0) 7 0x0303 (asked 0x0303 0 (z 4)) 0 (z 4)
      ∧ startingWith (taken (startingUp (solo soloJob { state := .loaded }) 0x0303 0 (z 4)) (.ring 0) (asked 0x0303 0 (z 4))) 0 = some (0, { src := .ring 1, tag := 7 }))
    ∧ (RunsOn (asWorker ready) 0x0303 0xFF (z 4) ∧ startingOf (taken (cmd (asWorker ready) 0x0303 0xFF (z 4)) (.ring 0) (asked 0x0303 0xFF (z 4))) 0 = none)
    ∧ (RunsOn (topMgr {}) 0x0303 0xFF (natLE 0x0300 4) ∧ takesJobs (topMgr {}) = true ∧ SMap.has (topMgr {}).mgr.jobs (fieldAt (natLE 0x0300 4) 1 1) = false
      ∧ startingOf (taken (cmd (topMgr {}) 0x0303 0xFF (natLE 0x0300 4)) (.ring 0) (asked 0x0303 0xFF (natLE 0x0300 4))) 3 = none)
    ∧ (RunsOn (solo soloJob { state := .loaded }) 0x0303 0xFF (z 4) ∧ takesJobs (solo soloJob { state := .loaded }) = true
      ∧ SMap.has (solo soloJob { state := .loaded }).mgr.jobs (fieldAt (z 4) 1 1) = true ∧ (getJob (solo soloJob { state := .loaded }) (fieldAt (z 4) 1 1)).started = false)
    ∧ (RunsOn (solo { soloJob with started := true } { state := .running }) 0x0303 0xFF (z 4)
      ∧ SMap.has (solo { soloJob with started := true } { state := .running }).mgr.jobs (fieldAt (z 4) 1 1) = true
      ∧ (getJob (solo { soloJob with started := true } { state := .running }) (fieldAt (z 4) 1 1)).started = true
      ∧ startingOf (taken (cmd (solo { soloJob with started := true } { state := .running }) 0x0303 0xFF (z 4)) (.ring 0) (asked 0x0303 0xFF (z 4))) 0 = none) := by
  decide +kernel

def ranksBody (first : Nat) : Bytes := z 2 ++ natLE 1 2 ++ natLE first 4 ++ (natLE 0 4 ++ natLE 0 1 ++ z 3)
def stepBody (step : Nat) : Bytes := natLE step 4 ++ z 4 ++ natLE 500 8
def atStep (k : Nat) (es : List BellEvent) : State := running {} { step := k } {} es
def sliceBody (slice grace : Nat) : Bytes := natLE slice 4 ++ natLE grace 4

theorem test_meets_SchedulingCommandsReply :
    (RunsOn (asWorker ready) 0x0304 0xFF (ranksBody 0)
      ∧ RunsOn (solo { soloJob with started := true } { state := .running }) 0x0304 0xFF (ranksBody 0)
      ∧ RunsOn (solo soloJob { state := .loaded }) 0x0304 0xFF (ranksBody 1048576) ∧ 1048576 < fieldAt (ranksBody 1048576) 4 4 + fieldAt (ranksBody 1048576) 2 2
      ∧ RunsOn (solo soloJob { state := .loaded }) 0x0304 0xFF (ranksBody 1048575) ∧ fieldAt (ranksBody 1048575) 4 4 + fieldAt (ranksBody 1048575) 2 2 ≤ 1048576
      ∧ startingOf (taken (cmd (solo soloJob { state := .loaded }) 0x0304 0xFF (ranksBody 1)) (.ring 0) (asked 0x0304 0xFF (ranksBody 1))) 0 = none)
    ∧ (RunsOn (suite0 { state := .loaded }) 0x0305 0 (stepBody 3) ∧ RunsOn (atStep 5 []) 0x0305 0 (stepBody 3)
      ∧ uPassed (atStep 5 []) 0 (fieldAt (stepBody 3) 0 4 + 1) = true ∧ RunsOn (atStep 3 []) 0x0305 0 (stepBody 3)
      ∧ uPassed (atStep 3 []) 0 (fieldAt (stepBody 3) 0 4 + 1) = false)
    ∧ (RunsOn (suite0 { state := .empty }) 0x0400 0 (stepBody 3) ∧ RunsOn (atStep 5 []) 0x0400 0 (stepBody 3) ∧ RunsOn (atStep 3 []) 0x0400 0 (stepBody 3))
    ∧ ((pendingEvents (atStep 3 [])).length < 1024 ∧ 1024 ≤ (pendingEvents (atStep 3 (List.replicate 1024 {}))).length
      ∧ RunsOn (atStep 3 (List.replicate 1024 {})) 0x0305 0 (stepBody 3))
    ∧ (RunsOn (solo soloJob { state := .running }) 0x0305 0xFF (stepBody 3) ∧ RunsOn (solo soloJob { state := .running }) 0x0400 0xFF (stepBody 3)
      ∧ RunsOn (solo soloJob { state := .running }) 0x0802 0xFF (z 24) ∧ SMap.has (solo soloJob { state := .running }).mgr.jobs 0 = true
      ∧ RunsOn (asWorker ready) 0x0305 0xFF (stepBody 3) ∧ RunsOn ready 0x0305 0xFF (stepBody 3) ∧ SMap.has ready.mgr.jobs 0 = false)
    ∧ RunsOn (suite0 { state := .loaded }) 0x0802 0 (z 24)
    ∧ (RunsOn (sliced [(3, waitingNext)]) 0x0306 0 (sliceBody 0 0) ∧ 1 < (tileGroup (sliced [(3, waitingNext)]) 0).length)
    ∧ (RunsOn (suite0 (ganged .loaded)) 0x0306 0 (sliceBody 5 0) ∧ multiRank (getSuite (suite0 (ganged .loaded)) 0) = true ∧ fieldAt (sliceBody 5 0) 0 4 ≠ 0)
    ∧ (RunsOn (suite0 { state := .loaded, image := some { maxDuration := 250001 } }) 0x0306 0 (sliceBody 5 0)
      ∧ (if fieldAt (sliceBody 5 0) 4 4 = 0 then 250000 else fieldAt (sliceBody 5 0) 4 4) < 250001)
    ∧ (RunsOn (sliced []) 0x0306 0 (sliceBody 5 7) ∧ multiRank (getSuite (sliced []) 0) = false ∧ (getSuite (sliced []) 0).image.isNone = true
      ∧ (getSuite (sliced []) 0).slice.slice ≠ 0 ∧ fieldAt (sliceBody 5 7) 4 4 = 7) := by decide +kernel

def attachBody (port : Nat) : Bytes := natLE 1 1 ++ natLE port 1 ++ z 6
/-- An attach request with the id 9 that module 3 sends over port 2, with its path at its end. -/
def offered (id : Nat) : Waiting :=
  { pkt := { opcode := 0x0501, suite := 0xFF, tag := 7, flags := 8, payload := natLE id 4 ++ natLE 3 4 ++ z 4 ++ natLE 1 1 ++ z 3 ++ attachBody 5 } }
def reached (m : Manager) (d : DevState) (su : Suite) : State :=
  { dev := d, mgr := m, bnd := { perst := false }, fw := { serving := true }, rings := [(18, { queue := [offered 9] })], suites := [(0, su)] }
abbrev RunsAt (s : State) (w : Waiting) : Prop := Runs s (.link 2) 7 w.pkt.opcode w w.pkt.suite (bodyOf w.pkt)
def oneWorker : Manager := { role := 2, moduleId := 0, workers := [{ module := 6, port := 5 }] }
def sparesBody (m : Nat) : Bytes := z 2 ++ natLE 1 2 ++ z 4 ++ (natLE m 4 ++ natLE 1 1 ++ z 3)
def expelBody (rs : List Nat) : Bytes := z 4 ++ natLE 40 4 ++ natLE rs.length 2 ++ z 2 ++ (rs.map (fun r => natLE r 4)).flatten
def lineage1 : Bytes := List.replicate 16 1#8

theorem test_meets_ManagerCommandsHaveTheirEffect_roles :
    (RunsOn (asWorker ready) 0x0500 0xFF (z 4) ∧ (asWorker ready).mgr.role = 1)
    ∧ (RunsOn (withMgr {}) 0x0500 0xFF (natLE 1 4) ∧ holdsRank (withMgr {}) = false
      ∧ RunsOn { withMgr {} with suites := [(0, ganged .running)] } 0x0500 0xFF (natLE 1 4)
      ∧ holdsRank { withMgr {} with suites := [(0, ganged .running)] } = true)
    ∧ (RunsOn (withMgr oneWorker) 0x0500 0xFF (z 4) ∧ oneWorker.workers ≠ [] ∧ RunsOn (topMgr {}) 0x0500 0xFF (z 4) ∧ (topMgr {}).mgr.jobs = [])
    ∧ (RunsOn ready 0x0501 0xFF (attachBody 5) ∧ manages ready = false)
    ∧ (RunsOn (withMgr { oneWorker with depth := 3 }) 0x0501 0xFF (attachBody 5) ∧ manages (withMgr { oneWorker with depth := 3 }) = true)
    ∧ (RunsOn (withMgr { oneWorker with workers := List.replicate 1024 {} }) 0x0501 0xFF (attachBody 5))
    ∧ (RunsOn (topMgr {}) 0x0501 0xFF (attachBody 5) ∧ (topMgr {}).mgr.depth ≤ 2 ∧ portPresent (topMgr {}) (fieldAt (attachBody 5) 1 1) = true
      ∧ portPresent { topMgr {} with fuse := { wings := [] } } 16 = false
      ∧ (getPort { topMgr {} with ports := [(5, { state := portUp })] } (fieldAt (attachBody 5) 1 1)).state = portUp)
    ∧ (RunsAt (reached {} .ready {}) (offered 9) ∧ isRelayed (offered 9).pkt = true ∧ fieldAt (offered 9).pkt.payload 0 4 ≠ ownId (reached {} .ready {})
      ∧ holdsRank (reached {} .ready {}) = false ∧ RunsAt (reached {} .ready (ganged .running)) (offered 9) ∧ holdsRank (reached {} .ready (ganged .running)) = true)
    ∧ (RunsAt (reached { role := 1, moduleId := 6, parent := 3 } .ready {}) (offered 9) ∧ RunsAt (reached { role := 1, moduleId := 6, parent := 4 } .ready {}) (offered 9)
      ∧ fieldAt (offered 9).pkt.payload 4 4 = 3)
    ∧ (RunsOn ready 0x0502 0xFF (natLE 6 4) ∧ ready.mgr.role = 0)
    ∧ (RunsOn (withMgr oneWorker) 0x0502 0xFF (natLE 7 4) ∧ oneWorker.workers.all (fun x => x.module != fieldAt (natLE 7 4) 0 4) = true)
    ∧ (RunsOn (withMgr oneWorker) 0x0502 0xFF (natLE 6 4) ∧ oneWorker.workers.find? (fun y => y.module == fieldAt (natLE 6 4) 0 4) = some { module := 6, port := 5 }
      ∧ oneWorker.jobs.any (fun q => q.2.ranks.any (fun r => r.2.1 == fieldAt (natLE 6 4) 0 4)) = false)
    ∧ ([(0, jobOne)].any (fun q : Nat × Job => q.2.ranks.any (fun r => r.2.1 == fieldAt (natLE 6 4) 0 4)) = true) := by decide +kernel

def oneRank (j : Job) : State := topMgr { jobs := [(0, j)], workers := [{ module := 6, port := 5 }] }
def rankIn (st : SuiteState) (j : JobState) : State := suite0 { state := st, job := j }

theorem test_meets_ManagerCommandsHaveTheirEffect_ranks :
    (RunsOn (suite0 { state := .loaded }) 0x0503 0 (z 8) ∧ RunsOn (asWorker ready) 0x0503 0xFF (z 8) ∧ RunsOn (topMgr {}) 0x0503 0xFF (z 8))
    ∧ (RunsOn (oneRank jobOne) 0x0503 0xFF (sparesBody 6) ∧ knownModule (oneRank jobOne) (fieldAt (sparesBody 6) 8 4) = true
      ∧ fieldAt (sparesBody 6) 2 2 = 1 ∧ ([] ++ (List.range 1).map (memberAt (sparesBody 6))).eraseDups.length ≤ 1024)
    ∧ (RunsOn (oneRank { jobOne with spares := (List.range 1024).map (fun i => (8, i)) }) 0x0503 0xFF (sparesBody 6))
    ∧ (RunsOn (asWorker ready) 0x0504 0xFF (expelBody []) ∧ RunsOn (topMgr {}) 0x0504 0xFF (expelBody []))
    ∧ (RunsOn (oneRank jobOne) 0x0504 0xFF (expelBody [0]) ∧ expelledRanks (expelBody [0]) = [0] ∧ SMap.has jobOne.ranks 0 = true ∧ jobOne.started = true
      ∧ jobOne.spares.length < 1)
    ∧ (RunsOn (oneRank { jobOne with spares := [(6, 1)] }) 0x0504 0xFF (expelBody [0]) ∧ 1 ≤ ({ jobOne with spares := [(6, 1)] } : Job).spares.length)
    ∧ (RunsOn (rankIn .running { rank := some 0 }) 0x0504 0 (expelBody [0]) ∧ RunsOn (rankIn .running { rank := some 0 }) 0x0504 0 (expelBody [1])
      ∧ (0 : Nat) ∉ expelledRanks (expelBody [1]))
    ∧ (RunsOn (rankIn .loaded { lineage := lineage1 }) 0x0505 0 (takeoverBody 1) ∧ otherLineage (getSuite (rankIn .loaded { lineage := lineage1 }) 0) (bytesAt (takeoverBody 1) 0 16) = true)
    ∧ (RunsOn (rankIn .running {}) 0x0505 0 (takeoverBody 1) ∧ otherLineage (getSuite (rankIn .running {}) 0) (bytesAt (takeoverBody 1) 0 16) = false)
    ∧ (RunsOn (rankIn .loaded {}) 0x0505 0 (takeoverBody 2) ∧ takeoverReady (getSuite (rankIn .loaded {}) 0) (takeoverBody 2) = false
      ∧ RunsOn (rankIn .loaded {}) 0x0505 0 (takeoverBody 1) ∧ takeoverReady (getSuite (rankIn .loaded {}) 0) (takeoverBody 1) = true) := by decide +kernel

def gangBody : Bytes := z 8 ++ natLE 500 8
def haltBody : Bytes := lineage1 ++ natLE 5 4 ++ z 4 ++ natLE 900 8
def collecting (ws : List WorkerInfo) (bc : Bool) : State :=
  { cmd (topMgr { workers := ws }) 0x0603 0xFF (z 8) with
    rings := [(0, { enable := true, session := true
                    queue := [{ pkt := { (asked 0x0603 0xFF (z 8)).pkt with flags := if bc then 4 else 0 }, relayed := bc }] })] }

theorem test_meets_ManagerCommandsHaveTheirEffect_bells :
    (RunsOn (rankIn .running {}) 0x0506 0 gangBody ∧ RunsOn (rankIn .running { rank := some 0 }) 0x0506 0 gangBody
      ∧ (pendingEvents (rankIn .running { rank := some 0 })).length < 1024
      ∧ RunsOn { rankIn .running { rank := some 0 } with bell := { events := List.replicate 1024 {} } } 0x0506 0 gangBody)
    ∧ (RunsOn (asWorker ready) 0x0506 0xFF gangBody ∧ RunsOn (topMgr {}) 0x0506 0xFF gangBody ∧ RunsOn (oneRank jobOne) 0x0506 0xFF gangBody
      ∧ SMap.has (oneRank jobOne).mgr.jobs (fieldAt gangBody 0 1) = true ∧ SMap.has (topMgr {}).mgr.jobs (fieldAt gangBody 0 1) = false)
    ∧ (RunsOn (rankIn .running { lineage := z 16 }) 0x0507 0 haltBody ∧ otherLineage (getSuite (rankIn .running { lineage := z 16 }) 0) (bytesAt haltBody 0 16) = true)
    ∧ (RunsOn (rankIn .running { lineage := lineage1 }) 0x0507 0 haltBody ∧ otherLineage (getSuite (rankIn .running { lineage := lineage1 }) 0) (bytesAt haltBody 0 16) = false)
    ∧ (RunsOn (rankIn .preempted { lineage := lineage1, rank := some 0 }) 0x0507 0 haltBody
      ∧ RunsOn (rankIn .draining { lineage := lineage1, rank := some 0, haltBell := some 3, haltStep := 9 }) 0x0507 0 haltBody)
    ∧ (Runs (collecting [] true) (.ring 0) 7 0x0603 { pkt := { (asked 0x0603 0xFF (z 8)).pkt with flags := 4 }, relayed := true } 0xFF (z 8)
      ∧ isBroadcast { (asked 0x0603 0xFF (z 8)).pkt with flags := 4 } = true)
    ∧ (RunsOn ready 0x0603 0xFF (z 8) ∧ isBroadcast (asked 0x0603 0xFF (z 8)).pkt = false)
    ∧ (RunsOn (topMgr { workers := [{ lost := true }] }) 0x0603 0xFF (z 8) ∧ RunsOn (topMgr { workers := [{ lost := true }, {}] }) 0x0603 0xFF (z 8)) := by
  decide +kernel

def subMgr : State := { withMgr { role := 3, moduleId := 6, parent := 0, parentPort := 2 } with ports := [(2, { state := portUp })] }
def verdictBody (code : Nat) : Bytes := lineage1 ++ natLE 64 4 ++ natLE code 4
def mapBody (kind rank : Nat) : Bytes := lineage1 ++ natLE rank 4 ++ natLE 2 4 ++ z 4 ++ natLE 2 2 ++ natLE kind 1 ++ z 1 ++ z 16
def mapped (st : SuiteState) (j : JobState) : State := suite0 { state := st, image := some (richImage []), job := j }

theorem test_meets_JobTrafficReachesItsRank :
    (RunsOn ready 0x0508 0xFF (z 32) ∧ manages ready = false ∧ RunsOn (topMgr {}) 0x0508 0xFF (z 32) ∧ (topMgr {}).mgr.role = 2
      ∧ RunsOn subMgr 0x0508 0xFF (z 32) ∧ subMgr.mgr.role = 3)
    ∧ (RunsOn ready 0x0509 0xFF (z 40) ∧ RunsOn (topMgr {}) 0x0509 0xFF (z 40) ∧ RunsOn subMgr 0x0509 0xFF (z 40))
    ∧ (RunsOn (rankIn .running { lineage := z 16 }) 0x050A 0 (verdictBody 0)
      ∧ otherLineage (getSuite (rankIn .running { lineage := z 16 }) 0) (bytesAt (verdictBody 0) 0 16) = true)
    ∧ (RunsOn (rankIn .running { lineage := lineage1 }) 0x050A 0 (verdictBody 0)
      ∧ otherLineage (getSuite (rankIn .running { lineage := lineage1 }) 0) (bytesAt (verdictBody 0) 0 16) = false)
    ∧ (∀ c, c ∈ [0, 1, 2, 3] → RunsOn (rankIn .running { lineage := lineage1, rank := some 0 }) 0x050A 0 (verdictBody c) ∧ fieldAt (verdictBody c) 20 1 = c)
    ∧ RunsOn (suite0 { state := .empty }) 0x050B 0 (mapBody 0 1)
    ∧ (RunsOn (mapped .running { lineage := z 16 }) 0x050B 0 (mapBody 0 1) ∧ bytesAt (z 16) 0 16 ≠ bytesAt (mapBody 0 1) 0 16)
    ∧ (∀ k, k ∈ [0, 1, 2] → RunsOn (mapped .loaded {}) 0x050B 0 (mapBody k 1) ∧ fieldAt (mapBody k 1) 30 1 = k)
    ∧ (bit (fieldAt (mapBody 1 1) 31 1) 0 = false ∧ fieldAt (mapBody 2 1) 16 4 ≠ 0xFFFFFFFF ∧ RunsOn (mapped .loaded { mapReceived := true }) 0x050B 0 (mapBody 2 1))
    ∧ (RunsOn ready 0x050C 0xFF (z 32) ∧ RunsOn (topMgr {}) 0x050C 0xFF (z 32) ∧ RunsOn subMgr 0x050C 0xFF (z 32))
    ∧ (RunsOn (rankIn .running {}) 0x050C 0 (z 32) ∧ RunsOn (rankIn .running { rank := some 0, lineage := z 16 }) 0x050C 0 (z 32)
      ∧ otherLineage (getSuite (rankIn .running { rank := some 0, lineage := z 16 }) 0) (bytesAt (z 32) 0 16) = false) := by decide +kernel

/-- An effect that answers, and one that waits. -/
def answering : State → Src → Packet → Nat → Bytes → Effect := fun s _ _ _ _ => (s, some (1, 2, []))
def notYet : State → Src → Packet → Nat → Bytes → Effect := fun s _ _ _ _ => (s, none)

theorem test_meets_CommandsAreAdmittedAndReplied :
    (Begins { cmd (suite0 { state := .empty }) 0 0 [] with rings := [(1, { enable := true, session := true, queue := [asked 0x0200 0 []] })] } (.ring 1) 7 0x0200 (asked 0x0200 0 [])
      ∧ pfOnly (.ring 1) (asked 0x0200 0 []).pkt = true ∧ isSilent (asked 0x0200 0 []).pkt (bodyOf (asked 0x0200 0 []).pkt) = false)
    ∧ (Begins { cmd (suite0 { state := .empty }) 0 0 [] with rings := [(1, { enable := true, session := true, queue := [asked 0x0102 0 (natLE 3 4)] })] } (.ring 1) 7 0x0102 (asked 0x0102 0 (natLE 3 4))
      ∧ pfOnly (.ring 1) (asked 0x0102 0 (natLE 3 4)).pkt = true)
    ∧ (Begins (cmd { dev := .waking } 0x0201 0 []) (.ring 0) 7 0x0201 (asked 0x0201 0 []) ∧ pfOnly (.ring 0) (asked 0x0201 0 []).pkt = false
      ∧ admits (cmd { dev := .waking } 0x0201 0 []) (.ring 0) (asked 0x0201 0 []).pkt = false)
    ∧ (Begins (cmd ready 0x0201 7 []) (.ring 0) 7 0x0201 (asked 0x0201 7 []) ∧ admits (cmd ready 0x0201 7 []) (.ring 0) (asked 0x0201 7 []).pkt = true
      ∧ targetOf (.ring 0) (asked 0x0201 7 []).pkt = 7 ∧ (getSuite (cmd ready 0x0201 7 []) 7).state = .absent)
    ∧ (RunsOn ready 0x0800 0xFF [] ∧ (answering ready (.ring 0) {} 0 []).2 = some (1, 2, []) ∧ (notYet ready (.ring 0) {} 0 []).2 = none)
    ∧ (∀ w, w ∈ (getRing (cmd ready 0x0800 0xFF []) 0).queue → w.pkt.tag ≠ 8)
    ∧ ((getRing { cmd ready 0x0800 0xFF [] with fw := { inActivation := true } } 0).queue.find? (fun x => x.pkt.tag == 7 && x.pkt.opcode == 0x0800 && !x.executing && x.reply.isNone)
        = some (asked 0x0800 0xFF []) ∧ startable { cmd ready 0x0800 0xFF [] with fw := { inActivation := true } } (.ring 0) (asked 0x0800 0xFF []) = false)
    ∧ (isHere (relaying 9 2 0x0201) (.link 2) (envelope 9 1 2 0x0201) = false)
    ∧ ((getRing (transferring ready 0x0800 0xFF [] []) 0).queue.find? (fun x => x.executing && x.pkt.tag == 7) = some { asked 0x0800 0xFF [] with executing := true }
      ∧ isBroadcast (asked 0x0800 0xFF []).pkt = false ∧ isRelayed (asked 0x0800 0xFF []).pkt = false ∧ (getRing (transferring ready 0x0800 0xFF [] []) 0).enable = true
      ∧ hostFails (transferring ready 0x0800 0xFF [] []) 0 24 = false) := by decide +kernel

theorem test_meets_StepRunsTheFrontCommand : ({ pending := [.powerLoss] } : State).pending = .powerLoss :: [] ∧ ({} : State).pending = [] := by decide

theorem test_meets_EveryStepGoesOnAndKeepsTheForms :
    memoriesCanonical (suite0 { receiving := [(3, [(0, 1#8)])] }) = true ∧ SMap.sorted ([(0, {}), (7, {})] : SMap Suite) = true
    ∧ step ready = .next ready := ⟨by decide +kernel, by decide +kernel, rfl⟩

theorem test_meets_PacketsAreLaidOutAndReadBack :
    ({ opcode := 0xFFFF, version := 255, flags := 255, suite := 255, tag := 2 ^ 32 - 1, payload := z 4080 } : Packet).payload.length ≤ 4080
    ∧ (255 : Nat) < 256 ∧ (0xFFFF : Nat) < 2 ^ 16 ∧ 2 ^ 32 - 1 < 2 ^ 32 := by decide +kernel

theorem test_meets_Q4ActivationCodesAreCodeMinusZeroPoint : (15 : Nat) ≤ 15 ∧ codeAt [(9, 0xF0#8)] .q4a 9 1 = 15 := by decide +kernel

theorem test_meets_BlocksThatDifferInOneWordHashDifferently :
    (z 64).length = 64 ∧ (z 63 ++ [1#8]).length = 64 ∧ bytesAt (z 64) (16 * 3) 16 ≠ bytesAt (z 63 ++ [1#8]) (16 * 3) 16
    ∧ ∀ i, i < 4 → i ≠ 3 → bytesAt (z 64) (16 * i) 16 = bytesAt (z 63 ++ [1#8]) (16 * i) 16 := by decide +kernel

/-! What WellFormed refuses: for each check one command whose number is one too large. -/

theorem test_ill_formed_units :
    (Instr.tileDroop 80).wellFormed = false ∧ (Instr.landingTransactionStart 0 4 [] []).wellFormed = false ∧ (Instr.wingResetComplete 8).wellFormed = false
    ∧ (Instr.downPortRetry 16).wellFormed = false ∧ (Instr.lanternRemoved 4).wellFormed = false ∧ (Instr.haltBell 8).wellFormed = false
    ∧ (Instr.eventPost 9).wellFormed = false ∧ (Instr.powerOn (2 ^ 32)).wellFormed = false ∧ (Instr.patrolScrub 512 0 default).wellFormed = false
    ∧ (Instr.patrolScrub 0 (2 ^ 31) default).wellFormed = false ∧ (Instr.disableDrainExpiry 65536).wellFormed = false ∧ (Instr.throttle 64 420).wellFormed = false
    ∧ (Instr.laneFailed 0 18 true).wellFormed = false ∧ (Instr.fastRetrainComplete 0 0 (2 ^ 18) .done).wellFormed = false
    ∧ (Instr.bellGet (.ring 9) 0).wellFormed = false ∧ (Instr.bellGet (.link 16) 0).wellFormed = false
    ∧ (Instr.cdcTimeout (.tile 80)).wellFormed = false ∧ (Instr.cdcTimeout (.wing 8)).wellFormed = false ∧ (Instr.crossingResync (.spire 16)).wellFormed = false
    ∧ (Instr.telemetrySample { temps := List.replicate 65 0 }).wellFormed = false := by decide +kernel

theorem test_ill_formed_lengths :
    (Instr.flitReceive 0 (z 535) .clean).wellFormed = false ∧ (Instr.dataFlit 0 (z 525) []).wellFormed = false ∧ (Instr.credit 0 (z 11)).wellFormed = false := by
  decide +kernel

theorem test_well_formed :
    (Instr.tileDroop 79).wellFormed = true ∧ (Instr.flitReceive 15 (z 536) .clean).wellFormed = true ∧ (Instr.credit 15 (z 12)).wellFormed = true
    ∧ (Instr.registerWrite 8 (2 ^ 32 - 1) 0 4).wellFormed = true := by decide +kernel

/-! Worked examples of the spec: the expected values are the ones that its text gives. -/

/-- 02, example of rule R45: the hash of block 0 of tensor 0x00_0001, 16 elements of +0 and 16 of 1.0 in H16. -/
theorem test_block_hash : blockHash (z 32 ++ (List.replicate 16 (natLE 0x3E00 2)).flatten) 1 0 = 0x293182796C8AF5D265CB5EF79E306AF6 := by decide +kernel

/-- 05, example of rule R104: the word of one stochastic-rounding draw. -/
theorem test_generator : (generator 0x0000000200000001 5 3 3 1).word 0 = 0xFD15AD10 := by decide +kernel

/-- 03, worked conversions: 1,234,567 times two to the -20 to H16, to nearest even and by two stochastic words. -/
theorem test_convert_h16 :
    (convert (.num ⟨1234567, -20⟩ false) .h16 .rne 0 0).code = 0x3E5B ∧ (convert (.num ⟨1234567, -20⟩ false) .h16 (.sr 0x12345678) 0 0).code = 0x3E5A
    ∧ (convert (.num ⟨1234567, -20⟩ false) .h16 (.sr 0x9E3779B9) 0 0).code = 0x3E5B := by decide +kernel

/-- 03, worked conversions: the binary32 word 0x3DCC_CCCD to H16. -/
theorem test_convert_b32 : (convert (b32Value 0x3DCCCCCD) .h16 .rne 0 0).code = 0x3733 := by decide +kernel

/-- 03, example of rule R64: Q8 weight code 0x9C is -100, whose E12 code is 0x800 + 0x680 + 0x48. -/
theorem test_e12 : codeValue .q8w [] 0 0x9C = (.num ⟨-100, 0⟩ false, false) ∧ e12OfInt (-100) = 0x800 + 0x680 + 0x48 := by decide +kernel

/-- 06, example of rule R120: the residue of a two by two pass, from its operands. -/
theorem test_pass_residue :
    operandResidue (-13) (-13) [[.num ⟨32, 0⟩ false, .num ⟨-28, 0⟩ false], [.num ⟨72, 0⟩ false, .num ⟨0, 0⟩ false]]
      [[.num ⟨-100, 0⟩ false, .num ⟨25, 0⟩ false], [.num ⟨3, 0⟩ false, .num ⟨-4, 0⟩ false]] = 0x1FFFFF592FFFFFFF := by decide +kernel

/-- 07, example of RECIP: one third at destination scale -2 and at scale 0. -/
theorem test_recip :
    (convert (.num (realDiv ⟨1, 0⟩ (h16Value 0x4100).dy) false) .h16 .rne (-2) 0).code = 0x3EAB
    ∧ (convert (.num (realDiv ⟨1, 0⟩ (h16Value 0x4100).dy) false) .h16 .rne 0 0).code = 0x3AAB := by decide +kernel

/-- 14, example of rule R325: one level of four members, and a level of two, round to different sums. -/
theorem test_sum_levels :
    (convert (.num ((Dyadic.ofInt 1).add ((⟨1, -10⟩ : Dyadic).add ⟨1, -10⟩)) false) .h16 .rne 0 0).code = 0x3E01
    ∧ (convert (.num ((Dyadic.ofInt 1).add ⟨1, -10⟩) false) .h16 .rne 0 0).code = 0x3E00 ∧ (convert (.num ⟨1, -10⟩ false) .h16 .rne 0 0).code = 0x2A00 := by
  decide +kernel

/-- 16, rule R367: the CRC over the nine ASCII bytes. -/
theorem test_crc32 : crc32 (asciiBytes "123456789") = 0xCBF43926 := by decide +kernel

/-- FIPS 180-4's own value for the one-block message "abc" (SHA-384 is named by rule R36). -/
theorem test_sha384 :
    sha384 (asciiBytes "abc") = natBE 0xcb00753f45a35e8bb5a03d699ac65007272c32ab0eded1631a8b605a43ff5bed8086072ba1e7cc2358baeca134c825a7 48 := by decide +kernel

/-- 22, example of rule R510: sequence number 0 follows 0xFFFF_FFFF; where bank 1 is not valid, bank 0 is taken. -/
theorem test_attic_banks :
    takenBank { bank0 := some { seq := 0xFFFFFFFF }, bank1 := some { seq := 0 } } = some (1, { seq := 0 })
    ∧ takenBank { bank0 := some { seq := 0xFFFFFFFF } } = some (0, { seq := 0xFFFFFFFF }) := by decide +kernel

/-- 19, example of rule R415: with the 64 usable tiles of an AZ-964 and V = 72, the fold factor is 2. -/
theorem test_fold_factor : foldFactor 72 64 = 2 := by decide +kernel

/-- The smallest image: one virtual tile whose streams open one kernel each, one stream that nothing uses, one binary32 tensor 0. Its DIGEST is
still zero. -/
def smallBody : Bytes :=
  let dir := fun (t o l : Nat) => natLE t 2 ++ z 6 ++ natLE o 8 ++ natLE l 8
  asciiBytes "DRTN" ++ [2#8, 1#8, 3#8, 0#8] ++ natLE 768 8 ++ natLE 7 4 ++ z 108
    ++ dir 1 320 64 ++ dir 2 384 112 ++ dir 3 512 32 ++ dir 5 576 80 ++ dir 7 704 0 ++ dir 8 704 20 ++ dir 9 768 0 ++ z 24
    ++ [0#8, 1#8, 0#8, 0#8] ++ natLE 1 2 ++ z 2 ++ z 4 ++ natLE 1 4 ++ natLE 1 4 ++ z 4 ++ natLE 64 8 ++ z 32
    ++ z 16 ++ (natLE 2 4 ++ z 12) ++ (natLE 2 4 ++ z 12) ++ (natLE 2 4 ++ z 12)
    ++ natLE (wMark 1 0) 8 ++ natLE (wMark 0 0 + 2 ^ 55) 8 ++ natLE (wMark 1 0) 8 ++ natLE (wMark 0 0 + 2 ^ 55) 8
    ++ natLE (wMark 1 0) 8 ++ natLE (wMark 0 0 + 2 ^ 55) 8 ++ z 16
    ++ z 64
    ++ natLE 1 4 ++ z 12 ++ ([0#8, 0#8, 0#8, 3#8, 1#8, 0#8, 1#8, 0#8] ++ natLE 1 5 ++ z 15 ++ z 6 ++ natLE 0xFFFF 2 ++ z 4 ++ natLE 1 4 ++ natLE (2 ^ 64 - 1) 8 ++ z 12) ++ z 48
    ++ natLE 16 4 ++ natLE 0 2 ++ z 2 ++ natLE 1 4 ++ z 4 ++ natLE 0 4 ++ z 44

def small : Bytes := smallBody.take 24 ++ sha384 smallBody ++ smallBody.drop 72

/-- What the loader reads from it where every field of its stream declaration is zero and its plan admits one rank, in one level. -/
def smallImage : Image :=
  let ss := sectionsOf small
  let r := resourcesOf (sectionBytes small ss 1)
  { digest := bytesAt small 24 48, formatVersion := 2, minCmdVersion := 3, tsBytes := r.tsBytes, maxDuration := 1, maxSeq := r.maxSeq, tensorBytes := r.tensorBytes
    vtiles := vtilesOf small ss 2, evalTiles := vtilesOf small ss 4, decls := [{}]
    tensors := tensorsFrom (sectionBytes small ss 6) (align4k (imageAreaBytes ss)) (tensorEntries (sectionBytes small ss 5))
    digestPlan := digestPlanOf (sectionBytes small ss 8), plan := { nMin := 1, nMax := 1, levels := [.fixed 0] }, initialAt := 0 }

theorem small_decls (hd : ∀ f d, Config.declField f d = 0) : declsOf small (sectionsOf small) = [{}] := by
  have h : (sectionBytes small (sectionsOf small) 3).length / 32 = 1 := by decide +kernel
  simp [declsOf, recordsAt, h, declOf, hd, signedOf, bit]

theorem small_plan (b : Bytes) (hq : ∀ f e d, Config.planField f e d = if f = 0 ∨ f = 1 ∨ f = 6 then 1 else 0) :
    planOf b = { nMin := 1, nMax := 1, levels := [.fixed 0] } := by
  simp [planOf, hq, countSpec]

theorem small_image (hd : ∀ f d, Config.declField f d = 0) (hq : ∀ f e d, Config.planField f e d = if f = 0 ∨ f = 1 ∨ f = 6 then 1 else 0) :
    imageOf small = smallImage := by
  simp only [imageOf, small_decls hd, small_plan _ hq]
  decide +kernel

/-- The image at address 65,536 of host memory and the command that loads it, executing on an empty suite with one tile. -/
def smallLoad : Bytes := natLE 65536 8 ++ natLE 768 8 ++ bytesAt small 24 48
def loading : State := hostWrite (transferring (suite0 { state := .empty, res := { tiles := [0], granted := [0], pcs := [0], blocks := 1 } }) 0x0202 0 smallLoad []) 65536 small

theorem small_loads (hp : ∀ k, Config.loadProof k small = false) (hd : ∀ f d, Config.declField f d = 0)
    (hq : ∀ f e d, Config.planField f e d = if f = 0 ∨ f = 1 ∨ f = 6 then 1 else 0) :
    loadFailure (loadBase loading 0) 0 (getRing loading (ringKey (.ring 0))) small = none := by
  have hx := small_image hd hq
  have hr : (getRing loading (ringKey (.ring 0))).imageVersions = [1, 2] ∧ (getRing loading (ringKey (.ring 0))).digestVersions = [1] ∧ (getRing loading (ringKey (.ring 0))).cmdVersion = 3 := by decide +kernel
  generalize getRing loading (ringKey (.ring 0)) = r at hr ⊢
  unfold loadFailure placeFailure
  rw [hx]
  simp only [hp, hr.1, hr.2.1, hr.2.2]
  decide +kernel

theorem loading_executes :
    Executes loading (.ring 0) 7 0x0202 { asked 0x0202 0 smallLoad with executing := true } ∧ hostFails loading 65536 768 = false
      ∧ hostBytes loading 65536 768 = small := by decide +kernel

theorem small_digest : imageDigest small = bytesAt small 24 48 := by decide +kernel

/-- LOAD_IMAGE succeeds on this image wherever the open layouts read it so and no open check finds a breach. -/
theorem test_meets_BulkTransfersComplete_loads :
    Executes loading (.ring 0) 7 0x0202 { asked 0x0202 0 smallLoad with executing := true } ∧ hostFails loading 65536 768 = false
      ∧ hostBytes loading 65536 768 = small ∧ imageDigest small = bytesAt small 24 48
      ∧ ((∀ k, Config.loadProof k small = false) → (∀ f d, Config.declField f d = 0)
        → (∀ f e d, Config.planField f e d = if f = 0 ∨ f = 1 ∨ f = 6 then 1 else 0)
        → loadFailure (loadBase loading 0) 0 (getRing loading (ringKey (.ring 0))) small = none) :=
  ⟨loading_executes.1, loading_executes.2.1, loading_executes.2.2, small_digest, small_loads⟩

/-- A capability record of module 7, port 1, that speaks the versions of `v`. -/
def farRec (v : Nat) : Bytes := natLE 7 4 ++ natLE 1 1 ++ natLE v 4

theorem test_meets_PortsTrainToTheirWidth_far :
    ((trainedPort { state := portRetraining } 0xFF allLanes ({ state := portRetraining } : Port).mayWiden).isSome = true
      ∧ trainedPort { state := portRetraining } 0x7F allLanes ({ state := portRetraining } : Port).mayWiden = none
      ∧ FastResult.failed ≠ .done ∧ FastResult.newFar ≠ .done)
    ∧ (farRec 6 ≠ [] ∧ (trainedPort (joinFar { state := portRetraining, retrainKind := 1, mayWiden := true } (farRec 6)) allLanes 0xFFF true).any
        (fun y => y.linkVersion != 0) = true)
    ∧ trainedPort (joinFar { state := portRetraining, retrainKind := 1 } (farRec 6)) allLanes 0x7F false = none
    ∧ ((getPort (portAt { state := portRetraining, retrainKind := 1 }) 15).state = portRetraining)
    ∧ (commonVersion (fieldAt (farRec 2) 5 4) ≠ 0 ∧ sameFar { state := portTraining, feed := 0 } (farRec 2) = false
      ∧ sameFar { state := portTraining, feed := 1, lastModule := 7, lastPort := 1 } (farRec 2) = true)
    ∧ ((lit 3 0 { feed := 0, state := portDown }).dev = .running ∧ (getPort (lit 3 0 { feed := 0, state := portDown }) 0).feed ≠ 2
      ∧ (getPort (lit 3 0 { feed := 0, state := portDown }) 0).disabled = false
      ∧ feedLit (lit 3 0 { feed := 0, state := portDown }) 0 (getPort (lit 3 0 { feed := 0, state := portDown }) 0).feed = true)
    ∧ (∀ r, r ∈ [2, 3] → ({ portAt {} with mgr := { role := r, workers := [{ port := 15 }] } } : State).mgr.workers.any (fun w => w.port == 15) = true)
    ∧ (farRec 0 ≠ [] ∧ (getPort (portAt { state := portTraining }) 15).state = portTraining) := by decide +kernel

/-- The top manager a second after it last heard of its workers, of which the first holds rank 0. -/
def silentTop : State := { top jobOne with bell := { count := 1000000, state := .locked } }
/-- A worker that last heard of its manager at bell 0, its bell count at the limit. -/
def silentWorker (st : SuiteState) : State :=
  { rankHere {} st with bell := { count := 1000000, state := .locked }, mgr := { role := 1, moduleId := 6, parent := 0, parentPort := 2, heard := some 0 } }

theorem test_meets_ManagersAndWorkersAreWatched_silence :
    (silentTop.mgr.workers.any (fun w => w.module == 7 && !w.lost && decide (w.lastSeen + contactLost ≤ silentTop.bell.count)) = true
      ∧ silentTop.mgr.workers.any (fun w => w.module == 6 && !w.lost && decide (w.lastSeen + contactLost ≤ silentTop.bell.count)) = true)
    ∧ (∀ st, st ∈ [SuiteState.running, .loaded] → (silentWorker st).mgr.heard = some 0 ∧ 0 + contactLost ≤ (silentWorker st).bell.count
      ∧ SMap.sorted (silentWorker st).suites = true ∧ (silentWorker st).suites.all (fun p => !(p.2.job.rank.isSome) || decide (p.2.state ≠ .preempted)) = true
      ∧ (getSuite (silentWorker st) 0).slice.stopping = false) := by decide +kernel

theorem test_meets_RanksHaltAndRestore_conditions :
    (getSuite (toRestore {}) 0).job.haltBell = none
    ∧ ((match restorePoint crowded 0 with
        | some p => (mapFailure p.1 0).isSome || smallMemory p.1 0
        | none => false) = true ∧ (getSuite crowded 0).job.haltBell = none)
    ∧ ((match restorePoint (toRestore { inPlace := true }) 0 with
        | some p => (mapFailure p.1 0).isNone && !(smallMemory p.1 0)
        | none => false) = true ∧ (getSuite (toRestore { inPlace := true }) 0).image.isSome = true
      ∧ (getSuite (toRestore { inPlace := true }) 0).job.inPlace = true)
    ∧ ((getSuite (job0 (haltable .loaded { takeover := some (takeoverBody 2) })) 0).state = .loaded) := by decide +kernel

theorem test_meets_ManagementPacketsArriveAndAreRelayed_conditions :
    ((linked { inActivation := true }).fw.inActivation = true ∧ (getPort (linked { inActivation := true }) 2).state = portUp)
    ∧ ((linked { serving := true }).fw.inActivation = false ∧ (linked { serving := true }).fw.serving = true)
    ∧ ((executingOf (asking 0x0502) (.ring 0) 7).isSome = true ∧ (asking 0x0502).mgr.broadcasts.find? (fun x => x.tag == 7) = some { src := .ring 0, tag := 7, waiting := [6] }
      ∧ (executingOf (asking 0x0502) (.ring 0) 7).all (fun w => decide (0 + gatherWait (asking 0x0502) w ≤ (asking 0x0502).bell.count)) = true)
    ∧ (fieldAt (envelope 9 1 5 0x0201).payload 12 1 < 6 ∧ ¬ fieldAt (envelope 9 1 6 0x0201).payload 12 1 < 6
      ∧ isSilent (envelope 9 1 6 0x0201) (bodyOf (envelope 9 1 6 0x0201)) = false) := by decide +kernel

theorem test_meets_EvaluationWindowsRunBetweenSteps_order :
    (stepStatus (running (windowed { step := 3 }) { step := 3 } {} [evalEvent 3]) 0 3 = 0
      ∧ windowsOf (getSuite (running {} { step := 3 } {} [evalEvent 3]) 0) = [])
    ∧ ((getSuite (running (windowed { step := 3 }) (atGate 4)) 0).slice.stopping = false
      ∧ (ckptsOf (getSuite (running (windowed { step := 3 }) (atGate 4)) 0)).any (fun e => e.step == 3) = false
      ∧ ({ step := 3 } : EvalWindow).started = false
      ∧ residents (running (windowed { step := 3 }) (atGate 4)) 0 = [(0, 0)] ∧ windowReady (running (windowed { step := 3 }) (atGate 4)) 0 = true)
    ∧ ((getSuite (running (windowed { step := 3, started := true, resident := [(0, 0)] }) {} { evalMode := true }) 0).laterWindows = []
      ∧ (([(0, 0)] : List (Nat × Nat)).map (fun p => p.1)).Nodup) := by decide +kernel

theorem test_meets_CheckpointsCopyTheState_order :
    (ckptsOf (getSuite (running {} { step := 3 } {} [ckptEvent 3]) 0) = []
      ∧ dueEvent (running {} { step := 5 } {} [ckptEvent 3]) 1 0x0400 = some (ckptEvent 3))
    ∧ (([.uncorrectable 5 0] : List MemObs).any losesData = true
      ∧ ([.uncorrectable 5 0] : List MemObs).filter (obsOfSuite (running (copying 1) (atGate 4)) 0) = []) := by decide +kernel

/-- Tile 0 folded over virtual tiles 0 and 1, at the end of segments of the steps `a` and `b`. -/
def foldedAt (a b : Nat) : State :=
  { dev := .running
    suites := [(0, { state := .running, image := some (richImage []), res := { tiles := [0] }, vmap := [(0, 0), (1, 0)]
                     saves := [(1, { f := atGate b, b := atGate b, u := atGate b })] })]
    tiles := [(0, { suite := some 0, vtile := 0, fold := 2, core := { f := atGate a, b := atGate a, u := atGate a } })] }

theorem test_meets_SuitesResumeSwapAndDrain_turns :
    ((getSuite resumable 0).image.isSome = true ∧ (getSuite resumable 0).state = .preempted)
    ∧ (foldNext (foldedAt 4 3) 0 0 (richImage []) = some 1 ∧ segmentEnd (foldedAt 4 3) 0 = true ∧ resolutionOf (foldedAt 4 3) 0 = none
      ∧ (getTile (foldedAt 4 3) 0).verdicts = [] ∧ (getTile (foldedAt 4 3) 0).passes = [] ∧ 1 ≠ (getTile (foldedAt 4 3) 0).vtile
      ∧ [KStream.f, .b, .u].all (fun k => !((SMap.get {} (getSuite (foldedAt 4 3) 0).saves 1 : TileCore).stream k).cutWait) = true)
    ∧ (foldNext (foldedAt 3 4) 0 0 (richImage []) = some 0 ∧ 0 = (getTile (foldedAt 3 4) 0).vtile
      ∧ [KStream.f, .b, .u].all (fun k => !(getStream (foldedAt 3 4) 0 k).cutWait) = true)
    ∧ (foldNext (foldedAt 3 4) 0 0 (richImage []) ≠ some 1)
    ∧ ((getTile (folded true (some {})) 0).evalMode = true ∧ ({ programsDone := [0] } : EvalWindow).programsDone.contains 1 = false
      ∧ evalTurn { (getSuite (folded true (some {})) 0) with window := some { programsDone := [0] } } { programsDone := [0], saves := [] } 0 1 = 1)
    ∧ ((getSuite (updSuite (running { slice := { stopAfter := some 3 } } (atGate 4)) 0 (fun x => { x with state := .draining })) 0).slice.stopAfter = some 3
      ∧ drained (updSuite (running { slice := { stopAfter := some 3 } } (atGate 4)) 0 (fun x => { x with state := .draining })) 0 = true
      ∧ (suiteSteps (updSuite (running { slice := { stopAfter := some 3 } } (atGate 4)) 0 (fun x => { x with state := .draining })) 0).all (fun v => decide (3 < v)) = true
      ∧ (suiteStreams (updSuite (running { slice := { stopAfter := some 3 } } (atGate 4)) 0 (fun x => { x with state := .draining })) 0).all
          (fun p => decide ((getStream (updSuite (running { slice := { stopAfter := some 3 } } (atGate 4)) 0 (fun x => { x with state := .draining })) p.1 p.2).phase = .atGate)) = true)
    ∧ ((getSuite (drainingSuite {} [(0, { suite := some 0 })]) 0).slice.stopAfter = none
      ∧ (getSuite (drainingSuite { rollback := true } [(0, { suite := some 0 })]) 0).slice.stopAfter = none)
    ∧ ((getSuite (stopping stoppedK stoppedK stoppedK [] []) 0).slice.stopAfter = none
      ∧ (getTile (stopping stoppedK stoppedK stoppedK [] []) 0).evalMode = false) := by decide +kernel

/-- A module in standby whose Attic was written at 100 s of its life, of which it has `l`. -/
def lived (l : Nat) : State :=
  { dev := .standby, atticStore := { storing false 0 with lastWrite := some 100, lastFault := some 100 }, attic := { lifetimeS := l } }

theorem test_meets_AtticWritesTakeTheOtherBank_intervals :
    (writePast (lived 101) (lived 101).atticStore.lastFault 1 = true ∧ writePast (lived 160) (lived 160).atticStore.lastWrite 60 = true
      ∧ (lived 160).atticStore.pendingOther = true)
    ∧ ((lived 159).atticStore.lastWrite = some 100 ∧ (lived 159).attic.lifetimeS < 100 + 60) := by decide +kernel

theorem test_meets_PowerOnLeadsToReady_sleep :
    (({ dev := .draining, bringup := { sleeping := true } } : State).bringup.sleeping = true)
    ∧ (({ dev := .draining, bringup := { sleeping := true, wakeHeld := true } } : State).bringup.wakeHeld = true
      ∧ ({ dev := .draining, bringup := { sleeping := true } } : State).bringup.wakeHeld = false)
    ∧ (getWing { dev := .running, wings := [(7, { inReset := true })] } 7).inReset = true := by decide +kernel

theorem test_meets_RingsTakeDoorbellsAndEvents_free :
    (((0 + 2 ^ 4 - 0) % 2 ^ 4 + (15 % 4096 + 2 ^ 4 - 0) % 2 ^ 4 < 2 ^ 4)
      ∧ (getRing (ringed 0 { enable := true } false) 0).sqLog2 = 4 ∧ (getRing (ringed 0 { enable := true } false) 0).sqHead = 0
      ∧ (getRing (ringed 0 { enable := true } false) 0).sqTail = 0)
    ∧ (5 % 4096 = (getRing (ringed 0 { enable := true, sqHead := 5, sqTail := 5 } false) 0).sqHead
      ∧ (getRing (ringed 0 { enable := true, sqHead := 5, sqTail := 5 } false) 0).sqHead < 2 ^ 4) := by decide +kernel

def subAt (m : Manager) : State := reached { m with role := 3, moduleId := 6, parent := 0, parentPort := 2 } .ready {}
/-- A detach of module 6 that its manager sends over port 2. -/
def detached : Waiting := { pkt := { opcode := 0x0502, suite := 0xFF, tag := 7, flags := 8, payload := natLE 6 4 ++ natLE 0 4 ++ z 8 ++ natLE 6 4 } }
def leaving (role : Nat) (su : Suite) : State :=
  { reached { role := role, moduleId := 6, parent := 0, parentPort := 2 } .ready su with rings := [(18, { queue := [detached] })] }

theorem test_meets_ManagerCommandsHaveTheirEffect_hierarchy :
    (holdsRank (withMgr oneWorker) = false ∧ holdsRank (withMgr {}) = false ∧ (withMgr {}).mgr.role = 0 ∧ RunsOn (withMgr {}) 0x0500 0xFF (z 4))
    ∧ (RunsAt (reached { role := 2, moduleId := 0 } .ready {}) (offered 9) ∧ holdsRank (reached { role := 2, moduleId := 0 } .ready {}) = false
      ∧ fieldAt (offered 9).pkt.payload 0 4 ≠ ownId (reached { role := 2, moduleId := 0 } .ready {})
      ∧ RunsAt (reached oneWorker .ready {}) (offered 9) ∧ fieldAt (offered 9).pkt.payload 0 4 ≠ ownId (reached oneWorker .ready {})
      ∧ RunsAt (reached { role := 2, moduleId := 0 } .ready (ganged .running)) (offered 9))
    ∧ (∀ role, role ∈ [1, 3] → RunsAt (leaving role {}) detached ∧ fieldAt (bodyOf detached.pkt) 0 4 = ownId (leaving role {})
      ∧ holdsRank (leaving role {}) = false ∧ RunsAt (leaving role (ganged .running)) detached ∧ holdsRank (leaving role (ganged .running)) = true)
    ∧ (RunsOn (subAt { workers := [{ module := 9, port := 5 }] }) 0x0502 0xFF (natLE 9 4)
      ∧ ({ module := 9, port := 5 } : WorkerInfo).lost = false
      ∧ RunsOn (subAt { workers := [{ module := 9, port := 5 }] }) 0x0502 0xFF (natLE 8 4)) := by decide +kernel

theorem test_meets_ManagerCommandsHaveTheirEffect_expels :
    (RunsOn (oneRank jobOne) 0x0504 0xFF (expelBody [7]) ∧ SMap.has (getJob (oneRank jobOne) 0).ranks 7 = false)
    ∧ (RunsOn (oneRank { jobOne with started := false }) 0x0504 0xFF (expelBody [0]) ∧ SMap.has (oneRank { jobOne with started := false }).mgr.jobs 0 = true
      ∧ SMap.has (getJob (oneRank { jobOne with started := false }) 0).ranks 0 = true)
    ∧ ((getSuite (rankIn .loaded {}) 0).job.takeover = none ∧ RunsOn (rankIn .loaded { takeover := some [] }) 0x0505 0 (takeoverBody 1)
      ∧ RunsOn (rankIn .loaded { rank := some 0 }) 0x0505 0 (takeoverBody 1))
    ∧ (haltNamed ({ lineage := lineage1, rank := some 0 } : JobState) = false
      ∧ haltNamed ({ lineage := lineage1, rank := some 0, haltBell := some 3, haltStep := 9 } : JobState) = true) := by decide +kernel

/-- The last packet of a round of maps, of two ranks. -/
def lastRoutes (n rank : Nat) : Bytes := lineage1 ++ natLE rank 4 ++ natLE n 4 ++ z 4 ++ natLE 2 2 ++ natLE 1 1 ++ natLE 1 1 ++ z 16
def mappable0 : State := suite0 { state := .loaded, image := some (richImage []), res := { tiles := [0], pcs := [0], granted := [0] } }
def narrowPlan : State :=
  suite0 { state := .loaded, image := some { richImage [] with plan := { nMax := 1, levels := [.fixed 1] } }, res := { tiles := [0], pcs := [0], granted := [0] } }

theorem test_meets_JobTrafficReachesItsRank_maps :
    (RunsOn (mapped .loaded { mapReceived := true }) 0x050B 0 (mapBody 2 0xFFFFFFFF) ∧ fieldAt (mapBody 2 0xFFFFFFFF) 16 4 = 0xFFFFFFFF
      ∧ RunsOn (mapped .loaded {}) 0x050B 0 (mapBody 2 1))
    ∧ (RunsOn narrowPlan 0x050B 0 (lastRoutes 2 1) ∧ bit (fieldAt (lastRoutes 2 1) 31 1) 0 = true ∧ fieldAt (lastRoutes 2 1) 30 1 = 1
      ∧ planAdmits ({ nMax := 1, levels := [.fixed 1] } : CollectivePlan) (fieldAt (lastRoutes 2 1) 20 4) = false)
    ∧ (∀ r, r ∈ [1, 0xFFFFFFFF] → RunsOn mappable0 0x050B 0 (lastRoutes 2 r) ∧ planAdmits (richImage []).plan (fieldAt (lastRoutes 2 r) 20 4) = true
      ∧ transitFits (takeJobMap (taken (cmd mappable0 0x050B 0 (lastRoutes 2 r)) (.ring 0) (asked 0x050B 0 (lastRoutes 2 r))) 0 (lastRoutes 2 r)) 0
          ((getSuite (takeJobMap (taken (cmd mappable0 0x050B 0 (lastRoutes 2 r)) (.ring 0) (asked 0x050B 0 (lastRoutes 2 r))) 0 (lastRoutes 2 r)) 0).job.routes.map (fun q => q.2)) = true
      ∧ mapFailure (takeJobMap (taken (cmd mappable0 0x050B 0 (lastRoutes 2 r)) (.ring 0) (asked 0x050B 0 (lastRoutes 2 r))) 0 (lastRoutes 2 r)) 0 = none) := by decide +kernel

theorem test_meets_SchedulingCommandsReply_limits :
    (1024 ≤ (pendingEvents (atStep 3 (List.replicate 1024 {}))).length ∧ RunsOn (atStep 3 (List.replicate 1024 {})) 0x0400 0 (stepBody 3)
      ∧ RunsOn (atStep 3 (List.replicate 1024 {})) 0x0802 0 (z 24))
    ∧ (RunsOn (suite0 { state := .loaded }) 0x0400 0 (stepBody 3) ∧ uPassed (suite0 { state := .loaded }) 0 4 = false) := by decide +kernel

theorem test_meets_BulkTransfersComplete_others :
    (∀ op, op ∈ [0x0202, 0x0204, 0x0403, 0x0405] → Executes (transferring ready op 0xFF (z 32) []) (.ring 0) 7 op { asked op 0xFF (z 32) with executing := true })
    ∧ (∀ op, op ∈ [0x0F00, 0x0402, 0x0404] → Executes (transferring ready op 0xFF (z 32) []) (.ring 0) 7 op { asked op 0xFF (z 32) with executing := true }) := by
  decide +kernel

end Sys2Proof.Tests
end

section
/-!
PROOFS. The number formats: what reading and writing a four-bit code of tile memory gives, and with it rule R58.
-/
open Sys2Proof

namespace Sys2Proof.Machine

theorem bits_lt (v lo w : Nat) : bits v lo w < 2 ^ w := Nat.mod_lt _ (Nat.two_pow_pos w)

theorem codeAt_q4a (m : Memory) (addr nib : Nat) : codeAt m .q4a addr nib = bits (Memory.read m addr).toNat (4 * nib) 4 := rfl

theorem codeAt_q4a_le (m : Memory) (addr nib : Nat) : codeAt m .q4a addr nib ≤ 15 := by
  rw [codeAt_q4a]
  exact Nat.le_of_lt_succ (bits_lt _ _ 4)

theorem codeValue_q4a (tab : List Nat) (z : Int) (c : Nat) : codeValue .q4a tab z c = (.num ⟨(c : Int) - z, 0⟩ false, false) := rfl

/-- A four-bit code written to either half of a byte reads back from that half (rules R58, R59). -/
theorem codeAt_setCode_q4a_same (m : Memory) (addr nib c : Nat) (hnib : nib < 2) (hc : c ≤ 15) :
    codeAt (setCode m .q4a addr nib c) .q4a addr nib = c := by
  have hbyte := (Memory.read m addr).isLt
  simp only [codeAt_q4a, setCode, Memory.read_write_same, BitVec.toNat_ofNat, bits, Nat.shiftRight_eq_div_pow]
  obtain rfl | rfl : nib = 0 ∨ nib = 1 := by omega
  · rw [if_pos rfl]
    omega
  · rw [if_neg Nat.one_ne_zero]
    omega

/-- Settles O58: the reading of four bits bounds a code, its value is the equation of `codeValue` for the format, and any code up to 15 is the
one that reads back once it is written. -/
theorem q4ActivationCodesAreCodeMinusZeroPoint : Obligations.Q4ActivationCodesAreCodeMinusZeroPoint :=
  ⟨codeAt_q4a_le, fun c tab z _ => codeValue_q4a tab z c,
    fun c hc => ⟨setCode [] .q4a 0 0 c, 0, 0, codeAt_setCode_q4a_same [] 0 0 c Nat.two_pos hc⟩⟩

end Sys2Proof.Machine
end

section
/-!
PROOFS. The lanes of a Spire port: what a mask of qualified lanes holds, the width and the active lanes that it gives, and with them rule R284.
-/
open Sys2Proof

namespace Sys2Proof.Machine

theorem bit_eq_testBit (v i : Nat) : bit v i = v.testBit i := by
  rw [bit, Nat.testBit_eq_decide_div_mod_eq, Nat.shiftRight_eq_div_pow, Bool.eq_iff_iff, beq_iff_eq, decide_eq_true_iff]

theorem mem_lanesOf (mask i : Nat) : i ∈ lanesOf mask ↔ i < 18 ∧ bit mask i = true := by
  rw [lanesOf, List.mem_filter, List.mem_range]

theorem lanesOf_length_le (mask : Nat) : (lanesOf mask).length ≤ 18 :=
  Nat.le_trans (List.length_filter_le _ _) (Nat.le_of_eq List.length_range)

theorem lanesOf_pairwise_lt (mask : Nat) : (lanesOf mask).Pairwise (· < ·) :=
  List.pairwise_lt_range.filter _

theorem testBit_add_two_pow {m j : Nat} (h : m < 2 ^ j) (i : Nat) : (m + 2 ^ j).testBit i = (m.testBit i || decide (j = i)) := by
  have hor := Nat.two_pow_add_eq_or_of_lt h 1
  rw [Nat.mul_one] at hor
  rw [Nat.add_comm, hor, Nat.testBit_or, Nat.testBit_two_pow, Bool.or_comm]

/-- Adding the powers of two of a rising list to a number below all of them sets those bits and keeps the others. -/
theorem testBit_foldl_add_two_pow (i : Nat) (l : List Nat) : ∀ m : Nat, l.Pairwise (· < ·) → (∀ j ∈ l, m < 2 ^ j) →
    (l.foldl (fun m j => m + 2 ^ j) m).testBit i = (m.testBit i || l.contains i) := by
  induction l with
  | nil =>
    intro m _ _
    rw [List.foldl_nil, List.contains_nil, Bool.or_false]
  | cons j l ih =>
    intro m hrise hbelow
    obtain ⟨hj, hl⟩ := List.pairwise_cons.1 hrise
    have hm : m < 2 ^ j := hbelow j List.mem_cons_self
    have hnext : ∀ k ∈ l, m + 2 ^ j < 2 ^ k := fun k hk => by
      have hle : 2 ^ (j + 1) ≤ 2 ^ k := Nat.pow_le_pow_right Nat.two_pos (hj k hk)
      rw [Nat.pow_succ] at hle
      omega
    rw [List.foldl_cons, ih _ hl hnext, testBit_add_two_pow hm, List.contains_cons, Bool.or_assoc]
    congr 2
    rw [Bool.eq_iff_iff, decide_eq_true_iff, beq_iff_eq, eq_comm]

/-- The set bits of the active mask are the lowest-numbered qualified lanes. -/
theorem bit_activeMask (mask n i : Nat) : bit (activeMask mask n) i = ((lanesOf mask).take n).contains i := by
  have hrise : ((lanesOf mask).take n).Pairwise (· < ·) := (lanesOf_pairwise_lt mask).sublist (List.take_sublist n _)
  rw [bit_eq_testBit, activeMask, testBit_foldl_add_two_pow i _ 0 hrise (fun j _ => Nat.two_pow_pos j), Nat.zero_testBit, Bool.false_or]

theorem lanesFor_of_ge_16 {h : Nat} (h16 : 16 ≤ h) : lanesFor h = 16 := if_pos h16

theorem lanesFor_of_12_to_15 {h : Nat} (h12 : 12 ≤ h) (h15 : h ≤ 15) : lanesFor h = 12 := by
  rw [lanesFor, if_neg (by omega), if_pos h12]

theorem lanesFor_of_8_to_11 {h : Nat} (h8 : 8 ≤ h) (h11 : h ≤ 11) : lanesFor h = 8 := by
  rw [lanesFor, if_neg (by omega), if_neg (by omega), if_pos h8]

theorem lanesFor_of_le_7 {h : Nat} (h7 : h ≤ 7) : lanesFor h = 0 := by
  rw [lanesFor, if_neg (by omega), if_neg (by omega), if_neg (by omega)]

theorem lanesFor_cases (h : Nat) :
    (16 ≤ h ∧ lanesFor h = 16) ∨ (12 ≤ h ∧ lanesFor h = 12) ∨ (8 ≤ h ∧ lanesFor h = 8) ∨ (h ≤ 7 ∧ lanesFor h = 0) := by
  by_cases h16 : 16 ≤ h
  · exact .inl ⟨h16, lanesFor_of_ge_16 h16⟩
  by_cases h12 : 12 ≤ h
  · exact .inr (.inl ⟨h12, lanesFor_of_12_to_15 h12 (by omega)⟩)
  by_cases h8 : 8 ≤ h
  · exact .inr (.inr (.inl ⟨h8, lanesFor_of_8_to_11 h8 (by omega)⟩))
  · exact .inr (.inr (.inr ⟨by omega, lanesFor_of_le_7 (by omega)⟩))

theorem lanesFor_eq_zero_iff (h : Nat) : lanesFor h = 0 ↔ h < 8 := by
  have hcases := lanesFor_cases h
  omega

theorem lanesOfWidth_widthOfLanes_lanesFor (h : Nat) : lanesOfWidth (widthOfLanes (lanesFor h)) = lanesFor h := by
  obtain ⟨-, hl⟩ | ⟨-, hl⟩ | ⟨-, hl⟩ | ⟨-, hl⟩ := lanesFor_cases h <;> rw [hl] <;> rfl

theorem trainedPort_widen_eq_none {x : Port} {tx rx : Nat} (h : (lanesOf tx).length ≤ 7 ∨ (lanesOf rx).length ≤ 7) :
    trainedPort x tx rx true = none :=
  if_pos (h.imp lanesFor_of_le_7 lanesFor_of_le_7)

/-- A port that may widen and has eight qualified lanes in each direction trains, and takes the width and the lanes of each direction. -/
theorem trainedPort_widen_eq_some (x : Port) {tx rx : Nat} (ht : 8 ≤ (lanesOf tx).length) (hr : 8 ≤ (lanesOf rx).length) :
    trainedPort x tx rx true = some { x with
      state := portUp
      txWidth := widthOfLanes (lanesFor (lanesOf tx).length), rxWidth := widthOfLanes (lanesFor (lanesOf rx).length)
      laneTx := activeMask tx (lanesFor (lanesOf tx).length), laneRx := activeMask rx (lanesFor (lanesOf rx).length)
      failTx := 2 ^ 18 - 1 - tx % 2 ^ 18, failRx := 2 ^ 18 - 1 - rx % 2 ^ 18, retries := 0, mayWiden := false } := by
  have hnz : ¬ (lanesFor (lanesOf tx).length = 0 ∨ lanesFor (lanesOf rx).length = 0) := by
    rw [lanesFor_eq_zero_iff, lanesFor_eq_zero_iff]
    omega
  exact if_neg hnz

/-- A port that may widen trains exactly where each direction has eight qualified lanes. -/
theorem trainedPort_widen_some_iff (x : Port) (tx rx : Nat) :
    (∃ y, trainedPort x tx rx true = some y) ↔ 8 ≤ (lanesOf tx).length ∧ 8 ≤ (lanesOf rx).length := by
  constructor
  · rintro ⟨y, hy⟩
    by_cases hfew : (lanesOf tx).length ≤ 7 ∨ (lanesOf rx).length ≤ 7
    · rw [trainedPort_widen_eq_none hfew] at hy
      contradiction
    · omega
  · exact fun ⟨ht, hr⟩ => ⟨_, trainedPort_widen_eq_some x ht hr⟩

theorem trainedPort_widen_lanes {x y : Port} {tx rx : Nat} (h : trainedPort x tx rx true = some y) :
    y.state = portUp ∧ lanesOfWidth y.txWidth = lanesFor (lanesOf tx).length ∧ lanesOfWidth y.rxWidth = lanesFor (lanesOf rx).length
      ∧ y.laneTx = activeMask tx (lanesFor (lanesOf tx).length) ∧ y.laneRx = activeMask rx (lanesFor (lanesOf rx).length) := by
  obtain ⟨ht, hr⟩ := (trainedPort_widen_some_iff x tx rx).1 ⟨y, h⟩
  obtain rfl := Option.some.inj ((trainedPort_widen_eq_some x ht hr).symm.trans h)
  exact ⟨rfl, lanesOfWidth_widthOfLanes_lanesFor _, lanesOfWidth_widthOfLanes_lanesFor _, rfl, rfl⟩

@[simp] theorem getPort_downPort_state (s : State) (p : Nat) : (getPort (downPort s p false) p).state = portDown := by
  rw [downPort, if_neg Bool.false_ne_true, getPort_updPort_same]

theorem exec_bringupTrainingComplete (p tx rx : Nat) (far : Bytes) (s : State) :
    exec (.bringupTrainingComplete p tx rx far) s = execBringupTrainingComplete p tx rx far s := rfl

/-- Bring-up training of a TRAINING port that finds fewer than eight lanes in a direction brings the port DOWN (rules R283, R284). -/
theorem bringupTraining_few_lanes {s : State} {p tx rx : Nat} {far : Bytes} (hp : portPresent s p = true)
    (hst : (getPort s p).state = portTraining) (hfew : (lanesOf tx).length ≤ 7 ∨ (lanesOf rx).length ≤ 7) (hfar : far ≠ []) :
    exec (.bringupTrainingComplete p tx rx far) s = .next (settleReady (answerPort (downPort (sendCapability s p) p false) p)) := by
  rw [exec_bringupTrainingComplete, execBringupTrainingComplete, whenDo_true _ _ _ (by rw [hp, hst]; rfl), if_neg hfar,
    trainedPort_widen_eq_none hfew]

/-- Settles O18: the lanes of a mask rise, so its active lanes are the lowest-numbered; the width is the step function `lanesFor` of their
count; a port that trains takes it in each direction on its own, and one without eight lanes does not train. -/
theorem widthFollowsQualifiedLanes : Obligations.WidthFollowsQualifiedLanes :=
  ⟨fun mask => ⟨lanesOf_length_le mask, mem_lanesOf mask, lanesOf_pairwise_lt mask, lanesFor_of_ge_16, lanesFor_of_12_to_15,
      lanesFor_of_8_to_11, lanesFor_of_le_7, bit_activeMask mask⟩,
    fun _ _ _ _ => trainedPort_widen_lanes, trainedPort_widen_some_iff,
    fun _ _ _ _ _ hp hst hfew hfar => ⟨bringupTraining_few_lanes hp hst hfew hfar, getPort_downPort_state _ _⟩⟩

end Sys2Proof.Machine
end

section
/-!
PROOFS. Little-endian fields of a byte string (rules R7, R12): a number written and read back, and the field that stands behind other fields.
-/
namespace Sys2Proof

@[simp] theorem natLE_length (v n : Nat) : (natLE v n).length = n := by
  induction n generalizing v with
  | zero => rfl
  | succ n ih => rw [natLE, List.length_cons, ih]

/-- Little-endian bytes hold the number as far as they reach. -/
theorem leNat_natLE (v n : Nat) : leNat (natLE v n) = v % 256 ^ n := by
  induction n generalizing v with
  | zero => rw [Nat.pow_zero, Nat.mod_one]; rfl
  | succ n ih =>
    have hbyte : (BitVec.ofNat 8 v).toNat = v % 256 := BitVec.toNat_ofNat v 8
    rw [natLE, leNat, ih, hbyte, Nat.pow_succ', Nat.mod_mul]

theorem bytesAt_append_left {a : Bytes} {n : Nat} (h : a.length = n) (b : Bytes) : bytesAt (a ++ b) 0 n = a := by
  subst h
  rw [bytesAt, List.drop_zero, List.take_left, Nat.sub_self, List.replicate_zero, List.append_nil]

theorem bytesAt_append_right {a : Bytes} {o : Nat} (h : a.length ≤ o) (b : Bytes) (n : Nat) :
    bytesAt (a ++ b) o n = bytesAt b (o - a.length) n := by
  rw [bytesAt, bytesAt, List.drop_append, List.drop_eq_nil_of_le h, List.nil_append]

/-- The field at the front of a byte string. -/
@[simp] theorem fieldAt_natLE_append (v n : Nat) (b : Bytes) : fieldAt (natLE v n ++ b) 0 n = v % 256 ^ n := by
  rw [fieldAt, bytesAt_append_left (natLE_length v n), leNat_natLE]

/-- A field that stands behind the front one. -/
@[simp] theorem fieldAt_natLE_append_of_le (v : Nat) {k o : Nat} (h : k ≤ o) (b : Bytes) (n : Nat) :
    fieldAt (natLE v k ++ b) o n = fieldAt b (o - k) n := by
  rw [fieldAt, bytesAt_append_right (by rwa [natLE_length]), natLE_length, fieldAt]

end Sys2Proof
end

section
/-!
PROOFS. Command packets: the CRC is a 32-bit number, each field of the header stands where rule R366 puts it, and with them the packet that is
read back from its bytes.
-/
open Sys2Proof

namespace Sys2Proof.Machine

theorem crcBit_lt {c : Nat} (h : c < 2 ^ 32) : crcBit c < 2 ^ 32 := by
  have hhalf : c / 2 < 2 ^ 32 := Nat.lt_of_le_of_lt (Nat.div_le_self c 2) h
  rw [crcBit]
  split
  · exact Nat.xor_lt_two_pow hhalf (by decide)
  · exact hhalf

theorem crcByte_lt {c : Nat} (h : c < 2 ^ 32) (b : Byte) : crcByte c b < 2 ^ 32 := by
  have hx : c ^^^ b.toNat < 2 ^ 32 := Nat.xor_lt_two_pow h (Nat.lt_of_lt_of_le b.isLt (by decide))
  exact crcBit_lt <| crcBit_lt <| crcBit_lt <| crcBit_lt <| crcBit_lt <| crcBit_lt <| crcBit_lt <| crcBit_lt hx

theorem foldl_crcByte_lt (bs : Bytes) {c : Nat} (h : c < 2 ^ 32) : bs.foldl crcByte c < 2 ^ 32 := by
  induction bs generalizing c with
  | nil => exact h
  | cons b bs ih => exact ih (crcByte_lt h b)

theorem crc32_lt (bs : Bytes) : crc32 bs < 2 ^ 32 :=
  Nat.xor_lt_two_pow (foldl_crcByte_lt bs (by decide)) (by decide)

/-- The twelve header bytes that stand before the CRC (rule R366). -/
def packetHead (p : Packet) : Bytes :=
  natLE p.version 1 ++ (natLE p.flags 1 ++ (natLE p.opcode 2 ++ (natLE p.tag 4 ++ (natLE p.suite 1 ++ (natLE 0 1 ++ natLE p.payload.length 2)))))

@[simp] theorem packetHead_length (p : Packet) : (packetHead p).length = 12 := by
  simp only [packetHead, List.length_append, natLE_length]

theorem packetBytes_eq (p : Packet) :
    packetBytes p = packetHead p ++ (natLE (crc32 (packetHead p ++ p.payload)) 4 ++ p.payload) := by
  have hzero : [0#8] = natLE 0 1 := rfl
  simp only [packetBytes, packetHead, hzero, List.append_assoc]

theorem packetBytes_length (p : Packet) : (packetBytes p).length = 16 + p.payload.length := by
  rw [packetBytes_eq, List.length_append, List.length_append, packetHead_length, natLE_length, ← Nat.add_assoc]

@[simp] theorem take_packetBytes (p : Packet) : (packetBytes p).take 12 = packetHead p := by
  rw [packetBytes_eq, List.take_left' (packetHead_length p)]

@[simp] theorem drop_packetBytes (p : Packet) : (packetBytes p).drop 16 = p.payload := by
  rw [packetBytes_eq, ← List.append_assoc, List.drop_left' (by rw [List.length_append, packetHead_length, natLE_length])]

/-- The packet as the row of its fields, so that a field is found by passing over those before it. -/
theorem packetBytes_fields (p : Packet) :
    packetBytes p = natLE p.version 1 ++ (natLE p.flags 1 ++ (natLE p.opcode 2 ++ (natLE p.tag 4 ++ (natLE p.suite 1 ++ (natLE 0 1
      ++ (natLE p.payload.length 2 ++ (natLE (crc32 (packetHead p ++ p.payload)) 4 ++ p.payload))))))) := by
  rw [packetBytes_eq]
  simp only [packetHead, List.append_assoc]

theorem packetBytes_version (p : Packet) : fieldAt (packetBytes p) 0 1 = p.version % 256 := by
  simp [packetBytes_fields]

theorem packetBytes_flags (p : Packet) : fieldAt (packetBytes p) 1 1 = p.flags % 256 := by
  simp [packetBytes_fields]

theorem packetBytes_opcode (p : Packet) : fieldAt (packetBytes p) 2 2 = p.opcode % 2 ^ 16 := by
  simp [packetBytes_fields]

theorem packetBytes_tag (p : Packet) : fieldAt (packetBytes p) 4 4 = p.tag % 2 ^ 32 := by
  simp [packetBytes_fields]

theorem packetBytes_suite (p : Packet) : fieldAt (packetBytes p) 8 1 = p.suite % 256 := by
  simp [packetBytes_fields]

theorem packetBytes_reserved (p : Packet) : fieldAt (packetBytes p) 9 1 = 0 := by
  simp [packetBytes_fields]

theorem packetBytes_payloadLength (p : Packet) : fieldAt (packetBytes p) 10 2 = p.payload.length % 2 ^ 16 := by
  simp [packetBytes_fields]

theorem packetBytes_crc (p : Packet) : fieldAt (packetBytes p) 12 4 = crc32 (packetHead p ++ p.payload) := by
  calc fieldAt (packetBytes p) 12 4 = crc32 (packetHead p ++ p.payload) % 2 ^ 32 := by simp [packetBytes_fields]
    _ = crc32 (packetHead p ++ p.payload) := Nat.mod_eq_of_lt (crc32_lt _)

/-- What rule R366 lets the fields of a packet hold. -/
structure PacketFits (p : Packet) : Prop where
  version : p.version < 256
  flags : p.flags < 256
  opcode : p.opcode < 2 ^ 16
  tag : p.tag < 2 ^ 32
  suite : p.suite < 256
  payload : p.payload.length ≤ 4080

/-- The packet that is read from its bytes is the one that was written (rule R366). -/
theorem parsePacket_packetBytes {p : Packet} (h : PacketFits p) : parsePacket (packetBytes p) = p := by
  have hlength : min (p.payload.length % 2 ^ 16) 4080 = p.payload.length := by
    have := h.payload
    omega
  rw [parsePacket, packetBytes_version, packetBytes_flags, packetBytes_opcode, packetBytes_tag, packetBytes_suite, packetBytes_payloadLength,
    drop_packetBytes, hlength, List.take_length, Nat.mod_eq_of_lt h.version, Nat.mod_eq_of_lt h.flags, Nat.mod_eq_of_lt h.opcode,
    Nat.mod_eq_of_lt h.tag, Nat.mod_eq_of_lt h.suite]

/-- The FLAGS of a reply are the command's URGENT, BROADCAST and RELAYED, and REPLY (rule R368). -/
theorem replyBytes_flags (p : Packet) (version status detail : Nat) (body : Bytes) :
    fieldAt (replyBytes p version status detail body) 1 1 = p.flags % 16 / 2 * 2 + 1 := by
  have hbyte : p.flags % 16 / 2 * 2 + 1 < 256 := by omega
  rw [replyBytes, packetBytes_flags, Nat.mod_eq_of_lt hbyte]

theorem bit_zero_odd (n : Nat) : bit (n * 2 + 1) 0 = true := by
  rw [bit, Nat.shiftRight_zero, Nat.mul_add_mod_self_right, Nat.one_mod, beq_self_eq_true]

/-- Settles O57: the packet is the row of its fields, each read past those before it, so that the reader gives every field back; the CRC is a
32-bit number, and a reply's FLAGS are odd. -/
theorem packetsAreLaidOutAndReadBack : Obligations.PacketsAreLaidOutAndReadBack := by
  intro p hversion hflags hopcode htag hsuite hpayload
  have hfits : PacketFits p := ⟨hversion, hflags, hopcode, htag, hsuite, hpayload⟩
  refine ⟨packetBytes_length p, ?_, ?_, ?_, ?_, ?_, ?_, packetBytes_reserved p, ?_, ?_, drop_packetBytes p,
    parsePacket_packetBytes hfits, ⟨rfl, rfl⟩, fun version status detail body => ?_⟩
  · rw [packetBytes_length]
    omega
  · rw [packetBytes_version, Nat.mod_eq_of_lt hversion]
  · rw [packetBytes_flags, Nat.mod_eq_of_lt hflags]
  · rw [packetBytes_opcode, Nat.mod_eq_of_lt hopcode]
  · rw [packetBytes_tag, Nat.mod_eq_of_lt htag]
  · rw [packetBytes_suite, Nat.mod_eq_of_lt hsuite]
  · rw [packetBytes_payloadLength, Nat.mod_eq_of_lt (by omega)]
  · rw [packetBytes_crc, take_packetBytes]
  · rw [replyBytes_flags, bit_zero_odd]

end Sys2Proof.Machine
end

section
/-!
PROOFS. Every command goes on and keeps the forms: one lemma per command, by the branches of its meaning and the lemma of the operation in
each, and with them the invariant of a step.
-/
open Sys2Proof

namespace Sys2Proof.Machine

/-- Either branch of a choice keeps what `o` has. -/
theorem Keeps.ite {o u v : State} {c : Prop} [Decidable c] (hu : Keeps o u) (hv : Keeps o v) : Keeps o (if c then u else v) := by
  split
  · exact hu
  · exact hv

theorem Keeps.ite_fst {o : State} {c : Prop} [Decidable c] {x y : Effect} (hx : Keeps o x.1) (hy : Keeps o y.1) :
    Keeps o (if c then x else y).1 := by
  split
  · exact hx
  · exact hy

theorem KeepsO.ite {o : State} {c : Prop} [Decidable c] {x y : Option State} (hx : KeepsO o x) (hy : KeepsO o y) :
    KeepsO o (if c then x else y) := by
  split
  · exact hx
  · exact hy

theorem spdmAnswer_goes {base s : State} (h : Keeps base s) (stage next : Nat) (msg body : Bytes) :
    Goes base (spdmAnswer s stage next msg body) := by
  refine serveMctp_goes h ?_ ..
  split
  · exact answerMctp_keeps ((Keeps.upd ..).2 h) ..
  · exact refuseMctp_keeps h ..

section
variable {base s : State} (h : Keeps base s)
include h

theorem execNop_goes (tile : Nat) (st : KStream) : Goes base (execNop tile st s) := by
  unfold execNop
  refine ok_goes (issueAs_keeps_of h _ _ _ (fun i _ => ?_))
  split
  · exact KeepsO.some (advance_keeps h ..)
  · exact KeepsO.none

theorem execQin_goes (tile : Nat) (st : KStream) : Goes base (execQin tile st s) := by
  unfold execQin
  refine ok_goes (issueAs_keeps_of h _ _ _ (fun i w => ?_))
  split
  · exact KeepsO.ite KeepsO.none (KeepsO.some (issueQueue_keeps h ..))
  · exact KeepsO.none

theorem execQout_goes (tile : Nat) (st : KStream) : Goes base (execQout tile st s) := by
  unfold execQout
  refine ok_goes (issueAs_keeps_of h _ _ _ (fun i w => ?_))
  split
  · exact KeepsO.ite (KeepsO.some (issueQueue_keeps h ..)) KeepsO.none
  · exact KeepsO.none

theorem execWait_goes (tile : Nat) (st : KStream) : Goes base (execWait tile st s) := by
  unfold execWait
  refine ok_goes (issueAs_keeps_of h _ _ _ (fun i w => ?_))
  split
  · refine KeepsO.ite (KeepsO.some (faultStream_keeps h ..)) ?_
    exact KeepsO.ite (KeepsO.some (advance_keeps h ..)) (KeepsO.some (setStream_keeps h ..))
  · exact KeepsO.none

theorem execWaitSatisfied_goes (tile : Nat) (st : KStream) : Goes base (execWaitSatisfied tile st s) := by
  unfold execWaitSatisfied
  split
  · exact whenDo_goes h (advance_keeps h ..) _
  · exact ok_goes h

theorem execTake_goes (tile : Nat) (st : KStream) : Goes base (execTake tile st s) := by
  unfold execTake
  refine ok_goes (issueAs_keeps_of h _ _ _ (fun i w => ?_))
  split
  · exact KeepsO.ite (KeepsO.some (faultStream_keeps h ..)) (KeepsO.some (setStream_keeps h ..))
  · exact KeepsO.none

theorem execTakeComplete_goes (tile : Nat) (st : KStream) : Goes base (execTakeComplete tile st s) := by
  unfold execTakeComplete
  split
  · exact whenDo_goes h (advance_keeps (setToken_keeps h ..) ..) _
  · exact ok_goes h

theorem execPass_goes (tile : Nat) (st : KStream) : Goes base (execPass tile st s) := by
  unfold execPass
  refine ok_goes (issueAs_keeps_of h _ _ _ (fun i w => ?_))
  split
  · refine KeepsO.ite (KeepsO.some (faultStream_keeps h ..)) ?_
    exact KeepsO.ite (KeepsO.some (faultStream_keeps h ..)) (KeepsO.some (advance_keeps (setToken_keeps h ..) ..))
  · exact KeepsO.none

theorem execMm_goes (tile : Nat) (st : KStream) (ecc : List EccHit) : Goes base (execMm tile st ecc s) := by
  unfold execMm
  refine ok_goes (issueAs_keeps_of h _ _ _ (fun i w => ?_))
  split
  · split
    · exact KeepsO.some h
    · refine KeepsO.ite (KeepsO.some (faultStream_keeps h ..)) (KeepsO.ite (KeepsO.some (faultStream_keeps h ..)) ?_)
      split
      · dsimp only
        split
        · exact KeepsO.some (faultStream_keeps h ..)
        · exact KeepsO.some (stallAt_keeps h ..)
        · exact KeepsO.some h
      · dsimp only
        split
        · exact KeepsO.some (faultStream_keeps h ..)
        · exact KeepsO.some (stallAt_keeps h ..)
        · exact KeepsO.some (advance_keeps (updSuite_keeps (updTile_keeps (eccRead_keeps h ..) ..) ..) ..)
  · exact KeepsO.none

theorem execCellSpill_goes (tile cell : Nat) (dup : Int) (ecc : List EccHit) : Goes base (execCellSpill tile cell dup ecc s) := by
  unfold execCellSpill
  split
  · split
    · dsimp only
      split
      · exact ok_goes (eccRead_keeps h ..)
      · exact whenDo_goes (eccRead_keeps h ..) (updTile_keeps (eccRead_keeps h ..) ..) _
    · dsimp only
      split
      · exact ok_goes h
      · exact whenDo_goes h (updTile_keeps h ..) _
  · dsimp only
    split
    · exact ok_goes h
    · exact whenDo_goes h (updTile_keeps h ..) _

theorem execMmPassComplete_goes (tile : Nat) : Goes base (execMmPassComplete tile s) := by
  unfold execMmPassComplete
  split
  · exact ok_goes h
  · exact ok_goes (addVerdict_keeps (raiseFlags_keeps (updTile_keeps h ..) ..) ..)

theorem execPassCheckVerdict_goes (tile : Nat) (err : Int) : Goes base (execPassCheckVerdict tile err s) := by
  unfold execPassCheckVerdict
  split
  · exact ok_goes h
  · refine ok_goes (settleAll_keeps (Keeps.ite (disagree_keeps (dropVerdict_keeps h ..) ..) ?_))
    exact Keeps.ite (disagree_keeps (dropVerdict_keeps h ..) ..) (dropVerdict_keeps h ..)

theorem execVop_goes (tile : Nat) (st : KStream) (ecc : List EccHit) : Goes base (execVop tile st ecc s) := by
  unfold execVop
  refine ok_goes (issueAs_keeps_of h _ _ _ (fun i w => ?_))
  split
  · exact KeepsO.some (vectorIssue_keeps h _ _ _ _ _ _ _ _ _ _ _ _
      (fun _ _ _ r k1 e1 => vopEffect_keeps k1 _ _ _ _ r e1))
  · exact KeepsO.none

theorem execVred_goes (tile : Nat) (st : KStream) (ecc : List EccHit) : Goes base (execVred tile st ecc s) := by
  unfold execVred
  refine ok_goes (issueAs_keeps_of h _ _ _ (fun i w => ?_))
  split
  · exact KeepsO.some (vectorIssue_keeps h _ _ _ _ _ _ _ _ _ _ _ _
      (fun _ _ _ r k1 e1 => vredEffect_keeps k1 _ _ _ _ r e1))
  · exact KeepsO.none

theorem execVeCheckVerdict_goes (tile : Nat) (obs : CheckObs) : Goes base (execVeCheckVerdict tile obs s) :=
  ok_goes (settleAll_keeps (applyVerdict_keeps h ..))

theorem execCvt_goes (tile : Nat) (st : KStream) (ecc : List EccHit) : Goes base (execCvt tile st ecc s) := by
  unfold execCvt
  refine ok_goes (issueAs_keeps_of h _ _ _ (fun i w => ?_))
  split
  · split
    · exact KeepsO.some h
    · refine KeepsO.ite (KeepsO.some (faultStream_keeps h ..)) ?_
      refine KeepsO.ite (KeepsO.some (faultStream_keeps h ..)) (KeepsO.ite (KeepsO.some (faultStream_keeps h ..)) ?_)
      split
      · exact KeepsO.some (faultStream_keeps h ..)
      · exact KeepsO.some (stallAt_keeps h ..)
      · refine KeepsO.ite (KeepsO.some h) (KeepsO.some (advance_keeps ?_ ..))
        exact addVerdict_keeps (raiseFlags_keeps (recordExtent_keeps (updTile_keeps (eccRead_keeps h ..) ..) ..) ..) ..
  · exact KeepsO.none

theorem execCvtCheckVerdict_goes (tile : Nat) (obs : CheckObs) : Goes base (execCvtCheckVerdict tile obs s) :=
  ok_goes (settleAll_keeps (applyVerdict_keeps h ..))

theorem execDig_goes (tile : Nat) (st : KStream) (ecc : List EccHit) : Goes base (execDig tile st ecc s) := by
  unfold execDig
  refine ok_goes (issueAs_keeps_of h _ _ _ (fun i w => ?_))
  split
  · split
    · exact KeepsO.some h
    · refine KeepsO.ite (KeepsO.some (faultStream_keeps h ..)) (KeepsO.ite (KeepsO.some (faultStream_keeps h ..)) ?_)
      split
      · exact KeepsO.some (faultStream_keeps h ..)
      · refine KeepsO.some (advance_keeps ?_ ..)
        refine Keeps.ite (updSuite_keeps ((Keeps.upd ..).2 (eccRead_keeps h ..)) ..) (updStep_keeps ((Keeps.upd ..).2 (eccRead_keeps h ..)) ..)
  · exact KeepsO.none

theorem execMark_goes (tile : Nat) (st : KStream) : Goes base (execMark tile st s) := by
  unfold execMark
  refine ok_goes (issueAs_keeps_of h _ _ _ (fun i _ => ?_))
  split
  · exact KeepsO.some (setStream_keeps h ..)
  · exact KeepsO.none

theorem execMarkDrainComplete_goes (tile : Nat) (st : KStream) : Goes base (execMarkDrainComplete tile st s) := by
  unfold execMarkDrainComplete
  split
  · split
    · exact whenDo_goes h (finishMark_keeps h ..) _
    · exact ok_goes h
  · exact ok_goes h

theorem execBellwait_goes (tile : Nat) (st : KStream) : Goes base (execBellwait tile st s) := by
  unfold execBellwait
  refine ok_goes (issueAs_keeps_of h _ _ _ (fun i w => ?_))
  split
  · refine KeepsO.ite (KeepsO.some (faultStream_keeps h ..)) ?_
    exact KeepsO.ite (KeepsO.some (advance_keeps h ..)) (KeepsO.some (setStream_keeps h ..))
  · exact KeepsO.none

theorem execBellwaitComplete_goes (tile : Nat) (st : KStream) : Goes base (execBellwaitComplete tile st s) := by
  unfold execBellwaitComplete
  split
  · exact whenDo_goes h (advance_keeps (setStream_keeps h ..) ..) _
  · exact ok_goes h

theorem execInstructionFetch_goes (tile : Nat) (st : KStream) (words : Nat) (ecc : List EccHit) (obs : List MemObs) :
    Goes base (execInstructionFetch tile st words ecc obs s) := by
  unfold execInstructionFetch
  refine whenDo_goes h (Keeps.ite ?_ ?_) _
  · exact faultStream_keeps (readObs_keeps (countIbuf_keeps (setStream_keeps h ..) ..) ..) ..
  · exact readObs_keeps (countIbuf_keeps (setStream_keeps h ..) ..) ..

theorem execKernelOverrun_goes (tile : Nat) (st : KStream) : Goes base (execKernelOverrun tile st s) := by
  unfold execKernelOverrun
  split
  · exact ok_goes h
  · refine whenDo_goes h (Keeps.ite ?_ (updSuite_keeps (faultStream_keeps h ..) ..)) _
    exact setSuiteState_keeps (updSuite_keeps (faultStream_keeps h ..) ..) ..

theorem execStepGateOpen_goes (tile : Nat) (st : KStream) : Goes base (execStepGateOpen tile st s) := by
  unfold execStepGateOpen
  split
  · exact ok_goes h
  · exact whenDo_goes h (passGate_keeps h ..) _

theorem execScaleRecordsWrite_goes (suite tensor step : Nat) : Goes base (execScaleRecordsWrite suite tensor step s) :=
  whenDo_goes h (setSuite_keeps h ..) _

theorem execScaleDecision_goes (suite tensor step : Nat) : Goes base (execScaleDecision suite tensor step s) :=
  whenDo_goes h (setSuite_keeps h ..) _

theorem execLandingTransactionStart_goes (tile landing : Nat) (ecc : List EccHit) (net : List NetObs) :
    Goes base (execLandingTransactionStart tile landing ecc net s) := by
  unfold execLandingTransactionStart
  dsimp only
  split
  · exact ok_goes h
  · refine whenDo_goes h (Keeps.ite (Keeps.ite (eccRead_keeps h ..) h) (Keeps.ite ?_ ?_)) _
    · refine absorbTxn_keeps (notePeak_keeps (Keeps.ite ?_ ?_) _) ..
      · exact sendStarted_keeps (setEntry_keeps (setLanding_keeps (Keeps.ite (eccRead_keeps h ..) h) ..) ..) ..
      · refine Keeps.foldl _ ?_ (fun st a k => countViolation_keeps k ..)
        exact setEntry_keeps (setLanding_keeps (Keeps.ite (eccRead_keeps h ..) h) ..) ..
    · refine notePeak_keeps (Keeps.ite ?_ ?_) _
      · exact sendStarted_keeps (setEntry_keeps (setLanding_keeps (Keeps.ite (eccRead_keeps h ..) h) ..) ..) ..
      · refine Keeps.foldl _ ?_ (fun st a k => countViolation_keeps k ..)
        exact setEntry_keeps (setLanding_keeps (Keeps.ite (eccRead_keeps h ..) h) ..) ..

theorem execTransactionComplete_goes (entry tag : Nat) (obs : List MemObs) (dup : Int) (ecc : List EccHit) :
    Goes base (execTransactionComplete entry tag obs dup ecc s) := by
  unfold execTransactionComplete
  dsimp only
  split
  · exact whenDo_goes h (strayTag_keeps h ..) _
  · refine whenDo_goes h (Keeps.ite h ?_) _
    refine Keeps.ite (completeFold_keeps h ..) (Keeps.ite (Keeps.ite (completeTile_keeps h ..) h) (Keeps.ite h ?_))
    split
    · exact h
    · exact Keeps.ite (completeWrite_keeps h ..) (Keeps.ite h (completeRead_keeps h ..))

theorem execPatrolScrub_goes (pc addr : Nat) (obs : List MemObs) : Goes base (execPatrolScrub pc addr obs s) :=
  whenDo_goes h (Keeps.foldl _ (setWing_keeps h ..) (fun _ _ k => scrubObs_keeps k ..)) _

theorem execOnlineRowRepair_goes (pc row : Nat) : Goes base (execOnlineRowRepair pc row s) := by
  unfold execOnlineRowRepair
  refine whenDo_goes h (Keeps.ite ?_ (setWing_keeps h ..)) _
  exact signRecord_keeps (pcEvent_keeps (recordFault_keeps (setWing_keeps h ..) _) ..) ..

theorem execRowRepairComplete_goes (pc row : Nat) (obs : List MemObs) : Goes base (execRowRepairComplete pc row obs s) :=
  whenDo_goes h ((Keeps.upd ..).2 (setWing_keeps (Keeps.foldl _ h (fun _ _ k => zeroAccess_keeps k ..)) ..)) _

theorem execHbmTempReading_goes (wing : Nat) (temp : Int) (onDie : Nat) : Goes base (execHbmTempReading wing temp onDie s) :=
  whenDo_goes h (Keeps.ite (raiseThrottle_keeps (setWing_keeps h ..)) (setWing_keeps h ..)) _

theorem execRefreshRateChange_goes (wing : Nat) : Goes base (execRefreshRateChange wing s) := by
  unfold execRefreshRateChange
  dsimp only
  split
  · exact ok_goes h
  · exact whenDo_goes h (setWing_keeps h ..) _

theorem execPerBankRefresh_goes (wing bank : Nat) : Goes base (execPerBankRefresh wing bank s) :=
  whenDo_goes h (setWing_keeps h ..) _

theorem execRefreshManagement_goes (wing bank : Nat) : Goes base (execRefreshManagement wing bank s) :=
  whenDo_goes h (setWing_keeps h ..) _

theorem execCacheEviction_goes (wing line : Nat) (obs : List MemObs) : Goes base (execCacheEviction wing line obs s) :=
  whenDo_goes h (updWing_keeps (Keeps.foldl _ h (fun _ _ k => memObs_keeps k ..)) ..) _

theorem execStreamTimeout_goes (entry tag : Nat) : Goes base (execStreamTimeout entry tag s) := by
  unfold execStreamTimeout
  dsimp only
  split
  · exact ok_goes h
  · exact whenDo_goes h (timeOut_keeps h ..) _

theorem execInputTimeout_goes (entry tag : Nat) : Goes base (execInputTimeout entry tag s) := by
  unfold execInputTimeout
  dsimp only
  split
  · exact ok_goes h
  · exact whenDo_goes h (timeOut_keeps h ..) _

theorem execDisableDrainExpiry_goes (entry : Nat) : Goes base (execDisableDrainExpiry entry s) := by
  unfold execDisableDrainExpiry
  refine whenDo_goes h (answerUnits_keeps ?_) _
  exact settlePorts_keeps (Keeps.ite (disableNow_keeps h _) (Keeps.foldl _ h (fun st a k => absorbTxn_keeps k ..)))

theorem execFlitReceive_goes (port : Nat) (flit : Bytes) (fec : FecObs) : Goes base (execFlitReceive port flit fec s) := by
  unfold execFlitReceive
  refine whenDo_goes h (Keeps.ite (rejectFlit_keeps (countFec_keeps h ..) _) (Keeps.ite ?_ ?_)) _
  · refine Keeps.ite (setPort_keeps (countFec_keeps h ..) ..) (idleAfter_keeps (setPort_keeps (countFec_keeps h ..) ..) ..)
  · refine Keeps.ite (drainTx_keeps (setPort_keeps (countFec_keeps h ..) ..) _) ?_
    exact idleAfter_keeps (drainTx_keeps (setPort_keeps (countFec_keeps h ..) ..) _) ..

theorem execNak_goes (port ackSeq : Nat) : Goes base (execNak port ackSeq s) := by
  unfold execNak
  refine whenDo_goes h (Keeps.ite (startRetrain_keeps (setPort_keeps h ..) ..) ?_) _
  exact Keeps.foldl _ (setPort_keeps h ..) (fun st a k => send_keeps k ..)

theorem execRetryBudgetSpent_goes (port : Nat) : Goes base (execRetryBudgetSpent port s) :=
  whenDo_goes h (startRetrain_keeps h ..) _

theorem execDataFlit_goes (port : Nat) (body : Bytes) (ecc : List EccHit) : Goes base (execDataFlit port body ecc s) := by
  unfold execDataFlit
  refine whenDo_goes h (Keeps.ite (discardAt_keeps (returnCredit_keeps h ..) ..) ?_) _
  refine Keeps.ite (discardAt_keeps (returnCredit_keeps h ..) ..) (Keeps.ite ?_ ?_)
  · refine Keeps.ite (discardAt_keeps (returnCredit_keeps h ..) ..) (Keeps.ite ?_ ?_)
    · exact sendControl_keeps (setEntry_keeps (returnCredit_keeps h ..) ..) ..
    · split
      · refine Keeps.ite (strayTag_keeps (returnCredit_keeps h ..) ..) ?_
        exact sendControl_keeps (finishTxn_keeps (landInbound_keeps (returnCredit_keeps h ..) ..) ..) ..
      · exact strayTag_keeps (returnCredit_keeps h ..) ..
  · refine Keeps.ite (discardAt_keeps (returnCredit_keeps h ..) ..) ?_
    split
    · exact Keeps.ite (discardAt_keeps (returnCredit_keeps h ..) ..) (forwardFlit_keeps h ..)
    · exact discardAt_keeps (returnCredit_keeps h ..) ..

theorem execMgmtPacket_goes (port : Nat) (packet : Bytes) : Goes base (execMgmtPacket port packet s) :=
  whenDo_goes h (takePacket_keeps (sendControl_keeps h ..) ..) _

theorem execCredit_goes (port : Nat) (rec : Bytes) : Goes base (execCredit port rec s) :=
  whenDo_goes h (controlIn_keeps h _ _ _ (fun _ => Keeps.ite (setEntry_keeps h ..) h)) _

theorem execAck_goes (port : Nat) (rec : Bytes) : Goes base (execAck port rec s) :=
  whenDo_goes h (controlIn_keeps h _ _ _ (fun _ => Keeps.foldl _ h (fun _ _ k1 => ackTag_keeps k1 ..))) _

theorem execTimeoutNotice_goes (port : Nat) (rec : Bytes) : Goes base (execTimeoutNotice port rec s) :=
  whenDo_goes h (noticeIn_keeps h ..) _

theorem execDisableNotice_goes (port : Nat) (rec : Bytes) : Goes base (execDisableNotice port rec s) :=
  whenDo_goes h (controlIn_keeps h _ _ _ (fun _ => noticeAt_keeps h ..)) _

theorem execLinkCredit_goes (port : Nat) (rec : Bytes) : Goes base (execLinkCredit port rec s) :=
  whenDo_goes h (drainTx_keeps (updPort_keeps h ..) _) _

theorem execSync_goes (port : Nat) (record : Bytes) (edge : Int) (residence : Nat) : Goes base (execSync port record edge residence s) :=
  whenDo_goes h (relaySync_keeps (Keeps.ite (followSync_keeps h ..) h) ..) _

theorem execDelayReq_goes (port : Nat) (record : Bytes) (residence : Nat) : Goes base (execDelayReq port record residence s) :=
  whenDo_goes h (sendControl_keeps h ..) _

theorem execDelayResp_goes (port : Nat) (record : Bytes) (trip : Nat) : Goes base (execDelayResp port record trip s) := by
  unfold execDelayResp
  dsimp only
  split
  · exact whenDo_goes h ((Keeps.upd ..).2 (draw_keeps h)) _
  · exact whenDo_goes h ((Keeps.upd ..).2 (draw_keeps h)) _

theorem execSyncSend_goes (port offset : Nat) : Goes base (execSyncSend port offset s) :=
  whenDo_goes h (sendControl_keeps h ..) _

theorem execDelayReqSend_goes (port : Nat) : Goes base (execDelayReqSend port s) := by
  unfold execDelayReqSend
  split
  · exact whenDo_goes h ((Keeps.upd ..).2 (sendControl_keeps h ..)) _
  · exact whenDo_goes h ((Keeps.upd ..).2 (sendControl_keeps h ..)) _

theorem execSyncLoss_goes : Goes base (execSyncLoss s) :=
  whenDo_goes h (setBellState_keeps h _) _

theorem execBellRefLoss_goes (present : Bool) : Goes base (execBellRefLoss present s) :=
  ok_goes (Keeps.ite (setBellState_keeps ((Keeps.upd ..).2 h) _) ((Keeps.upd ..).2 h))

theorem execBellRefReturn_goes : Goes base (execBellRefReturn s) :=
  ok_goes (Keeps.ite (setBellState_keeps ((Keeps.upd ..).2 h) _) ((Keeps.upd ..).2 h))

theorem execBellSlotValue_goes (event : Nat) : Goes base (execBellSlotValue event s) := by
  unfold execBellSlotValue
  split
  · exact ok_goes h
  · exact ok_goes (updSuite_keeps (popEvent_keeps h _) ..)

theorem execCdcTimeout_goes (crossing : CrossingId) : Goes base (execCdcTimeout crossing s) := by
  unfold execCdcTimeout
  split
  · exact whenDo_goes h (beginTileReset_keeps (poisonHolders_keeps (cdcRecord_keeps (updTile_keeps h ..) ..) ..) _) _
  · exact whenDo_goes h (beginWingReset_keeps (poisonHolders_keeps (cdcRecord_keeps (updWing_keeps h ..) ..) ..) _) _
  · refine whenDo_goes h (Keeps.ite ?_ ?_) _
    · exact startRetrain_keeps (poisonHolders_keeps (cdcRecord_keeps ((Keeps.upd ..).2 h) ..) ..) ..
    · exact poisonHolders_keeps (cdcRecord_keeps ((Keeps.upd ..).2 h) ..) ..
  · exact whenDo_goes h (beginDeviceReset_keeps (cdcRecord_keeps h ..) ..) _
  · exact whenDo_goes h (beginDeviceReset_keeps (cdcRecord_keeps h ..) ..) _

theorem execCrossingResync_goes (crossing : CrossingId) : Goes base (execCrossingResync crossing s) := by
  unfold execCrossingResync
  split
  · exact whenDo_goes h (updTile_keeps h ..) _
  · exact whenDo_goes h (updWing_keeps h ..) _
  · exact whenDo_goes h ((Keeps.upd ..).2 h) _
  · exact ok_goes h

theorem execLaneFailed_goes (port lane : Nat) (tx : Bool) : Goes base (execLaneFailed port lane tx s) := by
  unfold execLaneFailed
  refine whenDo_goes h ?_ _
  exact Keeps.ite (updPort_keeps (updPort_keeps h ..) ..) (startRetrain_keeps (updPort_keeps h ..) ..)

theorem execFastRetrainComplete_goes (port txOk rxOk : Nat) (result : FastResult) : Goes base (execFastRetrainComplete port txOk rxOk result s) := by
  unfold execFastRetrainComplete
  refine whenDo_goes h ?_ _
  split
  · split
    · exact answerPort_keeps (resumeTx_keeps (setPort_keeps h ..) _) _
    · exact answerPort_keeps (downPort_keeps h ..) _
  · exact startRetrain_keeps h ..
  · exact startRetrain_keeps h ..

theorem execFullRetrainComplete_goes (port txOk rxOk : Nat) (far : Bytes) : Goes base (execFullRetrainComplete port txOk rxOk far s) := by
  unfold execFullRetrainComplete
  refine whenDo_goes h (Keeps.ite (answerPort_keeps (joinManagement_keeps h _) _) ?_) _
  split
  · refine answerPort_keeps (Keeps.ite (downPort_keeps (sendCapability_keeps h _) ..) ?_) _
    exact resumeTx_keeps (setPort_keeps (sendCapability_keeps h _) ..) _
  · exact answerPort_keeps (downPort_keeps (sendCapability_keeps h _) ..) _

theorem execBringupTrainingComplete_goes (port txOk rxOk : Nat) (far : Bytes) : Goes base (execBringupTrainingComplete port txOk rxOk far s) := by
  unfold execBringupTrainingComplete
  refine whenDo_goes h (settleReady_keeps (answerPort_keeps (Keeps.ite (joinManagement_keeps h _) ?_) _)) _
  split
  · refine Keeps.ite (downPort_keeps (sendCapability_keeps h _) ..) ?_
    exact resumeTx_keeps (setPort_keeps (sendCapability_keeps h _) ..) _
  · exact downPort_keeps (sendCapability_keeps h _) ..

theorem execDownPortRetry_goes (port : Nat) : Goes base (execDownPortRetry port s) :=
  whenDo_goes h (startRetrain_keeps h ..) _

theorem execCapacityTable_goes (port : Nat) (table : Bytes) : Goes base (execCapacityTable port table s) :=
  ok_goes (Keeps.ite (takeTable_keeps h _) (sendTable_keeps h))

theorem execPlannedSwitchover_goes (port : Nat) : Goes base (execPlannedSwitchover port s) :=
  whenDo_goes h (updPort_keeps h ..) _

theorem execSwitchoverComplete_goes (port : Nat) : Goes base (execSwitchoverComplete port s) := by
  unfold execSwitchoverComplete
  dsimp only
  split
  · exact ok_goes h
  · refine ok_goes (Keeps.ite ?_ (countSwitch_keeps (updPort_keeps h ..) _))
    exact startRetrain_keeps (countSwitch_keeps (updPort_keeps h ..) _) ..

theorem execUnplannedSwitchover_goes (port : Nat) : Goes base (execUnplannedSwitchover port s) :=
  whenDo_goes h (loseFeed_keeps h _) _

theorem execLanternInserted_goes (lantern serial model hours : Nat) (first : List Int) :
    Goes base (execLanternInserted lantern serial model hours first s) :=
  whenDo_goes h (setLanternState_keeps (setLantern_keeps ((Keeps.upd ..).2 h) ..) ..) _

theorem execLanternRemoved_goes (lantern : Nat) : Goes base (execLanternRemoved lantern s) :=
  whenDo_goes h ((Keeps.upd ..).2 (setLantern_keeps (darken_keeps h ..) ..)) _

theorem execLanternAuthentication_goes (lantern : Nat) (proof : Bytes) : Goes base (execLanternAuthentication lantern proof s) := by
  unfold execLanternAuthentication
  refine whenDo_goes h (Keeps.ite ?_ ?_) _
  · refine Keeps.ite ?_ ?_
    · refine Keeps.ite ?_ ?_
      · exact setLanternState_keeps (updUse_keeps (updLantern_keeps (draw_keeps h) ..) ..) ..
      · exact refreshMirror_keeps (updUse_keeps (updLantern_keeps (draw_keeps h) ..) ..) _
    · dsimp only
      exact lanternEvent_keeps (darken_keeps (updUse_keeps (updLantern_keeps (draw_keeps h) ..) ..) ..) ..
  · refine answerLantern_keeps (Keeps.ite ?_ ?_) _
    · refine Keeps.ite ?_ ?_
      · exact setLanternState_keeps (updUse_keeps (updLantern_keeps (draw_keeps h) ..) ..) ..
      · exact refreshMirror_keeps (updUse_keeps (updLantern_keeps (draw_keeps h) ..) ..) _
    · dsimp only
      exact lanternEvent_keeps (darken_keeps (updUse_keeps (updLantern_keeps (draw_keeps h) ..) ..) ..) ..

theorem execLanternWarmupComplete_goes (lantern : Nat) (levels : List Int) (offGrid : Bool) (rose : List Nat) :
    Goes base (execLanternWarmupComplete lantern levels offGrid rose s) := by
  unfold execLanternWarmupComplete
  refine whenDo_goes h ?_ _
  refine Keeps.ite (lanternEvent_keeps (darken_keeps h ..) ..) (takeFeeds_keeps (setLanternState_keeps ?_ ..))
  exact updUse_keeps (updLantern_keeps (enterLevels_keeps (checkWiring_keeps h ..) ..) ..) ..

theorem execLanternHealthCheck_goes (lantern : Nat) (levels : List Int) (hours : Nat) : Goes base (execLanternHealthCheck lantern levels hours s) :=
  whenDo_goes h (answerLantern_keeps (judge_keeps (enterLevels_keeps h ..) ..) _) _

theorem execHeartbeat_goes (worker : Nat) : Goes base (execHeartbeat worker s) := by
  unfold execHeartbeat
  split
  · exact ok_goes h
  · exact whenDo_goes h ((Keeps.upd ..).2 (sendCommand_keeps h ..)) _

theorem execManagerLost_goes : Goes base (execManagerLost s) := by
  unfold execManagerLost
  refine whenDo_goes h (Keeps.foldl _ ?_ (fun st a k => suiteEvent_keeps (stopForLost_keeps k _) ..)) _
  exact deviceEvent_keeps (recordFault_keeps ((Keeps.upd ..).2 h) _) ..

theorem execWorkerLost_goes (worker : Nat) : Goes base (execWorkerLost worker s) :=
  whenDo_goes h (Keeps.foldl _ ((Keeps.upd ..).2 h) (fun _ _ k => Keeps.ite (failRank_keeps k ..) k)) _

theorem execVoteBell_goes (suite : Nat) : Goes base (execVoteBell suite s) := by
  unfold execVoteBell
  refine whenDo_goes h (tryVote_keeps ?_ _) _
  split
  · exact setJob_keeps (updSuite_keeps h ..) ..
  · exact updSuite_keeps h ..

theorem execVoteTimeout_goes (job : Nat) : Goes base (execVoteTimeout job s) := by
  unfold execVoteTimeout
  dsimp only
  split
  · exact ok_goes h
  · exact whenDo_goes h (decideVote_keeps h _) _

theorem execHaltBell_goes (suite : Nat) : Goes base (execHaltBell suite s) := by
  unfold execHaltBell
  split
  · dsimp only
    split
    · exact ok_goes h
    · refine whenDo_goes h (Keeps.ite ?_ ?_) _
      · refine haltForRollback_keeps ?_ ..
        split
        · exact processLost_keeps h _
        · exact h
      · split
        · exact processLost_keeps h _
        · exact h
  · split
    · dsimp only
      split
      · exact ok_goes h
      · exact whenDo_goes h (Keeps.ite (haltForRollback_keeps (processLost_keeps h _) ..) (processLost_keeps h _)) _
    · dsimp only
      split
      · exact ok_goes h
      · exact whenDo_goes h (Keeps.ite (haltForRollback_keeps h ..) h) _

theorem execTakeoverTransferComplete_goes (suite : Nat) (ok : Bool) (data : List (Nat × Bytes)) (scale : Bytes) :
    Goes base (execTakeoverTransferComplete suite ok data scale s) := by
  unfold execTakeoverTransferComplete
  split
  · dsimp only
    split
    · refine whenDo_goes h ?_ _
      split
      · exact answerTakeover_keeps (Keeps.ite (finishTakeover_keeps h ..) (updSuite_keeps h ..)) ..
      · refine Keeps.ite ?_ ?_
        · exact takeoverLost_keeps (Keeps.ite (finishTakeover_keeps h ..) (updSuite_keeps h ..)) ..
        · refine Keeps.ite ?_ ?_
          · exact takeoverDone_keeps (Keeps.ite (finishTakeover_keeps h ..) (updSuite_keeps h ..)) ..
          · exact takeoverFailed_keeps (Keeps.ite (finishTakeover_keeps h ..) (updSuite_keeps h ..)) ..
    · exact ok_goes h
  · split
    · dsimp only
      split
      · exact whenDo_goes h (answerTakeover_keeps (Keeps.ite (finishTakeover_keeps h ..) (updSuite_keeps h ..)) ..) _
      · exact ok_goes h
    · dsimp only
      split
      · refine whenDo_goes h (Keeps.ite ?_ ?_) _
        · exact takeoverLost_keeps (Keeps.ite (finishTakeover_keeps h ..) (updSuite_keeps h ..)) ..
        · refine Keeps.ite ?_ ?_
          · exact takeoverDone_keeps (Keeps.ite (finishTakeover_keeps h ..) (updSuite_keeps h ..)) ..
          · exact takeoverFailed_keeps (Keeps.ite (finishTakeover_keeps h ..) (updSuite_keeps h ..)) ..
      · exact ok_goes h

theorem execBroadcastReplyTimeout_goes (tag : Nat) : Goes base (execBroadcastReplyTimeout tag s) := by
  unfold execBroadcastReplyTimeout
  split
  · exact ok_goes h
  · split
    · exact ok_goes h
    · refine whenDo_goes h ?_ _
      exact Keeps.ite (endAsk_keeps h ..) (Keeps.ite (failStart_keeps h ..) (closeGather_keeps ((Keeps.upd ..).2 h) _))

theorem execEvalWindowBell_goes (event : Nat) : Goes base (execEvalWindowBell event s) := by
  unfold execEvalWindowBell
  split
  · exact ok_goes h
  · exact ok_goes (Keeps.ite (updSuite_keeps (popEvent_keeps h _) ..) (windowEvent_keeps (popEvent_keeps h _) ..))

theorem execEvalWindowStart_goes (suite : Nat) : Goes base (execEvalWindowStart suite s) := by
  unfold execEvalWindowStart
  dsimp only
  split
  · exact whenDo_goes h (postFold_keeps (Keeps.foldl _ (setSuite_keeps h ..) (fun st a k => seatEval_keeps k ..)) ..) _
  · exact ok_goes h

theorem execEvalProgramsComplete_goes (suite : Nat) : Goes base (execEvalProgramsComplete suite s) := by
  unfold execEvalProgramsComplete
  dsimp only
  split
  · exact whenDo_goes h (endWindow_keeps (setSuite_keeps h ..) ..) _
  · exact ok_goes h

theorem execCheckpointBell_goes (event : Nat) : Goes base (execCheckpointBell event s) := by
  unfold execCheckpointBell
  split
  · exact ok_goes h
  · exact ok_goes (Keeps.ite (updSuite_keeps (popEvent_keeps h _) ..) (ckptEvent_keeps (popEvent_keeps h _) ..))

theorem execCheckpointCopyComplete_goes (suite : Nat) (obs : List MemObs) : Goes base (execCheckpointCopyComplete suite obs s) := by
  unfold execCheckpointCopyComplete
  split
  · dsimp only
    split
    · refine whenDo_goes (readObs_keeps h ..) ?_ _
      split
      · exact ckptEvent_keeps (setSuite_keeps (readObs_keeps h ..) ..) ..
      · exact settleCheckpoints_keeps (setSuite_keeps (readObs_keeps h ..) ..) _
    · exact ok_goes (readObs_keeps h ..)
  · dsimp only
    split
    · refine whenDo_goes h ?_ _
      split
      · exact ckptEvent_keeps (setSuite_keeps h ..) ..
      · exact settleCheckpoints_keeps (setSuite_keeps h ..) _
    · exact ok_goes h

theorem execSliceBoundary_goes (suite : Nat) : Goes base (execSliceBoundary suite s) := by
  unfold execSliceBoundary
  refine whenDo_goes h ?_ _
  split
  · exact beginSliceAt_keeps h ..
  · exact updSuite_keeps (requestPreempt_keeps h _) ..

theorem execGangBell_goes (event : Nat) : Goes base (execGangBell event s) := by
  unfold execGangBell
  split
  · exact ok_goes h
  · refine ok_goes (Keeps.ite ?_ ?_)
    · refine Keeps.ite ?_ (gangSettled_keeps (popEvent_keeps h _) ..)
      exact updSuite_keeps (requestPreempt_keeps (gangSettled_keeps (popEvent_keeps h _) ..) _) ..
    · refine Keeps.ite ?_ (gangSettled_keeps (popEvent_keeps h _) ..)
      exact requestResume_keeps (gangSettled_keeps (popEvent_keeps h _) ..) _

theorem execStreamRelease_goes (tile : Nat) (st : KStream) : Goes base (execStreamRelease tile st s) := by
  unfold execStreamRelease
  split
  · exact ok_goes h
  · exact whenDo_goes h (updSuite_keeps (release_keeps h ..) ..) _

theorem execTileSaveComplete_goes (tile : Nat) : Goes base (execTileSaveComplete tile s) := by
  unfold execTileSaveComplete
  dsimp only
  split
  · exact ok_goes h
  · split
    · exact ok_goes h
    · refine whenDo_goes h (Keeps.ite ?_ (updTile_keeps (setSuite_keeps h ..) ..)) _
      exact finishPreempt_keeps (updTile_keeps (setSuite_keeps h ..) ..) _

theorem execResumeRestoreComplete_goes (suite : Nat) (obs : List MemObs) : Goes base (execResumeRestoreComplete suite obs s) :=
  whenDo_goes h (readObs_keeps (restoreSuite_keeps (updSuite_keeps h ..) _) ..) _

theorem execFoldSwap_goes (tile next : Nat) (obs : List MemObs) : Goes base (execFoldSwap tile next obs s) := by
  unfold execFoldSwap
  dsimp only
  split
  · exact ok_goes h
  · split
    · exact ok_goes h
    · refine whenDo_goes h (readObs_keeps (Keeps.ite ?_ ?_) ..) _
      · split
        · exact h
        · exact Keeps.ite h (seatEval_keeps (setSuite_keeps h ..) ..)
      · refine Keeps.ite h (Keeps.ite ?_ ?_)
        · exact Keeps.foldl _ h (fun st a k => Keeps.ite (resumeInMark_keeps k ..) k)
        · exact Keeps.foldl _ (setTile_keeps (setSuite_keeps h ..) ..) (fun st a k => Keeps.ite (resumeInMark_keeps k ..) k)

theorem execCheckRepeatComplete_goes (tile value check : Nat) : Goes base (execCheckRepeatComplete tile value check s) := by
  unfold execCheckRepeatComplete
  split
  · exact ok_goes h
  · refine whenDo_goes h (Keeps.ite (finishResolution_keeps h ..) ?_) _
    refine Keeps.ite (finishResolution_keeps h ..) (Keeps.ite (finishResolution_keeps h ..) ?_)
    split
    · exact finishResolution_keeps h ..
    · dsimp only
      exact (Keeps.upd ..).2 (updTile_keeps h ..)

theorem execThirdRunComplete_goes (tile value check : Nat) : Goes base (execThirdRunComplete tile value check s) := by
  unfold execThirdRunComplete
  split
  · exact ok_goes h
  · refine whenDo_goes h (Keeps.ite (finishResolution_keeps h ..) (Keeps.ite (finishResolution_keeps h ..) ?_)) _
    exact Keeps.ite (finishResolution_keeps h ..) (finishResolution_keeps h ..)

theorem execResolutionTimeout_goes (tile : Nat) : Goes base (execResolutionTimeout tile s) := by
  unfold execResolutionTimeout
  split
  · exact ok_goes h
  · exact ok_goes (finishResolution_keeps h ..)

theorem execAtticWrite_goes (faultEvent : Bool) : Goes base (execAtticWrite faultEvent s) :=
  whenDo_goes h ((Keeps.upd ..).2 h) _

theorem execPowerOn_goes (mv : Nat) : Goes base (execPowerOn mv s) := by
  unfold execPowerOn
  refine whenDo_goes h ?_ _
  exact (Keeps.upd ..).2 (managementLane_keeps ((Keeps.upd ..).2 (readAttic_keeps ((Keeps.upd ..).2 h))))

theorem execWakePin_goes (held : Nat) : Goes base (execWakePin held s) := by
  unfold execWakePin
  split
  · exact whenDo_goes h (wakeDevice_keeps h _) _
  · split
    · exact whenDo_goes h ((Keeps.upd ..).2 h) _
    · exact whenDo_goes h (resetDevice_keeps h ..) _

theorem execRailsInRegulation_goes (fusesOk : Bool) : Goes base (execRailsInRegulation fusesOk s) := by
  unfold execRailsInRegulation
  refine whenDo_goes h (Keeps.ite (failBringup_keeps ((Keeps.upd ..).2 h) _) ?_) _
  exact Keeps.ite (failBringup_keeps ((Keeps.upd ..).2 h) _) ((Keeps.upd ..).2 ((Keeps.upd ..).2 h))

theorem execRailRegulationTimeout_goes : Goes base (execRailRegulationTimeout s) :=
  whenDo_goes h (failBringup_keeps h _) _

theorem execFirmwareVerified_goes (okA okB : Bool) : Goes base (execFirmwareVerified okA okB s) := by
  unfold execFirmwareVerified
  refine whenDo_goes h (Keeps.ite (enterTesting_keeps h _) ?_) _
  exact Keeps.ite (enterTesting_keeps ((Keeps.upd ..).2 h) _) (failBringup_keeps h _)

theorem execStackTrainingComplete_goes (wing : Nat) (passed : Bool) : Goes base (execStackTrainingComplete wing passed s) := by
  unfold execStackTrainingComplete
  refine whenDo_goes h (Keeps.ite ?_ (Keeps.ite (failBringup_keeps h _) ((Keeps.upd ..).2 h))) _
  exact (Keeps.upd ..).2 (updWing_keeps (applyRepairs_keeps h _) ..)

theorem execKnownAnswerRunComplete_goes (tile : Nat) (result : Bytes) (disagreed : Bool) :
    Goes base (execKnownAnswerRunComplete tile result disagreed s) := by
  unfold execKnownAnswerRunComplete
  refine whenDo_goes h (settleReady_keeps (answerKar_keeps (Keeps.ite ?_ ?_) ..)) _
  · refine (Keeps.upd ..).2 (Keeps.ite (updTile_keeps h ..) (endThirdRuns_keeps ?_ _))
    exact signRecord_keeps (atticFault_keeps (retireTile_keeps (recordFault_keeps (updTile_keeps h ..) _) _) _) ..
  · refine Keeps.ite (updTile_keeps h ..) (endThirdRuns_keeps ?_ _)
    exact signRecord_keeps (atticFault_keeps (retireTile_keeps (recordFault_keeps (updTile_keeps h ..) _) _) _) ..

theorem execDeviceDrainComplete_goes : Goes base (execDeviceDrainComplete s) := by
  unfold execDeviceDrainComplete
  refine whenDo_goes h (Keeps.ite ?_ (beginWaking_keeps (blocksReset_keeps h ..) ..)) _
  refine Keeps.ite ?_ (setDev_keeps ((Keeps.upd ..).2 (blocksReset_keeps h ..)) _)
  exact wakeDevice_keeps (setDev_keeps ((Keeps.upd ..).2 (blocksReset_keeps h ..)) _) _

theorem execTileResetComplete_goes (tile : Nat) : Goes base (execTileResetComplete tile s) :=
  whenDo_goes h (answerUnits_keeps (endTileReset_keeps h _)) _

theorem execWingDrainExpiry_goes (wing : Nat) : Goes base (execWingDrainExpiry wing s) :=
  whenDo_goes h (updWing_keeps (absorbReaching_keeps h _) ..) _

theorem execWingResetComplete_goes (wing : Nat) : Goes base (execWingResetComplete wing s) := by
  unfold execWingResetComplete
  refine whenDo_goes h (answerUnits_keeps ((Keeps.upd ..).2 (updWing_keeps ?_ ..))) _
  exact dropLatches_keeps (Keeps.foldl _ h (fun st a k => Keeps.ite (endTileReset_keeps k _) k)) ..

theorem execSuiteDrainComplete_goes (suite : Nat) : Goes base (execSuiteDrainComplete suite s) := by
  unfold execSuiteDrainComplete
  dsimp only
  split
  · exact whenDo_goes h (finishStop_keeps h _) _
  · refine whenDo_goes h ?_ _
    exact Keeps.ite (finishReset_keeps h _) (settleRetirement_keeps (setSuiteState_keeps (finishReset_keeps h _) ..) _)

theorem execHallWatchdog_goes : Goes base (execHallWatchdog s) :=
  whenDo_goes h (beginDeviceReset_keeps h ..) _

theorem execFwActivation_goes : Goes base (execFwActivation s) :=
  whenDo_goes h ((Keeps.upd ..).2 h) _

theorem execFwActivationTimeout_goes : Goes base (execFwActivationTimeout s) :=
  whenDo_goes h (fwState_keeps ((Keeps.upd ..).2 (atticFault_keeps h _)) _) _

theorem execFwConfirmation_goes : Goes base (execFwConfirmation s) :=
  whenDo_goes h ((Keeps.upd ..).2 (atticFault_keeps h _)) _

theorem execSupplyWarn_goes (mv low : Nat) : Goes base (execSupplyWarn mv low s) :=
  whenDo_goes h (supplyEventMv_keeps ((Keeps.upd ..).2 (sampleRaw_keeps (sampleInput_keeps h _) _)) ..) _

theorem execSupplyWarnClear_goes (durUs low : Nat) : Goes base (execSupplyWarnClear durUs low s) :=
  whenDo_goes h (supplyEventMv_keeps ((Keeps.upd ..).2 ((Keeps.upd ..).2 h)) ..) _

theorem execDip_goes (mv durUs : Nat) : Goes base (execDip mv durUs s) :=
  whenDo_goes h ((Keeps.upd ..).2 (sampleRaw_keeps h _)) _

theorem execBrownOut_goes (mv : Nat) : Goes base (execBrownOut mv s) := by
  unfold execBrownOut
  refine whenDo_goes h ?_ _
  exact Keeps.ite (atticFault_keeps (sampleRaw_keeps h _) _) (railsDown_keeps (sampleRaw_keeps h _) ..)

theorem execBrownoutRecoveryWake_goes : Goes base (execBrownoutRecoveryWake s) :=
  whenDo_goes h (beginWaking_keeps h ..) _

theorem execOvervolt_goes (mv : Nat) : Goes base (execOvervolt mv s) :=
  whenDo_goes h ((Keeps.upd ..).2 (sampleInput_keeps h _)) _

theorem execOvervoltClear_goes (mv : Nat) : Goes base (execOvervoltClear mv s) :=
  whenDo_goes h ((Keeps.upd ..).2 (sampleInput_keeps h _)) _

theorem execThrottle_goes (sensor : Nat) (temp : Int) : Goes base (execThrottle sensor temp s) :=
  whenDo_goes h (raiseThrottle_keeps (readSensor_keeps h ..)) _

theorem execThrottleClear_goes : Goes base (execThrottleClear s) :=
  whenDo_goes h (supplyEvent_keeps ((Keeps.upd ..).2 h) _) _

theorem execCoolantHot_goes (temp : Int) : Goes base (execCoolantHot temp s) :=
  whenDo_goes h ((Keeps.upd ..).2 (readSensor_keeps h ..)) _

theorem execCoolantHotClear_goes (temp : Int) : Goes base (execCoolantHotClear temp s) :=
  whenDo_goes h ((Keeps.upd ..).2 (readSensor_keeps h ..)) _

theorem execThermalShutdown_goes (sensor : Nat) (temp : Int) : Goes base (execThermalShutdown sensor temp s) :=
  whenDo_goes h (railsDown_keeps (readSensor_keeps h ..) ..) _

theorem execThermalRecoveryWake_goes : Goes base (execThermalRecoveryWake s) :=
  whenDo_goes h (beginWaking_keeps ((Keeps.upd ..).2 h) ..) _

theorem execTileDroop_goes (tile : Nat) : Goes base (execTileDroop tile s) :=
  whenDo_goes h (updGov_keeps h ..) _

theorem execTileCurrentLimit_goes (tile : Nat) : Goes base (execTileCurrentLimit tile s) :=
  whenDo_goes h (updGov_keeps h ..) _

theorem execTileTempStepDown_goes (tile : Nat) (temp : Int) : Goes base (execTileTempStepDown tile temp s) :=
  whenDo_goes h (updGov_keeps h ..) _

theorem execTileTempStepUp_goes (tile : Nat) (temp : Int) : Goes base (execTileTempStepUp tile temp s) :=
  whenDo_goes h (updGov_keeps h ..) _

theorem execTileIssuePause_goes (tile : Nat) (temp : Int) : Goes base (execTileIssuePause tile temp s) :=
  whenDo_goes h (updGov_keeps h ..) _

theorem execSqTailDoorbell_goes (fn value : Nat) : Goes base (execSqTailDoorbell fn value s) :=
  whenDo_goes h (keepOr_keeps h (ringTail_keeps h ..) ..) _

theorem execCqHeadDoorbell_goes (fn value : Nat) : Goes base (execCqHeadDoorbell fn value s) :=
  whenDo_goes h (keepOr_keeps h (ringHead_keeps h ..) ..) _

theorem execRingEnable_goes (fn value : Nat) : Goes base (execRingEnable fn value s) :=
  whenDo_goes h (keepOr_keeps h (ringOn_keeps h ..) ..) _

theorem execRingDisable_goes (fn value : Nat) : Goes base (execRingDisable fn value s) :=
  whenDo_goes h (keepOr_keeps h (ringOff_keeps h ..) ..) _

theorem execEventPost_goes (fn : Nat) : Goes base (execEventPost fn s) := by
  unfold execEventPost
  dsimp only
  split
  · exact ok_goes h
  · exact whenDo_goes h (postSlot_keeps (updRing_keeps h ..) ..) _

theorem execRelayedPacket_goes (src : Src) (tag : Nat) : Goes base (execRelayedPacket src tag s) := by
  unfold execRelayedPacket
  split
  · exact ok_goes h
  · exact whenDo_goes h (Keeps.ite (relayBroadcast_keeps h ..) (relayPacket_keeps h ..)) _

theorem execReadyStepWrite_goes (fn suite value : Nat) : Goes base (execReadyStepWrite fn suite value s) :=
  whenDo_goes h (keepOr_keeps h (writeReady_keeps h ..) ..) _

theorem execRestart_goes (mv : Nat) : Goes base (execRestart mv s) :=
  whenDo_goes h ((Keeps.upd ..).2 h) _

theorem execRcRead_goes (fn addr size : Nat) : Goes base (execRcRead fn addr size s) := by
  unfold execRcRead
  refine whenDo_goes h (Keeps.ite (completeOnes_keeps h ..) (complete_keeps ?_ ..)) _
  split
  · exact Keeps.ite h (clearRc_keeps h _)
  · exact h

theorem execLoReadLatch_goes (fn addr size : Nat) : Goes base (execLoReadLatch fn addr size s) := by
  unfold execLoReadLatch
  refine whenDo_goes h (Keeps.ite (completeOnes_keeps h ..) (complete_keeps ?_ ..)) _
  split
  · split
    · dsimp only
      exact (Keeps.upd ..).2 h
    · exact h
  · exact h

theorem execRegisterWrite_goes (fn addr value size : Nat) : Goes base (execRegisterWrite fn addr value size s) :=
  whenDo_goes h (Keeps.ite h (writeFunc_keeps h ..)) _

theorem execHello_goes (src : Src) (tag : Nat) : Goes base (execHello src tag s) :=
  runCommand_goes h _ _ _ _ (fun _ _ _ _ _ k => helloEffect_keeps k ..)

theorem execGetInfo_goes (src : Src) (tag : Nat) : Goes base (execGetInfo src tag s) :=
  runCommand_goes h _ _ _ _ (fun _ _ _ _ _ k => done_keeps k _)

theorem execWake_goes (src : Src) (tag : Nat) : Goes base (execWake src tag s) := by
  unfold execWake
  refine runCommand_goes h _ _ _ _ (fun st _ _ _ b k => ?_)
  split
  · dsimp only
    exact done_keeps (wakeDevice_keeps k _) _
  · dsimp only
    exact done_keeps k _

theorem execReset_goes (src : Src) (tag : Nat) : Goes base (execReset src tag s) := by
  unfold execReset
  refine runCommand_goes h _ _ _ _ (fun st x p n b k => ?_)
  split
  · dsimp only
    exact resetTileEffect_keeps k ..
  · dsimp only
    exact resetWingEffect_keeps k ..
  · dsimp only
    exact resetSuiteEffect_keeps k ..
  · dsimp only
    exact done_keeps (resetDevice_keeps k ..) _

theorem execDisableUnit_goes (src : Src) (tag : Nat) : Goes base (execDisableUnit src tag s) :=
  runCommand_goes h _ _ _ _ (fun _ _ _ _ _ k => disableEffect_keeps k ..)

theorem execEnableUnit_goes (src : Src) (tag : Nat) : Goes base (execEnableUnit src tag s) := by
  unfold execEnableUnit
  refine runCommand_goes h _ _ _ _ ?_
  exact fun st _ _ _ b k => Keeps.ite_fst (deny_keeps k ..) (done_keeps (enableUnit_keeps k ..) _)

theorem execCreateSuite_goes (src : Src) (tag : Nat) : Goes base (execCreateSuite src tag s) := by
  unfold execCreateSuite
  refine runCommand_goes h _ _ _ _ (fun st _ _ n b k => Keeps.ite_fst (deny_keeps k ..) ?_)
  dsimp only
  split
  · exact deny_keeps (settleSpares_keeps k _) ..
  · exact done_keeps (suiteEvent_keeps (takeWays_keeps (setSuite_keeps (settleSpares_keeps k _) ..) ..) ..) _

theorem execDeleteSuite_goes (src : Src) (tag : Nat) (obs : List MemObs) : Goes base (execDeleteSuite src tag obs s) := by
  unfold execDeleteSuite
  refine runCommand_goes h _ _ _ _ ?_
  exact fun st _ _ n _ k => Keeps.ite_fst (done_keeps (lostWriteBacks_keeps (removeSuite_keeps k _) ..) _) (denyState_keeps k _)

theorem execLoadImage_goes (src : Src) (tag : Nat) : Goes base (execLoadImage src tag s) := by
  unfold execLoadImage
  refine runCommand_goes h _ _ _ _ ?_
  exact fun st _ _ n _ k => Keeps.ite_fst (later_keeps (updSuite_keeps (unseatAll_keeps k _) ..)) (denyState_keeps k _)

theorem execBindInputs_goes (src : Src) (tag : Nat) : Goes base (execBindInputs src tag s) := by
  unfold execBindInputs
  refine runCommand_goes h _ _ _ _ (fun st _ _ n b k => ?_)
  dsimp only
  split
  · exact denyState_keeps k _
  · exact Keeps.ite_fst (deny_keeps (setLoad_keeps k ..) ..) (done_keeps (setLoad_keeps (setBindings_keeps k ..) ..) _)

theorem execInputWrite_goes (src : Src) (tag : Nat) : Goes base (execInputWrite src tag s) := by
  unfold execInputWrite
  refine runCommand_goes h _ _ _ _ (fun st _ p n b k => Keeps.ite_fst (denyState_keeps k _) ?_)
  split
  · exact deny_keeps k ..
  · exact Keeps.ite_fst (deny_keeps k ..) (later_keeps k)

theorem execStart_goes (src : Src) (tag : Nat) : Goes base (execStart src tag s) :=
  runCommand_goes h _ _ _ _ (fun _ _ _ _ _ k => startEffect_keeps k ..)

theorem execPreempt_goes (src : Src) (tag : Nat) : Goes base (execPreempt src tag s) := by
  unfold execPreempt
  refine runCommand_goes h _ _ _ _ (fun st x p n _ k => ?_)
  split
  · exact done_keeps (gangJob_keeps k ..) _
  · refine Keeps.ite_fst (denyState_keeps k _) (Keeps.ite_fst (gangForward_keeps k ..) ?_)
    split
    · dsimp only
      exact later_keeps (updSuite_keeps k ..)
    · dsimp only
      exact later_keeps (updSuite_keeps (requestPreempt_keeps k _) ..)

theorem execResume_goes (src : Src) (tag : Nat) : Goes base (execResume src tag s) := by
  unfold execResume
  refine runCommand_goes h _ _ _ _ (fun st x p n b k => ?_)
  split
  · dsimp only
    exact done_keeps (gangJob_keeps k ..) _
  · refine Keeps.ite_fst (Keeps.ite_fst (resumeJob_keeps k ..) (deny_keeps k ..)) ?_
    refine Keeps.ite_fst (resumeSuite_keeps k ..) ?_
    split
    · exact resumeRemote_keeps k ..
    · exact deny_keeps k ..

theorem execStop_goes (src : Src) (tag : Nat) : Goes base (execStop src tag s) := by
  unfold execStop
  refine runCommand_goes h _ _ _ _ ?_
  exact fun st x p n b k => Keeps.ite_fst (stopJobCommand_keeps k ..) (stopSuite_keeps k ..)

theorem execJobRanks_goes (src : Src) (tag : Nat) : Goes base (execJobRanks src tag s) := by
  unfold execJobRanks
  refine runCommand_goes h _ _ _ _ (fun st _ _ n b k => ?_)
  refine Keeps.ite_fst (deny_keeps k ..) (Keeps.ite_fst (denyState_keeps k _) (Keeps.ite_fst (deny_keeps k ..) ?_))
  split
  · dsimp only
    exact done_keeps (setJob_keeps (actAsTop_keeps k) ..) _
  · dsimp only
    exact done_keeps (setJob_keeps (actAsTop_keeps k) ..) _

theorem execEvalAt_goes (src : Src) (tag : Nat) : Goes base (execEvalAt src tag s) := by
  unfold execEvalAt
  refine runCommand_goes h _ _ _ _ ?_
  exact fun st x p n b k => Keeps.ite_fst (jobCommand_keeps k _ _ _ _ _ _ (fun v1 m k1 => evalAt_keeps k1 ..)) (evalAt_keeps k ..)

theorem execSliceSet_goes (src : Src) (tag : Nat) : Goes base (execSliceSet src tag s) := by
  unfold execSliceSet
  refine runCommand_goes h _ _ _ _ (fun st _ p n b k => ?_)
  refine Keeps.ite_fst (deny_keeps k ..) (Keeps.ite_fst (deny_keeps k ..) (Keeps.ite_fst (deny_keeps k ..) ?_))
  exact done_keeps (Keeps.ite (beginSlice_keeps (updSuite_keeps k ..) _) (updSuite_keeps k ..)) _

theorem execCheckpointAt_goes (src : Src) (tag : Nat) : Goes base (execCheckpointAt src tag s) := by
  unfold execCheckpointAt
  refine runCommand_goes h _ _ _ _ (fun st x p n b k => Keeps.ite_fst ?_ (checkpointAt_keeps k ..))
  exact jobCommand_keeps k _ _ _ _ _ _ (fun v1 m k1 => checkpointAt_keeps k1 ..)

theorem execCheckpointList_goes (src : Src) (tag : Nat) : Goes base (execCheckpointList src tag s) := by
  unfold execCheckpointList
  refine runCommand_goes h _ _ _ _ (fun st _ _ n _ k => ?_)
  dsimp only
  split
  · exact denyState_keeps k _
  · exact done_keeps k _

theorem execCheckpointRead_goes (src : Src) (tag : Nat) : Goes base (execCheckpointRead src tag s) := by
  unfold execCheckpointRead
  refine runCommand_goes h _ _ _ _ ?_
  exact fun st _ _ n b k => Keeps.ite_fst (denyState_keeps k _) (Keeps.ite_fst (later_keeps k) (deny_keeps k ..))

theorem execCheckpointWrite_goes (src : Src) (tag : Nat) : Goes base (execCheckpointWrite src tag s) := by
  unfold execCheckpointWrite
  refine runCommand_goes h _ _ _ _ (fun st _ _ n b k => ?_)
  dsimp only
  split
  · exact denyState_keeps k _
  · exact Keeps.ite_fst (denyState_keeps k _) (later_keeps k)

theorem execDigestRead_goes (src : Src) (tag : Nat) : Goes base (execDigestRead src tag s) :=
  runCommand_goes h _ _ _ _ (fun _ _ _ _ _ k => Keeps.ite_fst (denyState_keeps k _) (later_keeps k))

theorem execRunRecordRead_goes (src : Src) (tag : Nat) : Goes base (execRunRecordRead src tag s) := by
  unfold execRunRecordRead
  refine runCommand_goes h _ _ _ _ ?_
  exact fun st _ _ _ b k => Keeps.ite_fst (deny_keeps k ..) (Keeps.ite_fst (later_keeps (actAsTop_keeps k)) (deny_keeps k ..))

theorem execManagerRole_goes (src : Src) (tag : Nat) : Goes base (execManagerRole src tag s) :=
  runCommand_goes h _ _ _ _ (fun _ _ _ _ _ k => managerRole_keeps k _)

theorem execWorkerAttach_goes (src : Src) (tag : Nat) : Goes base (execWorkerAttach src tag s) := by
  unfold execWorkerAttach
  refine runCommand_goes h _ _ _ _ (fun st x p _ b k => ?_)
  split
  · exact Keeps.ite_fst (beginAttach_keeps k ..) (acceptAttach_keeps k ..)
  · exact beginAttach_keeps k ..

theorem execWorkerDetach_goes (src : Src) (tag : Nat) : Goes base (execWorkerDetach src tag s) := by
  unfold execWorkerDetach
  refine runCommand_goes h _ _ _ _ (fun st x _ _ b k => Keeps.ite_fst ?_ (detachEffect_keeps k ..))
  exact Keeps.ite_fst (deny_keeps k ..) (done_keeps (updRing_keeps (leaveManager_keeps k) ..) _)

theorem execSpareAssign_goes (src : Src) (tag : Nat) : Goes base (execSpareAssign src tag s) :=
  runCommand_goes h _ _ _ _ (fun _ _ _ _ _ k => Keeps.ite_fst (done_keeps k _) (spareEffect_keeps k ..))

theorem execExpel_goes (src : Src) (tag : Nat) : Goes base (execExpel src tag s) := by
  unfold execExpel
  refine runCommand_goes h _ _ _ _ (fun st x p n b k => Keeps.ite_fst (expelEffect_keeps k ..) ?_)
  split
  · exact done_keeps (Keeps.ite (leaveJob_keeps k _) k) _
  · exact done_keeps k _

theorem execTakeover_goes (src : Src) (tag : Nat) : Goes base (execTakeover src tag s) := by
  unfold execTakeover
  refine runCommand_goes h _ _ _ _ (fun st x _ n b k => ?_)
  refine Keeps.ite_fst (deny_keeps k ..) (Keeps.ite_fst (denyState_keeps k _) ?_)
  exact Keeps.ite_fst (deny_keeps k ..) (wait_keeps (beginTakeover_keeps k ..) ..)

theorem execGangAtBell_goes (src : Src) (tag : Nat) : Goes base (execGangAtBell src tag s) := by
  unfold execGangAtBell
  refine runCommand_goes h _ _ _ _ (fun st x p n b k => Keeps.ite_fst ?_ ?_)
  · refine Keeps.ite_fst (deny_keeps k ..) (Keeps.ite_fst (deny_keeps k ..) ?_)
    dsimp only
    refine later_keeps (settleGather_keeps ?_)
    exact toMembers_keeps (setNote_keeps (actAsTop_keeps k) ..) _ _ _ _ _ _ (fun v1 m k1 => gangRank_keeps k1 ..)
  · refine Keeps.ite_fst (denyState_keeps k _) ?_
    split
    · exact deny_keeps k ..
    · next x e => exact wait_keeps (gangEvent_keeps k _ _ _ x e) ..

theorem execHaltAtBell_goes (src : Src) (tag : Nat) : Goes base (execHaltAtBell src tag s) := by
  unfold execHaltAtBell
  refine runCommand_goes h _ _ _ _ ?_
  exact fun st x _ n b k => Keeps.ite_fst (deny_keeps k ..) (Keeps.ite_fst (denyState_keeps k _) (wait_keeps (nameHalt_keeps k ..) ..))

theorem execPoisonNotice_goes (src : Src) (tag : Nat) : Goes base (execPoisonNotice src tag s) := by
  unfold execPoisonNotice
  refine runCommand_goes h _ _ _ _ (fun st _ _ _ b k => Keeps.ite_fst (deny_keeps k ..) ?_)
  exact Keeps.ite_fst (done_keeps (topNotice_keeps k ..) _) (done_keeps (sendToManager_keeps k ..) _)

theorem execVoteRecord_goes (src : Src) (tag : Nat) : Goes base (execVoteRecord src tag s) := by
  unfold execVoteRecord
  refine runCommand_goes h _ _ _ _ (fun st _ _ _ b k => Keeps.ite_fst (deny_keeps k ..) ?_)
  exact Keeps.ite_fst (done_keeps (receiveVote_keeps k _) _) (done_keeps (sendToManager_keeps k ..) _)

theorem execVerdict_goes (src : Src) (tag : Nat) : Goes base (execVerdict src tag s) := by
  unfold execVerdict
  refine runCommand_goes h _ _ _ _ ?_
  exact fun st _ _ n b k => Keeps.ite_fst (deny_keeps k ..) (Keeps.ite_fst (denyState_keeps k _) (done_keeps (takeVerdict_keeps k ..) _))

theorem execJobMap_goes (src : Src) (tag : Nat) : Goes base (execJobMap src tag s) :=
  runCommand_goes h _ _ _ _ (fun _ _ _ _ _ k => mapEffect_keeps k ..)

theorem execRecords_goes (src : Src) (tag : Nat) : Goes base (execRecords src tag s) := by
  unfold execRecords
  refine runCommand_goes h _ _ _ _ (fun st _ _ n b k => Keeps.ite_fst ?_ ?_)
  · refine Keeps.ite_fst (deny_keeps k ..) ?_
    exact Keeps.ite_fst (done_keeps (mergeAtTop_keeps k _) _) (done_keeps (sendToManager_keeps k ..) _)
  · exact Keeps.ite_fst (denyState_keeps k _) (Keeps.ite_fst (deny_keeps k ..) (done_keeps (takeRecords_keeps k ..) _))

theorem execFaultList_goes (src : Src) (tag : Nat) : Goes base (execFaultList src tag s) := by
  unfold execFaultList
  refine runCommand_goes h _ _ _ _ (fun st _ _ n b k => ?_)
  dsimp only
  exact done_keeps k _

theorem execFaultRead_goes (src : Src) (tag : Nat) : Goes base (execFaultRead src tag s) := by
  unfold execFaultRead
  refine runCommand_goes h _ _ _ _ (fun st _ _ n b k => ?_)
  split
  · exact deny_keeps k ..
  · exact done_keeps k _

theorem execSignatureRead_goes (src : Src) (tag : Nat) : Goes base (execSignatureRead src tag s) := by
  unfold execSignatureRead
  refine runCommand_goes h _ _ _ _ (fun st _ _ _ b k => ?_)
  split
  · exact deny_keeps k ..
  · exact done_keeps k _

theorem execSignatureCollect_goes (src : Src) (tag : Nat) : Goes base (execSignatureCollect src tag s) := by
  unfold execSignatureCollect
  refine runCommand_goes h _ _ _ _ (fun st x p _ b k => Keeps.ite_fst (done_keeps (sendSignatures_keeps k _) _) ?_)
  refine Keeps.ite_fst (deny_keeps k ..) (Keeps.ite_fst (done_keeps (sendSignatures_keeps k _) _) ?_)
  dsimp only
  exact later_keeps (openGather_keeps (sendToWorkers_keeps (sendSignatures_keeps k _) ..) _)

theorem execFaultAck_goes (src : Src) (tag : Nat) : Goes base (execFaultAck src tag s) := by
  unfold execFaultAck
  refine runCommand_goes h _ _ _ _ ?_
  exact fun st _ _ n b k => Keeps.ite_fst (done_keeps ((Keeps.upd ..).2 k) _) (deny_keeps k ..)

theorem execFwStage_goes (src : Src) (tag : Nat) : Goes base (execFwStage src tag s) := by
  unfold execFwStage
  refine runCommand_goes h _ _ _ _ (fun st _ _ n b k => ?_)
  refine Keeps.ite_fst (denyState_keeps k _) (Keeps.ite_fst (done_keeps (fwState_keeps ((Keeps.upd ..).2 k) _) _) ?_)
  exact done_keeps (finishStage_keeps (fwState_keeps ((Keeps.upd ..).2 k) _)) _

theorem execFwBlock_goes (src : Src) (tag : Nat) : Goes base (execFwBlock src tag s) := by
  unfold execFwBlock
  refine runCommand_goes h _ _ _ _ ?_
  exact fun st _ _ _ b k => Keeps.ite_fst (done_keeps (putHalf_keeps k ..) _) (deny_keeps k ..)

theorem execFwMissing_goes (src : Src) (tag : Nat) : Goes base (execFwMissing src tag s) := by
  unfold execFwMissing
  refine runCommand_goes h _ _ _ _ (fun st _ _ _ _ k => ?_)
  dsimp only
  exact done_keeps k _

theorem execFwStatus_goes (src : Src) (tag : Nat) : Goes base (execFwStatus src tag s) := by
  unfold execFwStatus
  refine runCommand_goes h _ _ _ _ (fun st _ _ _ _ k => ?_)
  dsimp only
  exact done_keeps k _

theorem execBellGet_goes (src : Src) (tag : Nat) : Goes base (execBellGet src tag s) :=
  runCommand_goes h _ _ _ _ (fun _ _ _ _ _ k => done_keeps k _)

theorem execEventList_goes (src : Src) (tag : Nat) : Goes base (execEventList src tag s) := by
  unfold execEventList
  refine runCommand_goes h _ _ _ _ (fun st _ _ n b k => ?_)
  dsimp only
  exact done_keeps k _

theorem execBellSlotSet_goes (src : Src) (tag : Nat) : Goes base (execBellSlotSet src tag s) := by
  unfold execBellSlotSet
  refine runCommand_goes h _ _ _ _ ?_
  exact fun st x p n b k => Keeps.ite_fst (jobCommand_keeps k _ _ _ _ _ _ (fun v1 m k1 => slotEvent_keeps k1 ..)) (slotEvent_keeps k ..)

theorem execEventCancel_goes (src : Src) (tag : Nat) : Goes base (execEventCancel src tag s) := by
  unfold execEventCancel
  refine runCommand_goes h _ _ _ _ (fun st _ _ n b k => ?_)
  split
  · exact deny_keeps k ..
  · refine Keeps.ite_fst (denyState_keeps k _) ?_
    split
    · dsimp only
      exact done_keeps ((Keeps.upd ..).2 (popEvent_keeps k _)) _
    · dsimp only
      exact done_keeps (popEvent_keeps k _) _

theorem execPowerInfo_goes (src : Src) (tag : Nat) : Goes base (execPowerInfo src tag s) := by
  unfold execPowerInfo
  refine runCommand_goes h _ _ _ _ (fun st _ _ _ _ k => ?_)
  dsimp only
  exact done_keeps ((Keeps.upd ..).2 k) _

theorem execTileClockCap_goes (src : Src) (tag : Nat) : Goes base (execTileClockCap src tag s) := by
  unfold execTileClockCap
  refine runCommand_goes h _ _ _ _ ?_
  exact fun st _ p n b k => Keeps.ite_fst (deny_keeps k ..) (done_keeps (Keeps.foldl _ k (fun v1 a k1 => updGov_keeps k1 ..)) _)

theorem execSupplyPolicy_goes (src : Src) (tag : Nat) : Goes base (execSupplyPolicy src tag s) :=
  runCommand_goes h _ _ _ _ (fun _ _ _ _ _ k => done_keeps ((Keeps.upd ..).2 k) _)

theorem execLanternInfo_goes (src : Src) (tag : Nat) : Goes base (execLanternInfo src tag s) := by
  unfold execLanternInfo
  refine runCommand_goes h _ _ _ _ (fun st _ _ _ b k => ?_)
  dsimp only
  exact done_keeps k _

theorem execLanternRelease_goes (src : Src) (tag : Nat) : Goes base (execLanternRelease src tag s) :=
  runCommand_goes h _ _ _ _ (fun _ _ _ _ _ k => releaseEffect_keeps k ..)

theorem execLanternCheck_goes (src : Src) (tag : Nat) : Goes base (execLanternCheck src tag s) :=
  runCommand_goes h _ _ _ _ (fun _ _ _ _ _ k => Keeps.ite_fst (done_keeps k _) (wait_keeps k ..))

theorem execTensorRead_goes (src : Src) (tag : Nat) : Goes base (execTensorRead src tag s) := by
  unfold execTensorRead
  refine runCommand_goes h _ _ _ _ (fun st _ _ n b k => ?_)
  dsimp only
  split
  · exact denyState_keeps k _
  · exact Keeps.ite_fst (later_keeps k) (deny_keeps k ..)

theorem execStreamRead_goes (src : Src) (tag : Nat) : Goes base (execStreamRead src tag s) :=
  runCommand_goes h _ _ _ _ (fun _ _ _ _ _ k => Keeps.ite_fst (deny_keeps k ..) (done_keeps k _))

theorem execPortRetrain_goes (src : Src) (tag : Nat) : Goes base (execPortRetrain src tag s) := by
  unfold execPortRetrain
  refine runCommand_goes h _ _ _ _ (fun st x p _ b k => ?_)
  refine Keeps.ite_fst (deny_keeps k ..) (Keeps.ite_fst (deny_keeps k ..) ?_)
  split
  · dsimp only
    exact wait_keeps (updPort_keeps (startRetrain_keeps k ..) ..) ..
  · dsimp only
    exact wait_keeps (updPort_keeps (startRetrain_keeps k ..) ..) ..

theorem execKnownAnswer_goes (src : Src) (tag : Nat) : Goes base (execKnownAnswer src tag s) := by
  unfold execKnownAnswer
  refine runCommand_goes h _ _ _ _ (fun st x p _ b k => ?_)
  dsimp only
  split
  · exact deny_keeps k ..
  · exact deny_keeps k ..
  · exact Keeps.ite_fst (done_keeps k _) (wait_keeps (Keeps.foldl _ k (fun v1 a k1 => updTile_keeps k1 ..)) ..)

theorem execPerstAssert_goes : Goes base (execPerstAssert s) :=
  whenDo_goes h ((Keeps.upd ..).2 (Keeps.ite (endpointReset_keeps h) h)) _

theorem execLinkDown_goes : Goes base (execLinkDown s) :=
  whenDo_goes h (endpointReset_keeps h) _

theorem execD3hot_goes (fn : Nat) : Goes base (execD3hot fn s) :=
  whenDo_goes h ((Keeps.upd ..).2 h) _

theorem execBypass_goes : Goes base (execBypass s) :=
  whenDo_goes h (selectBypass_keeps h) _

theorem execSamplePreload_goes (pins : List Nat) : Goes base (execSamplePreload pins s) :=
  whenDo_goes h (Keeps.ite ((Keeps.upd ..).2 h) (selectBypass_keeps h)) _

theorem execExtest_goes : Goes base (execExtest s) :=
  whenDo_goes h (Keeps.ite (send_keeps ((Keeps.upd ..).2 h) ..) (selectBypass_keeps h)) _

theorem execMctpControl_goes (msg : Bytes) : Goes base (execMctpControl msg s) := by
  unfold execMctpControl
  refine whenDo_goes h (answerMctp_keeps (Keeps.ite ?_ (draw_keeps h)) ..) _
  dsimp only
  exact (Keeps.upd ..).2 (draw_keeps h)

theorem execPldmSensorRead_goes (sensor : Nat) : Goes base (execPldmSensorRead sensor s) :=
  whenDo_goes h (answerMctp_keeps h ..) _

theorem execPldmFirmwareInventory_goes : Goes base (execPldmFirmwareInventory s) :=
  whenDo_goes h (answerMctp_keeps h ..) _

theorem execPldmFirmwareUpdate_goes (offset : Nat) (data : Bytes) (last : Bool) : Goes base (execPldmFirmwareUpdate offset data last s) :=
  whenDo_goes h (Keeps.ite (answerMctp_keeps ((Keeps.upd ..).2 h) ..) (refuseMctp_keeps h _)) _

theorem execActivateFirmware_goes : Goes base (execActivateFirmware s) := by
  unfold execActivateFirmware
  refine whenDo_goes h ?_ _
  exact Keeps.ite (resetDevice_keeps (answerMctp_keeps ((Keeps.upd ..).2 h) ..) ..) (refuseMctp_keeps h _)

theorem execPollForPlatformEventMessage_goes (ackTo : Nat) : Goes base (execPollForPlatformEventMessage ackTo s) :=
  serveMctp_goes h (answerMctp_keeps ((Keeps.upd ..).2 h) ..) ..

theorem execGetVersion_goes (msg : Bytes) : Goes base (execGetVersion msg s) :=
  spdmAnswer_goes h ..

theorem execGetCapabilities_goes (msg : Bytes) : Goes base (execGetCapabilities msg s) :=
  spdmAnswer_goes h ..

theorem execNegotiateAlgorithms_goes (msg : Bytes) : Goes base (execNegotiateAlgorithms msg s) :=
  spdmAnswer_goes h ..

theorem execGetDigests_goes (msg : Bytes) : Goes base (execGetDigests msg s) :=
  spdmAnswer_goes h ..

theorem execGetCertificate_goes (msg : Bytes) : Goes base (execGetCertificate msg s) :=
  spdmAnswer_goes h ..

theorem execChallenge_goes (msg : Bytes) : Goes base (execChallenge msg s) :=
  spdmAnswer_goes (draw_keeps h) ..

theorem execGetMeasurements_goes (msg : Bytes) : Goes base (execGetMeasurements msg s) :=
  spdmAnswer_goes h ..

theorem execBellEdge_goes : Goes base (execBellEdge s) :=
  whenDo_goes h (Keeps.ite (send_keeps ((Keeps.upd ..).2 h) ..) ((Keeps.upd ..).2 h)) _

theorem execPerstDeassert_goes : Goes base (execPerstDeassert s) :=
  whenDo_goes h ((Keeps.upd ..).2 h) _

theorem execD0_goes (fn : Nat) : Goes base (execD0 fn s) :=
  whenDo_goes h (postWaiting_keeps (readSlots_keeps ((Keeps.upd ..).2 h) ..) _) _

theorem execHallServesAgain_goes : Goes base (execHallServesAgain s) := by
  unfold execHallServesAgain
  refine whenDo_goes h ?_ _
  refine Keeps.foldl _ (Keeps.foldl _ ?_ (fun st a k => applyKept_keeps k _)) (fun st a k => takePacket_keeps k ..)
  exact Keeps.ite ((Keeps.upd ..).2 h) (fwState_keeps ((Keeps.upd ..).2 h) _)

theorem execBulkCommandComplete_goes (src : Src) (tag : Nat) (obs : List MemObs) : Goes base (execBulkCommandComplete src tag obs s) := by
  unfold execBulkCommandComplete
  split
  · exact ok_goes h
  · split
    · exact ok_goes (finishLoad_keeps (Keeps.ite (readObs_keeps h ..) h) ..)
    · exact ok_goes (finishInputWrite_keeps (Keeps.ite (readObs_keeps h ..) h) ..)
    · exact ok_goes (finishCheckpointRead_keeps (Keeps.ite (readObs_keeps h ..) h) ..)
    · exact ok_goes (finishCheckpointWrite_keeps (Keeps.ite (readObs_keeps h ..) h) ..)
    · exact ok_goes (finishDigestRead_keeps (Keeps.ite (readObs_keeps h ..) h) ..)
    · exact ok_goes (finishRunRecordRead_keeps (Keeps.ite (readObs_keeps h ..) h) ..)
    · exact ok_goes (finishTensorRead_keeps (Keeps.ite (readObs_keeps h ..) h) ..)
    · exact ok_goes (Keeps.ite (readObs_keeps h ..) h)

theorem execDroopRecovery_goes (tile : Nat) : Goes base (execDroopRecovery tile s) :=
  whenDo_goes h (updGov_keeps h ..) _

theorem execIssuePauseEnd_goes (tile : Nat) (temp : Int) : Goes base (execIssuePauseEnd tile temp s) :=
  whenDo_goes h (updGov_keeps h ..) _

theorem execAtticWriteComplete_goes : Goes base (execAtticWriteComplete s) :=
  whenDo_goes h ((Keeps.upd ..).2 h) _

theorem execCupolaMirrorCopy_goes : Goes base (execCupolaMirrorCopy s) :=
  whenDo_goes h ((Keeps.upd ..).2 h) _

theorem execLanternMirrorRefresh_goes : Goes base (execLanternMirrorRefresh s) :=
  ok_goes (Keeps.foldl _ h (fun _ _ k => refreshMirror_keeps k _))

end

/-- Every command goes on and keeps what `base` has: its arm of `exec` is its meaning. -/
theorem exec_goes {base s : State} (h : Keeps base s) (i : Instr) : Goes base (exec i s) :=
  match i with
  | .nop tile st => execNop_goes h tile st
  | .qin tile st => execQin_goes h tile st
  | .qout tile st => execQout_goes h tile st
  | .wait tile st => execWait_goes h tile st
  | .waitSatisfied tile st => execWaitSatisfied_goes h tile st
  | .take tile st => execTake_goes h tile st
  | .takeComplete tile st => execTakeComplete_goes h tile st
  | .pass tile st => execPass_goes h tile st
  | .mm tile st ecc => execMm_goes h tile st ecc
  | .cellSpill tile cell dup ecc => execCellSpill_goes h tile cell dup ecc
  | .mmPassComplete tile => execMmPassComplete_goes h tile
  | .passCheckVerdict tile err => execPassCheckVerdict_goes h tile err
  | .vop tile st ecc => execVop_goes h tile st ecc
  | .vred tile st ecc => execVred_goes h tile st ecc
  | .veCheckVerdict tile obs => execVeCheckVerdict_goes h tile obs
  | .cvt tile st ecc => execCvt_goes h tile st ecc
  | .cvtCheckVerdict tile obs => execCvtCheckVerdict_goes h tile obs
  | .dig tile st ecc => execDig_goes h tile st ecc
  | .mark tile st => execMark_goes h tile st
  | .markDrainComplete tile st => execMarkDrainComplete_goes h tile st
  | .bellwait tile st => execBellwait_goes h tile st
  | .bellwaitComplete tile st => execBellwaitComplete_goes h tile st
  | .loop tile st => execLoop_goes h tile st
  | .instructionFetch tile st words ecc obs => execInstructionFetch_goes h tile st words ecc obs
  | .kernelOverrun tile st => execKernelOverrun_goes h tile st
  | .stepGateOpen tile st => execStepGateOpen_goes h tile st
  | .scaleRecordsWrite suite tensor step => execScaleRecordsWrite_goes h suite tensor step
  | .scaleDecision suite tensor step => execScaleDecision_goes h suite tensor step
  | .landingTransactionStart tile landing ecc net => execLandingTransactionStart_goes h tile landing ecc net
  | .transactionComplete entry tag obs dup ecc => execTransactionComplete_goes h entry tag obs dup ecc
  | .patrolScrub pc addr obs => execPatrolScrub_goes h pc addr obs
  | .onlineRowRepair pc row => execOnlineRowRepair_goes h pc row
  | .rowRepairComplete pc row obs => execRowRepairComplete_goes h pc row obs
  | .hbmTempReading wing temp onDie => execHbmTempReading_goes h wing temp onDie
  | .refreshRateChange wing => execRefreshRateChange_goes h wing
  | .perBankRefresh wing bank => execPerBankRefresh_goes h wing bank
  | .refreshManagement wing bank => execRefreshManagement_goes h wing bank
  | .cacheEviction wing line obs => execCacheEviction_goes h wing line obs
  | .streamTimeout entry tag => execStreamTimeout_goes h entry tag
  | .inputTimeout entry tag => execInputTimeout_goes h entry tag
  | .disableDrainExpiry entry => execDisableDrainExpiry_goes h entry
  | .flitReceive port flit fec => execFlitReceive_goes h port flit fec
  | .nak port ackSeq => execNak_goes h port ackSeq
  | .retryBudgetSpent port => execRetryBudgetSpent_goes h port
  | .dataFlit port body ecc => execDataFlit_goes h port body ecc
  | .mgmtPacket port packet => execMgmtPacket_goes h port packet
  | .credit port rec => execCredit_goes h port rec
  | .ack port rec => execAck_goes h port rec
  | .timeoutNotice port rec => execTimeoutNotice_goes h port rec
  | .disableNotice port rec => execDisableNotice_goes h port rec
  | .linkCredit port rec => execLinkCredit_goes h port rec
  | .sync port rec edge residence => execSync_goes h port rec edge residence
  | .delayReq port rec residence => execDelayReq_goes h port rec residence
  | .delayResp port rec trip => execDelayResp_goes h port rec trip
  | .syncSend port offset => execSyncSend_goes h port offset
  | .delayReqSend port => execDelayReqSend_goes h port
  | .syncLoss => execSyncLoss_goes h
  | .bellRefLoss present => execBellRefLoss_goes h present
  | .bellRefReturn => execBellRefReturn_goes h
  | .bellSlotValue event => execBellSlotValue_goes h event
  | .cdcTimeout crossing => execCdcTimeout_goes h crossing
  | .crossingResync crossing => execCrossingResync_goes h crossing
  | .laneFailed port lane tx => execLaneFailed_goes h port lane tx
  | .fastRetrainComplete port txOk rxOk result => execFastRetrainComplete_goes h port txOk rxOk result
  | .fullRetrainComplete port txOk rxOk far => execFullRetrainComplete_goes h port txOk rxOk far
  | .bringupTrainingComplete port txOk rxOk far => execBringupTrainingComplete_goes h port txOk rxOk far
  | .downPortRetry port => execDownPortRetry_goes h port
  | .capacityTable port table => execCapacityTable_goes h port table
  | .plannedSwitchover port => execPlannedSwitchover_goes h port
  | .switchoverComplete port => execSwitchoverComplete_goes h port
  | .unplannedSwitchover port => execUnplannedSwitchover_goes h port
  | .lanternInserted lantern serial model hours first => execLanternInserted_goes h lantern serial model hours first
  | .lanternRemoved lantern => execLanternRemoved_goes h lantern
  | .lanternAuthentication lantern proof => execLanternAuthentication_goes h lantern proof
  | .lanternWarmupComplete lantern levels offGrid rose => execLanternWarmupComplete_goes h lantern levels offGrid rose
  | .lanternHealthCheck lantern levels hours => execLanternHealthCheck_goes h lantern levels hours
  | .heartbeat worker => execHeartbeat_goes h worker
  | .managerLost => execManagerLost_goes h
  | .workerLost worker => execWorkerLost_goes h worker
  | .voteBell suite => execVoteBell_goes h suite
  | .voteTimeout job => execVoteTimeout_goes h job
  | .haltBell suite => execHaltBell_goes h suite
  | .takeoverTransferComplete suite ok data scale => execTakeoverTransferComplete_goes h suite ok data scale
  | .jobRestoreComplete suite obs => execJobRestoreComplete_goes h suite obs
  | .broadcastReplyTimeout tag => execBroadcastReplyTimeout_goes h tag
  | .evalWindowBell event => execEvalWindowBell_goes h event
  | .evalWindowStart suite => execEvalWindowStart_goes h suite
  | .evalProgramsComplete suite => execEvalProgramsComplete_goes h suite
  | .checkpointBell event => execCheckpointBell_goes h event
  | .checkpointCopyComplete suite obs => execCheckpointCopyComplete_goes h suite obs
  | .sliceBoundary suite => execSliceBoundary_goes h suite
  | .gangBell event => execGangBell_goes h event
  | .streamRelease tile st => execStreamRelease_goes h tile st
  | .tileSaveComplete tile => execTileSaveComplete_goes h tile
  | .resumeRestoreComplete suite obs => execResumeRestoreComplete_goes h suite obs
  | .foldSwap tile next obs => execFoldSwap_goes h tile next obs
  | .checkRepeatComplete tile value check => execCheckRepeatComplete_goes h tile value check
  | .thirdRunComplete tile value check => execThirdRunComplete_goes h tile value check
  | .resolutionTimeout tile => execResolutionTimeout_goes h tile
  | .atticWrite faultEvent => execAtticWrite_goes h faultEvent
  | .powerOn mv => execPowerOn_goes h mv
  | .powerLoss => execPowerLoss_goes h
  | .wakePin held => execWakePin_goes h held
  | .railsInRegulation fusesOk => execRailsInRegulation_goes h fusesOk
  | .railRegulationTimeout => execRailRegulationTimeout_goes h
  | .firmwareVerified okA okB => execFirmwareVerified_goes h okA okB
  | .stackTrainingComplete wing passed => execStackTrainingComplete_goes h wing passed
  | .memoryTestComplete wing rows => execMemoryTestComplete_goes h wing rows
  | .knownAnswerRunComplete tile result disagreed => execKnownAnswerRunComplete_goes h tile result disagreed
  | .deviceDrainComplete => execDeviceDrainComplete_goes h
  | .tileResetComplete tile => execTileResetComplete_goes h tile
  | .wingDrainExpiry wing => execWingDrainExpiry_goes h wing
  | .wingResetComplete wing => execWingResetComplete_goes h wing
  | .suiteDrainComplete suite => execSuiteDrainComplete_goes h suite
  | .hallWatchdog => execHallWatchdog_goes h
  | .fwActivation => execFwActivation_goes h
  | .fwActivationTimeout => execFwActivationTimeout_goes h
  | .fwConfirmation => execFwConfirmation_goes h
  | .supplyWarn mv low => execSupplyWarn_goes h mv low
  | .supplyWarnClear durUs low => execSupplyWarnClear_goes h durUs low
  | .dip mv durUs => execDip_goes h mv durUs
  | .brownOut mv => execBrownOut_goes h mv
  | .brownoutRecoveryWake => execBrownoutRecoveryWake_goes h
  | .overvolt mv => execOvervolt_goes h mv
  | .overvoltClear mv => execOvervoltClear_goes h mv
  | .throttle sensor temp => execThrottle_goes h sensor temp
  | .throttleClear => execThrottleClear_goes h
  | .coolantHot temp => execCoolantHot_goes h temp
  | .coolantHotClear temp => execCoolantHotClear_goes h temp
  | .thermalShutdown sensor temp => execThermalShutdown_goes h sensor temp
  | .thermalRecoveryWake => execThermalRecoveryWake_goes h
  | .tileDroop tile => execTileDroop_goes h tile
  | .tileCurrentLimit tile => execTileCurrentLimit_goes h tile
  | .tileTempStepDown tile temp => execTileTempStepDown_goes h tile temp
  | .tileTempStepUp tile temp => execTileTempStepUp_goes h tile temp
  | .tileIssuePause tile temp => execTileIssuePause_goes h tile temp
  | .telemetrySample sample => execTelemetrySample_goes h sample
  | .sqTailDoorbell fn value => execSqTailDoorbell_goes h fn value
  | .cqHeadDoorbell fn value => execCqHeadDoorbell_goes h fn value
  | .ringEnable fn value => execRingEnable_goes h fn value
  | .ringDisable fn value => execRingDisable_goes h fn value
  | .eventPost fn => execEventPost_goes h fn
  | .relayedPacket src tag => execRelayedPacket_goes h src tag
  | .readyStepWrite fn suite value => execReadyStepWrite_goes h fn suite value
  | .restart mv => execRestart_goes h mv
  | .rcRead fn addr size => execRcRead_goes h fn addr size
  | .loReadLatch fn addr size => execLoReadLatch_goes h fn addr size
  | .registerWrite fn addr value size => execRegisterWrite_goes h fn addr value size
  | .hello src tag => execHello_goes h src tag
  | .getInfo src tag => execGetInfo_goes h src tag
  | .wake src tag => execWake_goes h src tag
  | .sleep src tag => execSleep_goes h src tag
  | .reset src tag => execReset_goes h src tag
  | .disableUnit src tag => execDisableUnit_goes h src tag
  | .enableUnit src tag => execEnableUnit_goes h src tag
  | .createSuite src tag => execCreateSuite_goes h src tag
  | .deleteSuite src tag obs => execDeleteSuite_goes h src tag obs
  | .loadImage src tag => execLoadImage_goes h src tag
  | .bindInputs src tag => execBindInputs_goes h src tag
  | .inputWrite src tag => execInputWrite_goes h src tag
  | .start src tag => execStart_goes h src tag
  | .preempt src tag => execPreempt_goes h src tag
  | .resume src tag => execResume_goes h src tag
  | .stop src tag => execStop_goes h src tag
  | .jobRanks src tag => execJobRanks_goes h src tag
  | .evalAt src tag => execEvalAt_goes h src tag
  | .sliceSet src tag => execSliceSet_goes h src tag
  | .checkpointAt src tag => execCheckpointAt_goes h src tag
  | .checkpointList src tag => execCheckpointList_goes h src tag
  | .checkpointRead src tag => execCheckpointRead_goes h src tag
  | .checkpointWrite src tag => execCheckpointWrite_goes h src tag
  | .digestRead src tag => execDigestRead_goes h src tag
  | .runRecordRead src tag => execRunRecordRead_goes h src tag
  | .managerRole src tag => execManagerRole_goes h src tag
  | .workerAttach src tag => execWorkerAttach_goes h src tag
  | .workerDetach src tag => execWorkerDetach_goes h src tag
  | .spareAssign src tag => execSpareAssign_goes h src tag
  | .expel src tag => execExpel_goes h src tag
  | .takeover src tag => execTakeover_goes h src tag
  | .gangAtBell src tag => execGangAtBell_goes h src tag
  | .haltAtBell src tag => execHaltAtBell_goes h src tag
  | .poisonNotice src tag => execPoisonNotice_goes h src tag
  | .voteRecord src tag => execVoteRecord_goes h src tag
  | .verdict src tag => execVerdict_goes h src tag
  | .jobMap src tag => execJobMap_goes h src tag
  | .records src tag => execRecords_goes h src tag
  | .faultList src tag => execFaultList_goes h src tag
  | .faultRead src tag => execFaultRead_goes h src tag
  | .signatureRead src tag => execSignatureRead_goes h src tag
  | .signatureCollect src tag => execSignatureCollect_goes h src tag
  | .faultAck src tag => execFaultAck_goes h src tag
  | .fwStage src tag => execFwStage_goes h src tag
  | .fwBlock src tag => execFwBlock_goes h src tag
  | .fwMissing src tag => execFwMissing_goes h src tag
  | .fwActivate src tag => execFwActivate_goes h src tag
  | .fwStatus src tag => execFwStatus_goes h src tag
  | .bellGet src tag => execBellGet_goes h src tag
  | .eventList src tag => execEventList_goes h src tag
  | .bellSlotSet src tag => execBellSlotSet_goes h src tag
  | .eventCancel src tag => execEventCancel_goes h src tag
  | .powerInfo src tag => execPowerInfo_goes h src tag
  | .tileClockCap src tag => execTileClockCap_goes h src tag
  | .supplyPolicy src tag => execSupplyPolicy_goes h src tag
  | .lanternInfo src tag => execLanternInfo_goes h src tag
  | .lanternRelease src tag => execLanternRelease_goes h src tag
  | .lanternCheck src tag => execLanternCheck_goes h src tag
  | .tensorRead src tag => execTensorRead_goes h src tag
  | .streamRead src tag => execStreamRead_goes h src tag
  | .portRetrain src tag => execPortRetrain_goes h src tag
  | .knownAnswer src tag => execKnownAnswer_goes h src tag
  | .perstAssert => execPerstAssert_goes h
  | .linkDown => execLinkDown_goes h
  | .d3hot fn => execD3hot_goes h fn
  | .bypass => execBypass_goes h
  | .samplePreload pins => execSamplePreload_goes h pins
  | .extest => execExtest_goes h
  | .mctpControl msg => execMctpControl_goes h msg
  | .pldmSensorRead sensor => execPldmSensorRead_goes h sensor
  | .pldmFirmwareInventory => execPldmFirmwareInventory_goes h
  | .pldmFirmwareUpdate offset data last => execPldmFirmwareUpdate_goes h offset data last
  | .activateFirmware => execActivateFirmware_goes h
  | .pollForPlatformEventMessage ackTo => execPollForPlatformEventMessage_goes h ackTo
  | .getVersion msg => execGetVersion_goes h msg
  | .getCapabilities msg => execGetCapabilities_goes h msg
  | .negotiateAlgorithms msg => execNegotiateAlgorithms_goes h msg
  | .getDigests msg => execGetDigests_goes h msg
  | .getCertificate msg => execGetCertificate_goes h msg
  | .challenge msg => execChallenge_goes h msg
  | .getMeasurements msg => execGetMeasurements_goes h msg
  | .bellEdge => execBellEdge_goes h
  | .perstDeassert => execPerstDeassert_goes h
  | .d0 fn => execD0_goes h fn
  | .hallServesAgain => execHallServesAgain_goes h
  | .bulkCommandComplete src tag obs => execBulkCommandComplete_goes h src tag obs
  | .droopRecovery tile => execDroopRecovery_goes h tile
  | .issuePauseEnd tile temp => execIssuePauseEnd_goes h tile temp
  | .atticWriteComplete => execAtticWriteComplete_goes h
  | .cupolaMirrorCopy => execCupolaMirrorCopy_goes h
  | .lanternMirrorRefresh => execLanternMirrorRefresh_goes h

/-- A step goes on from a state without its front command, and keeps what that state has. -/
theorem step_goes (s : State) : Goes { s with pending := s.pending.tail } (step s) := by
  unfold step
  split
  · next hp => exact ⟨s, rfl, by rw [hp]; rfl, rfl, id, id, id⟩
  · next c rest hp =>
    rw [hp]
    exact exec_goes (Keeps.refl _) c

theorem Keeps.memoriesCanonical {o u : State} (k : Keeps o u) (h : memoriesCanonical o = true) : memoriesCanonical u = true := by
  obtain ⟨hh, hm⟩ := Bool.and_eq_true_iff.1 h
  exact Bool.and_eq_true_iff.2 ⟨k.hbm hh, k.host hm⟩

/-- Settles O56: the step answers a next state (`step_goes`), and what is kept of the state without its front command is what the rule names. -/
theorem everyStepGoesOnAndKeepsTheForms : Obligations.EveryStepGoesOnAndKeepsTheForms := by
  intro s
  obtain ⟨v, hv, k⟩ := step_goes s
  rw [hv]
  refine ⟨rfl, fun u hu => ?_⟩
  obtain rfl : v = u := Host.Outcome.next.inj hu
  exact ⟨k.pending, k.fuse, k.memoriesCanonical, k.suites⟩

end Sys2Proof.Machine
end

section
/-!
PROOFS. The memory of a suite: its addresses spread over its pseudo-channels without overlap (rule R237), and what is written reads back
(rule R32).
-/
open Sys2Proof

namespace Sys2Proof.Machine

/-- An address within a suite's size has its place; any other has none (rule R237). -/
theorem place_eq_some_iff {a c : Nat} {pcs : List Nat} {p : Nat × Nat} :
    place a pcs c = some p ↔
      a < pcs.length * c ∧ p = (pcs.getD (a / 512 % pcs.length) 0, 512 * (a / 512 / pcs.length) + a % 512) := by
  by_cases h : pcs.length * c ≤ a
  · rw [place, if_pos h]
    exact ⟨fun k => (nomatch k), fun k => absurd h (Nat.not_le_of_lt k.1)⟩
  · rw [place, if_neg h]
    exact ⟨fun k => ⟨Nat.lt_of_not_le h, (Option.some.inj k).symm⟩, fun k => congrArg some k.2.symm⟩

theorem place_isSome_iff {a c : Nat} {pcs : List Nat} : (place a pcs c).isSome = true ↔ a < pcs.length * c := by
  rw [Option.isSome_iff_exists]
  exact ⟨fun ⟨_, h⟩ => (place_eq_some_iff.1 h).1, fun h => ⟨_, place_eq_some_iff.2 ⟨h, rfl⟩⟩⟩

theorem getD_of_lt {pcs : List Nat} {i : Nat} (h : i < pcs.length) : pcs.getD i 0 = pcs[i] := by
  rw [List.getD_eq_getElem?_getD, List.getElem?_eq_getElem h, Option.getD_some]

theorem getD_mem {pcs : List Nat} {i : Nat} (h : i < pcs.length) : pcs.getD i 0 ∈ pcs := by
  rw [getD_of_lt h]
  exact List.getElem_mem h

theorem pcs_pos_of_lt {a c : Nat} {pcs : List Nat} (h : a < pcs.length * c) : 0 < pcs.length := by
  rcases Nat.eq_zero_or_pos pcs.length with h0 | h0
  · rw [h0, Nat.zero_mul] at h
    omega
  · exact h0

/-- A place is one of the suite's pseudo-channels, below its capacity (rule R237). -/
theorem place_within {a c pc l : Nat} {pcs : List Nat} (hc : c % 512 = 0) (h : place a pcs c = some (pc, l)) : pc ∈ pcs ∧ l < c := by
  obtain ⟨ha, hp⟩ := place_eq_some_iff.1 h
  obtain ⟨rfl, rfl⟩ := Prod.mk.inj hp
  obtain ⟨m, rfl⟩ := Nat.dvd_of_mod_eq_zero hc
  have hpos := pcs_pos_of_lt ha
  refine ⟨getD_mem (Nat.mod_lt _ hpos), ?_⟩
  have hblock : a / 512 < pcs.length * m := by
    rw [Nat.mul_left_comm] at ha
    exact Nat.div_lt_of_lt_mul ha
  have hrow : a / 512 / pcs.length < m := Nat.div_lt_of_lt_mul hblock
  omega

/-- Two addresses of a suite never share a place (rule R237): the place gives back the block's pseudo-channel, its row, and the byte. -/
theorem place_injective {a b c : Nat} {pcs : List Nat} {p : Nat × Nat} (hn : pcs.Nodup) (ha : place a pcs c = some p)
    (hb : place b pcs c = some p) : a = b := by
  obtain ⟨hlt, rfl⟩ := place_eq_some_iff.1 ha
  obtain ⟨-, hp⟩ := place_eq_some_iff.1 hb
  obtain ⟨hpc, hloc⟩ := Prod.mk.inj hp
  have hpos := pcs_pos_of_lt hlt
  rw [getD_of_lt (Nat.mod_lt _ hpos), getD_of_lt (Nat.mod_lt _ hpos)] at hpc
  have hcol : a / 512 % pcs.length = b / 512 % pcs.length := (List.getElem_inj hn).1 hpc
  have hrow : a / 512 / pcs.length = b / 512 / pcs.length := by omega
  have hblock : a / 512 = b / 512 := by
    rw [← Nat.div_add_mod (a / 512) pcs.length, ← Nat.div_add_mod (b / 512) pcs.length, hcol, hrow]
  omega

/-- Settles O11: a place determines its address (`place_injective`), lies within its pseudo-channel (`place_within`), and is there exactly
for the addresses below the suite's size. -/
theorem suiteAddressesNeverShareAPlace : Obligations.SuiteAddressesNeverShareAPlace :=
  fun _ _ hn hc => ⟨fun _ _ _ => place_injective hn, fun _ _ _ => place_within hc, fun _ => place_isSome_iff⟩

theorem hbmKey_injective {pc pc' l l' : Nat} (hl : l < 2 ^ 31) (hl' : l' < 2 ^ 31) (h : hbmKey pc l = hbmKey pc' l') : pc = pc' ∧ l = l' := by
  unfold hbmKey at h
  omega

theorem pcCapacity_mod (s : State) : pcCapacity s % 512 = 0 := by
  unfold pcCapacity
  omega

/-- With the stacks' memory replaced, a byte that has a place reads what the new memory holds there. -/
theorem suiteByte_of_place {s : State} {n a pc l : Nat} (m : Memory) (h : place a (getSuite s n).res.pcs (pcCapacity s) = some (pc, l)) :
    suiteByte { s with hbm := m } n a = Memory.read m (hbmKey pc l) := by
  have h' : place a (getSuite { s with hbm := m } n).res.pcs (pcCapacity { s with hbm := m }) = some (pc, l) := h
  rw [suiteByte, h']

theorem suiteByte_of_no_place {s : State} {n a : Nat} (m : Memory) (h : place a (getSuite s n).res.pcs (pcCapacity s) = none) :
    suiteByte { s with hbm := m } n a = 0#8 := by
  have h' : place a (getSuite { s with hbm := m } n).res.pcs (pcCapacity { s with hbm := m }) = none := h
  rw [suiteByte, h']

theorem suiteSetByte_of_place {s : State} {n a pc l : Nat} (v : Byte) (h : place a (getSuite s n).res.pcs (pcCapacity s) = some (pc, l)) :
    suiteSetByte s n a v = { s with hbm := Memory.write s.hbm (hbmKey pc l) v } := by
  rw [suiteSetByte, h]

/-- The byte that is written at an address of a suite reads back (rule R32). -/
theorem suiteByte_suiteSetByte_same {s : State} {n a : Nat} (v : Byte) (h : a < (getSuite s n).res.pcs.length * pcCapacity s) :
    suiteByte (suiteSetByte s n a v) n a = v := by
  have hp := place_eq_some_iff.2 ⟨h, rfl⟩
  rw [suiteSetByte_of_place v hp, suiteByte_of_place _ hp, Memory.read_write_same]

/-- A write leaves every other byte of the suite's memory alone: its place, where it has one, has another key. -/
theorem suiteByte_suiteSetByte_other {s : State} {n a b : Nat} (v : Byte) (hn : (getSuite s n).res.pcs.Nodup) (hcap : s.fuse.stackGib ≤ 96)
    (h : b ≠ a) : suiteByte (suiteSetByte s n a v) n b = suiteByte s n b := by
  cases hp : place a (getSuite s n).res.pcs (pcCapacity s) with
  | none => rw [suiteSetByte, hp]
  | some p =>
    rw [suiteSetByte_of_place v hp]
    cases hq : place b (getSuite s n).res.pcs (pcCapacity s) with
    | none => exact (suiteByte_of_no_place _ hq).trans (suiteByte_of_no_place s.hbm hq).symm
    | some q =>
      have hsmall : pcCapacity s < 2 ^ 31 := by
        unfold pcCapacity
        omega
      obtain ⟨-, hl⟩ := place_within (pcCapacity_mod s) hp
      obtain ⟨-, hl'⟩ := place_within (pcCapacity_mod s) hq
      have hkey : hbmKey q.1 q.2 ≠ hbmKey p.1 p.2 := fun e => by
        obtain ⟨h1, h2⟩ := hbmKey_injective (by omega) (by omega) e
        exact h (place_injective hn hq (hp.trans (congrArg some (Prod.ext h1.symm h2.symm))))
      calc suiteByte { s with hbm := Memory.write s.hbm (hbmKey p.1 p.2) v } n b
          = Memory.read (Memory.write s.hbm (hbmKey p.1 p.2) v) (hbmKey q.1 q.2) := suiteByte_of_place _ hq
        _ = Memory.read s.hbm (hbmKey q.1 q.2) := Memory.read_write_other _ _ _ _ hkey
        _ = suiteByte s n b := (suiteByte_of_place s.hbm hq).symm

/-- Settles O12: the written byte's place is read again, and another address has another place or none. -/
theorem suiteMemoryReadsBack : Obligations.SuiteMemoryReadsBack :=
  fun _ _ _ _ v _ hn _ hcap ha => ⟨suiteByte_suiteSetByte_same v ha, suiteByte_suiteSetByte_other v hn hcap⟩

end Sys2Proof.Machine
end

section
/-!
PROOFS. The block hash (rule R45): its round is a bijection for every key, so the lanes of two blocks stay apart from the first word in
which they differ (rule R46).
-/
namespace Sys2Proof

/-- The low word of the exact product is the product of words. -/
theorem mulhilo_snd (a b : Word) : (mulhilo a b).2 = a * b := by
  apply BitVec.eq_of_toNat_eq
  rw [BitVec.toNat_mul]
  exact BitVec.toNat_ofNat _ _

theorem mul_left_cancel_of_inverse {m i x y : Word} (hi : i * m = 1#32) (h : m * x = m * y) : x = y := by
  calc x = i * m * x := by rw [hi, BitVec.one_mul]
    _ = i * m * y := by rw [BitVec.mul_assoc, h, ← BitVec.mul_assoc]
    _ = y := by rw [hi, BitVec.one_mul]

theorem mul_of_inverse {m i : Word} (hi : i * m = 1#32) (y : Word) : m * (i * y) = y := by
  rw [← BitVec.mul_assoc, BitVec.mul_comm m i, hi, BitVec.one_mul]

/-- The odd multipliers of the round have inverses modulo 2^32. -/
theorem inverse_multiplier0 : 0x84B03E13#32 * 0xA94F3C1B#32 = 1#32 := by decide
theorem inverse_multiplier1 : 0xE4BCE057#32 * 0xE5D20B67#32 = 1#32 := by decide

/-- The round is injective for every key: its low words give back the lanes multiplied, and these the lanes that were added. -/
theorem gRound_injective {k0 k1 : Word} {c d : Lanes} (h : gRound c k0 k1 = gRound d k0 k1) : c = d := by
  obtain ⟨c0, c1, c2, c3⟩ := c
  obtain ⟨d0, d1, d2, d3⟩ := d
  simp only [gRound, mulhilo_snd, Lanes.mk.injEq] at h
  obtain ⟨h1, h2, h3, h0⟩ := h
  obtain rfl := mul_left_cancel_of_inverse inverse_multiplier0 h0
  obtain rfl := mul_left_cancel_of_inverse inverse_multiplier1 h2
  rw [BitVec.xor_left_inj, BitVec.xor_right_inj] at h1 h3
  rw [h1, h3]

/-- The round reaches every value for every key. -/
theorem gRound_surjective (k0 k1 : Word) (d : Lanes) : ∃ c, gRound c k0 k1 = d := by
  obtain ⟨d0, d1, d2, d3⟩ := d
  let x0 := 0x84B03E13#32 * d3
  let x2 := 0xE4BCE057#32 * d1
  refine ⟨⟨x0, (mulhilo 0xE5D20B67#32 x2).1 ^^^ (d0 ^^^ k0), x2, (mulhilo 0xA94F3C1B#32 x0).1 ^^^ (d2 ^^^ k1)⟩, ?_⟩
  have hcancel : ∀ a b k : Word, a ^^^ (a ^^^ (b ^^^ k)) ^^^ k = b := fun a b k => by
    rw [← BitVec.xor_assoc a, BitVec.xor_self, BitVec.zero_xor, BitVec.xor_assoc, BitVec.xor_self, BitVec.xor_zero]
  simp only [gRound, mulhilo_snd, hcancel, Lanes.mk.injEq, true_and]
  exact ⟨mul_of_inverse inverse_multiplier1 d1, mul_of_inverse inverse_multiplier0 d3⟩

/-- A round more, with the key advanced. -/
theorem gRounds_succ (n : Nat) (c : Lanes) (k0 k1 : Word) :
    gRounds (n + 1) c k0 k1 = gRounds n (gRound c k0 k1) (k0 + 0x8B51F2C5#32) (k1 + 0xD3A61E79#32) := by
  delta gRounds
  rfl

theorem gRounds_injective (n : Nat) {c d : Lanes} {k0 k1 : Word} (h : (gRounds n c k0 k1).1 = (gRounds n d k0 k1).1) : c = d := by
  induction n generalizing c d k0 k1 with
  | zero => exact h
  | succ n ih =>
    rw [gRounds_succ, gRounds_succ] at h
    exact gRound_injective (ih h)

/-- The keys advance by themselves. -/
theorem gRounds_keys (n : Nat) (c d : Lanes) (k0 k1 : Word) : (gRounds n c k0 k1).2 = (gRounds n d k0 k1).2 := by
  induction n generalizing c d k0 k1 with
  | zero => rfl
  | succ n ih =>
    rw [gRounds_succ, gRounds_succ]
    exact ih _ _ _ _

/-- Bytes within a string are the bytes cut out of it. -/
theorem bytesAt_of_le {bs : Bytes} {o n : Nat} (h : o + n ≤ bs.length) : bytesAt bs o n = (bs.drop o).take n := by
  have hl : ((bs.drop o).take n).length = n := by
    rw [List.length_take, List.length_drop]
    omega
  rw [bytesAt, hl, Nat.sub_self, List.replicate_zero, List.append_nil]

theorem leNat_lt (bs : Bytes) : leNat bs < 256 ^ bs.length := by
  induction bs with
  | nil => exact Nat.one_pos
  | cons b bs ih =>
    have hb := b.isLt
    rw [leNat, List.length_cons, Nat.pow_succ]
    omega

/-- Little-endian bytes of one length are told apart by their number. -/
theorem leNat_injective {a b : Bytes} (hl : a.length = b.length) (h : leNat a = leNat b) : a = b := by
  induction a generalizing b with
  | nil => exact (List.length_eq_zero_iff.1 hl.symm).symm
  | cons x a ih =>
    cases b with
    | nil => contradiction
    | cons y b =>
      have hx := x.isLt
      have hy := y.isLt
      simp only [leNat] at h
      rw [List.length_cons, List.length_cons, Nat.add_right_cancel_iff] at hl
      rw [ih hl (by omega), BitVec.eq_of_toNat_eq (show x.toNat = y.toNat by omega)]

/-- Word `l` of the 16-byte word `j` of a block. -/
def blockWord (bs : Bytes) (j l : Nat) : Word := BitVec.ofNat 32 (fieldAt bs (16 * j + 4 * l) 4)

theorem absorb_eq (c : Lanes) (bs : Bytes) (j : Nat) :
    absorb c bs j = ⟨c.c0 ^^^ blockWord bs j 0, c.c1 ^^^ blockWord bs j 1, c.c2 ^^^ blockWord bs j 2, c.c3 ^^^ blockWord bs j 3⟩ := rfl

theorem bytesAt_within {bs : Bytes} {j l : Nat} (h : 16 * j + 16 ≤ bs.length) (hl : l < 4) :
    bytesAt bs (16 * j + 4 * l) 4 = ((bytesAt bs (16 * j) 16).drop (4 * l)).take 4 := by
  rw [bytesAt_of_le (by omega), bytesAt_of_le h, ← List.drop_drop, List.drop_take, List.take_take, Nat.min_eq_left (by omega)]

theorem blockWord_congr {x y : Bytes} {j l : Nat} (hx : 16 * j + 16 ≤ x.length) (hy : 16 * j + 16 ≤ y.length) (hl : l < 4)
    (h : bytesAt x (16 * j) 16 = bytesAt y (16 * j) 16) : blockWord x j l = blockWord y j l := by
  rw [blockWord, blockWord, fieldAt, fieldAt, bytesAt_within hx hl, bytesAt_within hy hl, h]

theorem bytesAt_of_blockWord {x y : Bytes} {j l : Nat} (hx : 16 * j + 16 ≤ x.length) (hy : 16 * j + 16 ≤ y.length) (hl : l < 4)
    (h : blockWord x j l = blockWord y j l) : bytesAt x (16 * j + 4 * l) 4 = bytesAt y (16 * j + 4 * l) 4 := by
  have hlen : ∀ z : Bytes, 16 * j + 16 ≤ z.length → (bytesAt z (16 * j + 4 * l) 4).length = 4 := fun z hz => by
    rw [bytesAt_of_le (by omega), List.length_take, List.length_drop]
    omega
  have hlt : ∀ z : Bytes, 16 * j + 16 ≤ z.length → fieldAt z (16 * j + 4 * l) 4 < 2 ^ 32 := fun z hz => by
    have := leNat_lt (bytesAt z (16 * j + 4 * l) 4)
    rwa [hlen z hz] at this
  have hn : fieldAt x (16 * j + 4 * l) 4 = fieldAt y (16 * j + 4 * l) 4 := by
    have ht := congrArg BitVec.toNat h
    rwa [blockWord, blockWord, BitVec.toNat_ofNat, BitVec.toNat_ofNat, Nat.mod_eq_of_lt (hlt x hx), Nat.mod_eq_of_lt (hlt y hy)] at ht
  exact leNat_injective ((hlen x hx).trans (hlen y hy).symm) hn

/-- Sixteen bytes are their four words. -/
theorem bytesAt_split (bs : Bytes) {j : Nat} (h : 16 * j + 16 ≤ bs.length) :
    bytesAt bs (16 * j) 16 = bytesAt bs (16 * j + 4 * 0) 4 ++ bytesAt bs (16 * j + 4 * 1) 4 ++ bytesAt bs (16 * j + 4 * 2) 4
      ++ bytesAt bs (16 * j + 4 * 3) 4 := by
  rw [bytesAt_of_le h, bytesAt_of_le (by omega), bytesAt_of_le (by omega), bytesAt_of_le (by omega), bytesAt_of_le (by omega),
    ← List.drop_drop, ← List.drop_drop, ← List.drop_drop, ← List.drop_drop, Nat.mul_zero, List.drop_zero]
  rw [show (16 : Nat) = 4 + 4 + 4 + 4 from rfl, List.take_add, List.take_add, List.take_add]

theorem bytesAt_congr_of_blockWord {x y : Bytes} {j : Nat} (hx : 16 * j + 16 ≤ x.length) (hy : 16 * j + 16 ≤ y.length)
    (h : ∀ l, l < 4 → blockWord x j l = blockWord y j l) : bytesAt x (16 * j) 16 = bytesAt y (16 * j) 16 := by
  rw [bytesAt_split x hx, bytesAt_split y hy, bytesAt_of_blockWord hx hy (by omega) (h 0 (by omega)),
    bytesAt_of_blockWord hx hy (by omega) (h 1 (by omega)), bytesAt_of_blockWord hx hy (by omega) (h 2 (by omega)),
    bytesAt_of_blockWord hx hy (by omega) (h 3 (by omega))]

/-- Lanes and keys once word `j` of a block has been absorbed and two rounds have run (rule R45). -/
def absorbRounds (st : Lanes × Word × Word) (bs : Bytes) (j : Nat) : Lanes × Word × Word := gRounds 2 (absorb st.1 bs j) st.2.1 st.2.2

/-- The number of four lanes. -/
def Lanes.number (c : Lanes) : Nat := c.c0.toNat + 2 ^ 32 * c.c1.toNat + 2 ^ 64 * c.c2.toNat + 2 ^ 96 * c.c3.toNat

theorem Lanes.eq_of_lanes {c d : Lanes} (h0 : c.c0 = d.c0) (h1 : c.c1 = d.c1) (h2 : c.c2 = d.c2) (h3 : c.c3 = d.c3) : c = d := by
  cases c
  cases d
  rw [Lanes.mk.injEq]
  exact ⟨h0, h1, h2, h3⟩

theorem Lanes.number_injective {c d : Lanes} (h : c.number = d.number) : c = d := by
  have hc0 := c.c0.isLt
  have hc1 := c.c1.isLt
  have hc2 := c.c2.isLt
  have hd0 := d.c0.isLt
  have hd1 := d.c1.isLt
  have hd2 := d.c2.isLt
  unfold Lanes.number at h
  refine Lanes.eq_of_lanes ?_ ?_ ?_ ?_ <;> apply BitVec.eq_of_toNat_eq <;> omega

/-- The key of a block's hash: its tensor and its number (rule R45). -/
def blockKey (tensor index : Nat) : Word × Word :=
  (BitVec.ofNat 32 (bits tensor 0 24 + 2 ^ 24 * bits index 32 8), BitVec.ofNat 32 index)

/-- Lanes and keys once the four words of a block have been absorbed. -/
def absorbBlock (k : Word × Word) (bs : Bytes) : Lanes × Word × Word :=
  absorbRounds (absorbRounds (absorbRounds (absorbRounds (⟨0, 0, 0, 0⟩, k) bs 0) bs 1) bs 2) bs 3

/-- The block hash is the number of the lanes after the four words and two rounds more. -/
theorem blockHash_eq (bs : Bytes) (tensor index : Nat) :
    blockHash bs tensor index = (gRounds 2 (absorbBlock (blockKey tensor index) bs).1 (absorbBlock (blockKey tensor index) bs).2.1
      (absorbBlock (blockKey tensor index) bs).2.2).1.number := by
  simp only [blockHash, absorbBlock, absorbRounds, blockKey, Lanes.number]

/-- Two hashes under way whose lanes differ and whose keys agree. -/
def Apart (a b : Lanes × Word × Word) : Prop := a.1 ≠ b.1 ∧ a.2 = b.2

section
variable {x y : Bytes} {j : Nat} (hx : 16 * j + 16 ≤ x.length) (hy : 16 * j + 16 ≤ y.length)
include hx hy

theorem absorb_congr (c : Lanes) (h : bytesAt x (16 * j) 16 = bytesAt y (16 * j) 16) : absorb c x j = absorb c y j := by
  have hw : ∀ l, l < 4 → blockWord x j l = blockWord y j l := fun l hl => blockWord_congr hx hy hl h
  rw [absorb_eq, absorb_eq, hw 0 (by omega), hw 1 (by omega), hw 2 (by omega), hw 3 (by omega)]

/-- Words that differ leave equal lanes apart. -/
theorem bytesAt_of_absorb {c : Lanes} (h : absorb c x j = absorb c y j) : bytesAt x (16 * j) 16 = bytesAt y (16 * j) 16 := by
  simp only [absorb_eq, Lanes.mk.injEq, BitVec.xor_right_inj] at h
  obtain ⟨h0, h1, h2, h3⟩ := h
  refine bytesAt_congr_of_blockWord hx hy (fun l hl => ?_)
  obtain rfl | rfl | rfl | rfl : l = 0 ∨ l = 1 ∨ l = 2 ∨ l = 3 := by omega
  · exact h0
  · exact h1
  · exact h2
  · exact h3

theorem absorbRounds_congr (st : Lanes × Word × Word) (h : bytesAt x (16 * j) 16 = bytesAt y (16 * j) 16) :
    absorbRounds st x j = absorbRounds st y j := by
  rw [absorbRounds, absorbRounds, absorb_congr hx hy st.1 h]

/-- A word that differs sets equal hashes apart. -/
theorem apart_of_word (st : Lanes × Word × Word) (h : bytesAt x (16 * j) 16 ≠ bytesAt y (16 * j) 16) :
    Apart (absorbRounds st x j) (absorbRounds st y j) :=
  ⟨fun e => h (bytesAt_of_absorb hx hy (gRounds_injective 2 e)), gRounds_keys 2 _ _ _ _⟩

/-- A common word keeps hashes apart. -/
theorem apart_absorbRounds {a b : Lanes × Word × Word} (hab : Apart a b) (h : bytesAt x (16 * j) 16 = bytesAt y (16 * j) 16) :
    Apart (absorbRounds a x j) (absorbRounds b y j) := by
  obtain ⟨hne, hk⟩ := hab
  rw [absorbRounds, absorbRounds, ← absorb_congr hx hy b.1 h, hk]
  refine ⟨fun e => hne ?_, gRounds_keys 2 _ _ _ _⟩
  have he := gRounds_injective 2 e
  simp only [absorb_eq, Lanes.mk.injEq, BitVec.xor_left_inj] at he
  obtain ⟨h0, h1, h2, h3⟩ := he
  exact Lanes.eq_of_lanes h0 h1 h2 h3

end

/-- Two blocks that differ in one word alone are apart once all four have been absorbed. -/
theorem apart_absorbBlock {x y : Bytes} {j : Nat} (k : Word × Word) (hx : x.length = 64) (hy : y.length = 64) (hj : j < 4)
    (hne : bytesAt x (16 * j) 16 ≠ bytesAt y (16 * j) 16)
    (heq : ∀ i, i < 4 → i ≠ j → bytesAt x (16 * i) 16 = bytesAt y (16 * i) 16) : Apart (absorbBlock k x) (absorbBlock k y) := by
  have hlx : ∀ i, i < 4 → 16 * i + 16 ≤ x.length := fun i hi => by omega
  have hly : ∀ i, i < 4 → 16 * i + 16 ≤ y.length := fun i hi => by omega
  have same : ∀ i, i < 4 → i ≠ j → ∀ st, absorbRounds st x i = absorbRounds st y i := fun i hi h st =>
    absorbRounds_congr (hlx i hi) (hly i hi) st (heq i hi h)
  have stay : ∀ i, i < 4 → i ≠ j → ∀ {a b}, Apart a b → Apart (absorbRounds a x i) (absorbRounds b y i) := fun i hi h _ _ hab =>
    apart_absorbRounds (hlx i hi) (hly i hi) hab (heq i hi h)
  have split := fun st => apart_of_word (hlx j hj) (hly j hj) st hne
  unfold absorbBlock
  obtain rfl | rfl | rfl | rfl : j = 0 ∨ j = 1 ∨ j = 2 ∨ j = 3 := by omega
  · exact stay 3 (by omega) (by omega) (stay 2 (by omega) (by omega) (stay 1 (by omega) (by omega) (split _)))
  · rw [same 0 (by omega) (by omega)]
    exact stay 3 (by omega) (by omega) (stay 2 (by omega) (by omega) (split _))
  · rw [same 0 (by omega) (by omega), same 1 (by omega) (by omega)]
    exact stay 3 (by omega) (by omega) (split _)
  · rw [same 0 (by omega) (by omega), same 1 (by omega) (by omega), same 2 (by omega) (by omega)]
    exact split _

/-- Settles O59: the round is a bijection, so the word that differs sets the lanes apart and every later round keeps them so. -/
theorem blocksThatDifferInOneWordHashDifferently : Obligations.BlocksThatDifferInOneWordHashDifferently := by
  refine ⟨fun _ _ _ _ => gRound_injective, gRound_surjective, fun x y j tensor index hx hy hj hne heq h => ?_⟩
  obtain ⟨hlanes, hkeys⟩ := apart_absorbBlock (blockKey tensor index) hx hy hj hne heq
  rw [blockHash_eq, blockHash_eq, hkeys] at h
  exact hlanes (gRounds_injective 2 (Lanes.number_injective h))

end Sys2Proof
end

section
/-!
PROOFS. Commands: how one begins and is refused or runs (rules R381 to R388), and how its reply is posted (rules R368, R374, R385).
-/
open Sys2Proof Sys2Proof.Says

namespace Sys2Proof.Machine

/-- Refutes O42: the completion vector is masked, so that its message waits as a pending bit (`raiseMsix`, rule R518) and nothing goes out. -/
theorem not_postedPacketsFillTheSlotAtTheTail : ¬ Obligations.PostedPacketsFillTheSlotAtTheTail := by
  intro h
  let s : State := { rings := [(0, { irqEn := true, shadow := 8192 })] }
  obtain ⟨hposts, -⟩ := h s 0 []
  obtain ⟨-, -, -, -, hcount⟩ := hposts rfl rfl (.inr (by decide)) rfl
  exact absurd hcount (by decide)

/-- What a command that begins comes to: its refusal by the function, the device state or an absent suite, or else its own effect. -/
def judged (s : State) (src : Src) (w : Waiting) (eff : State → Src → Packet → Nat → Bytes → Effect) : Effect :=
  if pfOnly src w.pkt then deny (taken s src w) 0x0311 0
  else if !(admits s src w.pkt) then denyState (taken s src w) (targetOf src w.pkt)
  else if targetOf src w.pkt ≠ 0xFF ∧ w.pkt.opcode ≠ 0x0200 ∧ 1 < w.pkt.opcode ∧ (getSuite s (targetOf src w.pkt)).state = .absent then
    deny (taken s src w) 0x0303 0
  else eff (taken s src w) src w.pkt (targetOf src w.pkt) (bodyOf w.pkt)

/-- The state after an effect: its reply, where it has one, goes out, or is left out for a command that is unanswered. -/
def answered (op : Nat) (src : Src) (tag : Nat) (p : Packet) (e : Effect) : State :=
  match e.2 with
  | none => e.1
  | some (st, d, f) =>
    if isSilent p (bodyOf p) && !(op == 0x0102 && pfOnly src p) then dropSilent e.1 src tag (decide (st ≠ 0)) else finish e.1 src tag st d f

section
variable {s u : State} {src : Src} {tag op n st d : Nat} {w : Waiting} {b f : Bytes} {p : Packet}
  {eff : State → Src → Packet → Nat → Bytes → Effect}

theorem answered_none : answered op src tag p (u, none) = u := rfl

theorem answered_loud (h : isSilent p (bodyOf p) = false) : answered op src tag p (u, some (st, d, f)) = finish u src tag st d f := by
  simp [answered, h]

theorem answered_pfOnly_reset (h : pfOnly src p = true) : answered 0x0102 src tag p (u, some (st, d, f)) = finish u src tag st d f := by
  simp [answered, h]

theorem answered_silent (h : isSilent p (bodyOf p) = true) (hp : pfOnly src p = false) :
    answered op src tag p (u, some (st, d, f)) = dropSilent u src tag (decide (st ≠ 0)) := by
  simp [answered, h, hp]

/-- The oldest waiting command of a tag and opcode, once it may start, comes to what it is judged to. -/
theorem runCommand_begins (h : Begins s src tag op w) : runCommand op src tag s eff = .next (answered op src tag w.pkt (judged s src w eff)) := by
  obtain ⟨hfind, hstart, hhere, hb⟩ := h
  have hcond : (startable s src w && isHere s src w.pkt && (!(isBroadcast w.pkt) || w.relayed)) = true := by
    rw [hstart, hhere]
    obtain hb | hb := hb <;> simp [hb]
  unfold runCommand
  rw [hfind]
  exact whenDo_true _ _ _ hcond

/-- A command that may not start yet, or is not for this Hall, changes nothing. -/
theorem runCommand_stays (hfind : (getRing s (ringKey src)).queue.find?
      (fun x => x.pkt.tag == tag && x.pkt.opcode == op && !x.executing && x.reply.isNone) = some w)
    (h : startable s src w = false ∨ isHere s src w.pkt = false ∨ (isBroadcast w.pkt = true ∧ w.relayed = false)) :
    runCommand op src tag s eff = .next s := by
  have hcond : (startable s src w && isHere s src w.pkt && (!(isBroadcast w.pkt) || w.relayed)) = false := by
    obtain h | h | ⟨h, h'⟩ := h <;> simp [*]
  unfold runCommand
  rw [hfind]
  exact whenDo_false _ _ _ hcond

/-- No command of that tag and opcode waits. -/
theorem runCommand_nothing
    (h : ∀ w, w ∈ (getRing s (ringKey src)).queue → w.pkt.tag ≠ tag ∨ w.pkt.opcode ≠ op ∨ w.executing = true ∨ w.reply ≠ none) :
    runCommand op src tag s eff = .next s := by
  have hfind : (getRing s (ringKey src)).queue.find?
      (fun x => x.pkt.tag == tag && x.pkt.opcode == op && !x.executing && x.reply.isNone) = none := by
    rw [List.find?_eq_none]
    intro w hw
    obtain h | h | h | h := h w hw <;> simp [h]
  unfold runCommand
  rw [hfind]

theorem Begins.opcode (h : Begins s src tag op w) : w.pkt.opcode = op := by
  have hw := List.find?_some h.1
  simp only [Bool.and_eq_true, beq_iff_eq] at hw
  exact hw.1.1.2

theorem judged_pfOnly (h : pfOnly src w.pkt = true) : judged s src w eff = deny (taken s src w) 0x0311 0 := if_pos h

theorem judged_not_admitted (hp : pfOnly src w.pkt = false) (h : admits s src w.pkt = false) :
    judged s src w eff = denyState (taken s src w) (targetOf src w.pkt) := by
  simp [judged, hp, h]

theorem judged_absent (hp : pfOnly src w.pkt = false) (ha : admits s src w.pkt = true)
    (h : targetOf src w.pkt ≠ 0xFF ∧ w.pkt.opcode ≠ 0x0200 ∧ 1 < w.pkt.opcode ∧ (getSuite s (targetOf src w.pkt)).state = .absent) :
    judged s src w eff = deny (taken s src w) 0x0303 0 := by
  rw [judged, if_neg (by simp [hp]), if_neg (by simp [ha]), if_pos h]

/-- A command that runs comes to its own effect. -/
theorem judged_runs (h : Runs s src tag op w n b) : judged s src w eff = eff (taken s src w) src w.pkt n b := by
  obtain ⟨hbegins, hp, ha, rfl, rfl, hthere⟩ := h
  have hop := Begins.opcode hbegins
  have hn : ¬ (targetOf src w.pkt ≠ 0xFF ∧ w.pkt.opcode ≠ 0x0200 ∧ 1 < w.pkt.opcode ∧ (getSuite s (targetOf src w.pkt)).state = .absent) := by
    rw [hop]
    rintro ⟨h1, h2, h3, h4⟩
    obtain h | h | h | h := hthere
    · exact h1 h
    · exact h2 h
    · omega
    · exact h h4
  rw [judged, if_neg (by simp [hp]), if_neg (by simp [ha]), if_neg hn]

theorem runCommand_runs (h : Runs s src tag op w n b) :
    runCommand op src tag s eff = .next (answered op src tag w.pkt (eff (taken s src w) src w.pkt n b)) := by
  rw [runCommand_begins h.1, judged_runs h]

/-- Whether a command is answered is said by its opcode, but for RESET. -/
theorem Runs.loud (h : Runs s src tag op w n b) (hop : opFlag op 3 = false) (hreset : op ≠ 0x0102) : isSilent w.pkt (bodyOf w.pkt) = false := by
  simp [isSilent, Begins.opcode h.1, hop, hreset]

/-- A command that runs and answers: its reply goes out from the state of its effect. -/
theorem runCommand_replies (h : Runs s src tag op w n b) (hop : opFlag op 3 = false) (hreset : op ≠ 0x0102)
    (he : eff (taken s src w) src w.pkt n b = (u, some (st, d, f))) : runCommand op src tag s eff = .next (finish u src tag st d f) := by
  rw [runCommand_runs h, he, answered_loud (Runs.loud h hop hreset)]

/-- A command that runs and goes on. -/
theorem runCommand_goes_on (h : Runs s src tag op w n b) (he : eff (taken s src w) src w.pkt n b = (u, none)) :
    runCommand op src tag s eff = .next u := by
  rw [runCommand_runs h, he, answered_none]

end

/-- A posted packet changes its ring's tail, whatever the vector's mask does. -/
theorem raiseMsix_ring (s : State) (f v : Nat) : ∃ p, getRing (raiseMsix s f v) f = { getRing s f with irqPending := p } := by
  unfold raiseMsix
  split
  · exact ⟨_, getRing_updRing_same _ _ _⟩
  · exact ⟨_, rfl⟩

theorem raiseMsix_other (s : State) (f v i : Nat) (h : i ≠ f) : getRing (raiseMsix s f v) i = getRing s i := by
  unfold raiseMsix
  split
  · exact getRing_updRing_other _ _ _ _ h
  · rfl

theorem raiseMsix_frame (s : State) (f v : Nat) : raiseMsix s f v = { s with rings := (raiseMsix s f v).rings, outbox := (raiseMsix s f v).outbox } := by
  unfold raiseMsix
  split <;> rfl

/-- A packet that is posted moves the tail of its ring by one and leaves its queue and every other ring (rule R374). -/
theorem postSlot_posts {s : State} {f : Nat} {bs : Bytes} (h1 : hostFails s ((getRing s f).cqBase + 4096 * (getRing s f).cqTail) bs.length = false)
    (h2 : hostFails s (getRing s f).shadow 4 = false) :
    (getRing (postSlot s f bs) f).queue = (getRing s f).queue
      ∧ (getRing (postSlot s f bs) f).cqTail = ((getRing s f).cqTail + 1) % 2 ^ (getRing s f).cqLog2
      ∧ postSlot s f bs = { s with rings := (postSlot s f bs).rings, host := (postSlot s f bs).host, outbox := (postSlot s f bs).outbox }
      ∧ ∀ i, i ≠ f → getRing (postSlot s f bs) i = getRing s i := by
  let t := ((getRing s f).cqTail + 1) % 2 ^ (getRing s f).cqLog2
  let s1 := updRing (hostWrite (hostWrite s ((getRing s f).cqBase + 4096 * (getRing s f).cqTail) bs) (getRing s f).shadow (natLE t 4)) f
    (fun x => { x with cqTail := t })
  have hring : getRing s1 f = { getRing s f with cqTail := t } := getRing_updRing_same _ _ _
  have hother : ∀ i, i ≠ f → getRing s1 i = getRing s i := fun i hi => getRing_updRing_other _ _ _ _ hi
  have hpost : postSlot s f bs = if (getRing s f).irqEn then raiseMsix s1 f (getRing s f).vector else s1 := by
    simp only [postSlot, h1, h2, Bool.or_false, Bool.false_eq_true, if_false]
    rfl
  rw [hpost]
  split
  · obtain ⟨q, hq⟩ := raiseMsix_ring s1 f (getRing s f).vector
    rw [hq, hring]
    refine ⟨rfl, rfl, ?_, fun i hi => (raiseMsix_other _ _ _ _ hi).trans (hother i hi)⟩
    rw [raiseMsix_frame]
    rfl
  · rw [hring]
    exact ⟨rfl, rfl, rfl, hother⟩

theorem replyBytes_length {p : Packet} (version status detail : Nat) (body : Bytes) (h : isRelayed p = false) :
    (replyBytes p version status detail body).length = 20 + body.length := by
  rw [replyBytes, packetBytes_length, h, if_neg Bool.false_ne_true]
  simp only [List.length_append, natLE_length, List.length_nil]
  omega

/-- The reply of an executing command on an open ring takes it out of its queue and goes into the slot at the tail (rules R368, R374). -/
theorem finish_posts {s : State} {f tag st d : Nat} {w : Waiting} {fields : Bytes}
    (hfind : (getRing s f).queue.find? (fun x => x.executing && x.pkt.tag == tag) = some w) (hb : isBroadcast w.pkt = false)
    (hr : isRelayed w.pkt = false) (hen : (getRing s f).enable = true) (hst : (getRing s f).stopped = false)
    (hd3 : s.bnd.d3hot.contains f = false)
    (h1 : hostFails s ((getRing s f).cqBase + 4096 * (getRing s f).cqTail) (20 + fields.length) = false)
    (h2 : hostFails s (getRing s f).shadow 4 = false) :
    (getRing (finish s (.ring f) tag st d fields) f).queue = dropFirst (fun x => x.executing && x.pkt.tag == tag) (getRing s f).queue
      ∧ (getRing (finish s (.ring f) tag st d fields) f).cqTail = ((getRing s f).cqTail + 1) % 2 ^ (getRing s f).cqLog2
      ∧ finish s (.ring f) tag st d fields = { s with
          rings := (finish s (.ring f) tag st d fields).rings, host := (finish s (.ring f) tag st d fields).host
          outbox := (finish s (.ring f) tag st d fields).outbox }
      ∧ ∀ i, i ≠ f → getRing (finish s (.ring f) tag st d fields) i = getRing s i := by
  have htag : w.pkt.tag = tag := by
    have hw := List.find?_some hfind
    simp only [Bool.and_eq_true, beq_iff_eq] at hw
    exact hw.2
  let s1 := updRing s f (fun r => { r with queue := dropFirst (fun q => q.executing && q.pkt.tag == tag) r.queue })
  have hring : getRing s1 f = { getRing s f with queue := dropFirst (fun q => q.executing && q.pkt.tag == tag) (getRing s f).queue } :=
    getRing_updRing_same _ _ _
  have hfinish : finish s (.ring f) tag st d fields = postSlot s1 f (replyBytes w.pkt w.pkt.version st d fields) := by
    have hen1 : (getRing s1 f).enable = true := by rw [hring]; exact hen
    have hst1 : (getRing s1 f).stopped = false := by rw [hring]; exact hst
    simp only [finish, ringKey, hfind, hb, finishPlain, finishBytes, processed, hd3, htag, Bool.not_false, if_true, Bool.false_eq_true,
      if_false, postBytes]
    rw [if_pos hen1, if_neg (by rw [hst1]; exact Bool.false_ne_true)]
  obtain ⟨hq, ht, hf, ho⟩ := postSlot_posts (s := s1) (f := f) (bs := replyBytes w.pkt w.pkt.version st d fields)
    (by rw [hring, replyBytes_length _ _ _ _ hr]; exact h1) (by rw [hring]; exact h2)
  rw [hfinish]
  refine ⟨hq.trans (by rw [hring]), ht.trans (by rw [hring]), hf, fun i hi => (ho i hi).trans (getRing_updRing_other _ _ _ _ hi)⟩

/-- Settles O53: what is judged of a command that begins (`judged`), what leaves one where it is, and where its reply goes. -/
theorem commandsAreAdmittedAndReplied : Obligations.CommandsAreAdmittedAndReplied := by
  refine ⟨fun s src tag op w eff h hloud => ⟨fun hp => ?_, fun hp ha => ?_, fun hp ha hn h200 hop hs => ?_, fun u st d f hr he => ?_,
    fun u hr he => ?_⟩, fun s src tag w eff h hp => ?_, fun s src tag op eff h => runCommand_nothing h,
    fun s src tag op w eff hfind h => runCommand_stays hfind h, fun s f tag st d w fields _ hfind hb hr hen hst hd3 h1 h2 =>
      ⟨_, rfl, finish_posts hfind hb hr hen hst hd3 h1 h2⟩⟩
  · rw [runCommand_begins h, judged_pfOnly hp]
    exact congrArg _ (answered_loud hloud)
  · rw [runCommand_begins h, judged_not_admitted hp ha]
    exact congrArg _ (answered_loud hloud)
  · rw [runCommand_begins h, judged_absent hp ha ⟨hn, by rwa [Begins.opcode h], by rwa [Begins.opcode h], hs⟩]
    exact congrArg _ (answered_loud hloud)
  · rw [runCommand_runs hr, he, answered_loud hloud]
  · exact runCommand_goes_on hr he
  · rw [runCommand_begins h, judged_pfOnly hp]
    exact congrArg _ (answered_pfOnly_reset hp)

end Sys2Proof.Machine
end

section
/-!
PROOFS. Streams: what an instruction that issues leaves, and the control instructions (rules R126 to R189).
-/
open Sys2Proof Sys2Proof.Says

namespace Sys2Proof.Machine

/-- Settles O54: the step is defined by the two cases of the queue. -/
theorem stepRunsTheFrontCommand : Obligations.StepRunsTheFrontCommand := by
  refine ⟨fun c cs s h => ?_, fun s h => ?_⟩
  · unfold step
    rw [h]
  · unfold step
    rw [h]

/-- Settles O55: the empty maps of the reset state read as the defaults of their records. -/
theorem resetIsAsTheRulesSay : Obligations.ResetIsAsTheRulesSay := by
  refine ⟨rfl, rfl, rfl, rfl, rfl, rfl, rfl, rfl, rfl, rfl, rfl, fun _ => ⟨rfl, rfl, rfl, rfl⟩, fun _ => ⟨rfl, rfl, rfl⟩,
    fun _ => rfl, fun _ => ⟨rfl, rfl⟩, fun _ => rfl, rfl, rfl, fun _ _ => rfl⟩

section
variable {s u : State} {t : Nat} {k : KStream} {x y : KState} {i : KInst} {w : Nat} {f : KInst → Nat → Option State}

/-- An instruction that issues has the effect of its arm, up to the tile's return to training from an evaluation that ended (rule R234). -/
theorem issueAs_issues (h : issues s t k i w) (hi : i ≠ .illegal) : issueAs s t k f = keepRestored s ((f i w).getD s) t := by
  obtain ⟨hlive, hphase, hhalt, hfetch, hdecode⟩ := h
  exact issueAs_ready s t k f i w hlive hphase hhalt hfetch hdecode hi

theorem setStream_onlyTile : onlyTile s (setStream s t k x) t := ⟨rfl, fun _ hx => getTile_updTile_other s _ _ _ hx⟩

theorem setStream_streamBecomes : streamBecomes s (setStream s t k x) t k x := ⟨setStream_onlyTile, getTile_updTile_same ..⟩

theorem advance_streamBecomes : streamBecomes s (advance s t k) t k (advanceState (getStream s t k)) := setStream_streamBecomes

theorem keepRestored_streamBecomes (h : streamBecomes s u t k x) : keepRestored s u t = u :=
  keepRestored_same _ _ _ ((congrArg Tile.evalMode h.2 :))

theorem keepRestored_streamAndToken {tok : Nat} {v : TokenState} (h : streamAndToken s u t k x tok v) : keepRestored s u t = u :=
  keepRestored_same _ _ _ ((congrArg Tile.evalMode h.2 :))

theorem issueAs_streamBecomes (h : issues s t k i w) (hi : i ≠ .illegal) (hf : f i w = some u) (hu : streamBecomes s u t k x) :
    issueAs s t k f = u := by
  rw [issueAs_issues h hi, hf]
  exact keepRestored_streamBecomes hu

theorem issueAs_streamAndToken {tok : Nat} {v : TokenState} (h : issues s t k i w) (hi : i ≠ .illegal) (hf : f i w = some u)
    (hu : streamAndToken s u t k x tok v) : issueAs s t k f = u := by
  rw [issueAs_issues h hi, hf]
  exact keepRestored_streamAndToken hu

theorem getStream_of_streamBecomes (h : streamBecomes s u t k x) : getStream u t k = x := by
  unfold getStream
  rw [h.2]
  exact stream_setStream_same ..

theorem stream_tokens (c : TileCore) (m : List TokenState) : ({ c with tokens := m } : TileCore).stream k = c.stream k := by
  cases k <;> rfl

theorem getStream_setToken (tok : Nat) (v : TokenState) : getStream (setToken s t tok v) t k = getStream s t k := by
  unfold getStream setToken
  rw [getTile_updTile_same]
  exact stream_tokens ..

/-- A token that changes as its stream moves on is one update of the tile. -/
theorem setStream_setToken (tok : Nat) (v : TokenState) : streamAndToken s (setStream (setToken s t tok v) t k x) t k x tok v := by
  unfold setStream setToken
  rw [updTile_updTile]
  exact ⟨⟨rfl, fun _ hx => getTile_updTile_other s _ _ _ hx⟩, getTile_updTile_same ..⟩

theorem advance_setToken (tok : Nat) (v : TokenState) :
    streamAndToken s (advance (setToken s t tok v) t k) t k (advanceState (getStream s t k)) tok v := by
  unfold advance
  rw [getStream_setToken]
  exact setStream_setToken tok v

theorem setStream_setStream : setStream (setStream s t k x) t k y = setStream s t k y := by
  unfold setStream
  rw [updTile_updTile]
  congr 1
  funext z
  cases k <;> rfl

theorem advance_setStream : advance (setStream s t k x) t k = setStream s t k (advanceState x) := by
  unfold advance
  rw [getStream_setStream_same, setStream_setStream]

@[simp] theorem advanceState_phase : (advanceState x).phase = .ready := rfl
@[simp] theorem advanceState_stall : (advanceState x).stall = 0 := rfl
@[simp] theorem advanceState_waitedBells : (advanceState x).waitedBells = x.waitedBells := rfl
theorem advanceState_pc_of (hp : y.pc = x.pc) (hl : y.loops = x.loops) : (advanceState y).pc = (advanceState x).pc := by
  unfold advanceState
  rw [hp, hl]

theorem execNop_advances (h : issues s t k .nop w) : exec (.nop t k) s = .next (advance s t k) :=
  congrArg Host.Outcome.next (issueAs_streamBecomes h nofun rfl advance_streamBecomes)

section
variable {sel n tok : Nat}

theorem execWait_advances (h : issues s t k (.wait sel n) w) (ht : holds s t k (waitToken sel) = true) (hd : waitDone s t k sel n = true) :
    exec (.wait t k) s = .next (advance s t k) := by
  refine congrArg Host.Outcome.next (issueAs_streamBecomes h nofun ?_ advance_streamBecomes)
  simp [ht, hd]

theorem execWait_waits (h : issues s t k (.wait sel n) w) (ht : holds s t k (waitToken sel) = true) (hd : waitDone s t k sel n = false) :
    exec (.wait t k) s = .next (setStream s t k { getStream s t k with phase := .waiting sel n, stall := 3 }) := by
  refine congrArg Host.Outcome.next (issueAs_streamBecomes h nofun ?_ setStream_streamBecomes)
  simp [ht, hd]

theorem execWaitSatisfied_advances (hl : streamLive s t k = true) (hp : (getStream s t k).phase = .waiting sel n)
    (hd : waitDone s t k sel n = true) : exec (.waitSatisfied t k) s = .next (advance s t k) := by
  show execWaitSatisfied t k s = _
  unfold execWaitSatisfied
  rw [hp]
  exact whenDo_true _ _ _ (by simp [hl, hd])

theorem execPass_passes {target : Nat} (h : issues s t k (.pass target tok) w) (ht : holds s t k tok = true) (hk : streamOfCode target ≠ k) :
    exec (.pass t k) s = .next (advance (setToken s t tok (.transit (streamOfCode target))) t k) := by
  refine congrArg Host.Outcome.next (issueAs_streamAndToken h nofun ?_ (advance_setToken ..))
  simp [ht, hk]

theorem execTake_waits (h : issues s t k (.take tok) w) (ht : holds s t k tok = false) :
    exec (.take t k) s = .next (setStream s t k { getStream s t k with phase := .taking tok, stall := 1 }) := by
  refine congrArg Host.Outcome.next (issueAs_streamBecomes h nofun ?_ setStream_streamBecomes)
  simp [ht]

theorem execTakeComplete_takes (hl : streamLive s t k = true) (hp : (getStream s t k).phase = .taking tok)
    (ht : (getTile s t).core.tokens.getD tok .none = .transit k) (hi : tokenIdle s t tok = true) :
    exec (.takeComplete t k) s = .next (advance (setToken s t tok (.held k)) t k) := by
  show execTakeComplete t k s = _
  unfold execTakeComplete
  rw [hp]
  exact whenDo_true _ _ _ (by simp only [hl, ht, hi, decide_true, Bool.and_self])

theorem execMark_drains {last : Bool} {d kn : Nat} (h : issues s t k (.mark last d kn) w) :
    exec (.mark t k) s = .next (setStream s t k { getStream s t k with phase := .draining, stall := 3 }) :=
  congrArg Host.Outcome.next (issueAs_streamBecomes h nofun rfl setStream_streamBecomes)

end

section
variable {slot offset target n : Nat} {sl : Option Nat} {useSlot : Bool}

theorem execBellwaitComplete_goes_on (hl : streamLive s t k = true) (hp : (getStream s t k).phase = .bellWaiting sl target)
    (hb : bellTarget s t sl target ≤ s.bell.count) :
    exec (.bellwaitComplete t k) s = .next (setStream s t k (advanceState { getStream s t k with
      waitedBells := (getStream s t k).waitedBells + (s.bell.count - (getStream s t k).waitFrom) })) := by
  show execBellwaitComplete t k s = _
  unfold execBellwaitComplete
  rw [hp]
  dsimp only
  rw [advance_setStream]
  exact whenDo_true _ _ _ (by simp [hl, hb])

/-- What a `bellwait` waits for: a slot of the tile's suite, or an offset from the bell at which its kernel opened. -/
def bellwaitSlot (useSlot : Bool) (slot : Nat) : Option Nat := if useSlot then some slot else none

theorem execBellwait_advances (h : issues s t k (.bellwait useSlot slot offset) w) (hl : (getStream s t k).leading = true)
    (hn : (getTile s t).suite = some n) (hs : (getSuite s n).slice.stopping = false)
    (hb : bellTarget s t (bellwaitSlot useSlot slot) ((getStream s t k).openBell + offset) ≤ s.bell.count) :
    exec (.bellwait t k) s = .next (advance s t k) := by
  refine congrArg Host.Outcome.next (issueAs_streamBecomes h nofun ?_ advance_streamBecomes)
  unfold bellwaitSlot at hb
  simp [hl, hn, hs, hb]

theorem execBellwait_waits (h : issues s t k (.bellwait useSlot slot offset) w) (hl : (getStream s t k).leading = true)
    (hn : (getTile s t).suite = some n) (hs : (getSuite s n).slice.stopping = false)
    (hb : ¬ bellTarget s t (bellwaitSlot useSlot slot) ((getStream s t k).openBell + offset) ≤ s.bell.count) :
    exec (.bellwait t k) s = .next (setStream s t k { getStream s t k with
      phase := .bellWaiting (bellwaitSlot useSlot slot) ((getStream s t k).openBell + offset), stall := 4,
      waitFrom := s.bell.count, stopped := false }) := by
  refine congrArg Host.Outcome.next (issueAs_streamBecomes h nofun ?_ setStream_streamBecomes)
  unfold bellwaitSlot at hb
  simp [hl, hn, hs, hb, bellwaitSlot]

theorem bellTarget_slot (hn : (getTile s t).suite = some n) :
    bellTarget s t (some slot) target = SMap.get (2 ^ 64 - 1) (getSuite s n).slots slot := by
  unfold bellTarget bellSlot
  rw [hn]

end

/-- Settles O1: each instruction has one update of its tile, which the evaluation's end does not touch. -/
theorem controlInstructionsMoveOnOrStall : Obligations.ControlInstructionsMoveOnOrStall := by
  refine ⟨fun s t k w => ⟨fun h => ⟨_, execNop_advances h, advance_streamBecomes⟩,
      fun sel n h ht hd => ⟨_, execWait_advances h ht hd, advance_streamBecomes⟩,
      fun sel n hl hp hd => ⟨_, execWaitSatisfied_advances hl hp hd, advance_streamBecomes⟩,
      fun x tok h ht hk => ⟨_, execPass_passes h ht hk, advance_setToken ..⟩,
      fun tok hl hp ht hi => ⟨_, execTakeComplete_takes hl hp ht hi, advance_setToken ..⟩,
      fun slot target hl hp hb => ⟨_, execBellwaitComplete_goes_on hl hp hb, setStream_onlyTile, ?_, ?_, ?_⟩⟩,
    fun s t k w => ⟨fun sel n h ht hd => ⟨_, execWait_waits h ht hd, setStream_streamBecomes⟩,
      fun tok h ht => ⟨_, execTake_waits h ht, setStream_streamBecomes⟩,
      fun last d kn h => ⟨_, execMark_drains h, setStream_streamBecomes⟩,
      fun offset n h hl hn hs hb => ⟨_, execBellwait_waits h hl hn hs (Nat.not_le.mpr hb), setStream_onlyTile, ?_, ?_, ?_⟩,
      fun slot offset n h hl hn hs => ?_⟩⟩
  · rw [getStream_setStream_same]
    exact advanceState_pc_of rfl rfl
  · rw [getStream_setStream_same, advanceState_phase]
  · rw [getStream_setStream_same, advanceState_waitedBells]
  · rw [getStream_setStream_same]
    rfl
  · rw [getStream_setStream_same]
  · rw [getStream_setStream_same]
  · rw [← bellTarget_slot (target := (getStream s t k).openBell + offset) hn]
    by_cases hb : bellTarget s t (some slot) ((getStream s t k).openBell + offset) ≤ s.bell.count
    · refine ⟨_, execBellwait_advances h hl hn hs hb, setStream_onlyTile, ?_⟩
      rw [getStream_of_streamBecomes advance_streamBecomes, advanceState_stall]
      simp [hb]
    · refine ⟨_, execBellwait_waits h hl hn hs hb, setStream_onlyTile, ?_⟩
      rw [getStream_setStream_same]
      simp [hb]

end
end Sys2Proof.Machine
end

section
/-!
PROOFS. Streams: loops, fetches, marks and gates (rules R165, R177 to R183).
-/
open Sys2Proof Sys2Proof.Says

namespace Sys2Proof.Machine

/-- A fold leaves what each of its steps leaves. -/
theorem foldl_preserves {α β γ : Type} (g : α → γ) {f : α → β → α} (h : ∀ a b, g (f a b) = g a) (l : List β) (a : α) :
    g (l.foldl f a) = g a := by
  induction l generalizing a with
  | nil => rfl
  | cons b bs ih => rw [List.foldl_cons, ih, h]

section
variable {s : State} {t n u w : Nat} {k : KStream} {x : KState} {fs : List LoopFrame} {f : LoopFrame} {trip body : Nat}

/-! How a stream moves on: the innermost of its loops is the last of the list (rule R183). -/

theorem advanceState_of_no_loops (h : x.loops = []) : (advanceState x).pc = x.pc + 1 ∧ (advanceState x).loops = [] := by
  simp [advanceState, h, loopNext]

theorem advanceState_inside (h : x.loops = fs ++ [f]) (hl : f.last ≠ x.pc + 1) :
    (advanceState x).pc = x.pc + 1 ∧ (advanceState x).loops = x.loops := by
  simp [advanceState, h, loopNext, hl]

theorem advanceState_repeats (h : x.loops = fs ++ [f]) (hl : f.last = x.pc + 1) (ht : f.idx + 1 < f.trip) :
    (advanceState x).pc = f.first ∧ (advanceState x).loops = fs ++ [{ f with idx := f.idx + 1 }] := by
  simp [advanceState, h, loopNext, hl, ht]

theorem advanceState_leaves_loop (h : x.loops = fs ++ [f]) (hl : f.last = x.pc + 1) (ht : f.trip ≤ f.idx + 1) :
    (advanceState x).loops = (advanceState { x with loops := fs }).loops
      ∧ (advanceState x).pc = (advanceState { x with loops := fs }).pc := by
  simp [advanceState, h, loopNext, hl, Nat.not_lt.mpr ht]

/-- The state of a stream that enters a loop of a body and a trip count. -/
def enterLoop (x : KState) (trip body : Nat) : KState :=
  { x with pc := x.pc + 1, loops := x.loops ++ [⟨x.pc + 1, x.pc + 1 + body, trip, 0⟩], stall := 0, leading := false }

theorem execLoop_enters (h : issues s t k (.loop trip body) w) (hlen : (getStream s t k).loops.length < 4)
    (hin : ∀ f, (getStream s t k).loops.getLast? = some f → (getStream s t k).pc + 1 + body ≤ f.last) :
    exec (.loop t k) s = .next (setStream s t k (enterLoop (getStream s t k) trip body)) := by
  refine congrArg Host.Outcome.next (issueAs_streamBecomes h nofun ?_ setStream_streamBecomes)
  cases hlast : (getStream s t k).loops.getLast? with
  | none => simp [hlast, Nat.not_le.mpr hlen, enterLoop]
  | some f => simp [hlast, Nat.not_le.mpr hlen, hin f hlast, enterLoop]

theorem execLoop_too_deep (h : issues s t k (.loop trip body) w) (hlen : 4 ≤ (getStream s t k).loops.length) :
    exec (.loop t k) s = .next (keepRestored s (faultStream s t k .illegal w) t) := by
  refine congrArg Host.Outcome.next ((issueAs_issues h nofun).trans ?_)
  simp [hlen]

/-! INSTRUCTION_FETCH (rule R165). -/

theorem residentFrom_of_no_loops (h : x.loops = []) : residentFrom x = x.pc := by
  unfold residentFrom
  rw [h]

/-- The buffer's new end and start when words are fetched: at most 8,192 words are held. -/
def fetchedHi (s : State) (t : Nat) (k : KStream) (words : Nat) : Nat :=
  min ((getStream s t k).bufHi + words) (tileProgram s t k).instrs.length

def fetchedLo (s : State) (t : Nat) (k : KStream) (words : Nat) : Nat :=
  max (getStream s t k).bufLo (fetchedHi s t k words - 8192)

/-- The stream after a fetch without a finding. -/
def fetched (s : State) (t : Nat) (k : KStream) (words : Nat) : KState :=
  { getStream s t k with
    bufLo := fetchedLo s t k words, bufHi := fetchedHi s t k words,
    blank := (getStream s t k).blank.filter (fun r => decide (fetchedLo s t k words < r.2)),
    stall := if (getStream s t k).stall = 6 then 0 else (getStream s t k).stall }

theorem execInstructionFetch_fetches {words : Nat} (hn : (getTile s t).suite = some n) (ht : t < 80) (hw : 0 < words)
    (hlo : fetchedLo s t k words ≤ residentFrom (getStream s t k)) :
    exec (.instructionFetch t k words [] []) s = .next (countIbuf (setStream s t k (fetched s t k words)) t []) := by
  have hgood : (isTile t && (getTile s t).suite.isSome && decide (0 < words)
      && decide (fetchedLo s t k words ≤ residentFrom (getStream s t k))) = true := by
    simp [isTile, ht, hn, hw, hlo]
  exact whenDo_true _ _ _ hgood

theorem countIbuf_tile : countIbuf s t [] = updTile s t (fun x => tileEvents x 0 (fun c k => { c with ibufCorrected := satAdd 16 c.ibufCorrected k })) := rfl

theorem countIbuf_setStream_onlyTile : onlyTile s (countIbuf (setStream s t k x) t []) t := by
  rw [countIbuf_tile]
  unfold setStream
  rw [updTile_updTile]
  exact ⟨rfl, fun _ hx => getTile_updTile_other s _ _ _ hx⟩

theorem getStream_countIbuf_setStream : getStream (countIbuf (setStream s t k x) t []) t k = x := by
  have hcore : (getTile (countIbuf (setStream s t k x) t []) t).core = (getTile (setStream s t k x) t).core := by
    rw [countIbuf_tile, getTile_updTile_same]
    rfl
  unfold getStream
  rw [hcore]
  exact getStream_setStream_same ..

/-! MARK_DRAIN_COMPLETE of a mark that opens a kernel (rules R177, R178). -/

theorem closeKernel_bell : (closeKernel s t k).bell = s.bell := by
  unfold closeKernel
  dsimp only
  split
  · split <;> rfl
  · rfl

theorem getStream_closeKernel : getStream (closeKernel s t k) t k = { getStream s t k with flags := {}, kernel := none, occurrence := 0 } := by
  unfold closeKernel
  exact getStream_setStream_same ..

theorem execMarkDrainComplete_drained {last : Bool} {d kn : Nat} (hp : (getStream s t k).phase = .draining) (hw : fetchWord s t k = some w)
    (hd : decodeKernel w = .mark last d kn) (hl : streamLive s t k = true) (hdr : streamDrained s t k = true)
    (hc : (getStream s t k).cutWait = false) : exec (.markDrainComplete t k) s = .next (finishMark s t k last d kn w) := by
  show execMarkDrainComplete t k s = _
  unfold execMarkDrainComplete
  rw [hp, hw]
  dsimp only
  rw [hd]
  exact whenDo_true _ _ _ (by simp [hl, hdr, hc])

theorem finishMark_opens {d kn : Nat} (hn : (getTile s t).suite = some n) (hh : (getStream s t k).haltPending = false)
    (hs : (getSuite s n).slice.stopping = false) (hc : isCut s t k kn = false) :
    finishMark s t k false d kn w = openKernel (closeKernel s t k) t k kn d := by
  simp [finishMark, hh, hn, hs, hc]

/-! STEP_GATE_OPEN (rules R179, R195): the folding posts and the snapshot leave the tiles. -/

theorem postSlots_tiles (e : StreamEntry) (tag c : Nat) : (postSlots s e tag c).tiles = s.tiles := by
  unfold postSlots
  split
  · rfl
  · exact (congrArg State.tiles (sendControl_only ..) :)

theorem postFold_tiles (eval : Bool) : (postFold s n eval).tiles = s.tiles := by
  unfold postFold
  dsimp only
  split
  · rfl
  · refine foldl_preserves State.tiles (fun st i => ?_) _ s
    rw [apply_ite State.tiles]
    rw [apply_ite State.tiles, postSlots_tiles, foldl_preserves State.tiles (fun q j => postSlots_tiles ..)]
    simp

theorem takeSnapshot_tiles : (takeSnapshot s n u).tiles = s.tiles := by
  unfold takeSnapshot
  dsimp only
  split <;> rfl

theorem passGate_tiles : (passGate s t k n u).tiles
    = (setStream s t k { getStream s t k with phase := .ready, stall := 0, stopped := false }).tiles := by
  unfold passGate
  dsimp only
  generalize setStream s t k { getStream s t k with phase := .ready, stall := 0, stopped := false } = v
  have hfold : ∀ c : Prop, [Decidable c] → ∀ su, (if c then postFold (setSuite v n su) n false else v).tiles = v.tiles := by
    intro c _ su
    split
    · exact postFold_tiles _
    · rfl
  have hsnap : ∀ c : Prop, [Decidable c] → ∀ v m, (if c then takeSnapshot v n m else v).tiles = v.tiles := by
    intro c _ v m
    split
    · exact takeSnapshot_tiles
    · rfl
  exact (hsnap ..).trans (hfold ..)

theorem getStream_passGate : getStream (passGate s t k n u) t k = { getStream s t k with phase := .ready, stall := 0, stopped := false } := by
  unfold getStream getTile
  rw [passGate_tiles]
  exact getStream_setStream_same ..

theorem execStepGateOpen_passes (hn : (getTile s t).suite = some n) (hr : tileRuns s t = true) (hh : (getStream s t k).halted = false)
    (hf : (getStream s t k).fault = 0) (hp : (getStream s t k).phase = .atGate) (hs : (getSuite s n).state = .running)
    (hg : gateOpen s n k (getStream s t k).step = true) (hj : (getSuite s n).job.snapshot = false) :
    exec (.stepGateOpen t k) s = .next (passGate s t k n (getStream s t k).step) := by
  show execStepGateOpen t k s = _
  unfold execStepGateOpen
  dsimp only
  rw [hn]
  exact whenDo_true _ _ _ (by simp [hr, hh, hf, hp, executing, hs, hg, hj])

end

/-- Settles O2. -/
theorem loopsFetchesAndGatesGoOn : Obligations.LoopsFetchesAndGatesGoOn := by
  refine ⟨fun s t k w => ⟨fun trip body h hl => ?_, fun trip body f h hl hlen hin => ?_, fun _ _ h hlen => execLoop_too_deep h hlen,
      fun _ h => advanceState_of_no_loops h, fun _ _ _ h hl => advanceState_inside h hl,
      fun _ _ _ h hl ht => advanceState_repeats h hl ht, fun _ _ _ h hl ht => advanceState_leaves_loop h hl ht⟩,
    fun s t k n hn => ⟨fun words ht hw hl hlo hhi hwords hbuf => ?_, fun w d kn hp hw hd hl hdr hcw hh hs hc => ?_,
      fun hr hh hf hp hs hg hj => ?_⟩⟩
  · refine ⟨_, execLoop_enters h (by simp [hl]) (by simp [hl]), setStream_onlyTile, ?_, ?_⟩
    · rw [getStream_setStream_same, enterLoop]
    · rw [getStream_setStream_same, enterLoop, hl, List.nil_append]
  · refine ⟨_, execLoop_enters h hlen (by simp [hl, hin]), setStream_onlyTile, ?_, ?_⟩
    · rw [getStream_setStream_same, enterLoop]
    · rw [getStream_setStream_same, enterLoop]
  · have hres : fetchedLo s t k words ≤ (getStream s t k).pc := by
      unfold fetchedLo fetchedHi
      omega
    refine ⟨_, execInstructionFetch_fetches hn ht hw (by rwa [residentFrom_of_no_loops hl]), countIbuf_setStream_onlyTile, ?_⟩
    rw [getStream_countIbuf_setStream]
    refine ⟨rfl, hres, fun _ => ?_, fun h6 => by simp [fetched, h6]⟩
    show fetchedHi s t k words ≤ fetchedLo s t k words + 8192
    unfold fetchedLo
    omega
  · refine ⟨_, execMarkDrainComplete_drained hp hw hd hl hdr hcw, ?_⟩
    rw [finishMark_opens hn hh hs hc]
    unfold openKernel
    rw [getStream_setStream_same, getStream_closeKernel, closeKernel_bell]
    exact ⟨rfl, rfl, rfl, rfl, rfl, rfl, rfl, SMap.get_set_same ..⟩
  · refine ⟨_, execStepGateOpen_passes hn hr hh hf hp hs hg hj, ?_⟩
    rw [getStream_passGate]
    exact ⟨rfl, rfl, rfl⟩

end Sys2Proof.Machine
end

section
/-!
PROOFS. Streams: transfers behind their landing (rules R127, R168, R171).
-/
open Sys2Proof Sys2Proof.Says

namespace Sys2Proof.Machine
section
variable {s u : State} {t l w : Nat} {k : KStream} {q : QOp} {c : Ctx} {tr : Transfer} {y : Landing}

/-- The token of the bank that a transfer of the BANK layout names, as `issueQueue` asks for it. -/
abbrev holdsBankOf (s : State) (t : Nat) (k : KStream) (q : QOp) : Prop :=
  ∀ d, q.layout = 2 → needDesc (tileProgram s t k).descs q.tsDesc 2 = .ok d →
    holds s t k (tokBK ((descEff d (getStream s t k).loops).toNat / 16384 % 4)) = true

/-- The landing that a `qin` or a `qout` names: 0 and 1 in, 2 and 3 out. -/
abbrev landingOf (q : QOp) : Nat := q.landing + (if q.out then 2 else 0)

/-- The state after a transfer is queued behind those of its landing. -/
def queued (s : State) (t : Nat) (k : KStream) (l : Nat) (tr : Transfer) : State :=
  advance (updTile (setLanding s t l { getLanding s t l with queue := (getLanding s t l).queue ++ [tr] }) t
    (fun x => { x with nextTransfer := x.nextTransfer + 1 })) t k

theorem issueQueue_checked (hc : ctxOf s t k = some c) (hb : holdsBankOf s t k q) (hl : holds s t k (landingToken (landingOf q)) = true)
    (hq : queueCheck s c t (tileProgram s t k) (getStream s t k).loops k q = .ok (some tr)) :
    issueQueue s t k q w = if 16 ≤ (getLanding s t (landingOf q)).queue.length then stallAt s t k 2 else queued s t k (landingOf q) tr := by
  unfold issueQueue
  dsimp only
  rw [hc]
  dsimp only
  rw [hl, hq]
  have hbank : ∀ o : Option Nat, (∀ b, o = some b → holds s t k b = true) → (o.isSome && !(holds s t k (o.getD 0))) = false := by
    intro o ho
    cases o with
    | none => rfl
    | some b => simp [ho b rfl]
  rw [hbank]
  · rfl
  · intro b hbk
    split at hbk
    · next hlay hd =>
      cases hbk
      exact hb _ hlay hd
    · cases hbk

/-- A landing's queue, the transfer counter and the stream are all that a queued transfer changes, in its tile. -/
theorem queued_eq (tr : Transfer) : queued s t k l tr = updTile s t (fun x => { x with
    landings := SMap.set x.landings l { getLanding s t l with queue := (getLanding s t l).queue ++ [tr] }, nextTransfer := x.nextTransfer + 1,
    core := x.core.setStream k (advanceState (getStream s t k)) }) := by
  have hx : getStream (updTile (setLanding s t l { getLanding s t l with queue := (getLanding s t l).queue ++ [tr] }) t
    (fun x => { x with nextTransfer := x.nextTransfer + 1 })) t k = getStream s t k := by
    unfold getStream setLanding
    rw [updTile_updTile, getTile_updTile_same]
  unfold queued advance
  rw [hx]
  unfold setStream setLanding
  rw [updTile_updTile, updTile_updTile]

theorem queued_onlyTile : onlyTile s (queued s t k l tr) t := by
  rw [queued_eq]
  exact ⟨rfl, fun _ hx => getTile_updTile_other s _ _ _ hx⟩

theorem getLanding_queued_same : (getLanding (queued s t k l tr) t l).queue = (getLanding s t l).queue ++ [tr] := by
  rw [queued_eq]
  unfold getLanding
  rw [getTile_updTile_same]
  dsimp only
  rw [SMap.get_set_same]

theorem getLanding_queued_other {m : Nat} (hm : m ≠ l) : getLanding (queued s t k l tr) t m = getLanding s t m := by
  rw [queued_eq]
  unfold getLanding
  rw [getTile_updTile_same]
  exact SMap.get_set_other _ _ _ _ _ hm

theorem getStream_queued : getStream (queued s t k l tr) t k = advanceState (getStream s t k) := by
  rw [queued_eq]
  unfold getStream
  rw [getTile_updTile_same]
  exact stream_setStream_same ..

theorem queued_evalMode : (getTile (queued s t k l tr) t).evalMode = (getTile s t).evalMode := by
  rw [queued_eq, getTile_updTile_same]

/-- What a `qin` or `qout` that passes its checks comes to: behind the landing's transfers, or STALL 2 with 16 of them. -/
theorem issueQueue_queues {f : KInst → Nat → Option State} (h : issues s t k (.q q) w) (hc : ctxOf s t k = some c)
    (hb : holdsBankOf s t k q) (hl : holds s t k (landingToken l) = true)
    (hq : queueCheck s c t (tileProgram s t k) (getStream s t k).loops k q = .ok (some tr))
    (hlq : landingOf q = l) (hf : f (.q q) w = some (issueQueue s t k q w)) :
    ((getLanding s t l).queue.length < 16 →
        ∃ u, ok (issueAs s t k f) = .next u ∧ onlyTile s u t
          ∧ (getLanding u t l).queue = (getLanding s t l).queue ++ [tr]
          ∧ (∀ m, m ≠ l → getLanding u t m = getLanding s t m)
          ∧ getStream u t k = advanceState (getStream s t k))
      ∧ (16 ≤ (getLanding s t l).queue.length →
        ∃ u, ok (issueAs s t k f) = .next u ∧ streamBecomes s u t k { getStream s t k with stall := 2 }) := by
  subst hlq
  rw [issueAs_issues h nofun, hf, issueQueue_checked hc hb hl hq]
  refine ⟨fun hlen => ⟨_, rfl, ?_⟩, fun hlen => ⟨_, rfl, ?_⟩⟩
  · rw [if_neg (Nat.not_le.mpr hlen), Option.getD_some, keepRestored_same _ _ _ queued_evalMode]
    exact ⟨queued_onlyTile, getLanding_queued_same, fun _ hm => getLanding_queued_other hm, getStream_queued⟩
  · rw [if_pos hlen, Option.getD_some]
    have hu : streamBecomes s (stallAt s t k 2) t k { getStream s t k with stall := 2 } := setStream_streamBecomes
    rw [keepRestored_streamBecomes hu]
    exact hu

end

/-- Settles O3. -/
theorem transfersAreQueued : Obligations.TransfersAreQueued := by
  intro s t k w q c tr h hc hb hq
  refine ⟨fun hout hl => ?_, fun hout hl => ?_⟩
  · exact issueQueue_queues h hc hb hl hq (by simp [hout]) (by simp [hout])
  · exact issueQueue_queues h hc hb hl hq (by simp [hout]) (by simp [hout])

end Sys2Proof.Machine
end

section
/-!
PROOFS. Ports: what sending changes of them (rules R287 to R296).
-/
open Sys2Proof Sys2Proof.Says

namespace Sys2Proof.Machine
section
variable {s : State} {p : Nat}

/-! The pump sends what waits: it changes no port's receiver. -/

/-- A port but for what its transmitter changes as it sends. -/
def rxSide (x : Port) : Port := { x with waitTx := [], txSeq := 0, replay := [], credits := [], dataRun := 0, mgmtCount := 0 }

theorem getPort_updPort (g : Port → Port) (q : Nat) : getPort (updPort s p g) q = if q = p then g (getPort s q) else getPort s q := by
  by_cases h : q = p
  · subst h
    rw [getPort_updPort_same, if_pos rfl]
  · rw [getPort_updPort_other _ _ _ _ h, if_neg h]

theorem rxSide_queueTx (f : TxFlit) (q : Nat) : rxSide (getPort (queueTx s p f) q) = rxSide (getPort s q) := by
  unfold queueTx
  rw [getPort_updPort]
  split <;> rfl

theorem rxSide_emitFlit (f : TxFlit) (rest : List TxFlit) (q : Nat) : rxSide (getPort (emitFlit s p f rest) q) = rxSide (getPort s q) := by
  have hsend : ∀ v l k b, getPort (send v l k b) q = getPort v q := fun _ _ _ _ => rfl
  unfold emitFlit
  rw [hsend]
  by_cases h : q = p
  · subst h
    rw [getPort_setPort_same]
    rfl
  · exact congrArg rxSide (SMap.get_set_other _ _ _ _ _ h)

theorem rxSide_pumpTx (q : Nat) : ∀ (k : Nat) (ps : List Nat) (s : State), rxSide (getPort (pumpTx k ps s) q) = rxSide (getPort s q)
  | 0, _, _ => rfl
  | _ + 1, [], _ => rfl
  | k + 1, p :: ps, s => by
    unfold pumpTx
    split
    · exact rxSide_pumpTx q k ps s
    · split
      · exact (rxSide_pumpTx q k _ _).trans (rxSide_emitFlit ..)
      · exact (rxSide_pumpTx q k _ _).trans ((rxSide_queueTx ..).trans (rxSide_emitFlit ..))

theorem rxSide_drainTx (q : Nat) : rxSide (getPort (drainTx s p) q) = rxSide (getPort s q) := rxSide_pumpTx ..

theorem rxSide_sendFlit (type cls : Nat) (b : Bytes) (q : Nat) : rxSide (getPort (sendFlit s p type cls b) q) = rxSide (getPort s q) :=
  (rxSide_drainTx q).trans (rxSide_queueTx ..)

theorem rxSide_sendMgmt (b : Bytes) (q : Nat) : rxSide (getPort (sendMgmt s p b) q) = rxSide (getPort s q) := by
  unfold sendMgmt
  dsimp only
  rw [getPort_updPort]
  split
  · exact foldl_preserves (fun v => rxSide (getPort v q)) (fun _ _ => rxSide_sendFlit ..) _ s
  · exact foldl_preserves (fun v => rxSide (getPort v q)) (fun _ _ => rxSide_sendFlit ..) _ s

theorem rxSide_sendCommand (dest op suite flags : Nat) (b : Bytes) (q : Nat) :
    rxSide (getPort (sendCommand s p dest op suite flags b) q) = rxSide (getPort s q) :=
  rxSide_sendMgmt ..

end
end Sys2Proof.Machine
end

section
/-!
PROOFS. Streams: faults and overruns (rules R124, R127, R181, R186, R431).
-/
open Sys2Proof Sys2Proof.Says

namespace Sys2Proof.Machine

/-- What holds of a value still holds where every value is replaced by one of which it holds. -/
theorem SMap.get_map_of {α : Type} {P : α → Prop} {f : Nat × α → Nat × α} (hk : ∀ q, (f q).1 = q.1) (hf : ∀ q, P q.2 → P (f q).2)
    {d : α} {k : Nat} (m : SMap α) (h : P (SMap.get d m k)) : P (SMap.get d (m.map f) k) := by
  induction m with
  | nil => exact h
  | cons q m ih =>
    obtain ⟨j, v⟩ := q
    rw [List.map_cons]
    unfold SMap.get at h ⊢
    rw [show (f (j, v)) = ((f (j, v)).1, (f (j, v)).2) from rfl, hk]
    by_cases hj : j = k
    · rw [if_pos hj] at h ⊢
      exact hf (j, v) h
    · rw [if_neg hj] at h ⊢
      exact ih h

/-- A tile but for what the end of an evaluation window puts back. -/
def tileSide (x : Tile) : Tile :=
  { x with core := {}, landings := [], passes := [], verdicts := [], vregs := [], masks := [], units := [], vtile := 0, evalMode := false }

/-- The block but for the records, rings and traffic that confirming a fault writes, and the tiles, entries, suites and ports that it may touch. -/
def faultFrame (s : State) : State :=
  { s with tiles := [], streams := [], suites := [], ports := [], faults := {}, outbox := [], rings := [], free := 0, mgr := {}
           bell := { s.bell with nextEvent := 0 } }

/-- What confirming a fault leaves as it is: of the tiles, the ports and the suites, what it does not touch of them. -/
def suiteView (s : State) : State × (Nat → SuiteState) × (Nat → Port) × (Nat → Tile) :=
  (faultFrame s, fun m => (getSuite s m).state, fun q => rxSide (getPort s q), fun t => tileSide (getTile s t))

/-- The tiles and the stream entries with them, which a poisoned step leaves as they are. -/
def stillView (s : State) : SMap Tile × SMap StreamEntry × State × (Nat → SuiteState) × (Nat → Port) × (Nat → Tile) :=
  (s.tiles, s.streams, suiteView s)

section
variable {s u : State} {t n step idx w : Nat} {k : KStream}

theorem suiteView_of_stillView (h : stillView u = stillView s) : suiteView u = suiteView s := congrArg (fun v => v.2.2) h

theorem suiteView_frame (h : suiteView u = suiteView s) : faultFrame u = faultFrame s := congrArg Prod.fst h

theorem suiteView_hbm (h : suiteView u = suiteView s) : u.hbm = s.hbm := (congrArg State.hbm (suiteView_frame h) :)

theorem suiteView_state (h : suiteView u = suiteView s) : (getSuite u n).state = (getSuite s n).state :=
  congrFun (congrArg (fun v => v.2.1) h) n

theorem suiteView_port (h : suiteView u = suiteView s) (q : Nat) : rxSide (getPort u q) = rxSide (getPort s q) :=
  congrFun (congrArg (fun v => v.2.2.1) h) q

theorem suiteView_tile (h : suiteView u = suiteView s) (i : Nat) : tileSide (getTile u i) = tileSide (getTile s i) :=
  congrFun (congrArg (fun v => v.2.2.2) h) i

theorem stillView_tiles (h : stillView u = stillView s) : u.tiles = s.tiles := congrArg Prod.fst h

theorem stillView_streams (h : stillView u = stillView s) : u.streams = s.streams := congrArg (fun v => v.2.1) h

theorem getSuite_updSuite_state {g : Suite → Suite} (hg : ∀ x, (g x).state = x.state) (m : Nat) :
    (getSuite (updSuite s n g) m).state = (getSuite s m).state := by
  by_cases h : m = n
  · subst h
    rw [getSuite_updSuite_same, hg]
  · rw [getSuite_updSuite_other _ _ _ _ h]

/-- A change of a suite that leaves its state leaves the view. -/
theorem stillView_updSuite {g : Suite → Suite} (hg : ∀ x, (g x).state = x.state) : stillView (updSuite s n g) = stillView s :=
  congrArg (fun f => (s.tiles, s.streams, faultFrame s, f, fun q => rxSide (getPort s q), fun t => tileSide (getTile s t)))
    (funext fun m => getSuite_updSuite_state hg m)

theorem stillView_sendCommand (port dest op suite flags : Nat) (b : Bytes) :
    stillView (sendCommand s port dest op suite flags b) = stillView s := by
  have hports : (fun q => rxSide (getPort (sendCommand s port dest op suite flags b) q)) = fun q => rxSide (getPort s q) :=
    funext fun q => rxSide_sendCommand ..
  unfold stillView suiteView
  rw [hports, sendCommand_only]
  rfl

theorem stillView_sendToModule (dest op suite flags : Nat) (b : Bytes) : stillView (sendToModule s dest op suite flags b) = stillView s :=
  stillView_sendCommand ..

theorem stillView_sendToManager (op suite : Nat) (urgent : Bool) (b : Bytes) : stillView (sendToManager s op suite urgent b) = stillView s :=
  stillView_sendCommand ..

theorem stillView_ite {c : Prop} [Decidable c] {a b : State} (ha : stillView a = stillView s) (hb : stillView b = stillView s) :
    stillView (if c then a else b) = stillView s := by
  split
  · exact ha
  · exact hb

theorem stillView_faults (l : FaultLog) : stillView { s with faults := l } = stillView s := rfl

theorem stillView_updateFault (g : FaultRec → FaultRec) : stillView (updateFault s idx g) = stillView s := rfl

theorem stillView_signRecord (stopped : Bool) : stillView (signRecord s idx stopped) = stillView s := by
  unfold signRecord
  extract_lets r a
  split
  · exact stillView_faults _
  · rfl

theorem stillView_noticeAtTop (lineage : Bytes) (rank : Nat) : stillView (noticeAtTop s lineage rank step) = stillView s := by
  unfold noticeAtTop
  split <;> rfl

theorem stillView_nameHalt (h : Nat) : stillView (nameHalt s n h step) = stillView s := by
  unfold nameHalt
  dsimp only
  generalize hv : updSuite s n _ = v
  have hnamed : stillView v = stillView s := hv ▸ stillView_updSuite fun _ => rfl
  split <;> exact hnamed

theorem stillView_nameHalts (l : List Nat) (h : Nat) : stillView (l.foldl (fun st m => nameHalt st m h step) (nameHalt s n h step)) = stillView s :=
  (foldl_preserves stillView (fun _ _ => stillView_nameHalt _) _ _).trans (stillView_nameHalt _)

theorem stillView_chooseHalt : stillView (chooseHalt s n step) = stillView s := by
  unfold chooseHalt
  refine stillView_ite (stillView_nameHalt _) ?_
  dsimp only
  split
  · exact stillView_nameHalts ..
  · exact (foldl_preserves stillView (fun _ _ => stillView_sendToModule ..) _ _).trans (stillView_nameHalts ..)

/-- A poisoned step is noted and told: no tile, no suite's state and no memory changes (rule R334). -/
theorem stillView_poisonStep : stillView (poisonStep s n step idx) = stillView s := by
  unfold poisonStep
  refine stillView_ite rfl ?_
  generalize hv : updSuite s n _ = v
  have hnoted : stillView v = stillView s := hv ▸ stillView_updSuite fun _ => rfl
  have hsigned : ∀ l g, stillView (signRecord (updateFault { v with faults := l } idx g) idx false) = stillView s := fun l g =>
    ((stillView_signRecord _).trans ((stillView_updateFault _).trans (stillView_faults _))).trans hnoted
  refine stillView_ite ?_ ?_
  · exact stillView_chooseHalt.trans ((stillView_noticeAtTop ..).trans (hsigned _ _))
  · exact (stillView_sendToManager ..).trans (hsigned _ _)

theorem suiteView_updSuite {g : Suite → Suite} (hg : ∀ x, (g x).state = x.state) : suiteView (updSuite s n g) = suiteView s :=
  suiteView_of_stillView (stillView_updSuite hg)

/-- A change of a tile that leaves its side leaves the view. -/
theorem suiteView_updTile {g : Tile → Tile} (hg : ∀ x, tileSide (g x) = tileSide x) : suiteView (updTile s t g) = suiteView s := by
  have htiles : (fun i => tileSide (getTile (updTile s t g) i)) = fun i => tileSide (getTile s i) := by
    funext i
    by_cases h : i = t
    · subst h
      rw [getTile_updTile_same, hg]
    · rw [getTile_updTile_other _ _ _ _ h]
  unfold suiteView
  rw [htiles]
  rfl

theorem suiteView_restoreWindow : suiteView (restoreWindow s n) = suiteView s := by
  unfold restoreWindow
  split
  · rfl
  · split
    · refine foldl_preserves suiteView (fun st p => ?_) _ _
      refine Eq.trans (suiteView_updTile ?_) ?_
      · exact fun _ => rfl
      · exact suiteView_updSuite (s := st) (g := fun su => { su with saves := SMap.erase su.saves p.2 }) fun _ => rfl
    · rfl

theorem suiteView_absorbWindow (v : EvalWindow) : suiteView (absorbWindow s n v) = suiteView s := by
  have htile : ∀ m : SMap Tile, (fun i => tileSide (SMap.get {} (m.map (fun p => if p.2.suite = some n then (p.1, quiet p.2) else p)) i))
      = fun i => tileSide (SMap.get {} m i) := by
    intro m
    funext i
    refine SMap.get_map_of (P := fun x => tileSide x = tileSide (SMap.get {} m i)) (fun p => ?_) (fun p hp => ?_) m rfl
    · split <;> rfl
    · split
      · exact hp
      · exact hp
  have hsuites : suiteView (absorbWindow s n v)
      = suiteView { s with tiles := s.tiles.map (fun p => if p.2.suite = some n then (p.1, quiet p.2) else p) } := by
    unfold absorbWindow
    refine Eq.trans (suiteView_updSuite ?_) ?_
    · exact fun _ => rfl
    · rfl
  rw [hsuites]
  exact congrArg (fun f => (faultFrame s, (fun m => (getSuite s m).state), (fun q => rxSide (getPort s q)), f)) (htile s.tiles)

theorem suiteView_windowEvent (v : EvalWindow) (status : Nat) : suiteView (windowEvent s n v status) = suiteView s := rfl

theorem suiteView_endWindow (status : Nat) : suiteView (endWindow s n status) = suiteView s := by
  unfold endWindow
  split
  · rfl
  · refine Eq.trans (suiteView_windowEvent ..) (Eq.trans (suiteView_updSuite ?_) ?_)
    · exact fun _ => rfl
    · split
      · exact (suiteView_absorbWindow _).trans suiteView_restoreWindow
      · exact suiteView_restoreWindow

theorem suiteView_confirmFault (eval : Bool) : suiteView (confirmFault s n step idx eval) = suiteView s := by
  cases eval
  · exact suiteView_of_stillView stillView_poisonStep
  · exact suiteView_endWindow _

theorem stillView_recordFault (r : FaultRec) : stillView (recordFault s r) = stillView s := by
  rw [recordFault_only]
  rfl

/-! What a stream's fault leaves (rules R124, R431). -/

/-- The tile's streams once one of them has faulted: it halts with its code, and the others halt or have a halt pending. -/
def faultedCore (s : State) (t : Nat) (k : KStream) (f : KFault) : TileCore :=
  (haltCore (getTile s t).core).setStream k { (getTile s t).core.stream k with fault := f.code, halted := true }

theorem stream_haltCore (c : TileCore) (j : KStream) : (haltCore c).stream j = haltStream (c.stream j) := by
  cases j <;> rfl

theorem faultStream_free {f : KFault} (hn : (getTile s t).suite = none) :
    faultStream s t k f w = setTile s t { getTile s t with core := faultedCore s t k f } := by
  unfold faultStream
  dsimp only
  rw [hn]
  rfl

theorem getStream_faultStream_free {f : KFault} (hn : (getTile s t).suite = none) (j : KStream) :
    getStream (faultStream s t k f w) t j = (faultedCore s t k f).stream j := by
  rw [faultStream_free hn]
  unfold getStream
  rw [getTile_setTile_same]

/-- The state after a KERNEL_OVERRUN fault: the tile's streams halt, and a record confirms it. -/
def overrun (s : State) (t n : Nat) (k : KStream) : State :=
  confirmFault (recordFault (setTile s t { getTile s t with core := faultedCore s t k .kernelOverrun })
    (forSuite s n (getStream s t k).step
      { unitClass := 0, unitIndex := t, cause := KFault.kernelOverrun.code, op := opOf k (getStream s t k) 0, domain := 0, attic := KFault.kernelOverrun.tileEvent }))
    n (getStream s t k).step s.faults.next (getTile s t).evalMode

theorem faultStream_overrun (hn : (getTile s t).suite = some n) : faultStream s t k .kernelOverrun 0 = overrun s t n k := by
  unfold faultStream
  dsimp only
  split
  · next h => cases hn.symm.trans h
  · next m h =>
    cases hn.symm.trans h
    rw [if_neg (fun h => absurd h.1 (by decide)), if_neg (by decide)]
    rfl

theorem suiteView_setTile_core (c : TileCore) : suiteView (setTile s t { getTile s t with core := c }) = suiteView s :=
  suiteView_updTile (g := fun x => { x with core := c }) fun _ => rfl

theorem suiteView_overrun : suiteView (overrun s t n k) = suiteView s :=
  (suiteView_confirmFault _).trans ((suiteView_of_stillView (stillView_recordFault _)).trans (suiteView_setTile_core _))

theorem getTile_overrun (he : (getTile s t).evalMode = false) :
    getTile (overrun s t n k) t = { getTile s t with core := faultedCore s t k .kernelOverrun } := by
  have htiles : (overrun s t n k).tiles = (setTile s t { getTile s t with core := faultedCore s t k .kernelOverrun }).tiles := by
    unfold overrun
    rw [he]
    exact (stillView_tiles stillView_poisonStep).trans (stillView_tiles (stillView_recordFault _))
  unfold getTile
  rw [htiles]
  exact getTile_setTile_same ..

/-- The state after an overrun whose suite was running: the suite drains, with no step to stop after. -/
def overrunDrains (s : State) (t n : Nat) (k : KStream) : State :=
  setSuiteState (updSuite (overrun s t n k) n (fun su => { su with slice := { su.slice with stopAfter := none } })) n .draining

theorem execKernelOverrun_late (hn : (getTile s t).suite = some n) (hr : tileRuns s t = true) (hk : (getStream s t k).kernel.isSome = true)
    (hb : (getStream s t k).duration + (getStream s t k).grace < kernelBells s (getStream s t k)) (hs : (getSuite s n).state = .running) :
    exec (.kernelOverrun t k) s = .next (overrunDrains s t n k) := by
  have hrun : (getSuite (updSuite (overrun s t n k) n (fun su => { su with slice := { su.slice with stopAfter := none } })) n).state = .running := by
    rw [getSuite_updSuite_same]
    exact (suiteView_state suiteView_overrun).trans hs
  show execKernelOverrun t k s = _
  unfold execKernelOverrun
  dsimp only
  rw [hn]
  dsimp only
  rw [faultStream_overrun hn, if_pos hrun]
  exact whenDo_true _ _ _ (by simp [hr, hk, hb])

theorem execKernelOverrun_in_time (hn : (getTile s t).suite = some n)
    (hb : kernelBells s (getStream s t k) ≤ (getStream s t k).duration + (getStream s t k).grace) :
    exec (.kernelOverrun t k) s = .next s := by
  show execKernelOverrun t k s = _
  unfold execKernelOverrun
  dsimp only
  rw [hn]
  exact whenDo_false _ _ _ (by simp [hb])

theorem overrunDrains_state : (getSuite (overrunDrains s t n k) n).state = .draining := by
  unfold overrunDrains
  rw [(setSuiteState_only ..).1]

theorem overrunDrains_hbm : (overrunDrains s t n k).hbm = s.hbm := by
  unfold overrunDrains
  rw [(setSuiteState_only ..).2.2]
  show (overrun s t n k).hbm = s.hbm
  exact suiteView_hbm suiteView_overrun

theorem getStream_overrunDrains (he : (getTile s t).evalMode = false) :
    getStream (overrunDrains s t n k) t k = { getStream s t k with fault := KFault.kernelOverrun.code, halted := true } := by
  have htile : getTile (overrunDrains s t n k) t = getTile (overrun s t n k) t := by
    unfold overrunDrains
    rw [(setSuiteState_only ..).2.2]
    rfl
  unfold getStream
  rw [htile, getTile_overrun he]
  exact stream_setStream_same ..

end

/-- Settles O34. -/
theorem streamFaultsHaltTheTile : Obligations.StreamFaultsHaltTheTile := by
  refine ⟨fun s t k w => ⟨fun tok h ht => ?_, fun x tok h ht => ?_, fun x tok h ht hx => ?_, fun sel n h ht => ?_, fun c hn => ?_⟩,
    fun s t n k hn hr hk => ⟨fun hb hs => ?_, fun hb => execKernelOverrun_in_time hn hb⟩⟩
  · exact congrArg Host.Outcome.next ((issueAs_issues h nofun).trans (by simp [ht]))
  · exact congrArg Host.Outcome.next ((issueAs_issues h nofun).trans (by simp [ht]))
  · exact congrArg Host.Outcome.next ((issueAs_issues h nofun).trans (by simp [ht, hx]))
  · exact congrArg Host.Outcome.next ((issueAs_issues h nofun).trans (by simp [ht]))
  · rw [getStream_faultStream_free hn]
    unfold faultedCore
    rw [stream_setStream_same]
    refine ⟨rfl, rfl, rfl, fun j hj => ?_⟩
    rw [getStream_faultStream_free hn]
    unfold faultedCore
    rw [stream_setStream_other _ _ _ _ hj, stream_haltCore]
    rfl
  · refine ⟨_, execKernelOverrun_late hn hr hk hb hs, overrunDrains_state, overrunDrains_hbm, fun he => ?_⟩
    rw [getStream_overrunDrains he]
    exact ⟨rfl, rfl⟩

end Sys2Proof.Machine
end

section
/-!
PROOFS. The matrix engine: passes and spills (rules R114, R118, R121, R196).
-/
open Sys2Proof Sys2Proof.Says

namespace Sys2Proof.Machine
section
variable {s : State} {t cell w : Nat} {k : KStream} {o : MmOp} {c : Ctx} {u : MmSetup} {p : MePass} {ps : List MePass} {dup : Int}
  {ecc : List EccHit}

theorem setStream_banks (a : TileCore) (x : KState) : (a.setStream k x).banks = a.banks := by
  cases k <;> rfl

theorem setStream_store (a : TileCore) (x : KState) : (a.setStream k x).store = a.store := by
  cases k <;> rfl

/-- The pass that an `mm` puts into the matrix engine, without an ECC finding. -/
def issuedPass (s : State) (t : Nat) (k : KStream) (w : Nat) (o : MmOp) (u : MmSetup) : MePass :=
  { formPass (getTile s t).core (getTile s t).passes [] u o with id := (getTile s t).nextOp, issuer := k, place := placeOf s t k w }

/-- The state after an `mm`, where counting no ECC bit changes the tile by `f`. -/
def passIssued (s : State) (t : Nat) (k : KStream) (w : Nat) (o : MmOp) (c : Ctx) (u : MmSetup) : State :=
  let s1 := updTile (eccRead s t k (placeOf s t k w) []) t (fun y =>
    { y with passes := y.passes ++ [issuedPass s t k w o u], nextOp := y.nextOp + 1 })
  advance (updSuite s1 c.suite (fun su => { su with counts := { su.counts with cyclesNow := su.counts.cyclesNow + passCycles u } })) t k

theorem getTile_updSuite_tiles (n : Nat) (g : Suite → Suite) : getTile (updSuite s n g) t = getTile s t := rfl

theorem getTile_passIssued : ∃ x n, getTile (passIssued s t k w o c u) t = { getTile s t with
    core := (getTile s t).core.setStream k (advanceState (getStream s t k)), passes := (getTile s t).passes ++ [issuedPass s t k w o u],
    nextOp := (getTile s t).nextOp + 1, counts := x, cdcPending := n } := by
  obtain ⟨f, hf, hecc⟩ := eccRead_nil s t k (placeOf s t k w)
  obtain ⟨x, n, hx⟩ := hf (getTile s t)
  refine ⟨x, n, ?_⟩
  unfold passIssued
  dsimp only
  rw [hecc, updTile_updTile]
  unfold advance setStream
  rw [getTile_updTile_same]
  unfold getStream
  rw [getTile_updSuite_tiles, getTile_updTile_same, hx]

theorem passIssued_only : passIssued s t k w o c u
    = { s with tiles := (passIssued s t k w o c u).tiles, suites := (passIssued s t k w o c u).suites } := by
  obtain ⟨f, -, hecc⟩ := eccRead_nil s t k (placeOf s t k w)
  unfold passIssued
  rw [hecc]
  rfl

theorem formPass_eccRead : formPass (getTile (eccRead s t k (placeOf s t k w) []) t).core (getTile (eccRead s t k (placeOf s t k w) []) t).passes [] u o
    = formPass (getTile s t).core (getTile s t).passes [] u o := by
  obtain ⟨x, n, h⟩ := eccRead_nil_tile s t k (placeOf s t k w)
  rw [h]

theorem getTile_eccRead_nextOp : (getTile (eccRead s t k (placeOf s t k w) []) t).nextOp = (getTile s t).nextOp := by
  obtain ⟨x, n, h⟩ := eccRead_nil_tile s t k (placeOf s t k w)
  rw [h]

theorem execMm_issues (h : issues s t k (.mm o) w) (hc : ctxOf s t k = some c) (hh : holdsAll s t k [tokME, tokBK o.bank] = true)
    (hu : mmSetup s c (tileProgram s t k) (getStream s t k).loops o = .ok (some u))
    (hm : bankMerges s t o.bank = []) (hr : bankReads s t o.bank = []) :
    exec (.mm t k []) s = .next (passIssued s t k w o c u) := by
  have hlost : programLost [] = false := rfl
  refine congrArg Host.Outcome.next ((issueAs_issues h nofun).trans ?_)
  have heval : (getTile (passIssued s t k w o c u) t).evalMode = (getTile s t).evalMode := by
    obtain ⟨x, n, ht⟩ := getTile_passIssued (s := s) (t := t) (k := k) (w := w) (o := o) (c := c) (u := u)
    rw [ht]
  dsimp only
  rw [hc]
  dsimp only
  rw [hh, hu, hm, hr, hlost]
  dsimp only
  refine Eq.trans ?_ (keepRestored_same _ _ _ heval)
  congr 1
  simp only [Bool.not_true, Bool.false_eq_true, if_false, List.isEmpty_nil, Bool.or_self, Option.getD_some]
  unfold passIssued updTile issuedPass poisonedWords
  rw [← formPass_eccRead (k := k) (w := w), ← getTile_eccRead_nextOp (k := k) (w := w)]
  rfl

theorem execMm_lost (h : issues s t k (.mm o) w) (hc : ctxOf s t k = some c) (hh : holdsAll s t k [tokME, tokBK o.bank] = true)
    (hl : programLost ecc = true) : exec (.mm t k ecc) s = .next (keepRestored s (faultStream s t k .ifetchEcc w) t) := by
  refine congrArg Host.Outcome.next ((issueAs_issues h nofun).trans ?_)
  simp [hc, hh, hl]

/-- An `mm` whose bank has a merge or a read outstanding does not issue (rule R118). -/
theorem execMm_waits (h : issues s t k (.mm o) w) (hc : ctxOf s t k = some c) (hh : holdsAll s t k [tokME, tokBK o.bank] = true)
    (hl : programLost ecc = false) (hu : mmSetup s c (tileProgram s t k) (getStream s t k).loops o = .ok (some u))
    (hb : bankMerges s t o.bank ≠ [] ∨ bankReads s t o.bank ≠ []) : exec (.mm t k ecc) s = .next s := by
  refine congrArg Host.Outcome.next ((issueAs_issues h nofun).trans (Eq.trans ?_ (keepRestored_same s s t rfl)))
  simp [hc, hh, hl, hu, hb]

/-- The tile after the oldest pass has spilled a cell. -/
def cellSpilled (x : Tile) (p : MePass) (ps : List MePass) (cell : Nat) (dup : Int) : Tile :=
  { x with
    core := spillCell (beginPass x.core p) p.bank cell (SMap.get {} p.cells cell)
    passes := { p with begun := true, cells := SMap.erase p.cells cell, spillMismatch := p.spillMismatch || decide (dup ≠ 0) } :: ps }

theorem execCellSpill_spills (hp : (getTile s t).passes = p :: ps) (hcell : SMap.has p.cells cell = true) :
    exec (.cellSpill t cell dup []) s
      = .next (updTile (eccRead s t p.issuer p.place []) t (fun x => cellSpilled x p ps cell dup)) := by
  have hpasses : (getTile (eccRead s t p.issuer p.place []) t).passes = p :: ps := by
    obtain ⟨x, n, h⟩ := eccRead_nil_tile s t p.issuer p.place
    rw [h]
    exact hp
  show execCellSpill t cell dup [] s = _
  unfold execCellSpill
  rw [hp]
  dsimp only
  rw [hcell, if_pos rfl]
  rw [List.filter_nil, hpasses]
  exact whenDo_true _ _ _ hcell

theorem updTile_eccRead_onlyTile (g : Tile → Tile) : onlyTile s (updTile (eccRead s t k (p.place) []) t g) t := by
  obtain ⟨f, -, h⟩ := eccRead_nil s t k p.place
  rw [h, updTile_updTile]
  exact ⟨rfl, fun _ hx => getTile_updTile_other s _ _ _ hx⟩

/-- The state after the oldest pass has spilled the rest of its cells and left its verdict to come. -/
def passCompleted (s : State) (t : Nat) (p : MePass) (ps : List MePass) : State :=
  addVerdict (raiseFlags (updTile s t (fun y => { y with core := spillAll y.core p, passes := ps })) t p.issuer
    { sat := p.sat, range := p.range, poison := p.poison }) t
    { checker := .me, issuer := p.issuer, lhs := p.lhs, rhs := p.rhs, mismatch := p.spillMismatch, place := p.place }

theorem execMmPassComplete_completes (hp : (getTile s t).passes = p :: ps) : exec (.mmPassComplete t) s = .next (passCompleted s t p ps) := by
  show execMmPassComplete t s = _
  unfold execMmPassComplete
  rw [hp]
  rfl

theorem passCompleted_eq : ∃ y : Tile → KState, passCompleted s t p ps = updTile s t (fun x => { x with
    core := (spillAll x.core p).setStream p.issuer (y x), passes := ps
    verdicts := x.verdicts ++ [{ checker := .me, issuer := p.issuer, lhs := p.lhs, rhs := p.rhs, mismatch := p.spillMismatch, place := p.place
                                 id := x.nextOp }]
    nextOp := x.nextOp + 1 }) := by
  unfold passCompleted addVerdict raiseFlags
  rw [updTile_updTile, updTile_updTile]
  exact ⟨_, rfl⟩

end

/-- Settles O4. -/
theorem matrixPassesSpillIntoTheirBank : Obligations.MatrixPassesSpillIntoTheirBank := by
  intro s t k
  refine ⟨fun w o c u h hc hh hu hm hr => ?_, fun w o c ecc h hc hh hl => execMm_lost h hc hh hl,
    fun w o c u ecc h hc hh hl hu hb => execMm_waits h hc hh hl hu hb, fun p ps cell dup hp hcell => ?_, fun p ps hp => ?_⟩
  · obtain ⟨x, n, ht⟩ := getTile_passIssued (s := s) (t := t) (k := k) (w := w) (o := o) (c := c) (u := u)
    refine ⟨_, issuedPass s t k w o u, execMm_issues h hc hh hu hm hr, ?_, rfl, rfl, rfl, rfl, rfl, rfl, ?_, ?_, ?_, passIssued_only⟩
    · rw [ht]
    · rw [ht]
      exact setStream_banks ..
    · rw [ht]
      exact setStream_store ..
    · unfold getStream
      rw [ht]
      exact stream_setStream_same ..
  · obtain ⟨x, n, ht⟩ := eccRead_nil_tile s t p.issuer p.place
    refine ⟨_, { p with begun := true, cells := SMap.erase p.cells cell, spillMismatch := p.spillMismatch || decide (dup ≠ 0) },
      execCellSpill_spills hp hcell, updTile_eccRead_onlyTile _, ?_, rfl, rfl, rfl, rfl, rfl, ?_⟩
    · rw [getTile_updTile_same]
      rfl
    · rw [getTile_updTile_same, ht]
      rfl
  · obtain ⟨y, hy⟩ := passCompleted_eq (s := s) (t := t) (p := p) (ps := ps)
    refine ⟨_, { checker := .me, issuer := p.issuer, lhs := p.lhs, rhs := p.rhs, mismatch := p.spillMismatch, place := p.place,
                 id := (getTile s t).nextOp }, execMmPassComplete_completes hp, ?_, ?_, ?_, rfl, rfl, rfl, rfl, rfl, ?_⟩
    · rw [hy]
      exact ⟨rfl, fun _ hx => getTile_updTile_other s _ _ _ hx⟩
    · rw [hy, getTile_updTile_same]
    · rw [hy, getTile_updTile_same]
    · rw [hy, getTile_updTile_same]
      exact setStream_banks ..

end Sys2Proof.Machine
end

section
/-!
PROOFS. Checkers: verdicts and disagreements (rules R120 to R122, R159 to R161, R211, R448, R452, R453).
-/
open Sys2Proof Sys2Proof.Says

namespace Sys2Proof.Machine
section
variable {s : State} {t : Nat} {v : Verdict} {err : Int} {c : Checker} {k : KStream} {cause : Nat} {p : OpPlace} {vals : List Nat}

theorem applyVerdict_agree (h : nextVerdict s t c = some v) : applyVerdict s t c .agree
    = if v.mismatch then disagree (dropVerdict s t v.id) t v.issuer (checkerCause c false) v.place [] else dropVerdict s t v.id := by
  unfold applyVerdict
  rw [h]

theorem applyVerdict_reduction (h : nextVerdict s t c = some v) :
    applyVerdict s t c .reduction = disagree (dropVerdict s t v.id) t v.issuer (checkerCause c false) v.place [] := by
  unfold applyVerdict
  rw [h]

theorem applyVerdict_lane_same (h : nextVerdict s t c = some v) (a : Nat) : applyVerdict s t c (.lane a a) = dropVerdict s t v.id := by
  unfold applyVerdict
  rw [h]
  exact if_pos rfl

theorem applyVerdict_lane_differs (h : nextVerdict s t c = some v) {a b : Nat} (hab : a ≠ b) :
    applyVerdict s t c (.lane a b) = disagree (dropVerdict s t v.id) t v.issuer (checkerCause c true) v.place [a, b] := by
  unfold applyVerdict
  rw [h]
  exact if_neg hab

/-- What the verdict of a matrix pass comes to, by its residues and its spill adders. -/
theorem execPassCheckVerdict_eq (h : nextVerdict s t .me = some v) : exec (.passCheckVerdict t err) s
    = .next (settleAll (if v.mismatch then disagree (dropVerdict s t v.id) t v.issuer 0x0101 v.place [residue ((v.lhs : Int) + err), v.rhs]
        else if residue ((v.lhs : Int) + err) ≠ v.rhs then
          disagree (dropVerdict s t v.id) t v.issuer 0x0100 v.place [residue ((v.lhs : Int) + err), v.rhs]
        else dropVerdict s t v.id)) := by
  show execPassCheckVerdict t err s = _
  unfold execPassCheckVerdict
  rw [h]

/-- Sums that differ by no multiple of 2^61 − 1 have different residues. -/
theorem residue_add_ne {a d : Int} (hd : d % (2 ^ 61 - 1) ≠ 0) : residue (a + d) ≠ residue a := by
  intro h
  have hpos : (0 : Int) < checkP := by decide
  have hmod : (a + d) % (checkP : Int) = a % (checkP : Int) := by
    have h1 := Int.emod_nonneg (a + d) (Int.ne_of_gt hpos)
    have h2 := Int.emod_nonneg a (Int.ne_of_gt hpos)
    unfold residue at h
    omega
  have hdvd : (checkP : Int) ∣ a + d - a := Int.dvd_of_emod_eq_zero (Int.emod_eq_emod_iff_emod_sub_eq_zero.mp hmod)
  rw [Int.add_comm, Int.add_sub_cancel] at hdvd
  exact hd (Int.emod_eq_zero_of_dvd hdvd)

/-- The state as a disagreement leaves it before its resolution: the tile's streams halted and the disagreement counted. -/
def disagreed (s : State) (t : Nat) : State :=
  updTile (haltTile s t) t (fun x => { x with counts := { x.counts with disagreements := satInc 16 x.counts.disagreements } })

theorem getTile_disagreed : getTile (disagreed s t) t = { getTile s t with
    core := haltCore (getTile s t).core, counts := { (getTile s t).counts with disagreements := satInc 16 (getTile s t).counts.disagreements } } := by
  unfold disagreed haltTile
  rw [updTile_updTile, getTile_updTile_same]

/-- The record that a disagreement writes. -/
def disagreeRecord (s : State) (t : Nat) (k : KStream) (cause : Nat) (p : OpPlace) (vals : List Nat) : FaultRec :=
  forSuite (disagreed s t) p.suite p.step
    { unitClass := 0, unitIndex := t, cause := cause, op := OpPlaceOp p k, domain := 0, owner := false, values := vals }

/-- The resolution that a disagreement begins. -/
def disagreeResolution (s : State) (t : Nat) (k : KStream) (cause : Nat) (p : OpPlace) (vals : List Nat) : Resolution :=
  let u := recordFault (disagreed s t) (disagreeRecord s t k cause p vals)
  { tile := t, cause := cause, value := vals.getD 0 0, check := vals.getD 1 0, suite := p.suite, step := p.step, eval := p.eval
    record := s.faults.next
    kept := if u.faults.held.any (fun x => x.index == s.faults.next) then none else some u.faults.last }

/-- The state with the record written and the resolution begun. -/
def disagreeBegun (s : State) (t : Nat) (k : KStream) (cause : Nat) (p : OpPlace) (vals : List Nat) : State :=
  let u := recordFault (disagreed s t) (disagreeRecord s t k cause p vals)
  { u with faults := { u.faults with resolutions := u.faults.resolutions ++ [disagreeResolution s t k cause p vals] } }

theorem disagree_eq : disagree s t k cause p vals = if cause = 0x0101 ∨ cause = 0x0102 ∨ cause = 0x0105 then
    finishResolution (disagreeBegun s t k cause p vals) (disagreeResolution s t k cause p vals) clsUnresolved vals
    else disagreeBegun s t k cause p vals := rfl

theorem recordFault_last (r : FaultRec) : (recordFault s r).faults.last = withConditions s r := by
  unfold recordFault
  dsimp only
  split <;> rfl

theorem recordFault_next (r : FaultRec) (h : r.owner = false) : (recordFault s r).faults.next = (s.faults.next + 1) % 2 ^ 32 := by
  have hc : countClass s.faults (withConditions s r) = s.faults := by
    unfold countClass
    exact if_neg (by rw [show (withConditions s r).owner = r.owner from rfl, h]; decide)
  unfold recordFault
  dsimp only
  rw [hc]
  split <;> rfl

theorem recordFault_resolutions (r : FaultRec) (h : r.owner = false) : (recordFault s r).faults.resolutions = s.faults.resolutions := by
  have hc : countClass s.faults (withConditions s r) = s.faults := by
    unfold countClass
    exact if_neg (by rw [show (withConditions s r).owner = r.owner from rfl, h]; decide)
  unfold recordFault
  dsimp only
  rw [hc]
  split <;> rfl

theorem disagreeBegun_tile : getTile (disagreeBegun s t k cause p vals) t = getTile (disagreed s t) t := by
  have htiles : (disagreeBegun s t k cause p vals).tiles = (disagreed s t).tiles := recordFault_tiles _ _
  unfold getTile
  rw [htiles]

end

/-- Settles O5. -/
theorem verdictsAcceptOrHaltTheTile : Obligations.VerdictsAcceptOrHaltTheTile := by
  refine ⟨fun s t v err => ⟨fun h => ⟨fun hm hr => ?_, fun hm hr => ?_, fun hm => ?_⟩,
      fun h => ⟨fun hm => ?_, fun hm => ?_, fun a => ?_, ?_, fun a b hab => ?_⟩,
      fun h => ⟨fun hm => ?_, fun hm => ?_, fun a => ?_, fun a b hab => ?_⟩, fun d hd => residue_add_ne hd⟩,
    fun s t k cause p vals => ⟨disagreeBegun s t k cause p vals, disagreeResolution s t k cause p vals, disagree_eq, fun j => ?_, ?_, ?_, ?_, ?_, ?_,
      rfl, rfl, rfl, rfl, rfl, rfl, rfl⟩⟩
  · rw [execPassCheckVerdict_eq h, hm, if_neg (by decide), if_neg (not_not_intro hr)]
  · rw [execPassCheckVerdict_eq h, hm, if_neg (by decide), if_pos hr]
  · rw [execPassCheckVerdict_eq h, hm, if_pos rfl]
  · exact congrArg (Host.Outcome.next ∘ settleAll) ((applyVerdict_agree h).trans (by rw [hm]; rfl))
  · exact congrArg (Host.Outcome.next ∘ settleAll) ((applyVerdict_agree h).trans (by rw [hm]; rfl))
  · exact congrArg (Host.Outcome.next ∘ settleAll) (applyVerdict_lane_same h a)
  · exact congrArg (Host.Outcome.next ∘ settleAll) (applyVerdict_reduction h)
  · exact congrArg (Host.Outcome.next ∘ settleAll) (applyVerdict_lane_differs h hab)
  · exact congrArg (Host.Outcome.next ∘ settleAll) ((applyVerdict_agree h).trans (by rw [hm]; rfl))
  · exact congrArg (Host.Outcome.next ∘ settleAll) ((applyVerdict_agree h).trans (by rw [hm]; rfl))
  · exact congrArg (Host.Outcome.next ∘ settleAll) (applyVerdict_lane_same h a)
  · exact congrArg (Host.Outcome.next ∘ settleAll) (applyVerdict_lane_differs h hab)
  · unfold getStream
    rw [disagreeBegun_tile, getTile_disagreed]
    exact stream_haltCore ..
  · rw [disagreeBegun_tile, getTile_disagreed]
  · show (recordFault _ _).faults.last.cause = _
    rw [recordFault_last]
    rfl
  · show (recordFault _ _).faults.last.index = _
    rw [recordFault_last]
    rfl
  · exact recordFault_next _ rfl
  · show (recordFault _ _).faults.resolutions ++ _ = _
    rw [recordFault_resolutions _ rfl]
    rfl

end Sys2Proof.Machine
end

section
/-!
PROOFS. The vector and conversion engines: what a `vop`, `vred`, `cvt` or `dig` that passes its checks leaves (rules R127, R132, R201 to R213).
-/
open Sys2Proof Sys2Proof.Says

namespace Sys2Proof.Machine
section
variable {s : State} {t w vrec mask c : Nat} {k : KStream} {sr checked amiss external : Bool} {cx : Ctx} {v : VCtx} {bank : Option (Nat × Nat)}
  {r : Written} {eff : State → VCtx → Option (Nat × Nat) → Check (Option Written)}

/-- A vector instruction that is ready has its effect, its flags, its verdict where it is checked, and moves on. -/
theorem vectorIssue_ready (h : vectorReady s t k w vrec mask c sr external cx v bank)
    (he : eff (eccRead s t k (placeOf s t k w) []) v bank = .ok (some r)) :
    vectorIssue s t k w [] vrec mask c sr checked amiss external eff
      = advance (if checked then addVerdict (raiseFlags r.s t k r.f) t
          { checker := .ve, issuer := k, mismatch := amiss, place := placeOf s t k w } else raiseFlags r.s t k r.f) t k := by
  obtain ⟨hc, hve, hset, hrec, hbank, hv⟩ := h
  have hheld : (bank.isSome && !(holds s t k (tokBK ((bank.map (fun b => b.1)).getD 0)))) = false := by
    obtain rfl | ⟨b, e, rfl, hb, -⟩ := hbank
    · rfl
    · simp [hb]
  have hfree : (bank.isSome && external && bankBusy s t ((bank.map (fun b => b.1)).getD 0)) = false := by
    obtain rfl | ⟨b, e, rfl, -, hb⟩ := hbank
    · rfl
    · cases external
      · simp
      · simp [hb rfl]
  unfold vectorIssue
  rw [hc]
  dsimp only
  rw [hve, hset]
  dsimp only
  rw [hrec]
  dsimp only
  rw [hheld, hfree]
  rw [hv] at he
  simp only [programLost, poisonedWords, List.any_nil, List.filterMap_nil, Bool.not_true, Bool.false_eq_true, if_false]
  rw [he]

theorem vectorIssue_unheld (hc : ctxOf s t k = some cx) (hve : holds s t k tokVE = false) (ecc : List EccHit) :
    vectorIssue s t k w ecc vrec mask c sr checked amiss external eff = faultStream s t k .ownership w := by
  unfold vectorIssue
  rw [hc]
  dsimp only
  rw [hve]
  rfl

theorem execVop_issues {o : VopOp} {ecc : List EccHit} (h : issues s t k (.vop o) w) : exec (.vop t k ecc) s
    = .next (keepRestored s (vectorIssue s t k w ecc o.vrec o.mask o.c o.sr true false
        (!(vopFromMask o.op) && (o.sa == 32 || o.sb == 32 || o.sc == 32)) (fun s1 v b => vopEffect s1 t v o b)) t) :=
  congrArg Host.Outcome.next (issueAs_issues h nofun)

theorem execVred_issues {o : VredOp} {ecc : List EccHit} (h : issues s t k (.vred o) w) : exec (.vred t k ecc) s
    = .next (keepRestored s (vectorIssue s t k w ecc o.vrec o.mask o.c o.sr (o.vmode == 2)
        (o.vmode == 2 && unitMismatch (SMap.get {} (getTile s t).units o.unit)) (o.src == 32) (fun s1 v b => vredEffect s1 t v o b)) t) :=
  congrArg Host.Outcome.next (issueAs_issues h nofun)

end

/-- Settles O6. -/
theorem vectorInstructionsComplete : Obligations.VectorInstructionsComplete := by
  intro s t k w cx v bank r
  refine ⟨fun o h hr he => ?_, fun o h hr he => ?_, fun o h hc hve => ?_⟩
  · rw [execVop_issues h, vectorIssue_ready hr he]
    rfl
  · rw [execVred_issues h, vectorIssue_ready hr he]
    by_cases hm : o.vmode = 2
    · simp only [hm, beq_self_eq_true, Bool.true_and]
    · simp only [hm, beq_iff_eq, if_false]
  · rw [execVop_issues h, vectorIssue_unheld hc hve]

/-! The conversion engine. -/

section
variable {s : State} {t w n id : Nat} {k : KStream} {c : Ctx} {x : Tensor} {e : Extent} {f : Flags} {v : Verdict}

theorem getStream_of_core {u : State} {a : TileCore} {y : KState} (h : (getTile u t).core = a.setStream k y) : getStream u t k = y := by
  unfold getStream
  rw [h]
  exact stream_setStream_same ..

theorem recordExtent_only (track wrote : Bool) :
    recordExtent s c id x e track wrote = { s with suites := (recordExtent s c id x e track wrote).suites } := by
  unfold recordExtent
  dsimp only
  split <;> rfl

theorem getTile_recordExtent (i : Nat) (track wrote : Bool) : getTile (recordExtent s c id x e track wrote) i = getTile s i := by
  rw [recordExtent_only]
  rfl

/-- Flags, a verdict to come and the next instruction, as one update of the tile. -/
theorem advance_addVerdict_raiseFlags : ∃ y, y.pc = (advanceState (getStream s t k)).pc ∧
    advance (addVerdict (raiseFlags s t k f) t v) t k = updTile s t (fun z => { z with
      core := z.core.setStream k y, verdicts := z.verdicts ++ [{ v with id := z.nextOp }], nextOp := z.nextOp + 1 }) := by
  have hx : getStream (addVerdict (raiseFlags s t k f) t v) t k
      = { getStream s t k with flags := orFlags (getStream s t k).flags f } := by
    unfold addVerdict raiseFlags getStream
    rw [updTile_updTile, getTile_updTile_same]
    exact stream_setStream_same ..
  refine ⟨advanceState { getStream s t k with flags := orFlags (getStream s t k).flags f }, advanceState_pc_of rfl rfl, ?_⟩
  unfold advance
  rw [hx]
  unfold addVerdict raiseFlags setStream
  rw [updTile_updTile, updTile_updTile]
  congr 1
  funext z
  cases k <;> rfl

theorem completed_only : advance (addVerdict (raiseFlags s t k f) t v) t k
    = { s with tiles := (advance (addVerdict (raiseFlags s t k f) t v) t k).tiles } := rfl

theorem completed_other {i : Nat} (hi : i ≠ t) : getTile (advance (addVerdict (raiseFlags s t k f) t v) t k) i = getTile s i := by
  obtain ⟨y, -, hy⟩ := advance_addVerdict_raiseFlags (s := s) (t := t) (k := k) (f := f) (v := v)
  rw [hy, getTile_updTile_other _ _ _ _ hi]

/-- The tile's core after a `cvt`: the converted elements, and with CLR the bank zero and unset. -/
def cvtCore (c : Ctx) (o : CvtOp) (u : CvtSetup) (bank : Nat) (core : TileCore) : TileCore :=
  let r := (List.range (o.rows * o.cols)).foldl (cvtElement c core [] o u)
    (Memory.clear (Memory.clear core.store u.base (cvtBytes o u.x.fmt)) (cvtTail o u).1 (cvtTail o u).2, {}, {})
  if o.clr then setBank { core with store := r.1 } bank {} else { core with store := r.1 }

/-- What the elements of a `cvt` raise and measure. -/
def cvtSeen (c : Ctx) (o : CvtOp) (u : CvtSetup) (core : TileCore) : Extent × Flags :=
  ((List.range (o.rows * o.cols)).foldl (cvtElement c core [] o u)
    (Memory.clear (Memory.clear core.store u.base (cvtBytes o u.x.fmt)) (cvtTail o u).1 (cvtTail o u).2, {}, {})).2

/-- The state after a `cvt`, without an ECC finding. -/
def converted (s : State) (t : Nat) (k : KStream) (w : Nat) (c : Ctx) (o : CvtOp) (u : CvtSetup) (bank : Nat) : State :=
  let s1 := eccRead s t k (placeOf s t k w) []
  let core := (getTile s1 t).core
  advance (addVerdict (raiseFlags (recordExtent (updTile s1 t (fun y => { y with core := cvtCore c o u bank core })) c u.id u.x
    (cvtSeen c o u core).1 o.track true) t k (cvtSeen c o u core).2) t { checker := .cu, issuer := k, place := placeOf s t k w }) t k

theorem cvtCore_banks_kept {o : CvtOp} {u : CvtSetup} {bank : Nat} {core : TileCore} (h : o.clr = false) :
    (cvtCore c o u bank core).banks = core.banks := by
  unfold cvtCore
  dsimp only
  rw [h]
  rfl

theorem cvtCore_bank_cleared {o : CvtOp} {u : CvtSetup} {bank : Nat} {core : TileCore} (h : o.clr = true) :
    getBank (cvtCore c o u bank core) bank = {} := by
  unfold cvtCore
  dsimp only
  rw [h]
  exact SMap.get_set_same ..

theorem cvtCore_stream {o : CvtOp} {u : CvtSetup} {bank : Nat} {core : TileCore} : (cvtCore c o u bank core).stream = core.stream := by
  unfold cvtCore
  dsimp only
  funext j
  cases j <;> (split <;> rfl)

theorem getBank_setStream (a : TileCore) (y : KState) (b : Nat) : getBank (a.setStream k y) b = getBank a b := by
  unfold getBank
  rw [setStream_banks]

/-- A `cvt` changes its tile, and its suite's records: the core by the conversion, and one verdict is to come. -/
theorem converted_tile {o : CvtOp} {u : CvtSetup} {bank : Nat} : ∃ y m i, y.pc = (advanceState (getStream s t k)).pc ∧
    getTile (converted s t k w c o u bank) t = { getTile s t with
      core := (cvtCore c o u bank (getTile s t).core).setStream k y
      verdicts := (getTile s t).verdicts ++ [{ checker := .cu, issuer := k, place := placeOf s t k w, id := (getTile s t).nextOp }]
      nextOp := (getTile s t).nextOp + 1, counts := m, cdcPending := i } := by
  obtain ⟨m, i, ht⟩ := eccRead_nil_tile s t k (placeOf s t k w)
  unfold converted
  dsimp only
  rw [ht]
  dsimp only
  generalize hs2 : updTile (eccRead s t k (placeOf s t k w) []) t _ = s2
  have htile : getTile s2 t = { getTile s t with core := cvtCore c o u bank (getTile s t).core, counts := m, cdcPending := i } := by
    rw [← hs2, getTile_updTile_same, ht]
  generalize hs3 : recordExtent s2 c u.id u.x _ o.track true = s3
  have htile3 : getTile s3 t = getTile s2 t := by
    rw [← hs3, getTile_recordExtent]
  have hstream : getStream s3 t k = getStream s t k := by
    unfold getStream
    rw [htile3, htile]
    exact congrFun cvtCore_stream k
  obtain ⟨y, hpc, hy⟩ := advance_addVerdict_raiseFlags (s := s3) (t := t) (k := k) (f := (cvtSeen c o u (getTile s t).core).2)
    (v := { checker := .cu, issuer := k, place := placeOf s t k w })
  refine ⟨y, m, i, hpc.trans (by rw [hstream]), ?_⟩
  rw [hy, getTile_updTile_same, htile3, htile]

theorem converted_only {o : CvtOp} {u : CvtSetup} {bank : Nat} : converted s t k w c o u bank
    = { s with tiles := (converted s t k w c o u bank).tiles, suites := (converted s t k w c o u bank).suites } := by
  obtain ⟨g, -, hecc⟩ := eccRead_nil s t k (placeOf s t k w)
  unfold converted
  dsimp only
  rw [completed_only, recordExtent_only, hecc]
  rfl

theorem converted_other {o : CvtOp} {u : CvtSetup} {bank i : Nat} (hi : i ≠ t) : getTile (converted s t k w c o u bank) i = getTile s i := by
  unfold converted
  dsimp only
  rw [completed_other hi, getTile_recordExtent, getTile_updTile_other _ _ _ _ hi, eccRead_nil_other _ _ _ _ _ hi]

theorem execCvt_converts {o : CvtOp} {u : CvtSetup} (h : issues s t k (.cvt o) w) (hc : ctxOf s t k = some c) (hcu : holds s t k tokCU = true)
    (hset : cvtSetup s c (tileProgram s t k) (getStream s t k).loops o = .ok (some u))
    (hb : ∀ b, cvtBank (tileProgram s t k) (getStream s t k).loops o = some b → holds s t k (tokBK b) = true ∧ bankBusy s t b = false)
    (hr : o.clr = true → bankReads s t ((cvtBank (tileProgram s t k) (getStream s t k).loops o).getD 0) = []) :
    exec (.cvt t k []) s
      = .next (converted s t k w c o u ((cvtBank (tileProgram s t k) (getStream s t k).loops o).getD 0)) := by
  have heval : ∀ b, (getTile (converted s t k w c o u b) t).evalMode = (getTile s t).evalMode := by
    intro b
    obtain ⟨y, m, i, -, ht⟩ := converted_tile (s := s) (t := t) (k := k) (w := w) (c := c) (o := o) (u := u) (bank := b)
    rw [ht]
  refine congrArg Host.Outcome.next ((issueAs_issues h nofun).trans (Eq.trans ?_ (keepRestored_same _ _ _ (heval _))))
  dsimp only
  rw [hc]
  dsimp only
  rw [hcu, hset]
  generalize hbank : cvtBank (tileProgram s t k) (getStream s t k).loops o = bank at hb hr
  have hheld : (bank.isSome && !(holds s t k (tokBK (bank.getD 0)))) = false := by
    cases bank with
    | none => rfl
    | some b => simp [(hb b rfl).1]
  have hfree : (bank.isSome && bankBusy s t (bank.getD 0) || o.clr && !(bankReads s t (bank.getD 0)).isEmpty) = false := by
    have hreads : (o.clr && !(bankReads s t (bank.getD 0)).isEmpty) = false := by
      cases hclr : o.clr with
      | false => rfl
      | true => simp [hr hclr]
    rw [hreads]
    cases bank with
    | none => rfl
    | some b => simp [(hb b rfl).2]
  dsimp only
  rw [hheld, hfree]
  rfl

/-! The content digest (rule R213). -/

/-- The sum, modulo 2^128, of the block hashes that a `dig` without a finding adds. -/
def blockSum (m : Memory) (x : Option Tensor) (id base e0 count : Nat) : Nat :=
  (List.range count).foldl (fun acc i =>
    (acc + blockHash (hashedBytes x (e0 + i) (Memory.readN m (base + 64 * i) 64)) id (e0 + i)) % 2 ^ 128) 0

/-- The state after a `dig` of training, without an ECC finding. -/
def digested (s : State) (t : Nat) (k : KStream) (w : Nat) (c : Ctx) (id h : Nat) : State :=
  let s1 := eccRead s t k (placeOf s t k w) []
  advance (updStep { s1 with free := s1.free + 1 } c.suite c.step (fun a => { a with content := addDigest a.content id h })) t k

theorem digSetup_ok {prog : StreamProg} {loops : List LoopFrame} {count sd cd : Nat} {d : Desc} {rr : CoordRec}
    (hd : needDesc prog.descs sd 0 = .ok d) (hr : needRec prog.coords cd = .ok rr) (ht : d.tensor ≠ 0xFFFFFF)
    (hx : (ctxTensor c d.tensor).isSome = true) (hrt : rr.tensor = d.tensor) (hw : rr.w = 1) (hp : rr.pitch = 0)
    (ha : descEff d loops % 64 = 0) (h0 : 0 ≤ descEff d loops) (h1 : descEff d loops + (64 * count : Nat) ≤ 0x800000) :
    digSetup c prog loops count sd cd = .ok ((descEff d loops).toNat, d.tensor, (coordEff rr loops).toNat) := by
  unfold digSetup
  rw [hd, hr]
  have h1' : descEff d loops + 64 * (count : Int) ≤ 0x800000 := by simpa using h1
  simp [require, bind, Except.bind, ht, hx, hrt, hw, hp, ha, h0, h1']

theorem getSuite_advance (m : Nat) : getSuite (advance s t k) m = getSuite s m := rfl

theorem getSuite_updStep_same (u : Nat) (g : StepAcc → StepAcc) :
    getSuite (updStep s n u g) n = { getSuite s n with steps := SMap.modify {} (getSuite s n).steps u g } :=
  getSuite_updSuite_same ..

theorem getTile_updStep_free {u : Nat} {g : StepAcc → StepAcc} (i : Nat) : getTile (updStep { s with free := s.free + 1 } n u g) i = getTile s i := rfl

theorem getTile_digested {h : Nat} : ∃ m i, getTile (digested s t k w c id h) t = { getTile s t with
    core := (getTile s t).core.setStream k (advanceState (getStream s t k)), counts := m, cdcPending := i } := by
  obtain ⟨m, i, ht⟩ := eccRead_nil_tile s t k (placeOf s t k w)
  refine ⟨m, i, ?_⟩
  unfold digested advance setStream getStream
  dsimp only
  rw [getTile_updTile_same]
  rw [getTile_updStep_free, ht]

theorem digested_only {h : Nat} : digested s t k w c id h
    = { s with tiles := (digested s t k w c id h).tiles, suites := (digested s t k w c id h).suites, free := (digested s t k w c id h).free } := by
  obtain ⟨g, -, hecc⟩ := eccRead_nil s t k (placeOf s t k w)
  unfold digested
  rw [hecc]
  rfl

theorem digested_content {h : Nat} : SMap.get 0 (SMap.get {} (getSuite (digested s t k w c id h) c.suite).steps c.step).content id
    = (SMap.get 0 (SMap.get {} (getSuite s c.suite).steps c.step).content id + h) % 2 ^ 128 := by
  obtain ⟨g, -, hecc⟩ := eccRead_nil s t k (placeOf s t k w)
  have hsuite : getSuite (digested s t k w c id h) c.suite = { getSuite s c.suite with
      steps := SMap.modify {} (getSuite s c.suite).steps c.step (fun a => { a with content := addDigest a.content id h }) } := by
    unfold digested
    rw [hecc]
    dsimp only
    rw [getSuite_advance, getSuite_updStep_same]
    rfl
  rw [hsuite]
  unfold addDigest SMap.modify
  dsimp only
  rw [SMap.get_set_same]
  exact SMap.get_set_same ..

theorem execDig_digests {count sd cd base e0 : Nat} (h : issues s t k (.dig count sd cd) w) (hc : ctxOf s t k = some c)
    (hcu : holds s t k tokCU = true) (he : c.eval = false)
    (hset : digSetup c (tileProgram s t k) (getStream s t k).loops count sd cd = .ok (base, id, e0)) :
    exec (.dig t k []) s = .next (digested s t k w c id (blockSum (getTile s t).core.store (ctxTensor c id) id base e0 count)) := by
  obtain ⟨m, i, ht⟩ := eccRead_nil_tile s t k (placeOf s t k w)
  have heval : ∀ x, (getTile (digested s t k w c id x) t).evalMode = (getTile s t).evalMode := by
    intro x
    obtain ⟨_, _, hx⟩ := getTile_digested (s := s) (t := t) (k := k) (w := w) (c := c) (id := id) (h := x)
    rw [hx]
  refine congrArg Host.Outcome.next ((issueAs_issues h nofun).trans (Eq.trans ?_ (keepRestored_same _ _ _ (heval _))))
  dsimp only
  rw [hc]
  dsimp only
  rw [hcu, hset]
  simp only [programLost, poisonedWords, List.any_nil, List.filterMap_nil, Bool.not_true, Bool.false_eq_true, if_false, he]
  rw [ht]
  have hnone : ∀ a : Nat, ((List.range 8).any fun j => ([] : List Nat).contains (a + j)) = false := fun a => by simp
  simp only [hnone, Bool.false_eq_true, if_false]
  rfl

end

/-- Settles O7. -/
theorem conversionsAndDigestsComplete : Obligations.ConversionsAndDigestsComplete := by
  intro s t k w c hc hcu
  refine ⟨fun o u h hset hb hr => ?_, fun count sd cd d rr h he hd hrr ht hx hrt hw hp ha h0 h1 => ?_⟩
  · obtain ⟨y, m, i, hpc, htile⟩ := converted_tile (s := s) (t := t) (k := k) (w := w) (c := c) (o := o) (u := u)
      (bank := (cvtBank (tileProgram s t k) (getStream s t k).loops o).getD 0)
    refine ⟨_, { checker := .cu, issuer := k, place := placeOf s t k w, id := (getTile s t).nextOp }, execCvt_converts h hc hcu hset hb hr,
      ?_, rfl, rfl, ?_, fun b hbank hclr => ?_, fun hclr => ?_, converted_only, fun _ hi => converted_other hi⟩
    · rw [htile]
    · rw [getStream_of_core (congrArg Tile.core htile :)]
      exact hpc
    · rw [htile, hbank, Option.getD_some, getBank_setStream]
      exact cvtCore_bank_cleared hclr
    · rw [htile, setStream_banks]
      exact cvtCore_banks_kept hclr
  · obtain ⟨m, i, htile⟩ := getTile_digested (s := s) (t := t) (k := k) (w := w) (c := c) (id := d.tensor)
      (h := blockSum (getTile s t).core.store (ctxTensor c d.tensor) d.tensor (descEff d (getStream s t k).loops).toNat
        (coordEff rr (getStream s t k).loops).toNat count)
    refine ⟨_, execDig_digests h hc hcu he (digSetup_ok hd hrr ht hx hrt hw hp ha h0 h1), ?_, ?_, digested_content, digested_only⟩
    · rw [htile, setStream_store]
    · exact getStream_of_core (congrArg Tile.core htile :)

end Sys2Proof.Machine
end

section
/-!
PROOFS. Suites: scale records and decisions (rules R91, R97, R98).
-/
open Sys2Proof Sys2Proof.Says

namespace Sys2Proof.Machine

/-- What is in a map reads the same whatever the default. -/
theorem SMap.get_of_has {α : Type} {m : SMap α} {k : Nat} (h : SMap.has m k = true) (d e : α) : SMap.get d m k = SMap.get e m k := by
  induction m with
  | nil => exact absurd h Bool.false_ne_true
  | cons p m ih =>
    obtain ⟨j, v⟩ := p
    unfold SMap.get
    by_cases hj : j = k
    · rw [if_pos hj, if_pos hj]
    · rw [if_neg hj, if_neg hj]
      unfold SMap.has at h
      rw [if_neg hj] at h
      exact ih h

/-- Settles O8: each puts one suite back, and the guard of each is what the rule asks for. -/
theorem scaleRecordsAndDecisionsFollow : Obligations.ScaleRecordsAndDecisionsFollow := by
  intro s n tensor step hs hscale
  refine ⟨fun hc hw hshared => ⟨_, whenDo_true _ _ _ ?_, rfl, ?_, ?_, ?_⟩,
    fun e he hm h2 hd hrec hadapt => ⟨_, whenDo_true _ _ _ ?_, rfl, ?_, ?_⟩⟩
  · cases hd : (domainTensors (getSuite s n)).contains tensor with
    | false => simp only [hs, ne_eq, not_false_eq_true, decide_true, hscale, hc, hw, Bool.not_false, Bool.and_self, Bool.or_true]
    | true =>
      have hmerged := hshared.resolve_left (by rw [hd]; decide)
      simp only [hs, ne_eq, not_false_eq_true, decide_true, hscale, hc, hw, Bool.not_false, Bool.and_self, if_true, hmerged, Option.isSome_some,
        Bool.true_or]
  · rw [getSuite_setSuite_same]
    dsimp only
    rw [SMap.get_set_same]
  · rw [getSuite_setSuite_same]
  · exact fun m hm => SMap.get_set_other _ _ _ _ _ hm
  · rw [SMap.get_of_has hscale _ e, he]
    cases ha : e.adapt with
    | false => simp [hs, hscale, hm, h2, hd, hrec]
    | true => simp [hs, hscale, hm, h2, hd, hrec, hadapt ha]
  · rw [getSuite_setSuite_same]
    dsimp only
    rw [SMap.get_set_same, SMap.get_of_has hscale _ e, he]
  · exact fun m hm => SMap.get_set_other _ _ _ _ _ hm

end Sys2Proof.Machine
end

section
/-!
PROOFS. Landings: transactions that start and complete (rules R168 to R172, R237, R252, R264).
-/
open Sys2Proof Sys2Proof.Says

namespace Sys2Proof.Machine
section
variable {s : State} {t l e i tag n : Nat} {tr : Transfer} {x : StreamEntry} {txn : Txn} {data : Bytes}

theorem getEntry_updEntry (g : StreamEntry → StreamEntry) : getEntry (updEntry s e g) i = if i = e then g (getEntry s i) else getEntry s i := by
  by_cases h : i = e
  · subst h
    rw [getEntry_updEntry_same, if_pos rfl]
  · rw [getEntry_updEntry_other _ _ _ _ h, if_neg h]

/-- Posting slots changes no more of an entry than its count of posted slots. -/
theorem getEntry_postSlots : ∃ c, getEntry (postSlots s x tag n) i = { getEntry s i with posted := c } := by
  unfold postSlots
  split
  · rw [getEntry_updEntry]
    split
    · exact ⟨_, rfl⟩
    · exact ⟨(getEntry s i).posted, rfl⟩
  · refine ⟨(getEntry s i).posted, ?_⟩
    rw [sendControl_only s _ _]
    rfl

theorem postSlots_hbm : (postSlots s x tag n).hbm = s.hbm := by
  unfold postSlots
  split
  · rfl
  · rw [sendControl_only s _ _]

theorem getEntry_sendStarted : ∃ c, getEntry (sendStarted s x data) i = { getEntry s i with posted := c } := by
  unfold sendStarted
  split
  · exact getEntry_postSlots
  · split
    · refine ⟨(getEntry s i).posted, ?_⟩
      rw [sendFlit_only s _ _ _ _]
      rfl
    · exact ⟨(getEntry s i).posted, rfl⟩

theorem sendStarted_tiles : (sendStarted s x data).tiles = s.tiles := by
  unfold sendStarted
  split
  · exact postSlots_tiles ..
  · split
    · rw [sendFlit_only s _ _ _ _]
    · rfl

theorem sendStarted_hbm : (sendStarted s x data).hbm = s.hbm := by
  unfold sendStarted
  split
  · exact postSlots_hbm
  · split
    · rw [sendFlit_only s _ _ _ _]
    · rfl

theorem notePeak_only : notePeak s x = { s with ports := (notePeak s x).ports } := by
  unfold notePeak
  split <;> rfl

/-- The state in which a starting transaction's data have been read, without an ECC finding. -/
def readFor (s : State) (t : Nat) (tr : Transfer) : State :=
  if (getEntry s tr.entry).outbound then eccRead s t tr.issuer tr.place [] else s

theorem readFor_only : readFor s t tr = { s with tiles := (readFor s t tr).tiles } := by
  obtain ⟨f, -, h⟩ := eccRead_nil s t tr.issuer tr.place
  unfold readFor
  split
  · rw [h]
    rfl
  · rfl

theorem getTile_readFor : ∃ m c, getTile (readFor s t tr) t = { getTile s t with counts := m, cdcPending := c } := by
  unfold readFor
  split
  · exact eccRead_nil_tile s t tr.issuer tr.place
  · exact ⟨(getTile s t).counts, (getTile s t).cdcPending, rfl⟩

/-- What a transaction needs of its tile is not in the counters. -/
theorem nextPcs_readFor : nextPcs (readFor s t tr) t tr = nextPcs s t tr := by
  obtain ⟨m, c, ht⟩ := getTile_readFor (s := s) (t := t) (tr := tr)
  have hctx : ctxOf (readFor s t tr) t tr.issuer = ctxOf s t tr.issuer := by
    unfold ctxOf
    rw [ht, readFor_only]
    rfl
  unfold nextPcs
  rw [hctx, readFor_only]
  rfl

/-- The data that a transaction of an outbound entry carries. -/
def startData (s : State) (t : Nat) (tr : Transfer) : Bytes :=
  if (getEntry s tr.entry).outbound then
    loseWords (readFor s t tr) tr tr.started [] (outboundBytes (getTile (readFor s t tr) t).core tr tr.started) else []

/-- The transaction that a landing starts for a transfer. -/
def startedTxn (s : State) (t l : Nat) (tr : Transfer) : Txn :=
  { tag := (getEntry s tr.entry).seqNext, tile := t, landing := l, transfer := tr.id, index := tr.started, data := startData s t tr
    step := tr.step, lost := none
    marks := if (getEntry s tr.entry).type = typeRemote then linkCounts (getPort (readFor s t tr) (getEntry s tr.entry).port) else [] }

/-- The landing with one more credit used, by a transaction of the transfer. -/
def startedLanding (s : State) (t l : Nat) (tr : Transfer) : Landing :=
  { getLanding s t l with
    queue := (getLanding s t l).queue.map (fun q => if q.id = tr.id then
      { tr with started := tr.started + 1, firstTag := if tr.started = 0 then (getEntry s tr.entry).seqNext else tr.firstTag } else q)
    creditsUsed := (getLanding s t l).creditsUsed + 1 }

/-- The entry with its next tag given to a transaction in flight. -/
def startedEntry (s : State) (t l : Nat) (tr : Transfer) : StreamEntry :=
  { getEntry s tr.entry with
    seqNext := ((getEntry s tr.entry).seqNext + 1) % 2 ^ 32
    seqOldest := if (getEntry s tr.entry).inFlight = [] then (getEntry s tr.entry).seqNext else (getEntry s tr.entry).seqOldest
    inFlight := (getEntry s tr.entry).inFlight ++ [startedTxn s t l tr] }

/-- The state after a transaction without a finding has started. -/
def txnStarted (s : State) (t l : Nat) (tr : Transfer) : State :=
  notePeak (sendStarted (setEntry (setLanding (readFor s t tr) t l (startedLanding s t l tr)) tr.entry (startedEntry s t l tr))
    (getEntry s tr.entry) (startData s t tr)) (getEntry s tr.entry)

theorem txnStarted_tiles : (txnStarted s t l tr).tiles = (setLanding (readFor s t tr) t l (startedLanding s t l tr)).tiles := by
  unfold txnStarted
  rw [notePeak_only, sendStarted_tiles]
  rfl

theorem txnStarted_hbm : (txnStarted s t l tr).hbm = s.hbm := by
  unfold txnStarted
  rw [notePeak_only, sendStarted_hbm]
  show (readFor s t tr).hbm = s.hbm
  rw [readFor_only]

theorem getEntry_txnStarted : ∃ c, getEntry (txnStarted s t l tr) tr.entry = { startedEntry s t l tr with posted := c } := by
  obtain ⟨c, hc⟩ := getEntry_sendStarted (s := setEntry (setLanding (readFor s t tr) t l (startedLanding s t l tr)) tr.entry (startedEntry s t l tr))
    (x := getEntry s tr.entry) (data := startData s t tr) (i := tr.entry)
  refine ⟨c, ?_⟩
  unfold txnStarted
  rw [notePeak_only]
  refine Eq.trans hc ?_
  rw [getEntry_setEntry_same]

theorem getTile_txnStarted : ∃ m c, getTile (txnStarted s t l tr) t = { getTile s t with
    landings := SMap.set (getTile s t).landings l (startedLanding s t l tr), counts := m, cdcPending := c } := by
  obtain ⟨m, c, ht⟩ := getTile_readFor (s := s) (t := t) (tr := tr)
  refine ⟨m, c, ?_⟩
  unfold getTile
  rw [txnStarted_tiles]
  refine Eq.trans (getTile_updTile_same (readFor s t tr) t (fun y => { y with landings := SMap.set y.landings l (startedLanding s t l tr) })) ?_
  rw [ht]
  rfl

theorem execLandingTransactionStart_starts (ht : t < 80) (hl : l < 4) (htr : nextTransfer (getLanding s t l) = some tr)
    (hn : (getTile s t).suite.isSome = true) (hr : (getTile s t).health.inReset = false) (hd : (getTile s t).health.disabled = false)
    (hc : (getTile s t).cdcHeld = false) (hm : mayStart s t (getLanding s t l) tr = true)
    (hw : (nextPcs s t tr).all (fun p => !(getWing s (p / 64)).inReset) = true) (ho : (nextPcs s t tr).any (fun p => unitOff s 3 p) = false) :
    exec (.landingTransactionStart t l [] []) s = .next (txnStarted s t l tr) := by
  have heval : evalEnded s (readFor s t tr) t = false := by
    obtain ⟨m, c, htile⟩ := getTile_readFor (s := s) (t := t) (tr := tr)
    unfold evalEnded
    rw [htile]
    simp
  have hoff : (nextPcs (readFor s t tr) t tr).any (fun p => unitOff (readFor s t tr) 3 p) = false := by
    rw [nextPcs_readFor]
    have hunit : ∀ p, unitOff (readFor s t tr) 3 p = unitOff s 3 p := fun p => by rw [readFor_only]; rfl
    simpa only [hunit] using ho
  show execLandingTransactionStart t l [] [] s = _
  unfold execLandingTransactionStart
  dsimp only
  rw [htr]
  dsimp only
  have hsame : (if (getEntry s tr.entry).outbound then eccRead s t tr.issuer tr.place [] else s) = readFor s t tr := rfl
  rw [hsame, heval, hoff]
  exact whenDo_true _ _ _ (by simp only [isTile, ht, hl, hn, hr, hd, hc, hm, hw]; rfl)

end

/-- Settles O9. -/
theorem landingTransactionsTakeTagsInOrder : Obligations.LandingTransactionsTakeTagsInOrder := by
  intro s t l tr ht hl htr hn hr hd hc hm hw ho
  obtain ⟨m, i, htile⟩ := getTile_txnStarted (s := s) (t := t) (l := l) (tr := tr)
  obtain ⟨c, hentry⟩ := getEntry_txnStarted (s := s) (t := t) (l := l) (tr := tr)
  have hcredits : (getLanding (txnStarted s t l tr) t l).creditsUsed = (getLanding s t l).creditsUsed + 1 := by
    unfold getLanding
    rw [htile]
    dsimp only
    rw [SMap.get_set_same]
    rfl
  have hlim : (getLanding s t l).creditsUsed < 256 ∧ (getEntry s tr.entry).inFlight.length < 32 := by
    unfold mayStart at hm
    dsimp only at hm
    simp only [Bool.and_eq_true, decide_eq_true_eq] at hm
    obtain ⟨⟨⟨⟨⟨⟨hcred, hfly⟩, -⟩, -⟩, -⟩, -⟩, -⟩ := hm
    exact ⟨hcred, hfly⟩
  refine ⟨_, startedTxn s t l tr, execLandingTransactionStart_starts ht hl htr hn hr hd hc hm hw ho, hcredits, ?_, ?_, ?_, rfl, rfl, rfl, rfl,
    ?_, txnStarted_hbm, ?_⟩
  · rw [hcredits]
    exact hlim.1
  · rw [hentry]
    rfl
  · rw [hentry]
    rfl
  · rw [hentry]
    show ((getEntry s tr.entry).inFlight ++ [startedTxn s t l tr]).length ≤ 32
    rw [List.length_append]
    exact hlim.2
  · rw [htile]

end Sys2Proof.Machine
end

section
/-!
PROOFS. Memory transactions: the bytes that move, and the tag that leaves (rules R168, R172, R237).
-/
open Sys2Proof Sys2Proof.Says

namespace Sys2Proof.Machine
section
variable {s : State} {e n a tag : Nat} {x : StreamEntry} {txn : Txn} {tr : Transfer} {b : Byte} {bs data : Bytes} {dup : Int}
  {ecc : List EccHit}

/-! What the memory cache's lines are does not matter to the bytes. -/

theorem touchLine_only (n key c : Nat) (p w : Bool) : touchLine s n key c p w = { s with wings := (touchLine s n key c p w).wings } := by
  unfold touchLine
  dsimp only
  split
  · rfl
  · split <;> rfl

theorem touchLines_only (p w : Bool) : touchLines s n a p w = { s with wings := (touchLines s n a p w).wings } := by
  have hsame : ∀ v : State, (∃ m, v = { s with wings := m }) → v = { s with wings := v.wings } := by
    rintro v ⟨m, rfl⟩
    rfl
  have hfold : ∀ (f : State → Nat × Nat → State), (∀ st p, f st p = { st with wings := (f st p).wings }) →
      ∀ (l : List (Nat × Nat)) (st : State), l.foldl f st = { st with wings := (l.foldl f st).wings } := by
    intro f hf l
    induction l with
    | nil => exact fun st => rfl
    | cons p l ih =>
      intro st
      rw [List.foldl_cons, ih (f st p), hf st p]
  unfold touchLines
  refine hfold _ (fun st v => ?_) _ s
  split
  · rfl
  · exact touchLine_only ..

theorem suiteSetByte_of_no_place (h : place a (getSuite s n).res.pcs (pcCapacity s) = none) : suiteSetByte s n a b = s := by
  unfold suiteSetByte
  rw [h]

theorem suiteSetByte_wings (m : SMap Wing) : suiteSetByte { s with wings := m } n a b = { suiteSetByte s n a b with wings := m } := by
  cases h : place a (getSuite s n).res.pcs (pcCapacity s) with
  | none =>
    rw [suiteSetByte_of_no_place h]
    exact suiteSetByte_of_no_place (s := { s with wings := m }) h
  | some q =>
    rw [suiteSetByte_of_place b h]
    exact suiteSetByte_of_place (s := { s with wings := m }) b h

theorem suiteSetBytes_wings (m : SMap Wing) : suiteSetBytes { s with wings := m } n a bs = { suiteSetBytes s n a bs with wings := m } := by
  induction bs generalizing s a with
  | nil => rfl
  | cons b bs ih =>
    unfold suiteSetBytes
    rw [suiteSetByte_wings, ih]

theorem suiteBytes_wings (m : SMap Wing) (k : Nat) : suiteBytes { s with wings := m } n a k = suiteBytes s n a k := by
  induction k generalizing a with
  | zero => rfl
  | succ k ih =>
    unfold suiteBytes
    rw [ih]
    rfl

/-! The end of a transaction. -/

/-- The entry without the transaction, and the landing with its credit back. -/
def finished (s : State) (e : Nat) (txn : Txn) : State :=
  let x := getEntry s e
  let fl := x.inFlight.filter (fun t => t.tag != txn.tag)
  let s1 := setEntry s e { x with inFlight := fl, seqOldest := (fl.head?.map (fun t => t.tag)).getD x.seqNext }
  let y := getLanding s1 txn.tile txn.landing
  let q := y.queue.map (fun t => if t.id = txn.transfer then { t with done := t.done + 1 } else t)
  setLanding s1 txn.tile txn.landing { y with
    queue := q.filter (fun t => !(t.id == txn.transfer && decide (t.count ≤ t.done))), creditsUsed := y.creditsUsed - 1 }

theorem finishTxn_of_not_draining (h : (getEntry s e).draining = false) : finishTxn s e txn = finished s e txn := by
  unfold finishTxn
  exact if_neg (by simp [h])

theorem finished_hbm : (finished s e txn).hbm = s.hbm := rfl

theorem finished_core (t : Nat) : (getTile (finished s e txn) t).core = (getTile s t).core := by
  unfold finished setLanding
  dsimp only
  by_cases ht : t = txn.tile
  · subst ht
    rw [getTile_updTile_same]
    rfl
  · rw [getTile_updTile_other _ _ _ _ ht]
    rfl

theorem finished_tag_gone : ∀ t ∈ (getEntry (finished s e txn) e).inFlight, t.tag ≠ txn.tag := by
  have hentry : (getEntry (finished s e txn) e).inFlight = (getEntry s e).inFlight.filter (fun t => t.tag != txn.tag) := by
    unfold finished
    dsimp only
    unfold setLanding getEntry
    exact congrArg StreamEntry.inFlight (getEntry_setEntry_same s e _)
  intro t ht
  rw [hentry, List.mem_filter] at ht
  simpa using ht.2

/-- A memory transaction that its network did not lose completes by a write or a read at its address. -/
theorem execTransactionComplete_moves {obs : List MemObs} (he : e < 65536) (hb : (getEntry s e).state = .bound)
    (ht : (getEntry s e).type = typeMemory) (hf : (getEntry s e).inFlight.find? (fun t => t.tag == tag) = some txn)
    (ha : memoryAddr s (getEntry s e) txn = some a) (hl : txn.lost = none) : exec (.transactionComplete e tag obs dup ecc) s
      = .next (if (getEntry s e).outbound then completeWrite s e (getEntry s e) txn a else completeRead s e (getEntry s e) txn a obs dup ecc) := by
  have hfold : isFoldEntry s (getEntry s e) = false := by
    unfold isFoldEntry
    rw [ht]
    simp [typeMemory, typeTile, typeRemote]
  show execTransactionComplete e tag obs dup ecc s = _
  unfold execTransactionComplete
  dsimp only
  rw [hf]
  dsimp only
  rw [hl, hfold, ha, ht, hb]
  exact whenDo_true _ _ _ (by simp [isEntry, he])

theorem digestWrite_only {off : Nat} {eval : Bool} :
    digestWrite s x txn off data eval = { s with suites := (digestWrite s x txn off data eval).suites } := by
  unfold digestWrite
  dsimp only
  split <;> rfl

/-- The memory after a write, and the cache lines that it touched. -/
def written (s : State) (a : Nat) (x : StreamEntry) (txn : Txn) : State :=
  suiteSetBytes (touchLines s x.suite a x.policyStream true) x.suite a txn.data

theorem written_hbm : (written s a x txn).hbm = (suiteSetBytes s x.suite a txn.data).hbm := by
  unfold written
  rw [touchLines_only, suiteSetBytes_wings]

theorem written_streams : (written s a x txn).streams = s.streams := by
  unfold written
  rw [suiteSetBytes_hbm_only, touchLines_only]

theorem getEntry_digestWrite_written {off : Nat} {eval : Bool} (i : Nat) :
    getEntry (digestWrite (written s a x txn) x txn off data eval) i = getEntry s i := by
  have hstreams : (digestWrite (written s a x txn) x txn off data eval).streams = s.streams := by
    rw [digestWrite_only]
    exact written_streams
  unfold getEntry
  rw [hstreams]

theorem completeWrite_eq (hd : (getEntry s e).draining = false) : completeWrite s e x txn a
    = finished (digestWrite (written s a x txn) x txn (a - x.regionBase) txn.data (entryEval s e)) e txn :=
  finishTxn_of_not_draining ((congrArg StreamEntry.draining (getEntry_digestWrite_written e) :).trans hd)

theorem completeWrite_hbm (hd : (getEntry s e).draining = false) : (completeWrite s e x txn a).hbm = (suiteSetBytes s x.suite a txn.data).hbm := by
  rw [completeWrite_eq hd, finished_hbm, digestWrite_only]
  exact written_hbm

/-- The state once a LINEAR read of memory has landed in the tile store. -/
def landed (s : State) (a : Nat) (x : StreamEntry) (txn : Txn) (tr : Transfer) : State :=
  updTile (touchLines s x.suite a x.policyStream false) txn.tile (fun y => { y with
    core := { (getTile s txn.tile).core with
      store := Memory.writeN (getTile s txn.tile).core.store (tr.tsBase + 512 * txn.index) (suiteBytes s x.suite a 512) } })

theorem transferOf_touchLines (p w : Bool) : transferOf (touchLines s n a p w) txn = transferOf s txn := by
  rw [touchLines_only]
  rfl

theorem landInbound_linear {arr : Arrival} (ht : transferOf s txn = some tr) (hl : tr.layout = 0) : landInbound s txn arr
    = updTile s txn.tile (fun y => { y with core := { (getTile s txn.tile).core with
        store := Memory.writeN (getTile s txn.tile).core.store (tr.tsBase + 512 * txn.index) arr.data } }) := by
  have heval : evalEnded s s txn.tile = false := by
    unfold evalEnded
    cases (getTile s txn.tile).evalMode <;> rfl
  unfold landInbound
  rw [ht]
  dsimp only
  rw [hl]
  rw [if_neg (show ¬ 0 = 2 by decide), heval, if_neg Bool.false_ne_true, if_pos rfl]

theorem completeRead_eq (ht : transferOf s txn = some tr) (hl : tr.layout = 0) (hd : (getEntry s e).draining = false) :
    completeRead s e x txn a [] dup ecc = finished (landed s a x txn tr) e txn := by
  have htr := (transferOf_touchLines (s := s) (n := x.suite) (a := a) x.policyStream false).trans ht
  have hbytes : suiteBytes (touchLines s x.suite a x.policyStream false) x.suite a 512 = suiteBytes s x.suite a 512 := by
    rw [touchLines_only, suiteBytes_wings]
  have htile : getTile (touchLines s x.suite a x.policyStream false) txn.tile = getTile s txn.tile := by
    rw [touchLines_only]
    rfl
  have hland : landInbound (touchLines s x.suite a x.policyStream false) txn
      ⟨suiteBytes (touchLines s x.suite a x.policyStream false) x.suite a 512, dup, ecc⟩ = landed s a x txn tr := by
    rw [landInbound_linear htr hl, hbytes, htile]
    rfl
  have hentry : getEntry (landed s a x txn tr) e = getEntry s e := by
    unfold landed
    rw [touchLines_only]
    rfl
  unfold completeRead
  simp only [List.filter_nil, List.foldl_nil, List.any_nil, Bool.false_eq_true, and_false, if_false]
  rw [hland]
  exact finishTxn_of_not_draining (by rw [hentry]; exact hd)

theorem landed_hbm : (landed s a x txn tr).hbm = s.hbm := by
  unfold landed
  rw [touchLines_only]
  rfl

theorem landed_store : (getTile (landed s a x txn tr) txn.tile).core.store
    = Memory.writeN (getTile s txn.tile).core.store (tr.tsBase + 512 * txn.index) (suiteBytes s x.suite a 512) := by
  unfold landed
  rw [getTile_updTile_same]

end

/-- Settles O10. -/
theorem memoryTransactionsMoveTheirBytes : Obligations.MemoryTransactionsMoveTheirBytes := by
  intro s e tag a txn he hb ht hf ha hd hl
  have htag : txn.tag = tag := by simpa using List.find?_some hf
  refine ⟨fun obs dup ecc hout => ?_, fun tr dup ecc hout htr hlay => ?_⟩
  · refine ⟨_, execTransactionComplete_moves he hb ht hf ha hl, ?_⟩
    rw [hout, if_pos rfl]
    refine ⟨completeWrite_hbm hd, ?_⟩
    rw [completeWrite_eq hd, ← htag]
    exact finished_tag_gone
  · refine ⟨_, execTransactionComplete_moves he hb ht hf ha hl, ?_⟩
    rw [hout, if_neg (by decide), completeRead_eq htr hlay hd, finished_core, ← htag]
    exact ⟨landed_hbm (txn := txn) (tr := tr), landed_store, finished_tag_gone⟩

end Sys2Proof.Machine
end

section
/-!
PROOFS. The memory system's own commands (rules R236, R241 to R251).
-/
open Sys2Proof Sys2Proof.Says

namespace Sys2Proof.Machine
section
variable {s : State} {pc row addr w bank line onDie m : Nat} {temp : Int} {h : Bool}

/-- A temperature within its field of 12 bits reads as it was sent. -/
theorem signedOf_unsignedOf_temp (h0 : -2048 ≤ temp) (h1 : temp ≤ 420) : signedOf 12 (unsignedOf 12 temp) = temp := by
  unfold signedOf unsignedOf
  have hmod := Int.emod_nonneg temp (show ((2 ^ 12 : Nat) : Int) ≠ 0 by decide)
  dsimp only
  split <;> omega

theorem refreshAfter_of_le (hm : m ≤ (refreshFor temp).1) : refreshAfter m temp = (refreshFor temp).1 := if_pos hm

theorem refreshFor_warm (h0 : 340 < temp) (h1 : temp ≤ 380) : refreshFor temp = (1, false) := by
  unfold refreshFor
  rw [if_neg (Int.not_le.mpr h0), if_pos h1]

theorem refreshFor_hot (h0 : 380 < temp) : refreshFor temp = (2, true) := by
  unfold refreshFor
  rw [if_neg (Int.not_le.mpr (Int.lt_trans (by decide) h0)), if_neg (Int.not_le.mpr h0)]

theorem refreshAfter_warm (h0 : 340 < temp) (h1 : temp ≤ 380) : refreshAfter 0 temp = 1 := by
  rw [refreshAfter_of_le (Nat.zero_le _), refreshFor_warm h0 h1]

theorem refreshAfter_hot (h0 : 380 < temp) (hm : m < 2) : refreshAfter m temp = 2 := by
  have hfor := refreshFor_hot h0
  rw [refreshAfter_of_le (by rw [hfor]; exact Nat.le_of_lt hm), hfor]

/-- The wing with a temperature read, and the refresh rate that it asks for. -/
def tempRead (x : Wing) (temp : Int) (onDie : Nat) : Wing :=
  { x with temp := temp, onDieEcc := onDie
           pendingMult := if refreshAfter x.refreshMult temp = x.refreshMult then none
             else some (refreshAfter x.refreshMult temp, refreshAfter x.refreshMult temp == 2) }

theorem execHbmTempReading_reads (hw : w < 8) (hp : wingPresent s w = true) (ha : memoryAlive s = true) (h0 : -2048 ≤ temp) (h1 : temp ≤ 420) :
    exec (.hbmTempReading w temp onDie) s = .next (setWing s w (tempRead (getWing s w) temp onDie)) := by
  show execHbmTempReading w temp onDie s = _
  unfold execHbmTempReading
  dsimp only
  rw [signedOf_unsignedOf_temp h0 h1, if_neg (fun hh => absurd hh.1 (Int.not_lt.mpr h1))]
  exact whenDo_true _ _ _ (by simp [hw, hp, ha])

theorem execRefreshRateChange_changes (hw : w < 8) (hp : (getWing s w).pendingMult = some (m, h)) : exec (.refreshRateChange w) s
    = .next (setWing s w { getWing s w with refreshMult := m, throttle := h, pendingMult := none }) := by
  show execRefreshRateChange w s = _
  unfold execRefreshRateChange
  dsimp only
  split
  · next hn => cases hn.symm.trans hp
  · next m' h' hn =>
    cases hn.symm.trans hp
    exact whenDo_true _ _ _ (by simp [hw])

theorem execOnlineRowRepair_repairs (hpc : pc < 512) (hp : wingPresent s (pc / 64) = true) (ha : memoryAlive s = true)
    (hr : (getWing s (pc / 64)).repairActive = none) (hn : (getWing s (pc / 64)).needRepair.contains (pc, row) = true)
    (hs : sparesLeft s pc row ≠ 0) : exec (.onlineRowRepair pc row) s
      = .next (setWing s (pc / 64) { getWing s (pc / 64) with repairActive := some (2 ^ 21 * pc + row) }) := by
  show execOnlineRowRepair pc row s = _
  unfold execOnlineRowRepair wingOfPc
  dsimp only
  rw [if_neg hs]
  exact whenDo_true _ _ _ (by simp only [hpc, hp, ha, hr, hn]; rfl)

/-- The wing with its row repaired: a spare fewer, and the row in no list any more. -/
def rowRepaired (s : State) (pc row : Nat) : Wing :=
  let x := getWing s (pc / 64)
  { x with repairActive := none, onlineRepairs := satInc 16 x.onlineRepairs
           spares := SMap.set x.spares (spareKey pc row) (sparesLeft s pc row - 1)
           needRepair := x.needRepair.filter (fun q => decide (q ≠ (pc, row))) }

/-- The state with a row repaired and entered in the repair map. -/
def repairNoted (s : State) (pc row : Nat) : State :=
  { setWing s (pc / 64) (rowRepaired s pc row) with
    attic := { s.attic with repairMap := s.attic.repairMap ++ [(pc, row)], repairVersion := (s.attic.repairVersion + 1) % 2 ^ 16 }
    atticStore := { s.atticStore with pendingFault := true } }

theorem execRowRepairComplete_completes (hpc : pc < 512) (hrow : row < 2 ^ 21)
    (ha : (getWing s (pc / 64)).repairActive = some (2 ^ 21 * pc + row)) :
    exec (.rowRepairComplete pc row []) s = .next (repairNoted s pc row) :=
  whenDo_true _ _ _ (by simp only [lostInRow, List.filterMap_nil, List.foldl_nil, wingOfPc, hpc, hrow, ha, decide_true, Bool.and_self])

theorem getWing_repairNoted : getWing (repairNoted s pc row) (pc / 64) = rowRepaired s pc row := getWing_setWing_same s (pc / 64) _

end

/-- Settles O13. -/
theorem memoryMaintenanceChangesNoByte : Obligations.MemoryMaintenanceChangesNoByte := by
  intro s ha
  refine ⟨fun pc addr hpc hp ht hal hadr => ⟨_, whenDo_true _ _ _ ?_, rfl, ?_⟩,
    fun pc row hpc hp hr hn hs => ⟨_, execOnlineRowRepair_repairs hpc hp ha hr hn hs, rfl, ?_⟩,
    fun pc row hpc hrow hr => ⟨_, execRowRepairComplete_completes hpc hrow hr, rfl, ?_, ?_, ?_, rfl⟩,
    fun w temp onDie hw hp h0 h1 => ⟨_, execHbmTempReading_reads hw hp ha h0 h1, rfl, ?_, ?_, fun hm h340 h380 => ?_, fun h380 hm => ?_⟩,
    fun w m h hw hm => ⟨_, execRefreshRateChange_changes hw hm, rfl, ?_⟩,
    fun w bank hw hp hb => ⟨⟨_, whenDo_true _ _ _ ?_, rfl, ?_⟩, ⟨_, whenDo_true _ _ _ ?_, rfl, ?_⟩⟩,
    fun w line hw hl => ⟨_, whenDo_true _ _ _ ?_, rfl, ?_⟩⟩
  · simp [hpc, ha, ht, hal, hadr, wingOfPc, hp]
  · exact congrArg Wing.scrubAt (getWing_setWing_same s (wingOfPc pc) _)
  · rw [getWing_setWing_same]
  · rw [getWing_repairNoted]
    rfl
  · rw [getWing_repairNoted]
    simp [rowRepaired]
  · rw [getWing_repairNoted]
    rfl
  · rw [getWing_setWing_same, tempRead]
  · rw [getWing_setWing_same, tempRead]
  · rw [getWing_setWing_same, tempRead, hm, refreshAfter_warm h340 h380]
    rfl
  · rw [getWing_setWing_same, tempRead, refreshAfter_hot h380 hm, if_neg (Nat.ne_of_gt hm)]
    rfl
  · rw [getWing_setWing_same]
    exact ⟨rfl, rfl, rfl⟩
  · simp [hw, hp, ha, hb]
  · rw [getWing_setWing_same]
  · simp [hw, hp, ha, hb]
  · rw [getWing_setWing_same]
  · simp [hw, hl]
  · exact congrArg Wing.lines (getWing_updWing_same s w _)

end Sys2Proof.Machine
end

section
/-!
PROOFS. Streams that end: timeouts, disables and their notices (rules R272 to R276).
-/
open Sys2Proof Sys2Proof.Says

namespace Sys2Proof.Machine

/-- An entry that has ended in a state: nothing is in flight, and the tags of a list are retired. -/
structure Closed (st : EntryState) (tags : List Nat) (x : StreamEntry) : Prop where
  state : x.state = st
  inFlight : x.inFlight = []
  retired : ∀ tag ∈ tags, tag ∈ x.retired

section
variable {s u : State} {e i n step idx : Nat} {st : EntryState} {tags : List Nat} {txn : Txn} {d q : Bool}

theorem getEntry_of_streams (h : u.streams = s.streams) : getEntry u e = getEntry s e := by
  unfold getEntry
  rw [h]

theorem stopStreams_streams (t : Nat) (ks : List KStream) (f : KFault) : (stopStreams s t ks f).streams = s.streams := by
  refine foldl_preserves State.streams (fun st k => ?_) ks s
  rfl

theorem recordFault_streams (r : FaultRec) : (recordFault s r).streams = s.streams := by
  rw [recordFault_only]

theorem consequentRecord_streams (t : Nat) (k : KStream) (w : Nat) : (consequentRecord s t k w).streams = s.streams := by
  unfold consequentRecord
  dsimp only
  split
  · rfl
  · exact recordFault_streams _

theorem nameOther_streams (c : Nat) : (nameOther s e c).streams = s.streams := by
  unfold nameOther
  split <;> rfl

/-! An entry whose transactions are absorbed is closed; the others stay. -/

theorem getEntry_absorbEntry_same (spare : Nat) : getEntry (absorbEntry s e st spare q) e = { getEntry s e with
    state := st, inFlight := []
    retired := if st = .disabled then (getEntry s e).retired else (getEntry s e).retired ++ (getEntry s e).inFlight.map (fun t => t.tag)
    absorbed := satAdd 32 (getEntry s e).absorbed ((getEntry s e).inFlight.length - spare + (if q then unstarted s e else 0))
    seqOldest := (getEntry s e).seqNext, draining := false } :=
  SMap.get_set_same ..

theorem getEntry_absorbEntry_other (spare : Nat) (h : e ≠ i) : getEntry (absorbEntry s i st spare q) e = getEntry s e :=
  SMap.get_set_other _ _ _ _ _ h

theorem absorbEntry_closed (spare : Nat) : Closed st [] (getEntry (absorbEntry s e st spare q) e) := by
  rw [getEntry_absorbEntry_same]
  exact ⟨rfl, rfl, fun _ h => (nomatch h)⟩

theorem absorbEntry_timedOut_closed (spare tag : Nat) (h : flightOf (getEntry s e) tag = some txn) :
    Closed .timedOut [tag] (getEntry (absorbEntry s e .timedOut spare q) e) := by
  rw [getEntry_absorbEntry_same]
  refine ⟨rfl, rfl, fun t ht => ?_⟩
  rw [List.mem_singleton] at ht
  subst ht
  have htag : txn.tag = t := by simpa using List.find?_some h
  have hmem : txn ∈ (getEntry s e).inFlight := List.mem_of_find?_eq_some h
  exact List.mem_append_right _ (List.mem_map.mpr ⟨txn, hmem, htag⟩)

/-- A notice at an entry that is bound ends it (rule R275). -/
theorem noticeAt_closes (c : Nat) (h : (getEntry s e).state = .bound) :
    Closed (if d then .disabled else .timedOut) [] (getEntry (noticeAt s e d c) e) := by
  unfold noticeAt
  dsimp only
  rw [if_pos h, getEntry_of_streams (recordFault_streams _)]
  refine Eq.subst (motive := Closed _ _) (Eq.symm ?_) (absorbEntry_closed (s := s) (e := e) (q := false) 0)
  exact getEntry_of_streams (stopStreams_streams ..)

/-- A notice leaves an entry that has ended as it is: it acts on another, or finds it not bound. -/
theorem noticeAt_closed (c : Nat) (hst : st ≠ .bound) (h : Closed st tags (getEntry s e)) : Closed st tags (getEntry (noticeAt s i d c) e) := by
  have hsame : ∀ v, v.streams = s.streams → Closed st tags (getEntry v e) := fun v hv => by
    rw [getEntry_of_streams hv]
    exact h
  unfold noticeAt
  dsimp only
  split
  · next hb =>
    have hne : e ≠ i := by
      rintro rfl
      exact hst (h.state.symm.trans hb)
    rw [getEntry_of_streams (recordFault_streams _)]
    refine Eq.subst (motive := Closed _ _) (Eq.symm ?_) h
    refine Eq.trans (getEntry_of_streams (stopStreams_streams ..)) ?_
    exact getEntry_absorbEntry_other _ hne
  · split
    · exact hsame _ (nameOther_streams _)
    · exact hsame _ rfl

theorem noticeByManagers_streams (dest : Nat) (r : Bytes) : (noticeByManagers s dest r).streams = s.streams := by
  unfold noticeByManagers
  split
  · rfl
  · rw [sendMgmt_only s _ _]

theorem sendControl_streams (p : Nat) (b : Bytes) : (sendControl s p b).streams = s.streams := by
  rw [sendControl_only s p b]

theorem notifyPeer_closed (c : Nat) (hst : st ≠ .bound) (h : Closed st tags (getEntry s e)) : Closed st tags (getEntry (notifyPeer s i d c) e) := by
  unfold notifyPeer
  dsimp only
  split
  · exact noticeAt_closed _ hst h
  · split
    · split
      · rw [getEntry_of_streams (sendControl_streams ..)]
        exact h
      · rw [getEntry_of_streams ((noticeByManagers_streams ..).trans (sendControl_streams ..))]
        exact h
    · exact h

theorem notifyPeer_memory (c : Nat) (h : (getEntry s e).type = typeMemory) : notifyPeer s e d c = s := by
  unfold notifyPeer
  simp [h, typeMemory, typeTile, typeRemote]

/-! The end of an evaluation window puts entries back, but not one that has ended. -/

theorem entryAfterWindow_closed {old x : StreamEntry} (h : Closed st tags x) : Closed st tags (entryAfterWindow old x) := by
  obtain ⟨hs, hf, hr⟩ := h
  unfold entryAfterWindow
  refine ⟨?_, rfl, fun t ht => List.mem_append_left _ (hr t ht)⟩
  dsimp only
  split <;> exact hs

theorem restoreWindow_streams : (restoreWindow s n).streams = s.streams := by
  unfold restoreWindow
  split
  · rfl
  · split
    · refine foldl_preserves State.streams (fun st p => ?_) _ _
      rfl
    · rfl

theorem absorbWindow_closed (w : EvalWindow) (h : Closed st tags (getEntry s e)) : Closed st tags (getEntry (absorbWindow s n w) e) := by
  unfold absorbWindow
  refine SMap.get_map_of (f := fun q => if decide (q.2.state ≠ .free) && q.2.suite == n then
    (q.1, entryAfterWindow (SMap.get q.2 w.entries q.1) q.2) else q) (fun q => ?_) (fun q hq => ?_) s.streams h
  · split <;> rfl
  · split
    · exact entryAfterWindow_closed hq
    · exact hq

theorem endWindow_closed (status : Nat) (h : Closed st tags (getEntry s e)) : Closed st tags (getEntry (endWindow s n status) e) := by
  have hback : Closed st tags (getEntry (restoreWindow s n) e) := by
    rw [getEntry_of_streams restoreWindow_streams]
    exact h
  unfold endWindow
  split
  · exact h
  · next w _ =>
    show Closed st tags (getEntry (if status ≠ 0 ∧ w.started = true then absorbWindow (restoreWindow s n) n w else restoreWindow s n) e)
    split
    · exact absorbWindow_closed w hback
    · exact hback

theorem poisonStep_streams : (poisonStep s n step idx).streams = s.streams := stillView_streams stillView_poisonStep

theorem confirmFault_closed (eval : Bool) (h : Closed st tags (getEntry s e)) : Closed st tags (getEntry (confirmFault s n step idx eval) e) := by
  cases eval with
  | true => exact endWindow_closed _ h
  | false =>
    refine Eq.subst (motive := Closed _ _) (Eq.symm ?_) h
    exact getEntry_of_streams poisonStep_streams

theorem setSuiteState_streams (x : SuiteState) : (setSuiteState s n x).streams = s.streams := by
  rw [(setSuiteState_only s n x).2.2]

/-! A timeout (rules R272, R273). -/

/-- The state with the entry's transactions absorbed, its streams stopped, and the timeout counted and recorded. -/
def timeoutNoted (s : State) (e : Nat) (txn : Txn) (r : FaultRec) (idx : Nat) : State :=
  let x := getEntry s e
  let s1 := stopStreams (absorbEntry s e .timedOut 1 false) x.ptile (((issuerOf s txn).map (fun k => [k])).getD []) .streamTimeout
  let s2 := updSuite s1 x.suite (fun su => { su with counts := { su.counts with timeouts := satInc 16 su.counts.timeouts } })
  nameDiscards (recordFault s2 r) e txn.tag txn.lost idx

theorem getEntry_timeoutNoted (r : FaultRec) : getEntry (timeoutNoted s e txn r idx) e = getEntry (absorbEntry s e .timedOut 1 false) e := by
  refine getEntry_of_streams (Eq.trans (recordFault_streams _) ?_)
  exact stopStreams_streams ..

/-- What a timeout comes to once it is noted: the step is poisoned, a suite that is stopping faults, and the far entry has a notice. -/
theorem timeOut_eq (cause : Nat) : ∃ (r : FaultRec) (own : Bool) (n : Nat), timeOut s e txn cause =
    (let s4 := if own then timeoutNoted s e txn r s.faults.next
       else confirmFault (timeoutNoted s e txn r s.faults.next) n txn.step s.faults.next (entryEval s e)
     notifyPeer (if (getSuite s4 n).slice.stopping then
       setSuiteState (updSuite s4 n (fun su => { su with slice := { su.slice with stopping := false } })) n .faulted else s4) e false s.faults.next) :=
  ⟨_, (crossingOwner s (getEntry s e).ptile).isSome, (getEntry s e).suite, rfl⟩

theorem timeOut_closed (cause tag : Nat) (h : flightOf (getEntry s e) tag = some txn) : Closed .timedOut [tag] (getEntry (timeOut s e txn cause) e) := by
  obtain ⟨r, own, n, heq⟩ := timeOut_eq (s := s) (e := e) (txn := txn) cause
  have hnoted : Closed .timedOut [tag] (getEntry (timeoutNoted s e txn r s.faults.next) e) := by
    rw [getEntry_timeoutNoted]
    exact absorbEntry_timedOut_closed 1 tag h
  rw [heq]
  refine notifyPeer_closed _ (by decide) ?_
  have hconfirmed : Closed .timedOut [tag] (getEntry (if own then timeoutNoted s e txn r s.faults.next
      else confirmFault (timeoutNoted s e txn r s.faults.next) n txn.step s.faults.next (entryEval s e)) e) := by
    cases own
    · exact confirmFault_closed _ hnoted
    · exact hnoted
  generalize (if own then timeoutNoted s e txn r s.faults.next
      else confirmFault (timeoutNoted s e txn r s.faults.next) n txn.step s.faults.next (entryEval s e)) = v at hconfirmed
  split
  · refine Eq.subst (motive := Closed _ _) (Eq.symm ?_) hconfirmed
    exact getEntry_of_streams (setSuiteState_streams _)
  · exact hconfirmed

theorem timeOut_seqNext (cause : Nat) (hm : (getEntry s e).type = typeMemory) (he : entryEval s e = false) :
    (getEntry (timeOut s e txn cause) e).seqNext = (getEntry s e).seqNext := by
  obtain ⟨r, own, n, heq⟩ := timeOut_eq (s := s) (e := e) (txn := txn) cause
  have hnoted := getEntry_timeoutNoted (s := s) (e := e) (txn := txn) (idx := s.faults.next) r
  have hconfirmed : getEntry (if own then timeoutNoted s e txn r s.faults.next
      else confirmFault (timeoutNoted s e txn r s.faults.next) n txn.step s.faults.next false) e
        = getEntry (absorbEntry s e .timedOut 1 false) e := by
    cases own
    · exact (getEntry_of_streams poisonStep_streams :).trans hnoted
    · exact hnoted
  rw [heq, he]
  dsimp only
  generalize (if own then timeoutNoted s e txn r s.faults.next
      else confirmFault (timeoutNoted s e txn r s.faults.next) n txn.step s.faults.next false) = v at hconfirmed
  have hlast : ∀ c : Bool, getEntry (if c then setSuiteState (updSuite v n (fun su =>
      { su with slice := { su.slice with stopping := false } })) n .faulted else v) e = getEntry (absorbEntry s e .timedOut 1 false) e := by
    intro c
    cases c
    · exact hconfirmed
    · exact (getEntry_of_streams (setSuiteState_streams _) :).trans hconfirmed
  rw [notifyPeer_memory, hlast, getEntry_absorbEntry_same]
  rw [hlast, getEntry_absorbEntry_same]
  exact hm

/-! A disable (rules R274, R276). -/

theorem disableNow_closed : Closed .disabled [] (getEntry (disableNow s e) e) := by
  unfold disableNow
  refine notifyPeer_closed _ (by decide) ?_
  rw [getEntry_of_streams (foldl_preserves State.streams (fun _ _ => consequentRecord_streams ..) _ _),
    getEntry_of_streams (stopStreams_streams ..)]
  exact absorbEntry_closed 0

/-! Notices on a port (rule R275). -/

theorem controlIn_own {p : Nat} {r : Bytes} {act : Nat → State} (hm : fieldAt r 4 4 = ownId s) (ho : ownsPort s p (fieldAt r 2 2) = true) :
    controlIn s p r act = act (fieldAt r 2 2) := by
  unfold controlIn
  dsimp only
  rw [if_pos (.inl hm), if_pos ho]

theorem noticeIn_own {p : Nat} {r : Bytes} (hm : fieldAt r 4 4 = ownId s) (ho : ownsPort s p (fieldAt r 2 2) = true) :
    noticeIn s p r = noticeAt s (fieldAt r 2 2) false (fieldAt r 8 4) := by
  unfold noticeIn
  dsimp only
  rw [if_neg (fun h => absurd h.2.1 (by simp [ho])), controlIn_own hm ho]

theorem execStreamTimeout_ends {tag : Nat} (he : e < 65536) (hb : (getEntry s e).state = .bound) (hf : flightOf (getEntry s e) tag = some txn)
    (ht : (getEntry s e).type = typeMemory ∨ (getEntry s e).outbound = true ∧ (getEntry s e).type ≠ typeInput) :
    exec (.streamTimeout e tag) s = .next (timeOut s e txn 0x0300) := by
  show execStreamTimeout e tag s = _
  unfold execStreamTimeout
  dsimp only
  rw [hf]
  refine whenDo_true _ _ _ ?_
  obtain ht | ⟨ho, ht⟩ := ht
  · simp [isEntry, he, hb, ht]
  · simp [isEntry, he, hb, ho, ht]

theorem execInputTimeout_ends {tag : Nat} (he : e < 65536) (hb : (getEntry s e).state = .bound) (hf : flightOf (getEntry s e) tag = some txn)
    (ht : (getEntry s e).type = typeInput) : exec (.inputTimeout e tag) s = .next (timeOut s e txn 0x0301) := by
  show execInputTimeout e tag s = _
  unfold execInputTimeout
  dsimp only
  rw [hf]
  exact whenDo_true _ _ _ (by simp [isEntry, he, hb, ht])

theorem Closed.and_contains {x : StreamEntry} {tag : Nat} (h : Closed st [tag] x) : x.state = st ∧ x.inFlight = [] ∧ x.retired.contains tag = true :=
  ⟨h.state, h.inFlight, by simpa using h.retired tag (List.mem_singleton_self tag)⟩

end

/-- Settles O14. -/
theorem timeoutsAndDisablesEndTheEntry : Obligations.TimeoutsAndDisablesEndTheEntry := by
  intro s e he
  refine ⟨fun tag hb hf ht => ?_, fun tag hb hf ho ht => ?_, fun tag hb hf ht => ?_, fun hb hd => ⟨?_, ?_⟩,
    fun p rec hp hrec hm ho hb => ⟨fun h3 => ?_, fun h4 => ?_⟩⟩
  · obtain ⟨txn, hf⟩ := Option.isSome_iff_exists.mp hf
    obtain ⟨hst, hin, hret⟩ := (timeOut_closed 0x0300 tag hf).and_contains
    exact ⟨_, execStreamTimeout_ends he hb hf (.inl ht), hst, hin, hret, timeOut_seqNext 0x0300 ht⟩
  · obtain ⟨txn, hf⟩ := Option.isSome_iff_exists.mp hf
    exact ⟨_, execStreamTimeout_ends he hb hf (.inr ⟨ho, ht⟩), (timeOut_closed 0x0300 tag hf).and_contains⟩
  · obtain ⟨txn, hf⟩ := Option.isSome_iff_exists.mp hf
    exact ⟨_, execInputTimeout_ends he hb hf ht, (timeOut_closed 0x0301 tag hf).and_contains⟩
  · show execDisableDrainExpiry e s = _
    unfold execDisableDrainExpiry
    dsimp only
    rw [if_pos hd]
    exact whenDo_true _ _ _ (by simp [isEntry, he, hb])
  · exact ⟨disableNow_closed.state, disableNow_closed.inFlight⟩
  · have hclosed := noticeAt_closes (s := s) (e := e) (d := false) (fieldAt rec 8 4) hb
    refine ⟨_, whenDo_true _ _ _ (by simp [hp, h3]), ?_⟩
    rw [noticeIn_own hm (by rw [hrec]; exact ho), hrec]
    exact ⟨hclosed.state, hclosed.inFlight⟩
  · have hclosed := noticeAt_closes (s := s) (e := e) (d := true) (fieldAt rec 8 4) hb
    refine ⟨_, whenDo_true _ _ _ (by simp [hp, h4]), ?_⟩
    rw [controlIn_own hm (by rw [hrec]; exact ho), hrec]
    exact ⟨hclosed.state, hclosed.inFlight⟩

end Sys2Proof.Machine
end

section
/-!
PROOFS. The fabric: credits, acknowledges and data flits (rules R171, R172, R293 to R297).
-/
open Sys2Proof Sys2Proof.Says

namespace Sys2Proof.Machine
section
variable {s : State} {p e tag : Nat} {rec body : Bytes} {ecc : List EccHit} {txn : Txn}

/-- The end of a transaction takes its tag out of flight, also where the entry's disable is waiting for the last one. -/
theorem finishTxn_tag_gone : ∀ t ∈ (getEntry (finishTxn s e txn) e).inFlight, t.tag ≠ txn.tag := by
  unfold finishTxn
  dsimp only
  split
  · rw [disableNow_closed.inFlight]
    exact fun t ht => nomatch ht
  · exact finished_tag_gone

theorem ackTag_tag_gone (ho : (getEntry s e).outbound = true) (hf : flightOf (getEntry s e) tag = some txn) (hl : txn.lost = none) :
    ∀ t ∈ (getEntry (ackTag s e tag) e).inFlight, t.tag ≠ tag := by
  have htag : txn.tag = tag := by simpa using List.find?_some hf
  have hack : ackTag s e tag = finishTxn s e txn := by
    unfold flightOf at hf
    unfold ackTag
    dsimp only
    rw [hf]
    simp [ho, hl]
  rw [hack, ← htag]
  exact finishTxn_tag_gone

/-- What a data flit comes to, by its fields: the cases of rules R294, R295 and R297. -/
def dataArrives (s : State) (p : Nat) (body : Bytes) (ecc : List EccHit) : State :=
  let module := fieldAt body 0 4
  let e := fieldAt body 4 2
  let cls := fieldAt body 6 1 % 4
  let tag := fieldAt body 8 4
  let data := bytesAt body 12 512
  let x := getEntry s e
  let s0 := returnCredit s p cls
  let ack := fun (st : State) => sendControl st x.port (controlRec 2 1 x.peerEntry (peerModule s x) tag)
  if 3 < fieldAt body 6 1 ∨ fieldAt body 7 1 ≠ 0 then discardAt s0 p false
  else if (getPort s p).linkVersion = 1 ∧ 1 < cls then discardAt s0 p false
  else if module = ownId s ∨ module = 0xFFFFFFFF then
    if !(ownsPort s p e) then discardAt s0 p true
    else if isFoldEntry s x then ack (setEntry s0 e (bufferFold x tag data))
    else
      match x.inFlight.find? (fun t => t.tag == tag) with
      | some slot => if x.outbound || slot.lost.isSome then strayTag s0 e tag else ack (finishTxn (landInbound s0 slot ⟨data, 0, ecc⟩) e slot)
      | none => strayTag s0 e tag
  else if cls = 3 then discardAt s0 p false
  else
    match forwardPort s p module with
    | some q =>
      if (getPort s q).linkVersion = 1 ∧ 1 < cls + 1 then discardAt s0 p false
      else forwardFlit s q (cls + 1) (dataContent module e (cls + 1) tag data) (p, cls)
    | none => discardAt s0 p false

theorem execDataFlit_arrives (hp : portUpFor s p = true) (hb : body.length = 524) :
    exec (.dataFlit p body ecc) s = .next (dataArrives s p body ecc) :=
  whenDo_true _ _ _ (by simp [hp, hb])

/-- A flit whose reserved bits are clear, on a link of a version that has its class. -/
structure FlitOk (s : State) (p : Nat) (body : Bytes) : Prop where
  reserved : ¬ (3 < fieldAt body 6 1 ∨ fieldAt body 7 1 ≠ 0)
  version : (getPort s p).linkVersion ≠ 1

theorem dataArrives_reserved (h : 3 < fieldAt body 6 1 ∨ fieldAt body 7 1 ≠ 0) :
    dataArrives s p body ecc = discardAt (returnCredit s p (fieldAt body 6 1 % 4)) p false := if_pos h

theorem dataArrives_unowned (h : FlitOk s p body) (hm : fieldAt body 0 4 = ownId s) (ho : ownsPort s p (fieldAt body 4 2) = false) :
    dataArrives s p body ecc = discardAt (returnCredit s p (fieldAt body 6 1 % 4)) p true := by
  unfold dataArrives
  dsimp only
  rw [if_neg h.reserved, if_neg (fun hv => h.version hv.1), if_pos (.inl hm), ho]
  rfl

theorem dataArrives_lands {slot : Txn} (h : FlitOk s p body) (hm : fieldAt body 0 4 = ownId s) (ho : ownsPort s p (fieldAt body 4 2) = true)
    (hfold : isFoldEntry s (getEntry s (fieldAt body 4 2)) = false) (hout : (getEntry s (fieldAt body 4 2)).outbound = false)
    (hf : flightOf (getEntry s (fieldAt body 4 2)) (fieldAt body 8 4) = some slot) (hl : slot.lost = none) :
    dataArrives s p body ecc = sendControl
        (finishTxn (landInbound (returnCredit s p (fieldAt body 6 1 % 4)) slot ⟨bytesAt body 12 512, 0, ecc⟩) (fieldAt body 4 2) slot)
        (getEntry s (fieldAt body 4 2)).port
        (controlRec 2 1 (getEntry s (fieldAt body 4 2)).peerEntry (peerModule s (getEntry s (fieldAt body 4 2))) (fieldAt body 8 4)) := by
  unfold flightOf at hf
  unfold dataArrives
  dsimp only
  rw [if_neg h.reserved, if_neg (fun hv => h.version hv.1), if_pos (.inl hm), ho, hfold, hf]
  simp [hout, hl]

theorem dataArrives_goes_on {q : Nat} (h : FlitOk s p body) (hc : fieldAt body 6 1 < 3) (hm : fieldAt body 0 4 ≠ ownId s)
    (hall : fieldAt body 0 4 ≠ 0xFFFFFFFF) (hq : forwardPort s p (fieldAt body 0 4) = some q) (hv : (getPort s q).linkVersion ≠ 1) :
    dataArrives s p body ecc = forwardFlit s q (fieldAt body 6 1 % 4 + 1)
        (dataContent (fieldAt body 0 4) (fieldAt body 4 2) (fieldAt body 6 1 % 4 + 1) (fieldAt body 8 4) (bytesAt body 12 512))
        (p, fieldAt body 6 1 % 4) := by
  unfold dataArrives
  dsimp only
  rw [if_neg h.reserved, if_neg (fun hv => h.version hv.1), if_neg (not_or.mpr ⟨hm, hall⟩), if_neg (by omega), hq]
  exact if_neg (fun hv' => hv hv'.1)

/-- The entry with the slots that a CREDIT record posts. -/
def credited (s : State) (e : Nat) (rec : Bytes) : State :=
  setEntry s e { getEntry s e with posted := (fieldAt rec 8 4 + (fieldAt rec 1 1 + 1)) % 2 ^ 32 }

theorem execCredit_posts (hp : portUpFor s p = true) (he : fieldAt rec 2 2 = e) (hm : fieldAt rec 4 4 = ownId s) (ho : ownsPort s p e = true)
    (h1 : fieldAt rec 0 1 = 1) (hout : (getEntry s e).outbound = true) (hb : (getEntry s e).state = .bound) :
    exec (.credit p rec) s = .next (credited s e rec) := by
  subst he
  show execCredit p rec s = _
  unfold execCredit
  rw [controlIn_own hm ho]
  refine (whenDo_true _ _ _ (by simp [hp, h1])).trans (congrArg Host.Outcome.next ?_)
  exact if_pos (by simp [hout, hb])

theorem execAck_completes (hp : portUpFor s p = true) (he : fieldAt rec 2 2 = e) (hm : fieldAt rec 4 4 = ownId s) (ho : ownsPort s p e = true)
    (h2 : fieldAt rec 0 1 = 2) : exec (.ack p rec) s
      = .next ((List.range (fieldAt rec 1 1 + 1)).foldl (fun st i => ackTag st e ((fieldAt rec 8 4 + i) % 2 ^ 32)) s) := by
  subst he
  show execAck p rec s = _
  unfold execAck
  rw [controlIn_own hm ho]
  exact whenDo_true _ _ _ (by simp [hp, h2])

end

/-- Settles O15. -/
theorem fabricTrafficReachesItsEntry : Obligations.FabricTrafficReachesItsEntry := by
  intro s p hp
  refine ⟨fun rec e he hm ho h1 hout hb => ⟨_, execCredit_posts hp he hm ho h1 hout hb, rfl, getEntry_setEntry_same .., fun i hi => ?_⟩,
    fun rec e he hm ho h2 => execAck_completes hp he hm ho h2, fun e tag x hout hf hl => ackTag_tag_gone hout hf hl,
    fun body ecc slot hb hc h0 hv hm ho hfold hout hf hl => ?_, fun body ecc q hb hc h0 hv hm hall hq hqv => ?_,
    fun body ecc hb hc h0 hm ho hv => ?_, fun body ecc hb h => ?_⟩
  · exact SMap.get_set_other _ _ _ _ _ hi
  · rw [execDataFlit_arrives hp hb, dataArrives_lands ⟨by omega, hv⟩ hm ho hfold hout hf hl]
  · rw [execDataFlit_arrives hp hb, dataArrives_goes_on ⟨by omega, hv⟩ hc hm hall hq hqv]
  · rw [execDataFlit_arrives hp hb, dataArrives_unowned ⟨by omega, hv⟩ hm ho]
  · rw [execDataFlit_arrives hp hb, dataArrives_reserved h]

end Sys2Proof.Machine
end

section
/-!
PROOFS. The link layer: flits received, asked for again and resent (rules R287 to R291, R294, R296).
-/
open Sys2Proof Sys2Proof.Says

namespace Sys2Proof.Machine
section
variable {s u : State} {p a n : Nat} {flit rec : Bytes} {x y : Port}

/-! With nothing waiting, nothing goes out. -/

theorem nextTx_of_none_waiting (h : x.waitTx = []) : nextTx x = none := by
  unfold nextTx
  rw [h]
  rfl

theorem pumpTx_none_waiting (h : (getPort s p).waitTx = []) : ∀ k, pumpTx k [p] s = s
  | 0 => rfl
  | k + 1 => by
    unfold pumpTx
    rw [nextTx_of_none_waiting h]
    cases k <;> rfl

theorem drainTx_none_waiting (h : (getPort s p).waitTx = []) : drainTx s p = s := pumpTx_none_waiting h _

theorem idleAfter_only (v : State) : idleAfter v s p = { s with outbox := (idleAfter v s p).outbox } := by
  unfold idleAfter
  split <;> rfl

/-! FLIT_RECEIVE. -/

theorem portUp_ready (hp : portUpFor s p = true) : portPresent s p = true ∧ (getPort s p).state = portUp := by
  unfold portUpFor at hp
  rw [Bool.and_eq_true, beq_iff_eq] at hp
  exact hp

theorem portUpFor_ready (hp : portUpFor s p = true) :
    (portPresent s p && ((getPort s p).state == portUp || (getPort s p).state == portMgmtOnly)) = true := by
  obtain ⟨hpres, hup⟩ := portUp_ready hp
  simp [hpres, hup]

/-- A flit with a codeword lost, or of a bad CRC, is asked for again. -/
theorem execFlitReceive_rejects {fec : FecObs} (hp : portUpFor s p = true) (hl : flit.length = 536)
    (hb : (∃ n, fec = .uncorrectable n) ∨ fieldAt flit 532 4 ≠ crc32 (flit.take 532)) :
    exec (.flitReceive p flit fec) s = .next (rejectFlit (countFec s p fec) p) := by
  show execFlitReceive p flit fec s = _
  unfold execFlitReceive
  dsimp only
  refine (whenDo_true _ _ _ (by rw [portUpFor_ready hp, hl]; rfl)).trans (congrArg Host.Outcome.next (if_pos ?_))
  obtain ⟨n, rfl⟩ | hcrc := hb
  · rfl
  · simp [hcrc]

/-- The port after a flit of a good CRC that is not of a form the rules know. -/
def discarded (x : Port) (flit : Bytes) : Port :=
  { x with otherDiscard := satInc 16 x.otherDiscard
           rxSeq := if !decide (fieldAt flit 0 1 / 16 = 0) && fieldAt flit 1 3 == x.rxSeq then (x.rxSeq + 1) % 2 ^ 24 else x.rxSeq }

/-- The state after a clean flit: the port's new state, what goes out, and where it was not IDLE its acknowledgement. -/
def received (s : State) (p : Nat) (flit : Bytes) (drain : Bool) (x : Port) : State :=
  let s1 := setPort s p x
  let s2 := if drain then drainTx s1 p else s1
  if decide (fieldAt flit 0 1 / 16 = 0) then s2 else idleAfter s1 s2 p

theorem execFlitReceive_clean (hp : portUpFor s p = true) (hl : flit.length = 536) (hc : fieldAt flit 532 4 = crc32 (flit.take 532)) :
    exec (.flitReceive p flit .clean) s = .next (if flitFormOk flit then received s p flit true (acceptFlit (getPort s p) flit)
      else received s p flit false (discarded (getPort s p) flit)) := by
  show execFlitReceive p flit .clean s = _
  unfold execFlitReceive
  dsimp only
  refine (whenDo_true _ _ _ (by rw [portUpFor_ready hp, hl]; rfl)).trans (congrArg Host.Outcome.next ?_)
  rw [if_neg (by simp [hc])]
  cases flitFormOk flit <;> rfl

theorem received_only (drain : Bool) : received s p flit drain x = { s with ports := (received s p flit drain x).ports,
                                                                            outbox := (received s p flit drain x).outbox } := by
  have hdrain : SentOnly (setPort s p x) (if drain then drainTx (setPort s p x) p else setPort s p x) := by
    split
    · exact drainTx_only ..
    · rfl
  unfold SentOnly at hdrain
  unfold received
  dsimp only
  split
  · rw [hdrain]
    rfl
  · rw [idleAfter_only, hdrain]
    rfl

theorem rxSide_received (drain : Bool) : rxSide (getPort (received s p flit drain x) p) = rxSide x := by
  have hdrain : rxSide (getPort (if drain then drainTx (setPort s p x) p else setPort s p x) p) = rxSide x := by
    split
    · rw [rxSide_drainTx, getPort_setPort_same]
    · rw [getPort_setPort_same]
  unfold received
  dsimp only
  split
  · exact hdrain
  · rw [idleAfter_only]
    exact hdrain

theorem acceptFlit_rxSeq : (acceptFlit x flit).rxSeq = if fieldAt flit 0 1 / 16 ≠ 0 ∧ fieldAt flit 1 3 = x.rxSeq
    then (x.rxSeq + 1) % 2 ^ 24 else x.rxSeq := by
  unfold acceptFlit
  dsimp only
  split <;> split <;> rfl

theorem acceptFlit_crcErr : (acceptFlit x flit).crcErr = x.crcErr := by
  unfold acceptFlit
  dsimp only
  split <;> split <;> rfl

theorem acceptFlit_otherDiscard : (acceptFlit x flit).otherDiscard = x.otherDiscard := by
  unfold acceptFlit
  dsimp only
  split <;> split <;> rfl

/-! What the error correction counts. -/

theorem getPort_portEvents (f : Port → Nat → Port) (h : (SMap.get {} s.portExtra p).cdcHeld = false) :
    getPort (portEvents s p n f) p = f (getPort s p) n := by
  unfold portEvents crossEvents
  dsimp only
  rw [getPort_updPort_same, h]
  rfl

/-! NAK and the retry budget. -/

theorem foldl_send (l : List (Nat × Bytes)) (s : State) : l.foldl (fun st q => send st (.port p) .data q.2) s
    = { s with outbox := s.outbox ++ l.map (fun q => ⟨.port p, .data, q.2⟩) } := by
  induction l generalizing s with
  | nil => simp
  | cons q l ih =>
    rw [List.foldl_cons, ih, List.map_cons]
    unfold send
    simp

/-- The port that has kept what the far end still misses. -/
def naked (x : Port) (a : Nat) (spent : Bool) : Port :=
  { x with replay := unacked x.replay a, acked := a, replays := satInc 16 x.replays, retries := x.retries + 1, linkRetries := x.linkRetries + 1
           linkReplays := if spent then x.linkReplays else x.linkReplays + (unacked x.replay a).length }

theorem execNak_eq (hp : portUpFor s p = true) (hk : unacked (getPort s p).replay a ≠ []) : exec (.nak p a) s
    = .next (if 9 ≤ (getPort s p).retries + 1 then startRetrain (setPort s p (naked (getPort s p) a true)) p 0
        else (unacked (getPort s p).replay a).foldl (fun st q => send st (.port p) .data q.2) (setPort s p (naked (getPort s p) a false))) := by
  obtain ⟨-, hup⟩ := portUp_ready hp
  show execNak p a s = _
  unfold execNak
  dsimp only
  refine (whenDo_true _ _ _ (by rw [portUpFor_ready hp]; simp [List.length_pos_iff, hk])).trans (congrArg Host.Outcome.next ?_)
  have hspent : (decide (9 ≤ (getPort s p).retries + 1) && (getPort s p).state == portUp) = decide (9 ≤ (getPort s p).retries + 1) := by
    simp [hup]
  rw [hspent]
  by_cases h : 9 ≤ (getPort s p).retries + 1
  · rw [if_pos h, decide_eq_true h]
    rfl
  · rw [if_neg h, decide_eq_false h]
    rfl

theorem startRetrain_fast_state : (getPort (startRetrain s p 0) p).state = portRetraining := by
  unfold startRetrain
  dsimp only
  rw [getPort_updPort_same]
  dsimp only
  refine if_neg ?_
  split <;> decide

theorem startRetrain_fast_kind : (getPort (startRetrain s p 0) p).retrainKind = if (getPort s p).linkVersion = 1 then 1 else 0 := by
  unfold startRetrain
  dsimp only
  rw [getPort_updPort_same]
  simp only [true_and]

/-- The port with buffers of a class free again. -/
def recredited (s : State) (p : Nat) (rec : Bytes) : State :=
  let cap := if fieldAt rec 2 2 = 4 then 32 else 512
  updPort s p (fun x => { x with credits := SMap.modify 0 x.credits (fieldAt rec 2 2) (fun c => min cap (c + (fieldAt rec 1 1 + 1))) })

theorem execLinkCredit_frees (hp : portUpFor s p = true) (h5 : fieldAt rec 0 1 = 5) (hc : fieldAt rec 2 2 ≤ 4) (hw : (getPort s p).waitTx = []) :
    exec (.linkCredit p rec) s = .next (recredited s p rec) := by
  obtain ⟨hpres, -⟩ := portUp_ready hp
  have hwait : (getPort (recredited s p rec) p).waitTx = [] := by
    unfold recredited
    rw [getPort_updPort_same]
    exact hw
  exact (whenDo_true _ _ _ (by simp [hpres, h5, hc])).trans (congrArg Host.Outcome.next (drainTx_none_waiting hwait))

end

/-- Settles O16. -/
theorem linkLayerAcceptsInOrder : Obligations.LinkLayerAcceptsInOrder := by
  intro s p hp
  refine ⟨fun flit hl hc => ⟨_, execFlitReceive_rejects hp hl (.inr hc), rfl, getPort_setPort_same ..⟩,
    fun flit n hl => ⟨execFlitReceive_rejects hp hl (.inl ⟨n, rfl⟩), fun hh => ?_⟩, fun n hh => ?_,
    fun flit hl hc hform => ?_, fun flit hl hc hform => ?_, fun a hk hr => ?_, fun a hk hr => ?_, ?_, fun rec h5 hc hw => ?_⟩
  · unfold countFec
    dsimp only
    rw [getPort_portEvents _ hh]
  · unfold countFec
    refine (congrArg Port.fecCorr (getPort_portEvents (s := updPort s p (fun x => { x with linkFec := x.linkFec + n })) _ hh)).trans ?_
    rw [getPort_updPort_same]
  · have hview := rxSide_received (s := s) (p := p) (flit := flit) (x := discarded (getPort s p) flit) false
    refine ⟨_, execFlitReceive_clean hp hl hc, ?_⟩
    rw [if_neg (by rw [hform]; decide)]
    have hseq : _ = (discarded (getPort s p) flit).rxSeq := (congrArg Port.rxSeq hview :)
    have hdisc : _ = (discarded (getPort s p) flit).otherDiscard := (congrArg Port.otherDiscard hview :)
    refine ⟨received_only _, hdisc, fun hidle hnum => ?_, fun hidle => ?_⟩
    · refine Eq.trans hseq ?_
      simp [discarded, hidle, hnum]
    · refine Eq.trans hseq ?_
      simp [discarded, hidle]
  · have hview := rxSide_received (s := s) (p := p) (flit := flit) (x := acceptFlit (getPort s p) flit) true
    refine ⟨_, execFlitReceive_clean hp hl hc, ?_⟩
    rw [if_pos hform]
    exact ⟨received_only _, (congrArg Port.rxSeq hview :).trans acceptFlit_rxSeq, (congrArg Port.crcErr hview :).trans acceptFlit_crcErr,
      (congrArg Port.otherDiscard hview :).trans acceptFlit_otherDiscard⟩
  · refine ⟨_, execNak_eq hp hk, ?_⟩
    rw [if_neg (by omega), foldl_send]
    have hport : getPort { setPort s p (naked (getPort s p) a false) with
        outbox := s.outbox ++ (unacked (getPort s p).replay a).map (fun q => ⟨.port p, .data, q.2⟩) } p = naked (getPort s p) a false :=
      getPort_setPort_same ..
    exact ⟨rfl, rfl, congrArg Port.replay hport, congrArg Port.retries hport⟩
  · refine ⟨_, execNak_eq hp hk, ?_⟩
    rw [if_pos hr]
    exact ⟨rfl, startRetrain_fast_state⟩
  · obtain ⟨hpres, hup⟩ := portUp_ready hp
    exact ⟨_, whenDo_true _ _ _ (by simp [hpres, hup]), rfl, startRetrain_fast_state, startRetrain_fast_kind⟩
  · refine ⟨_, execLinkCredit_frees hp h5 hc hw, rfl, ?_⟩
    unfold recredited SMap.modify
    rw [getPort_updPort_same]
    exact SMap.get_set_same ..

end Sys2Proof.Machine
end

section
/-!
PROOFS. Crossings: held by a timeout, resynchronised after the reset (rules R360, R362, R365).
-/
open Sys2Proof Sys2Proof.Says

namespace Sys2Proof.Machine
section
variable {s u : State} {t p e n i idx w : Nat} {st : EntryState} {q d : Bool}

/-! Ending entries leaves the view that confirming a fault leaves. -/

theorem stillView_sendFlit (type cls : Nat) (b : Bytes) : stillView (sendFlit s p type cls b) = stillView s := by
  have hports : (fun q => rxSide (getPort (sendFlit s p type cls b) q)) = fun q => rxSide (getPort s q) := funext fun q => rxSide_sendFlit ..
  unfold stillView suiteView
  rw [hports, sendFlit_only s p type cls b]
  rfl

theorem stillView_sendMgmt (b : Bytes) : stillView (sendMgmt s p b) = stillView s := by
  have hports : (fun q => rxSide (getPort (sendMgmt s p b) q)) = fun q => rxSide (getPort s q) := funext fun q => rxSide_sendMgmt ..
  unfold stillView suiteView
  rw [hports, sendMgmt_only s p b]
  rfl

theorem suiteView_setEntry (x : StreamEntry) : suiteView (setEntry s e x) = suiteView s := rfl

theorem suiteView_dropTransfers (c : Nat) : suiteView (dropTransfers s e c) = suiteView s := by
  unfold dropTransfers setLanding
  refine suiteView_updTile ?_
  exact fun _ => rfl

theorem suiteView_absorbEntry (spare : Nat) : suiteView (absorbEntry s e st spare q) = suiteView s := by
  unfold absorbEntry
  refine Eq.trans (suiteView_updSuite ?_) ((suiteView_setEntry _).trans (suiteView_dropTransfers _))
  exact fun _ => rfl

theorem suiteView_stopStream (k : KStream) (f : KFault) : suiteView (stopStream s t k f) = suiteView s := by
  unfold stopStream
  refine suiteView_updTile ?_
  exact fun _ => rfl

theorem suiteView_stopStreams (ks : List KStream) (f : KFault) : suiteView (stopStreams s t ks f) = suiteView s :=
  foldl_preserves suiteView (fun _ _ => suiteView_stopStream ..) ks s

theorem suiteView_nameOther (c : Nat) : suiteView (nameOther s e c) = suiteView s := by
  unfold nameOther
  split <;> rfl

theorem suiteView_noticeAt (c : Nat) : suiteView (noticeAt s e d c) = suiteView s := by
  unfold noticeAt
  dsimp only
  split
  · refine Eq.trans (suiteView_of_stillView (stillView_recordFault _)) (Eq.trans (suiteView_updSuite ?_) ?_)
    · exact fun _ => rfl
    · exact (suiteView_stopStreams ..).trans (suiteView_absorbEntry _)
  · refine Eq.trans (suiteView_updSuite ?_) ?_
    · exact fun _ => rfl
    · split
      · exact suiteView_nameOther _
      · rfl

theorem suiteView_noticeByManagers (dest : Nat) (r : Bytes) : suiteView (noticeByManagers s dest r) = suiteView s := by
  unfold noticeByManagers
  split
  · rfl
  · exact suiteView_of_stillView (stillView_sendMgmt _)

theorem suiteView_notifyPeer (c : Nat) : suiteView (notifyPeer s e d c) = suiteView s := by
  unfold notifyPeer
  dsimp only
  split
  · exact suiteView_noticeAt _
  · split
    · split
      · exact suiteView_of_stillView (stillView_sendFlit ..)
      · exact (suiteView_noticeByManagers ..).trans (suiteView_of_stillView (stillView_sendFlit ..))
    · rfl

theorem suiteView_signRecord (stopped : Bool) : suiteView (signRecord s idx stopped) = suiteView s :=
  suiteView_of_stillView (stillView_signRecord _)

theorem suiteView_cdcRecord (cls domain : Nat) : suiteView (cdcRecord s cls i domain) = suiteView s :=
  (suiteView_signRecord _).trans (suiteView_of_stillView (stillView_recordFault _))

theorem suiteView_poisonHolders (cls : Nat) : suiteView (poisonHolders s cls i idx) = suiteView s := by
  unfold poisonHolders
  refine foldl_preserves suiteView (fun st p => ?_) _ s
  split
  · exact suiteView_confirmFault _
  · rfl

/-- A tile's reset begins: its streams halt, it is in reset, and its entries end. -/
theorem tileSide_beginTileReset : tileSide (getTile (beginTileReset s t) t)
    = tileSide { getTile s t with health := { (getTile s t).health with inReset := true } } := by
  have hfold : ∀ v : State, suiteView ((unitEntries v 0 t).foldl (fun st e =>
      if (getEntry st e).state = .bound ∨ (getEntry st e).state = .unbound then
        notifyPeer (absorbEntry st e .disabled 0 true) e true ((unitOwner st (getEntry st e).suite).getD 0xFFFFFFFF) else st) v) = suiteView v := by
    intro v
    refine foldl_preserves suiteView (fun st e => ?_) _ v
    split
    · exact (suiteView_notifyPeer _).trans (suiteView_absorbEntry _)
    · rfl
  refine Eq.trans (suiteView_tile (hfold _) t) ?_
  unfold haltTile
  rw [updTile_updTile, getTile_updTile_same]
  rfl

theorem tileSide_kept {x y : Tile} (h : tileSide x = tileSide y) : x.health = y.health ∧ x.cdcHeld = y.cdcHeld ∧ x.counts = y.counts :=
  ⟨(congrArg Tile.health h :), (congrArg Tile.cdcHeld h :), (congrArg Tile.counts h :)⟩

/-! A crossing's timeout. -/

/-- The tile with its crossing held and the timeout counted. -/
def tileHeldUp (s : State) (t : Nat) : State :=
  updTile s t (fun x => { x with cdcHeld := true, counts := { x.counts with cdcTimeouts := satInc 8 x.counts.cdcTimeouts } })

/-- The state after a tile's crossing has timed out: recorded, confirmed, and the tile in reset. -/
def tileTimedOut (s : State) (t : Nat) : State :=
  beginTileReset (poisonHolders (cdcRecord (tileHeldUp s t) 0 t 0) 0 t s.faults.next) t

theorem tileSide_tileTimedOut : tileSide (getTile (tileTimedOut s t) t) = tileSide { getTile s t with
    health := { (getTile s t).health with inReset := true }, cdcHeld := true
    counts := { (getTile s t).counts with cdcTimeouts := satInc 8 (getTile s t).counts.cdcTimeouts } } := by
  have hview := suiteView_tile ((suiteView_poisonHolders (s := cdcRecord (tileHeldUp s t) 0 t 0) (i := t) (idx := s.faults.next) 0).trans
    (suiteView_cdcRecord 0 0)) t
  have hheld : getTile (tileHeldUp s t) t = { getTile s t with
      cdcHeld := true, counts := { (getTile s t).counts with cdcTimeouts := satInc 8 (getTile s t).counts.cdcTimeouts } } :=
    getTile_updTile_same ..
  rw [hheld] at hview
  refine tileSide_beginTileReset.trans ?_
  exact congrArg (fun x : Tile => ({ x with health := { x.health with inReset := true } } : Tile)) hview

/-- The port's crossing held and the timeout counted, recorded and confirmed. -/
def spireHeldUp (s : State) (p : Nat) : State :=
  let s1 : State := { s with portExtra := SMap.modify {} s.portExtra p (fun x => { x with cdcHeld := true, cdcTimeouts := satInc 8 x.cdcTimeouts }) }
  poisonHolders (cdcRecord s1 4 p 3) 4 p s.faults.next

theorem spireHeldUp_port (i : Nat) : rxSide (getPort (spireHeldUp s p) i) = rxSide (getPort s i) :=
  suiteView_port ((suiteView_poisonHolders _).trans (suiteView_cdcRecord ..)) i

theorem spireHeldUp_extra : (spireHeldUp s p).portExtra
    = SMap.modify {} s.portExtra p (fun x => { x with cdcHeld := true, cdcTimeouts := satInc 8 x.cdcTimeouts }) :=
  (congrArg State.portExtra (suiteView_frame ((suiteView_poisonHolders _).trans (suiteView_cdcRecord ..))) :)

theorem execCdcTimeout_tile (hd : s.dev = .running) (ht : t < 80) (hp : wingPresent s (t / 10) = true) (hr : (getTile s t).health.inReset = false) :
    exec (.cdcTimeout (.tile t)) s = .next (tileTimedOut s t) :=
  whenDo_true _ _ _ (by simp [hd, isTile, ht, hp, hr])

theorem execCdcTimeout_spire (hd : s.dev = .running) (hp : portPresent s p = true) (hup : (getPort s p).state = portUp) :
    exec (.cdcTimeout (.spire p)) s = .next (startRetrain (spireHeldUp s p) p 1) := by
  have hstate : (getPort (spireHeldUp s p) p).state = portUp := (congrArg Port.state (spireHeldUp_port p) :).trans hup
  exact (whenDo_true _ _ _ (by simp [hd, hp])).trans (congrArg Host.Outcome.next (if_pos hstate))

/-- The tile with its crossing carrying again. -/
def tileResynced (s : State) (t : Nat) : State :=
  updTile s t (fun x => { x with cdcHeld := false, cdcPending := 0, counts := { x.counts with cdcResyncs := satInc 8 x.counts.cdcResyncs } })

def wingResynced (s : State) (w : Nat) : State :=
  updWing s w (fun x => { x with cdcHeld := false, cdcPending := 0, cdcResyncs := satInc 8 x.cdcResyncs })

theorem execCrossingResync_tile (ht : t < 80) (hr : (getTile s t).health.inReset = false) :
    exec (.crossingResync (.tile t)) s = .next (tileResynced s t) :=
  whenDo_true _ _ _ (by simp [isTile, ht, hr])

theorem execCrossingResync_wing (hw : w < 8) (hr : (getWing s w).inReset = false) :
    exec (.crossingResync (.wing w)) s = .next (wingResynced s w) :=
  whenDo_true _ _ _ (by simp [hw, hr])

theorem tileResynced_onlyTile : onlyTile s (tileResynced s t) t := ⟨rfl, fun _ hx => getTile_updTile_other s _ _ _ hx⟩

theorem startRetrain_full_state : (getPort (startRetrain s p 1) p).state = portRetraining := by
  unfold startRetrain
  dsimp only
  rw [getPort_updPort_same]
  rfl

theorem startRetrain_extra (kind : Nat) : (startRetrain s p kind).portExtra = s.portExtra := rfl

end

/-- Settles O21. -/
theorem crossingsAreHeldAndResynchronised : Obligations.CrossingsAreHeldAndResynchronised := by
  intro s hd
  refine ⟨fun t ht hp hr => ⟨_, execCdcTimeout_tile hd ht hp hr, ?_⟩, fun p hp hup => ⟨_, execCdcTimeout_spire hd hp hup, startRetrain_full_state, ?_⟩,
    fun t ht hr => ⟨_, execCrossingResync_tile ht hr, tileResynced_onlyTile, ?_⟩, fun w hw hr => ⟨_, execCrossingResync_wing hw hr, rfl, ?_⟩⟩
  · obtain ⟨hhealth, hheld, hcounts⟩ := tileSide_kept (tileSide_tileTimedOut (s := s) (t := t))
    rw [hhealth, hheld, hcounts]
    exact ⟨rfl, rfl, rfl⟩
  · rw [startRetrain_extra, spireHeldUp_extra]
    unfold SMap.modify
    rw [SMap.get_set_same]
  · unfold tileResynced
    rw [getTile_updTile_same]
    exact ⟨rfl, rfl, rfl⟩
  · unfold wingResynced
    rw [getWing_updWing_same]
    exact ⟨rfl, rfl⟩

end Sys2Proof.Machine
end

section
/-!
PROOFS. Feeds and Lanterns: switch-overs, and the states of a Lantern (rules R303 to R310).
-/
open Sys2Proof Sys2Proof.Says

namespace Sys2Proof.Machine

/-- A Lantern but for its mirror registers. -/
def unmirrored (x : Lantern) : Lantern := { x with mirror := {} }

section
variable {s u : State} {p l i st f target : Nat} {x y : Lantern}

theorem getLantern_of_lanterns (h : u.lanterns = s.lanterns) : getLantern u i = getLantern s i := by
  unfold getLantern
  rw [h]

theorem getLantern_updLantern (g : Lantern → Lantern) : getLantern (updLantern s l g) i = if i = l then g (getLantern s i) else getLantern s i := by
  by_cases h : i = l
  · subst h
    rw [getLantern_updLantern_same, if_pos rfl]
  · rw [getLantern_updLantern_other _ _ _ _ h, if_neg h]

/-! What moves a feed leaves the Lanterns. -/

theorem recordFault_lanterns (r : FaultRec) : (recordFault s r).lanterns = s.lanterns := by
  rw [recordFault_only]

theorem signRecord_lanterns (idx : Nat) (stopped : Bool) : (signRecord s idx stopped).lanterns = s.lanterns := by
  unfold signRecord
  extract_lets r a
  split <;> rfl

theorem downPort_lanterns (record : Bool) : (downPort s p record).lanterns = s.lanterns := by
  unfold downPort
  dsimp only
  split
  · exact (signRecord_lanterns ..).trans (recordFault_lanterns _)
  · rfl

theorem loseFeed_lanterns : (loseFeed s p).lanterns = s.lanterns := by
  have hdown : ∀ b, (downPort (updPort s p (fun y => { y with feed := 2, switching := none })) p b).lanterns = s.lanterns := fun b =>
    downPort_lanterns _
  unfold loseFeed
  dsimp only
  split
  · split
    · rfl
    · split
      · rfl
      · exact hdown _
  · split
    · rfl
    · exact hdown _

theorem takeFeeds_lanterns : (takeFeeds s).lanterns = s.lanterns := by
  refine foldl_preserves State.lanterns (fun q p => ?_) _ s
  dsimp only
  split
  · split <;> rfl
  · rfl

theorem lanternEvent_lanterns (cause : Nat) : (lanternEvent s l cause).lanterns = s.lanterns := by
  unfold lanternEvent
  dsimp only
  exact (signRecord_lanterns ..).trans (recordFault_lanterns _)

theorem answerLantern_lanterns : (answerLantern s l).lanterns = s.lanterns := by
  unfold answerLantern
  refine foldl_preserves State.lanterns (fun q r => ?_) _ s
  refine foldl_preserves State.lanterns (fun q w => ?_) _ q
  exact (congrArg State.lanterns (finish_only ..) :)

/-! The mirror registers are all that a refresh changes. -/

theorem unmirrored_refreshMirror : unmirrored (getLantern (refreshMirror s l) i) = unmirrored (getLantern s i) := by
  unfold refreshMirror
  rw [getLantern_updLantern]
  split <;> rfl

theorem refreshMirror_lanterns_only : refreshMirror s l = { s with lanterns := (refreshMirror s l).lanterns } := rfl

/-! A Lantern's change of state. -/

/-- The state with the Lantern in a state, and the feeds of a dark one reading dark. -/
def lanternMoved (s : State) (l st : Nat) : State :=
  let s1 := updLantern s l (fun x => { x with state := st })
  if st ≠ 2 ∧ st ≠ 3 ∧ st ≠ 7 then
    (lanternPorts l).foldl (fun q p => updPort q p (fun x =>
      { x with feedPower := (List.range 9).foldl (fun m w => SMap.erase m (9 * feedFrom p l + w)) x.feedPower })) s1
  else s1

theorem lanternMoved_only : lanternMoved s l st = { s with lanterns := (lanternMoved s l st).lanterns, ports := (lanternMoved s l st).ports } := by
  have hfold : ∀ (g : State → Nat → State), (∀ v p, g v p = { v with ports := (g v p).ports }) → ∀ (ps : List Nat) (v : State),
      ps.foldl g v = { v with ports := (ps.foldl g v).ports } := by
    intro g hg ps
    induction ps with
    | nil => exact fun v => rfl
    | cons p ps ih =>
      intro v
      rw [List.foldl_cons, ih (g v p), hg v p]
  unfold lanternMoved
  dsimp only
  split
  · rw [hfold _ (fun _ _ => rfl)]
    rfl
  · rfl

theorem lanternMoved_lanterns : (lanternMoved s l st).lanterns = (updLantern s l (fun x => { x with state := st })).lanterns := by
  unfold lanternMoved
  dsimp only
  split
  · exact foldl_preserves State.lanterns (fun q p => by rfl) _ _
  · rfl

/-- What a change of state comes to: the Lantern moved, its mirror refreshed, and the event held. -/
theorem setLanternState_moves (h : (getLantern s l).state ≠ st) : setLanternState s l st
    = deviceEvent (refreshMirror { lanternMoved s l st with atticStore := { (lanternMoved s l st).atticStore with pendingOther := true } } l)
        0x0981 (natLE l 1 ++ natLE (getLantern s l).state 1 ++ natLE st 1 ++ natLE 0 1) := if_neg h

theorem setLanternState_stays (h : (getLantern s l).state = st) : setLanternState s l st = refreshMirror s l := if_pos h

theorem unmirrored_setLanternState : unmirrored (getLantern (setLanternState s l st) l) = unmirrored { getLantern s l with state := st } := by
  by_cases h : (getLantern s l).state = st
  · rw [setLanternState_stays h, unmirrored_refreshMirror, ← h]
  · rw [setLanternState_moves h]
    refine Eq.trans (unmirrored_refreshMirror (l := l) (i := l)) (congrArg unmirrored ?_)
    refine Eq.trans (getLantern_of_lanterns (lanternMoved_lanterns (s := s) (l := l) (st := st))) ?_
    rw [getLantern_updLantern_same]

theorem setLanternState_hbm : (setLanternState s l st).hbm = s.hbm := by
  by_cases h : (getLantern s l).state = st
  · rw [setLanternState_stays h]
    rfl
  · rw [setLanternState_moves h]
    show (lanternMoved s l st).hbm = s.hbm
    rw [lanternMoved_only]

theorem unmirrored_darken : unmirrored (getLantern (darken s l st) l) = unmirrored { getLantern s l with state := st } := by
  have hfold : (darken s l st).lanterns = (setLanternState s l st).lanterns := by
    unfold darken
    dsimp only
    split
    · refine foldl_preserves State.lanterns (fun q p => ?_) _ _
      split
      · exact loseFeed_lanterns
      · rfl
    · rfl
  rw [getLantern_of_lanterns hfold]
  exact unmirrored_setLanternState

/-! Switch-overs of a port. -/

theorem getPort_countSwitch (i : Nat) : getPort (countSwitch s p) i = getPort s i := rfl

/-- The port that uses the other feed, without a ramp. -/
def switched (s : State) (p f : Nat) : State :=
  countSwitch (updPort s p (fun y => { y with feed := f, unplanned := satInc 16 y.unplanned })) p

theorem loseFeed_switches (h0 : (getPort s p).feed = 0) (hs : (getPort s p).switching = none) (hl : feedLit s p 1 = true)
    (hm : (getPort s p).miswired.contains 1 = false) : loseFeed s p = switched s p 1 := by
  unfold loseFeed
  simp only [hs, h0, Nat.sub_zero, hl, hm, Bool.not_false, Bool.and_self, if_true]
  rfl

theorem loseFeed_downs (h0 : (getPort s p).feed = 0) (hs : (getPort s p).switching = none) (hl : feedLit s p 1 = false) : loseFeed s p
    = downPort (updPort s p (fun y => { y with feed := 2, switching := none })) p ((getPort s p).state != portDown) := by
  unfold loseFeed
  simp only [hs, h0, Nat.sub_zero, hl, Bool.false_and, Bool.false_eq_true, if_false]

theorem downPort_port (record : Bool) : getPort (downPort s p record) p = { getPort s p with
    state := portDown, txWidth := 0, rxWidth := 0, laneTx := 0, laneRx := 0, linkVersion := 0, farModule := 0xFFFFFFFF, farPort := 0
    retrainWanted := false } := by
  have hports : ∀ v r idx, (signRecord (recordFault v r) idx false).ports = v.ports := by
    intro v r idx
    have hsign : ∀ v, (signRecord v idx false).ports = v.ports := by
      intro v
      unfold signRecord
      extract_lets r a
      split <;> rfl
    rw [hsign, recordFault_only]
  unfold downPort
  dsimp only
  split
  · unfold getPort
    rw [hports]
    exact getPort_updPort_same ..
  · exact getPort_updPort_same ..

/-- The port once a planned switch-over is complete. -/
def switchedOver (s : State) (p target : Nat) : State :=
  countSwitch (updPort s p (fun y => { y with feed := target, switching := none, planned := satInc 16 y.planned })) p

theorem execSwitchoverComplete_completes (hs : (getPort s p).switching = some target) (hr : (getPort s p).retrainWanted = false) :
    exec (.switchoverComplete p) s = .next (switchedOver s p target) := by
  show execSwitchoverComplete p s = _
  unfold execSwitchoverComplete
  dsimp only
  rw [hs]
  simp only [hr, Bool.false_eq_true, if_false]
  rfl

theorem execUnplannedSwitchover_loses (hp : portPresent s p = true) (h0 : (getPort s p).feed = 0) :
    exec (.unplannedSwitchover p) s = .next (loseFeed s p) := whenDo_true _ _ _ (by simp [hp, h0])

/-! LANTERN_INSERTED and LANTERN_REMOVED. -/

/-- The state with a Lantern put into a slot, before it is PRESENT. -/
def lanternPut (s : State) (l serial model hours : Nat) (first : List Int) : State :=
  setLantern { s with attic := { s.attic with
    lanterns := SMap.set s.attic.lanterns l (useOf s.attic serial first hours)
    lanternsGone := s.attic.lanternsGone.filter (fun g => g.serial != serial) } } l
    { serial := serial, model := model, hours := hours, first := first }

theorem getLantern_lanternPut (serial model hours : Nat) (first : List Int) :
    getLantern (lanternPut s l serial model hours first) l = { serial := serial, model := model, hours := hours, first := first } :=
  getLantern_setLantern_same ..

theorem execLanternInserted_inserts (hl : l < 4) (h0 : (getLantern s l).state = 0) (hd : s.dev ≠ .off) (serial model hours : Nat) (first : List Int) :
    exec (.lanternInserted l serial model hours first) s = .next (setLanternState (lanternPut s l serial model hours first) l 1) :=
  whenDo_true _ _ _ (by simp [isLantern, hl, h0, hd])

/-! LANTERN_AUTHENTICATION. -/

/-- Whether a proof is one that the Lantern could give to the nonce drawn. -/
def proofGood (s : State) (l : Nat) (proof : Bytes) : Bool :=
  proof != [] && Config.verifies proof (sha384 (Config.nonce s.free ++ natLE (getLantern s l).serial 8
    ++ ((getLantern s l).first.map (fun v => natLE (unsignedOf 16 v) 2)).flatten))

/-- The Lantern with a proof that verifies entered. -/
def lanternProved (s : State) (l : Nat) : State :=
  updUse (updLantern { s with free := s.free + 1 } l (fun y => { y with authBell := some s.bell.count })) l
    (fun u => { u with rejects := 0, authOk := true })

/-- The Lantern with a proof that does not verify counted. -/
def lanternDoubted (s : State) (l : Nat) : State :=
  updUse (updLantern { s with free := s.free + 1 } l (fun y => { y with authFails := satInc 16 y.authFails })) l
    (fun u => { u with rejects := u.rejects + 1, authFails := satInc 16 u.authFails, authOk := false })

theorem getLantern_lanternProved : getLantern (lanternProved s l) l = { getLantern s l with authBell := some s.bell.count } :=
  getLantern_updLantern_same { s with free := s.free + 1 } l (fun y => { y with authBell := some s.bell.count })

theorem getLantern_lanternDoubted : getLantern (lanternDoubted s l) l = { getLantern s l with authFails := satInc 16 (getLantern s l).authFails } :=
  getLantern_updLantern_same { s with free := s.free + 1 } l (fun y => { y with authFails := satInc 16 y.authFails })

/-- What an authentication comes to, before the commands that wait for it are answered. -/
def authenticated (s : State) (l : Nat) (proof : Bytes) : State :=
  if proofGood s l proof then setLanternState (lanternProved s l) l 2 else lanternEvent (darken (lanternDoubted s l) l 5) l 0x0403

theorem execLanternAuthentication_judges {proof : Bytes} (hl : l < 4) (h1 : (getLantern s l).state = 1) (hd : s.dev = .running)
    (hb : s.attic.serialsBanned.contains (getLantern s l).serial = false) : exec (.lanternAuthentication l proof) s
      = .next (if isLit (authenticated s l proof) l then authenticated s l proof else answerLantern (authenticated s l proof) l) := by
  have hsame : authenticated s l proof = if proofGood s l proof then
      (if (getLantern s l).state = 1 ∨ (getLantern s l).state = 5 then
        setLanternState (lanternProved s l) l (if s.attic.serialsBanned.contains (getLantern s l).serial then 5 else 2)
       else refreshMirror (lanternProved s l) l)
      else lanternEvent (darken (lanternDoubted s l) l 5) l 0x0403 := by
    unfold authenticated
    simp only [h1, true_or, if_true, hb, Bool.false_eq_true, if_false]
  rw [hsame]
  exact whenDo_true _ _ _ (by simp [isLantern, hl, h1, hd])

theorem getLantern_answered (v : State) : getLantern (if isLit v l then v else answerLantern v l) i = getLantern v i := by
  split
  · rfl
  · exact getLantern_of_lanterns answerLantern_lanterns

theorem unmirrored_authenticated_good {proof : Bytes} (h : proofGood s l proof = true) : unmirrored (getLantern (authenticated s l proof) l)
    = unmirrored { getLantern s l with authBell := some s.bell.count, state := 2 } := by
  unfold authenticated
  rw [if_pos h, unmirrored_setLanternState, getLantern_lanternProved]

theorem unmirrored_authenticated_bad {proof : Bytes} (h : proofGood s l proof = false) : unmirrored (getLantern (authenticated s l proof) l)
    = unmirrored { getLantern s l with authFails := satInc 16 (getLantern s l).authFails, state := 5 } := by
  unfold authenticated
  rw [if_neg (by rw [h]; decide), getLantern_of_lanterns (lanternEvent_lanterns _), unmirrored_darken, getLantern_lanternDoubted]

/-! LANTERN_WARMUP_COMPLETE and LANTERN_HEALTH_CHECK. -/

theorem checkWiring_lanterns (rose : List Nat) : (checkWiring s l rose).lanterns = s.lanterns := by
  refine foldl_preserves State.lanterns (fun q f => ?_) _ s
  dsimp only
  split
  · rfl
  · split <;> rfl

/-- A Lantern but for its measured levels. -/
def unmeasured (x : Lantern) : Lantern := { x with levels := [] }

theorem unmeasured_enterLevels (levels : List Int) : unmeasured (getLantern (enterLevels s l levels) l) = unmeasured (getLantern s l) := by
  refine foldl_preserves (fun v => unmeasured (getLantern v l)) (fun q pi => ?_) _ s
  dsimp only
  split
  · refine foldl_preserves (fun v => unmeasured (getLantern v l)) (fun r w => ?_) _ q
    rw [getLantern_updLantern_same]
    rfl
  · rfl

theorem getLantern_updUse (g : LanternUse → LanternUse) : getLantern (updUse s l g) i = getLantern s i := rfl

/-- The state once the wiring is checked and the levels are entered, with the first-installation record. -/
def warmed (s : State) (l : Nat) (levels : List Int) (rose : List Nat) : State :=
  let s1 := enterLevels (checkWiring s l rose) l levels
  let s2 := updLantern s1 l (fun x => { x with first := if x.first = [] then levels else x.first })
  updUse s2 l (fun u => { u with first := (getLantern s2 l).first })

theorem warmed_first (levels : List Int) (rose : List Nat) :
    (getLantern (warmed s l levels rose) l).first = if (getLantern s l).first = [] then levels else (getLantern s l).first := by
  have hfirst : (getLantern (enterLevels (checkWiring s l rose) l levels) l).first = (getLantern s l).first := by
    have hsame : getLantern (checkWiring s l rose) l = getLantern s l := getLantern_of_lanterns (checkWiring_lanterns rose)
    have hlevels := unmeasured_enterLevels (s := checkWiring s l rose) (l := l) levels
    rw [hsame] at hlevels
    exact (congrArg Lantern.first hlevels :)
  have hupd : getLantern (warmed s l levels rose) l = { getLantern (enterLevels (checkWiring s l rose) l levels) l with
      first := if (getLantern (enterLevels (checkWiring s l rose) l levels) l).first = [] then levels
        else (getLantern (enterLevels (checkWiring s l rose) l levels) l).first } := by
    unfold warmed
    dsimp only
    rw [getLantern_updUse, getLantern_updLantern_same]
  rw [hupd]
  dsimp only
  rw [hfirst]

theorem execLanternWarmupComplete_warms {levels : List Int} {rose : List Nat} (hl : l < 4) (h2 : (getLantern s l).state = 2) :
    exec (.lanternWarmupComplete l levels false rose) s = .next (takeFeeds (setLanternState (warmed s l levels rose) l 3)) :=
  whenDo_true _ _ _ (by simp [isLantern, hl, h2])

theorem execLanternWarmupComplete_fails {levels : List Int} {rose : List Nat} (hl : l < 4) (h2 : (getLantern s l).state = 2) :
    exec (.lanternWarmupComplete l levels true rose) s = .next (lanternEvent (darken s l 6) l 0x0402) :=
  whenDo_true _ _ _ (by simp [isLantern, hl, h2])

/-- The outcome of a health check, whatever it is, leaves the Lantern with its hours. -/
theorem judge_hours (hours : Nat) : (getLantern (judge s l hours) l).hours = hours := by
  have hkept : ∀ (v : State) (st : Nat), (getLantern v l).hours = hours →
      (getLantern (lanternEvent (darken v l st) l 0x0402) l).hours = hours ∧ (getLantern (setLanternState v l st) l).hours = hours
        ∧ (getLantern (refreshMirror v l) l).hours = hours := by
    intro v st hv
    refine ⟨?_, ?_, ?_⟩
    · rw [getLantern_of_lanterns (lanternEvent_lanterns _)]
      exact (congrArg Lantern.hours unmirrored_darken :).trans hv
    · exact (congrArg Lantern.hours unmirrored_setLanternState :).trans hv
    · exact (congrArg Lantern.hours unmirrored_refreshMirror :).trans hv
  unfold judge draw
  dsimp only
  generalize hs : updUse _ l _ = s3
  have hs3 : (getLantern s3 l).hours = hours := by
    rw [← hs, getLantern_updUse, getLantern_updLantern_same]
  have hbranch : ∀ (c d : Prop) [Decidable c] [Decidable d], (getLantern (if c then lanternEvent (darken s3 l 6) l 0x0402
      else if d then setLanternState s3 l 7 else refreshMirror s3 l) l).hours = hours := by
    intro c d _ _
    split
    · exact (hkept s3 6 hs3).1
    · split
      · exact (hkept s3 7 hs3).2.1
      · exact (hkept s3 7 hs3).2.2
  exact hbranch ..

/-! LANTERN_MIRROR_REFRESH. -/

theorem refreshMirror_other (h : i ≠ l) : getLantern (refreshMirror s l) i = getLantern s i := getLantern_updLantern_other _ _ _ _ h

theorem refreshMirror_mirror : ((getLantern s l).state = 0 → (getLantern (refreshMirror s l) l).mirror = {})
    ∧ ((getLantern s l).state ≠ 0 → (getLantern (refreshMirror s l) l).mirror.state = (getLantern s l).state
        ∧ (getLantern (refreshMirror s l) l).mirror.serial = (getLantern s l).serial) := by
  unfold refreshMirror
  dsimp only
  rw [getLantern_updLantern_same]
  refine ⟨fun h => if_pos h, fun h => ?_⟩
  dsimp only
  rw [if_neg h]
  exact ⟨rfl, rfl⟩

theorem foldl_refreshMirror_only (ls : List Nat) (s : State) : ls.foldl refreshMirror s = { s with lanterns := (ls.foldl refreshMirror s).lanterns } := by
  induction ls generalizing s with
  | nil => rfl
  | cons l ls ih => rw [List.foldl_cons, ih, refreshMirror_lanterns_only]

theorem foldl_refreshMirror_other {ls : List Nat} (h : i ∉ ls) (s : State) : getLantern (ls.foldl refreshMirror s) i = getLantern s i := by
  induction ls generalizing s with
  | nil => rfl
  | cons l ls ih =>
    rw [List.mem_cons, not_or] at h
    rw [List.foldl_cons, ih h.2, refreshMirror_other h.1]

/-- A refresh of the slots, one after another, leaves each with the mirror of its own Lantern. -/
theorem foldl_refreshMirror_at {ls : List Nat} (h : l ∈ ls) (hn : ls.Nodup) (s : State) :
    ∃ v, getLantern (ls.foldl refreshMirror s) l = getLantern (refreshMirror v l) l ∧ getLantern v l = getLantern s l := by
  induction ls generalizing s with
  | nil => exact absurd h List.not_mem_nil
  | cons m ls ih =>
    rw [List.nodup_cons] at hn
    rw [List.foldl_cons]
    by_cases hm : l = m
    · subst hm
      exact ⟨s, foldl_refreshMirror_other hn.1 _, rfl⟩
    · obtain ⟨v, hv, hvs⟩ := ih ((List.mem_cons.mp h).resolve_left hm) hn.2 (refreshMirror s m)
      exact ⟨v, hv, hvs.trans (refreshMirror_other hm)⟩

end

/-- Settles O22. -/
theorem feedsAndLanternsChangeState : Obligations.FeedsAndLanternsChangeState := by
  refine ⟨fun s p hp => ⟨fun hf ht htf hlf hlt hsw => ?_, fun target hs hr => ?_, fun h0 hs hl hm => ?_, fun h0 hs hl => ?_⟩,
    fun s l hl => ⟨fun serial model hours first h0 hd => ?_, fun h0 => ?_, fun proof h1 hd hb => ?_, fun levels rose h2 => ?_,
      fun levels rose h2 => ?_, fun levels hours hlit => ⟨whenDo_true _ _ _ (by simp [isLantern, hl, hlit]), judge_hours hours⟩, ?_⟩⟩
  · exact ⟨_, whenDo_true _ _ _ (by simp only [hp, hlf, hlt, hsw, bne_iff_ne.mpr hf, bne_iff_ne.mpr ht, bne_iff_ne.mpr htf, Bool.and_self]), rfl,
      getPort_updPort_same ..⟩
  · exact ⟨_, execSwitchoverComplete_completes hs hr, rfl, (getPort_countSwitch p).trans (getPort_updPort_same ..)⟩
  · refine ⟨_, execUnplannedSwitchover_loses hp h0, ?_⟩
    rw [loseFeed_switches h0 hs hl hm]
    exact ⟨rfl, (getPort_countSwitch p).trans (getPort_updPort_same ..)⟩
  · refine ⟨_, execUnplannedSwitchover_loses hp h0, ?_⟩
    rw [loseFeed_downs h0 hs hl, downPort_port, getPort_updPort_same]
    exact ⟨rfl, rfl⟩
  · have hside := unmirrored_setLanternState (s := lanternPut s l serial model hours first) (l := l) (st := 1)
    rw [getLantern_lanternPut] at hside
    exact ⟨_, execLanternInserted_inserts hl h0 hd serial model hours first, (congrArg Lantern.state hside :), (congrArg Lantern.serial hside :),
      (congrArg Lantern.first hside :), setLanternState_hbm⟩
  · refine ⟨_, whenDo_true _ _ _ (by simp [isLantern, hl, h0]), getLantern_setLantern_same .., ?_⟩
    exact List.length_take_le ..
  · refine ⟨_, execLanternAuthentication_judges hl h1 hd hb, ?_⟩
    rw [getLantern_answered]
    cases hg : proofGood s l proof with
    | true =>
      have hside := unmirrored_authenticated_good hg
      rw [if_pos (by simpa [proofGood] using hg)]
      exact ⟨(congrArg Lantern.state hside :), (congrArg Lantern.authBell hside :), (congrArg Lantern.authFails hside :)⟩
    | false =>
      have hside := unmirrored_authenticated_bad hg
      rw [if_neg (by simpa [proofGood] using hg)]
      exact ⟨(congrArg Lantern.state hside :), (congrArg Lantern.authFails hside :)⟩
  · have hside := unmirrored_setLanternState (s := warmed s l levels rose) (l := l) (st := 3)
    have hfirst : _ = (getLantern (warmed s l levels rose) l).first := (congrArg Lantern.first hside :)
    refine ⟨_, execLanternWarmupComplete_warms hl h2, ?_⟩
    rw [getLantern_of_lanterns takeFeeds_lanterns]
    refine ⟨(congrArg Lantern.state hside :), fun hne => ?_, fun he => ?_⟩
    · exact (hfirst.trans (warmed_first ..)).trans (if_neg hne)
    · exact (hfirst.trans (warmed_first ..)).trans (if_pos he)
  · refine ⟨_, execLanternWarmupComplete_fails hl h2, ?_⟩
    rw [getLantern_of_lanterns (lanternEvent_lanterns _)]
    exact (congrArg Lantern.state unmirrored_darken :)
  · obtain ⟨v, hv, hvs⟩ := foldl_refreshMirror_at (l := l) (ls := List.range 4) (List.mem_range.mpr hl) List.nodup_range s
    refine ⟨_, rfl, foldl_refreshMirror_only .., ?_⟩
    rw [hv, ← hvs]
    exact refreshMirror_mirror

end Sys2Proof.Machine
end

section
/-!
PROOFS. Votes: sent once a step is complete and its bell has come, and decided (rules R329, R330).
-/
open Sys2Proof Sys2Proof.Says

namespace Sys2Proof.Machine
section
variable {s : State} {n no b step : Nat} {im : Image}

theorem tryVote_not_pending (h : (getSuite s n).job.votePending = none) : tryVote s n = s := by
  unfold tryVote
  dsimp only
  rw [h]
  split
  · next hn => cases hn
  · rfl

theorem updSuite_updSuite (g f : Suite → Suite) : updSuite (updSuite s n g) n f = updSuite s n (fun x => f (g x)) := by
  simp [updSuite, setSuite, getSuite, SMap.get_set_same, SMap.set_set]

/-- The suite with its vote bell taken. -/
def belled (s : State) (n : Nat) : State := updSuite s n (fun x => { x with job := { x.job with voteBell := 1 } })

theorem execVoteBell_rings (ht : isTop s = false) (hr : (getSuite s n).job.rank.isSome = true)
    (hs : (getSuite s n).state = .running ∨ (getSuite s n).state = .preempted) : exec (.voteBell n) s = .next (tryVote (belled s n) n) := by
  show execVoteBell n s = _
  unfold execVoteBell
  dsimp only
  rw [ht]
  refine whenDo_true _ _ _ ?_
  obtain hs | hs := hs
  · simp [hr, executing, hs]
  · simp [hr, hs]

/-- The suite with its vote given. -/
def voted (s : State) (n : Nat) : State := updSuite s n (fun x => { x with job := { x.job with votePending := none, voteBell := 0 } })

theorem tryVote_votes (ht : isTop s = false) (hi : (getSuite s n).image = some im) (hp : (getSuite s n).job.votePending = some step) :
    tryVote (belled s n) n = sendToManager (voted s n) 0x0509 0xFF false
      (votePayload (getSuite (belled s n) n) step (weightDigest im (SMap.get {} (getSuite (belled s n) n).steps step))) := by
  have hsuite : getSuite (belled s n) n = { getSuite s n with job := { (getSuite s n).job with voteBell := 1 } } := getSuite_updSuite_same ..
  have hvoted : updSuite (belled s n) n (fun x => { x with job := { x.job with votePending := none, voteBell := 0 } }) = voted s n :=
    updSuite_updSuite _ _
  have himage : (getSuite (belled s n) n).image = some im := by rw [hsuite]; exact hi
  have hpending : (getSuite (belled s n) n).job.votePending = some step := by rw [hsuite]; exact hp
  have hbell : (getSuite (belled s n) n).job.voteBell ≠ 0 := by
    rw [hsuite]
    exact Nat.one_ne_zero
  have htop : isTop (voted s n) = false := ht
  unfold tryVote
  simp only [himage, hpending, hvoted, htop, if_neg hbell, Bool.false_eq_true, if_false]

theorem sendToManager_only (op suite : Nat) (urgent : Bool) (body : Bytes) : sendToManager s op suite urgent body
    = { s with ports := (sendToManager s op suite urgent body).ports, outbox := (sendToManager s op suite urgent body).outbox
               mgr := { s.mgr with nextTag := (s.mgr.nextTag + 1) % 2 ^ 32 } } := sendCommand_only ..

theorem execVoteTimeout_of_bell (h : (getJob s no).voteBell = some b) : exec (.voteTimeout no) s
    = whenDo ((getJob s no).started && decide (0 < (getJob s no).votes.length) && decide (b + s.mgr.voteTimeout ≤ s.bell.count)) s
        (decideVote s no) := by
  show execVoteTimeout no s = _
  unfold execVoteTimeout
  dsimp only
  rw [h]

end

/-- Settles O25. -/
theorem votesAreTakenAndDecided : Obligations.VotesAreTakenAndDecided := by
  intro s n
  refine ⟨fun ht hr hs hp => ?_, fun im step ht hr hs hi hp => ?_, fun no b hb hst hv ht => ?_, fun no b hb ht => ?_⟩
  · have hsuite : getSuite (belled s n) n = { getSuite s n with job := { (getSuite s n).job with voteBell := 1 } } := getSuite_updSuite_same ..
    refine ⟨belled s n, ?_, rfl, hsuite, fun m hm => getSuite_updSuite_other s n m _ hm⟩
    rw [execVoteBell_rings ht hr (.inl hs), tryVote_not_pending (by rw [hsuite]; exact hp)]
  · refine ⟨_, execVoteBell_rings ht hr hs, ?_⟩
    have hvoted : getSuite (voted s n) n = { getSuite s n with job := { (getSuite s n).job with votePending := none, voteBell := 0 } } :=
      getSuite_updSuite_same ..
    rw [tryVote_votes ht hi hp, sendToManager_only]
    exact ⟨rfl, hvoted⟩
  · rw [execVoteTimeout_of_bell hb]
    exact whenDo_true _ _ _ (by simp [hst, List.length_pos_iff, hv, ht])
  · rw [execVoteTimeout_of_bell hb]
    exact whenDo_false _ _ _ (by simp [Nat.not_le.mpr ht])

end Sys2Proof.Machine
end

section
/-!
PROOFS. Managers: heartbeats, lost workers and managers, and spares (rules R319, R331, R332, R338).
-/
open Sys2Proof Sys2Proof.Says

namespace Sys2Proof.Machine

/-! The keys of a map in order. -/

theorem SMap.get_of_mem {α : Type} {m : SMap α} (h : SMap.sorted m = true) {k : Nat} {v : α} (hm : (k, v) ∈ m) (d : α) : SMap.get d m k = v := by
  induction m with
  | nil => exact absurd hm List.not_mem_nil
  | cons p m ih =>
    obtain ⟨j, w⟩ := p
    obtain ⟨habove, hsorted⟩ := (SMap.sorted_cons (j, w) m).mp h
    unfold SMap.get
    obtain heq | htail := List.mem_cons.mp hm
    · cases heq
      exact if_pos rfl
    · have hlt : j < k := habove _ htail
      rw [if_neg (Nat.ne_of_lt hlt)]
      exact ih hsorted htail

theorem SMap.nodup_keys {α : Type} {m : SMap α} (h : SMap.sorted m = true) : (m.map Prod.fst).Nodup := by
  induction m with
  | nil => exact List.nodup_nil
  | cons p m ih =>
    obtain ⟨habove, hsorted⟩ := (SMap.sorted_cons p m).mp h
    rw [List.map_cons, List.nodup_cons]
    refine ⟨fun hp => ?_, ih hsorted⟩
    obtain ⟨q, hq, hqp⟩ := List.mem_map.mp hp
    have := habove q hq
    omega

theorem SMap.mem_of_get_ne {α : Type} {m : SMap α} {d : α} {k : Nat} (h : SMap.get d m k ≠ d) : (k, SMap.get d m k) ∈ m := by
  induction m with
  | nil => exact absurd rfl h
  | cons p m ih =>
    obtain ⟨j, v⟩ := p
    unfold SMap.get at h ⊢
    by_cases hj : j = k
    · rw [if_pos hj, ← hj]
      exact List.mem_cons_self
    · rw [if_neg hj] at h ⊢
      exact List.mem_cons_of_mem _ (ih h)

section
variable {s u v : State} {n m no r step worker b : Nat} {j : Job}

/-! A record of any owner counts one more. -/

theorem countClass_next (l : FaultLog) (r : FaultRec) : (countClass l r).next = l.next := by
  unfold countClass
  split
  · split <;> rfl
  · rfl

theorem recordFault_next_any (r : FaultRec) : (recordFault s r).faults.next = (s.faults.next + 1) % 2 ^ 32 := by
  unfold recordFault
  dsimp only
  rw [← countClass_next s.faults (withConditions s r)]
  split <;> rfl

/-! The heartbeat. -/

/-- The manager's state with a worker asked for its status. -/
def heartbeatSent (s : State) (w : WorkerInfo) : State :=
  let u := sendCommand s w.port w.module 0x0001 0xFF 8 [2#8, 0#8, 0#8, 0#8]
  { u with mgr := { u.mgr with heartbeats := satInc 16 u.mgr.heartbeats } }

theorem execHeartbeat_sends {w : WorkerInfo} (hr : s.mgr.role = 2 ∨ s.mgr.role = 3)
    (hw : s.mgr.workers.find? (fun x => x.module == worker && !x.lost) = some w) : exec (.heartbeat worker) s = .next (heartbeatSent s w) := by
  show execHeartbeat worker s = _
  unfold execHeartbeat
  rw [hw]
  refine whenDo_true _ _ _ ?_
  obtain hr | hr := hr <;> simp [hr]

/-! A lost worker. -/

/-- The manager's state with a worker counted as lost. -/
def workerGone (s : State) (worker : Nat) : State :=
  { s with mgr := { s.mgr with
      lost := satInc 16 s.mgr.lost
      workers := s.mgr.workers.map (fun w => if w.module = worker then { w with lost := true } else w) } }

/-- The ranks that a worker holds in started jobs. -/
def ranksOn (s : State) (worker : Nat) : List (Nat × Nat × Job) :=
  ((s.mgr.jobs.filter (fun p => p.2.started)).map (fun p => (p.2.ranks.filter (fun r => r.2.1 == worker)).map (fun r => (p.1, r.1, p.2)))).flatten

/-- The step that a job is in, by its suites here. -/
def stepIn (s : State) (j : Job) : Nat := ((suitesOf s j.lineage).map (fun n => openStep s n)).foldl max 1

theorem execWorkerLost_loses (h : s.mgr.workers.any (fun w => w.module == worker && !w.lost && decide (w.lastSeen + contactLost ≤ s.bell.count)) = true) :
    exec (.workerLost worker) s = .next ((ranksOn s worker).foldl (fun st q =>
      if (getJob st q.1).started then failRank st q.1 q.2.1 (stepIn s q.2.2) true else st) (workerGone s worker)) :=
  whenDo_true _ _ _ h

theorem ranksOn_eq_nil (h : ∀ p, p ∈ s.mgr.jobs → p.2.started = true → ∀ r, r ∈ p.2.ranks → r.2.1 ≠ worker) : ranksOn s worker = [] := by
  unfold ranksOn
  rw [List.flatten_eq_nil_iff]
  intro l hl
  obtain ⟨p, hp, rfl⟩ := List.mem_map.mp hl
  obtain ⟨hmem, hstarted⟩ := List.mem_filter.mp hp
  rw [List.map_eq_nil_iff, List.filter_eq_nil_iff]
  intro r hr
  simpa using h p hmem hstarted r hr

/-! A lost manager. -/

/-- What stopping a suite for a lost manager leaves alone. -/
def LostOnly (s u : State) : Prop :=
  u = { s with suites := u.suites, rings := u.rings, dev := u.dev, ports := u.ports, outbox := u.outbox, host := u.host
               mgr := { s.mgr with broadcasts := u.mgr.broadcasts, jobs := u.mgr.jobs } }

theorem LostOnly.refl (s : State) : LostOnly s s := rfl

theorem LostOnly.trans (h : LostOnly s u) (k : LostOnly u v) : LostOnly s v := by
  unfold LostOnly at *
  rw [k, h]

/-- What the host hears of a suite that stops for its manager. -/
def lostBody : Bytes := natLE 5 1 ++ natLE 0 7 ++ natLE 0xFFFFFFFF 4

def stopOne (s : State) (n : Nat) : State := suiteEvent (stopForLost s n) n 0x0580 lostBody

theorem stopForLost_running (h : (getSuite s n).state = .running) : stopForLost s n = stopAtGate s n := if_pos h

theorem stopAtGate_lostOnly : LostOnly s (stopAtGate s n) := by
  unfold stopAtGate
  dsimp only
  split
  · rfl
  · unfold LostOnly
    rw [(setSuiteState_only ..).2.2]
    rfl

theorem stopAtGate_other (h : m ≠ n) : getSuite (stopAtGate s n) m = getSuite s m := by
  unfold stopAtGate
  dsimp only
  split
  · exact getSuite_updSuite_other _ _ _ _ h
  · rw [(setSuiteState_only ..).2.1 m h]
    exact getSuite_updSuite_other _ _ _ _ h

theorem stopAtGate_same (h : (getSuite s n).slice.stopping = false) : getSuite (stopAtGate s n) n = { getSuite s n with
    state := .draining, slice := { (getSuite s n).slice with stopAfter := some (highestEntered s n) } } := by
  unfold stopAtGate
  dsimp only
  rw [if_neg (by rw [h]; decide), (setSuiteState_only ..).1, getSuite_updSuite_same]

theorem stopOne_lostOnly (h : (getSuite s n).state = .running) : LostOnly s (stopOne s n) := by
  unfold stopOne
  rw [stopForLost_running h]
  exact stopAtGate_lostOnly.trans rfl

theorem stopOne_other (hs : (getSuite s n).state = .running) (h : m ≠ n) : getSuite (stopOne s n) m = getSuite s m := by
  unfold stopOne
  rw [stopForLost_running hs]
  exact stopAtGate_other h

theorem stopOne_same (hs : (getSuite s n).state = .running) (h : (getSuite s n).slice.stopping = false) :
    (getSuite (stopOne s n) n).slice.stopAfter = some (highestEntered s n) ∧ (getSuite (stopOne s n) n).state = .draining := by
  have hsame : getSuite (stopOne s n) n = getSuite (stopAtGate s n) n := by
    unfold stopOne
    rw [stopForLost_running hs]
    rfl
  rw [hsame, stopAtGate_same h]
  exact ⟨rfl, rfl⟩

/-- The highest step that a suite entered is in its tiles and its saves. -/
theorem highestEntered_congr (ht : u.tiles = s.tiles) (hn : getSuite u n = getSuite s n) : highestEntered u n = highestEntered s n := by
  have hlist : suiteStreams u n = suiteStreams s n := by
    unfold suiteStreams
    rw [ht]
  have htile : ∀ i, getTile u i = getTile s i := fun i => by
    unfold getTile
    rw [ht]
  unfold highestEntered getStream
  simp only [hlist, hn, htile]

theorem LostOnly.tiles (h : LostOnly s u) : u.tiles = s.tiles := by
  rw [h]

/-- Stopping running suites one after another: each by itself, and no other. -/
theorem foldl_stopOne {ns : List Nat} (hn : ns.Nodup) (hr : ∀ n ∈ ns, (getSuite s n).state = .running) :
    LostOnly s (ns.foldl stopOne s) ∧ (∀ m, m ∉ ns → getSuite (ns.foldl stopOne s) m = getSuite s m)
      ∧ ∀ m ∈ ns, (getSuite s m).slice.stopping = false →
        (getSuite (ns.foldl stopOne s) m).slice.stopAfter = some (highestEntered s m) ∧ (getSuite (ns.foldl stopOne s) m).state = .draining := by
  induction ns generalizing s with
  | nil => exact ⟨rfl, fun _ _ => rfl, fun _ h => absurd h List.not_mem_nil⟩
  | cons n ns ih =>
    obtain ⟨hnot, hns⟩ := List.nodup_cons.mp hn
    have hrun := hr n List.mem_cons_self
    have hother : ∀ m ∈ ns, getSuite (stopOne s n) m = getSuite s m := fun m hm => stopOne_other hrun (fun h => hnot (h ▸ hm))
    have htail : ∀ m ∈ ns, (getSuite (stopOne s n) m).state = .running := fun m hm => by
      rw [hother m hm]
      exact hr m (List.mem_cons_of_mem _ hm)
    obtain ⟨honly, hrest, hstopped⟩ := ih hns htail
    rw [List.foldl_cons]
    refine ⟨(stopOne_lostOnly hrun).trans honly, fun m hm => ?_, fun m hm hst => ?_⟩
    · rw [List.mem_cons, not_or] at hm
      rw [hrest m hm.2, stopOne_other hrun hm.1]
    · obtain rfl | hm := List.mem_cons.mp hm
      · rw [hrest m hnot]
        exact stopOne_same hrun hst
      · have hstep := hstopped m hm (by rw [hother m hm]; exact hst)
        rwa [highestEntered_congr (stopOne_lostOnly hrun).tiles (hother m hm)] at hstep

/-- The state with the manager counted as lost and recorded, before its suites stop. -/
def managerGone (s : State) : State :=
  deviceEvent (recordFault { s with mgr := { s.mgr with lost := satInc 16 s.mgr.lost, heard := none } } { unitClass := 9, cause := 0x0602, domain := 4 })
    0x0580 lostBody

theorem managerGone_only : managerGone s = { s with mgr := { s.mgr with lost := satInc 16 s.mgr.lost, heard := none }
                                                    faults := (managerGone s).faults, free := s.free + 1, rings := (managerGone s).rings } := by
  unfold managerGone
  rw [recordFault_only]
  rfl

theorem managerGone_faults : (managerGone s).faults.last.cause = 0x0602 ∧ (managerGone s).faults.next = (s.faults.next + 1) % 2 ^ 32 := by
  have hfaults : (managerGone s).faults = (recordFault { s with mgr := { s.mgr with lost := satInc 16 s.mgr.lost, heard := none } }
    { unitClass := 9, cause := 0x0602, domain := 4 }).faults := rfl
  rw [hfaults, recordFault_last, recordFault_next_any]
  exact ⟨rfl, rfl⟩

/-- The job suites that run, in the order of their numbers. -/
def busySuites (s : State) : List Nat :=
  (s.suites.filter (fun p => p.2.job.rank.isSome && (decide (p.2.state = .running) || decide (p.2.state = .preempted)))).map Prod.fst

theorem execManagerLost_loses (hr : s.mgr.role = 1 ∨ s.mgr.role = 3) (hh : s.mgr.heard = some b) (hb : b + contactLost ≤ s.bell.count) :
    exec .managerLost s = .next ((busySuites s).foldl stopOne (managerGone s)) := by
  unfold busySuites
  rw [List.foldl_map]
  refine whenDo_true _ _ _ ?_
  obtain hr | hr := hr <;> simp [hr, hh, hb]

theorem busySuites_nodup (h : SMap.sorted s.suites = true) : (busySuites s).Nodup :=
  (SMap.nodup_keys h).sublist (List.filter_sublist.map _)

theorem busySuites_running (h : SMap.sorted s.suites = true)
    (hp : ∀ p, p ∈ s.suites → p.2.job.rank.isSome = true → p.2.state ≠ .preempted) : ∀ n ∈ busySuites s, (getSuite s n).state = .running := by
  intro n hn
  obtain ⟨p, hmem, rfl⟩ := List.mem_map.mp hn
  obtain ⟨hsuite, hbusy⟩ := List.mem_filter.mp hmem
  rw [Bool.and_eq_true, Bool.or_eq_true, decide_eq_true_eq, decide_eq_true_eq] at hbusy
  obtain ⟨hrank, hstate⟩ := hbusy
  have hget : getSuite s p.1 = p.2 := SMap.get_of_mem h hsuite _
  rw [hget]
  exact hstate.resolve_right (hp p hsuite hrank)

theorem mem_busySuites (hr : (getSuite s n).job.rank.isSome = true) (hs : (getSuite s n).state = .running) : n ∈ busySuites s := by
  have hne : getSuite s n ≠ {} := fun h => by
    rw [h] at hs
    exact absurd hs (by decide)
  refine List.mem_map.mpr ⟨(n, getSuite s n), List.mem_filter.mpr ⟨SMap.mem_of_get_ne hne, ?_⟩, rfl⟩
  simp [hr, hs]

/-! Spares. -/

theorem lowestSpare_step (l : List (Nat × Nat)) : ∀ (best : Option (Nat × Nat)) (sp : Nat × Nat),
    l.foldl (fun best x => match best with
      | none => some x
      | some b => if x.1 < b.1 then some x else some b) best = some sp →
    (sp ∈ l ∨ best = some sp) ∧ (∀ x ∈ l, sp.1 ≤ x.1) ∧ ∀ b, best = some b → sp.1 ≤ b.1 := by
  induction l with
  | nil => exact fun best sp h => ⟨.inr h, fun _ hx => absurd hx List.not_mem_nil, fun b hb => by cases hb.symm.trans h; exact Nat.le_refl _⟩
  | cons x l ih =>
    intro best sp h
    rw [List.foldl_cons] at h
    obtain ⟨hin, hall, hbest⟩ := ih _ sp h
    cases best with
    | none =>
      refine ⟨.inl ?_, fun y hy => ?_, fun b hb => nomatch hb⟩
      · obtain hin | hx := hin
        · exact List.mem_cons_of_mem _ hin
        · cases hx
          exact List.mem_cons_self
      · obtain rfl | hy := List.mem_cons.mp hy
        · exact hbest _ rfl
        · exact hall y hy
    | some c =>
      by_cases hx : x.1 < c.1
      · simp only [hx, if_true] at hin hbest
        have hle := hbest x rfl
        refine ⟨?_, fun y hy => ?_, fun b hb => ?_⟩
        · obtain hin | hin := hin
          · exact .inl (List.mem_cons_of_mem _ hin)
          · cases hin
            exact .inl List.mem_cons_self
        · obtain rfl | hy := List.mem_cons.mp hy
          · exact hle
          · exact hall y hy
        · cases hb
          omega
      · simp only [hx, if_false] at hin hbest
        have hle := hbest c rfl
        refine ⟨?_, fun y hy => ?_, fun b hb => ?_⟩
        · obtain hin | hin := hin
          · exact .inl (List.mem_cons_of_mem _ hin)
          · exact .inr hin
        · obtain rfl | hy := List.mem_cons.mp hy
          · omega
          · exact hall y hy
        · cases hb
          exact hle

theorem lowestSpare_spec {l : List (Nat × Nat)} {sp : Nat × Nat} (h : lowestSpare l = some sp) : sp ∈ l ∧ ∀ x, x ∈ l → sp.1 ≤ x.1 := by
  obtain ⟨hin, hall, -⟩ := lowestSpare_step l none sp h
  exact ⟨hin.resolve_right (fun h => nomatch h), hall⟩

theorem failRank_no_spare {gone : Bool} (h : (getJob s no).spares = []) :
    failRank s no r step gone = stopJob (recordRankFailed s (getJob s no).lineage r step true) no step 0x0601 := by
  unfold failRank
  dsimp only
  rw [h]
  rfl

theorem jobEvent_rings_only (lineage : Bytes) (kind verdict step rank : Nat) :
    jobEvent s lineage kind verdict no step rank = { s with rings := (jobEvent s lineage kind verdict no step rank).rings } := by
  have hfold : ∀ (g : State → Nat → State), (∀ v p, g v p = { v with rings := (g v p).rings }) → ∀ (ps : List Nat) (v : State),
      ps.foldl g v = { v with rings := (ps.foldl g v).rings } := by
    intro g hg ps
    induction ps with
    | nil => exact fun v => rfl
    | cons p ps ih =>
      intro v
      rw [List.foldl_cons, ih (g v p), hg v p]
  unfold jobEvent
  dsimp only
  rw [hfold _ (fun _ _ => rfl)]
  rfl

/-- The job with a rank given to a spare. -/
def spareGiven (s : State) (no r : Nat) (sp : Nat × Nat) : Job :=
  let j := getJob s no
  let old := SMap.get (0xFFFFFFFF, 0xFF) j.ranks r
  let gone := if SMap.has j.taking r then (SMap.get (old.1, 0) j.taking r).1 else old.1
  { j with ranks := SMap.set j.ranks r sp, spares := j.spares.filter (fun x => x != sp), taking := SMap.set j.taking r (gone, sp.1)
           lost := j.lost.filter (fun x => x != r), expelled := j.expelled ++ [old.1] }

/-- A spare of another module takes a rank of another: the job's entry changes, and the spare is asked. -/
theorem assignSpare_far {source module : Nat} {sp : Nat × Nat} (h : lowestSpare (getJob s no).spares = some sp)
    (hold : (SMap.get (0xFFFFFFFF, 0xFF) (getJob s no).ranks r).1 ≠ ownId s) (hsp : sp.1 ≠ ownId s) (hl : suitesOf s (getJob s no).lineage = []) :
    (assignSpare s no r step source module).mgr.jobs = SMap.set s.mgr.jobs no (spareGiven s no r sp)
      ∧ (assignSpare s no r step source module).suites = s.suites ∧ (assignSpare s no r step source module).tiles = s.tiles := by
  have hsuites : suitesOf (setJob s no (spareGiven s no r sp)) (getJob s no).lineage = [] := hl
  have hown : ownId (setJob s no (spareGiven s no r sp)) = ownId s := rfl
  have hsend : ∀ gone, ∃ q b t, sendTakeover (setJob s no (spareGiven s no r sp)) no r sp step source module gone
      = (let v := sendToModule (setJob s no (spareGiven s no r sp)) sp.1 0x0505 q 8 b
         { v with mgr := { v.mgr with asked := SMap.set v.mgr.asked t [0x0505, no, r, step, source, module] } }) := by
    intro gone
    unfold sendTakeover
    dsimp only
    rw [if_neg (by rw [hown]; exact hsp)]
    exact ⟨_, _, _, rfl⟩
  have heq : ∃ gone, assignSpare s no r step source module
      = jobEvent (sendTakeover (setJob s no (spareGiven s no r sp)) no r sp step source module gone) (getJob s no).lineage 1 1 no step r := by
    unfold assignSpare
    dsimp only
    rw [h]
    dsimp only
    rw [if_neg hold]
    refine ⟨if SMap.has (getJob s no).taking r then (SMap.get ((SMap.get (0xFFFFFFFF, 0xFF) (getJob s no).ranks r).1, 0) (getJob s no).taking r).1
      else (SMap.get (0xFFFFFFFF, 0xFF) (getJob s no).ranks r).1, ?_⟩
    unfold spareGiven at hsuites ⊢
    dsimp only at hsuites ⊢
    rw [hsuites]
    rfl
  obtain ⟨gone, heq⟩ := heq
  obtain ⟨q, b, t, hsend⟩ := hsend gone
  rw [heq, jobEvent_rings_only, hsend]
  dsimp only
  rw [sendToModule_only]
  exact ⟨rfl, rfl, rfl⟩

end

/-- Settles O23. -/
theorem managersAndWorkersAreWatched : Obligations.ManagersAndWorkersAreWatched := by
  intro s
  refine ⟨fun worker w hrole hw => ?_, fun worker hlost hnone => ?_, fun worker no j r x hlost hjobs hst hranks => ?_,
    fun b hrole hh hb hsorted hpre => ?_, fun no r step gone h => failRank_no_spare h, fun no r step source module sp h hold hsp hl => ?_,
    fun l sp h => lowestSpare_spec h⟩
  · refine ⟨_, execHeartbeat_sends hrole hw, ?_⟩
    unfold heartbeatSent
    rw [sendCommand_only]
  · rw [execWorkerLost_loses hlost, ranksOn_eq_nil hnone]
    rfl
  · have hranksOn : ranksOn s worker = [(no, r, j)] := by
      unfold ranksOn
      simp [hjobs, hst, hranks]
    have hstarted : (getJob (workerGone s worker) no).started = true := by
      unfold getJob workerGone
      simp [hjobs, SMap.get, hst]
    rw [execWorkerLost_loses hlost, hranksOn, List.foldl_cons, List.foldl_nil, if_pos hstarted]
    rfl
  · have hgone : ∀ n, getSuite (managerGone s) n = getSuite s n := fun n => by
      unfold getSuite
      rw [managerGone_only]
    have hrun : ∀ n ∈ busySuites s, (getSuite (managerGone s) n).state = .running := fun n hn => by
      rw [hgone]
      exact busySuites_running hsorted hpre n hn
    obtain ⟨honly, -, hstopped⟩ := foldl_stopOne (busySuites_nodup hsorted) hrun
    obtain ⟨hcause, hnext⟩ := managerGone_faults (s := s)
    refine ⟨_, execManagerLost_loses hrole hh hb, ?_, ?_, ?_, ?_, ?_, fun n hrank hs hst => ?_⟩
    · rw [honly, managerGone_only]
    · rw [honly, managerGone_only]
    · rw [honly]
      exact hcause
    · rw [honly]
      exact hnext
    · generalize (busySuites s).foldl stopOne (managerGone s) = u at honly
      unfold LostOnly at honly
      rw [honly, managerGone_only]
    · have htiles : (managerGone s).tiles = s.tiles := by rw [managerGone_only]
      have hn := hstopped n (mem_busySuites hrank hs) (by rw [hgone]; exact hst)
      rwa [highestEntered_congr htiles (hgone n)] at hn
  · obtain ⟨hjobs, hsuites, htiles⟩ := assignSpare_far (step := step) (source := source) (module := module) h hold hsp hl
    have hjob : getJob (assignSpare s no r step source module) no = spareGiven s no r sp := by
      unfold getJob
      rw [hjobs]
      exact SMap.get_set_same ..
    rw [hjob]
    exact ⟨SMap.get_set_same .., rfl, hsuites, htiles⟩

end Sys2Proof.Machine
end

section
/-!
PROOFS. Resolutions: repeats, third runs and their verdicts (rules R453 to R455).
-/
open Sys2Proof Sys2Proof.Says

namespace Sys2Proof.Machine

/-- The memory of the stacks and the fuses. -/
def lasting (s : State) : Memory × Fuses := (s.hbm, s.fuse)

section
variable {s : State} {t n b value check cls : Nat} {r : Resolution} {vals : List Nat}

theorem lasting_of_suiteView {u : State} (h : suiteView u = suiteView s) : lasting u = lasting s :=
  (congrArg lasting (suiteView_frame h) :)

theorem lasting_ite {c : Prop} [Decidable c] {u v : State} (hu : lasting u = lasting s) (hv : lasting v = lasting s) :
    lasting (if c then u else v) = lasting s := by
  split
  · exact hu
  · exact hv

theorem lasting_recallRecord (kept : Option FaultRec) : lasting (recallRecord s kept) = lasting s := by
  cases kept <;> rfl

theorem lasting_retireTile : lasting (retireTile s t) = lasting s := lasting_ite rfl rfl

theorem lasting_tileEvent (cause idx : Nat) : lasting (tileEvent s t cause cls idx) = lasting s :=
  lasting_ite lasting_retireTile rfl

theorem lasting_releaseHalt : lasting (releaseHalt s t) = lasting s := rfl

theorem lasting_settleCheckpoints : lasting (settleCheckpoints s n) = lasting s := by
  unfold settleCheckpoints
  refine lasting_ite rfl (Eq.trans (foldl_preserves lasting ?_ _ _) ?_)
  · exact fun _ _ => rfl
  · rfl

theorem lasting_settleAll : lasting (settleAll s) = lasting s :=
  foldl_preserves lasting (fun _ _ => lasting_settleCheckpoints) _ _

/-- What ends a resolution changes neither the stacks' memory nor the fuses. -/
theorem lasting_finishResolution : lasting (finishResolution s r cls vals) = lasting s := by
  unfold finishResolution
  extract_lets recalled perm closed log counted confirmed told ended
  have hcounted : lasting counted = lasting s := lasting_recallRecord r.kept
  have hconfirmed : lasting confirmed = lasting s :=
    lasting_ite hcounted ((lasting_of_suiteView (suiteView_confirmFault _)).trans hcounted)
  have htold : lasting told = lasting s := lasting_ite ((lasting_tileEvent ..).trans hconfirmed) hconfirmed
  have hended : lasting ended = lasting s :=
    lasting_ite htold (lasting_ite (lasting_ite htold (lasting_releaseHalt.trans htold)) (lasting_ite htold htold))
  exact lasting_settleAll.trans ((lasting_of_suiteView (suiteView_signRecord _)).trans hended)

/-! A repeat. -/

theorem execCheckRepeatComplete_eq (h : resolutionOf s t = some r) (hr : r.third = none) : exec (.checkRepeatComplete t value check) s
    = .next (if check ≠ r.check then finishResolution s r clsUnresolved [r.value, r.check, value]
       else if value = r.check then finishResolution s r clsTransient [r.value, r.check, value]
       else if value ≠ r.value then finishResolution s r clsIntermittent [r.value, r.check, value]
       else match thirdTile s t with
         | none => finishResolution s r clsUnresolved [r.value, r.check, value]
         | some b =>
           let s1 := updTile s b (fun x => { x with counts := { x.counts with thirdRuns := satInc 16 x.counts.thirdRuns } })
           { s1 with faults := { s1.faults with
               resolutions := s1.faults.resolutions.map (fun q => if q.record = r.record then { q with third := some b } else q) } }) := by
  show execCheckRepeatComplete t value check s = _
  unfold execCheckRepeatComplete
  rw [h]
  exact whenDo_true _ _ _ (by rw [hr]; rfl)

/-- The state with a third tile borrowed for a resolution. -/
def thirdBorrowed (s : State) (r : Resolution) (b : Nat) : State :=
  let s1 := updTile s b (fun x => { x with counts := { x.counts with thirdRuns := satInc 16 x.counts.thirdRuns } })
  { s1 with faults := { s1.faults with
      resolutions := s1.faults.resolutions.map (fun q => if q.record = r.record then { q with third := some b } else q) } }

theorem execCheckRepeatComplete_borrows (h : resolutionOf s t = some r) (hr : r.third = none) (hc : check = r.check) (hv : value = r.value)
    (hd : value ≠ r.check) (hb : thirdTile s t = some b) : exec (.checkRepeatComplete t value check) s = .next (thirdBorrowed s r b) := by
  rw [execCheckRepeatComplete_eq h hr, if_neg (not_not_intro hc), if_neg hd, if_neg (not_not_intro hv), hb]
  rfl

theorem third_of_thirdBorrowed {q : Resolution} (hq : q ∈ (thirdBorrowed s r b).faults.resolutions) (hr : q.record = r.record) :
    q.third = some b := by
  obtain ⟨p, -, rfl⟩ := List.mem_map.mp hq
  split
  · rfl
  · next h =>
    rw [if_neg h] at hr
    exact absurd hr h

theorem getTile_thirdBorrowed : getTile (thirdBorrowed s r b) b
    = { getTile s b with counts := { (getTile s b).counts with thirdRuns := satInc 16 (getTile s b).counts.thirdRuns } } := by
  exact getTile_updTile_same s b fun x => { x with counts := { x.counts with thirdRuns := satInc 16 x.counts.thirdRuns } }

/-! A third run. -/

theorem execThirdRunComplete_eq (h : resolutionOf s t = some r) (hr : r.third ≠ none) : exec (.thirdRunComplete t value check) s
    = .next (if value ≠ check then finishResolution s r clsUnresolved [r.value, r.check, r.value, value]
       else if value = r.check then finishResolution s r clsPermanent [r.value, r.check, r.value, value]
       else if value = r.value then finishResolution s r clsChecker [r.value, r.check, r.value, value]
       else finishResolution s r clsUnresolved [r.value, r.check, r.value, value]) := by
  show execThirdRunComplete t value check s = _
  unfold execThirdRunComplete
  rw [h]
  exact whenDo_true _ _ _ (Option.isSome_iff_ne_none.mpr hr)

theorem execResolutionTimeout_eq (h : resolutionOf s t = some r) :
    exec (.resolutionTimeout t) s = .next (finishResolution s r clsUnresolved [r.value, r.check]) := by
  show execResolutionTimeout t s = _
  unfold execResolutionTimeout
  rw [h]

end

/-- Settles O33. -/
theorem disagreementsAreResolvedByRepeats : Obligations.DisagreementsAreResolvedByRepeats := by
  refine fun s t r value check h => ⟨fun hr => ⟨fun hc => ?_, fun hc hv => ?_, fun hc hd hv => ?_, fun hc hv hd hb => ?_, fun b hc hv hd hb => ?_⟩,
    fun hr => ⟨fun hc => ?_, fun hc hv => ?_, fun hc hv hd => ?_, fun hc hv hd => ?_⟩, execResolutionTimeout_eq h, fun cls vals => ?_⟩
  · rw [execCheckRepeatComplete_eq h hr, if_pos hc]
    rfl
  · rw [execCheckRepeatComplete_eq h hr, if_neg (not_not_intro hc), if_pos hv]
    rfl
  · rw [execCheckRepeatComplete_eq h hr, if_neg (not_not_intro hc), if_neg hd, if_pos hv]
    rfl
  · rw [execCheckRepeatComplete_eq h hr, if_neg (not_not_intro hc), if_neg hd, if_neg (not_not_intro hv), hb]
    rfl
  · refine ⟨_, execCheckRepeatComplete_borrows h hr hc hv hd hb, rfl, fun q => third_of_thirdBorrowed, ?_, ?_⟩
    · rw [getTile_thirdBorrowed]
    · rw [getTile_thirdBorrowed]
  · rw [execThirdRunComplete_eq h hr, if_pos hc]
    rfl
  · rw [execThirdRunComplete_eq h hr, if_neg (not_not_intro hc), if_pos hv]
    rfl
  · rw [execThirdRunComplete_eq h hr, if_neg (not_not_intro hc), if_neg hd, if_pos hv]
    rfl
  · rw [execThirdRunComplete_eq h hr, if_neg (not_not_intro hc), if_neg hd, if_neg hv]
    rfl
  · exact Prod.ext_iff.mp lasting_finishResolution

end Sys2Proof.Machine
end

section
/-!
PROOFS. The Attic's banks (rules R470, R510 to R513).
-/
open Sys2Proof Sys2Proof.Says

namespace Sys2Proof.Machine
section
variable {s : State} {b : AtticBank}

theorem powered_of_ne_off (h : s.dev ≠ .off) : powered s = true := by
  unfold powered
  exact decide_eq_true h

/-- Two banks one sequence number apart: the newer one is taken. -/
theorem takenBank_of_next {a : AtticStore} {x y : AtticBank} (h0 : a.bank0 = some x) (h1 : a.bank1 = some y)
    (hx : x.seq < 2 ^ 32) (h : y.seq = (x.seq + 1) % 2 ^ 32) : takenBank a = some (1, y) := by
  unfold takenBank
  rw [h0, h1]
  exact if_pos (by omega)

theorem takenBank_of_before {a : AtticStore} {x y : AtticBank} (h0 : a.bank0 = some x) (h1 : a.bank1 = some y)
    (_hy : y.seq < 2 ^ 32) (h : x.seq = (y.seq + 1) % 2 ^ 32) : takenBank a = some (0, x) := by
  unfold takenBank
  rw [h0, h1]
  exact if_neg (by omega)

/-- The Attic's store with the working copy in the bank that is not taken. -/
def bankWritten (a : AtticStore) : AtticStore :=
  let q := (a.seq + 1) % 2 ^ 32
  let b : AtticBank := { seq := q, data := a.image }
  let w0 := if a.taken = 1 then a.writes0 + 1 else a.writes0
  let w1 := if a.taken = 1 then a.writes1 else a.writes1 + 1
  { a with
    writing := false, seq := q, taken := 1 - a.taken, writes0 := w0, writes1 := w1
    bank0 := if a.taken = 1 then some b else a.bank0, bank1 := if a.taken = 1 then a.bank1 else some b
    wear := a.wear || decide (95000 ≤ w0) || decide (95000 ≤ w1) }

theorem execAtticWriteComplete_writes (hd : s.dev ≠ .off) (hw : s.atticStore.writing = true) :
    exec .atticWriteComplete s = .next { s with atticStore := bankWritten s.atticStore } :=
  whenDo_true _ _ _ (by rw [powered_of_ne_off hd, hw]; rfl)

theorem bankWritten_of_taken0 (h : s.atticStore.taken = 0) : bankWritten s.atticStore = { bankWritten s.atticStore with
    writing := false, taken := 1, bank0 := s.atticStore.bank0, writes1 := s.atticStore.writes1 + 1
    bank1 := some { seq := (s.atticStore.seq + 1) % 2 ^ 32, data := s.atticStore.image } } := by
  unfold bankWritten
  simp [h]

theorem bankWritten_of_taken1 (h : s.atticStore.taken = 1) : bankWritten s.atticStore = { bankWritten s.atticStore with
    writing := false, taken := 0, bank1 := s.atticStore.bank1, writes0 := s.atticStore.writes0 + 1
    bank0 := some { seq := (s.atticStore.seq + 1) % 2 ^ 32, data := s.atticStore.image } } := by
  unfold bankWritten
  simp [h]

/-- What a loss of power leaves: fuses, flash, the Attic's banks but the one being written, and the host. -/
def powerLost (s : State) : State :=
  let a := s.atticStore
  let result := fun (x : Attic) => (x.bringupCode, x.bringupKind, x.bringupMs, x.fullAt)
  let broken : AtticStore := { a with
    lostResult := a.lostResult || (a.writing && decide (((takenBank a).map (fun b => result b.2.data)) ≠ some (result a.image)))
    bank0 := if a.writing && a.taken == 1 then none else a.bank0
    bank1 := if a.writing && a.taken == 0 then none else a.bank1
    writing := false, pendingFault := false, pendingOther := false, lastWrite := none, lastFault := none }
  { pending := s.pending, free := s.free, outbox := s.outbox, host := s.host, fuse := s.fuse, atticStore := broken
    fw := { slotA := s.fw.slotA, slotB := s.fw.slotB, fwMinSvn := s.fw.fwMinSvn }
    lanterns := SMap.mapVals s.lanterns (fun _ x => if x.state = 0 then x else { x with state := 1, mirror := {} })
    bnd := { perst := s.bnd.perst } }

theorem execPowerLoss_loses (hd : s.dev ≠ .off) : exec .powerLoss s = .next (powerLost s) := whenDo_true _ _ _ (decide_eq_true hd)

theorem powerLost_bank0 : (powerLost s).atticStore.bank0 = if s.atticStore.writing && s.atticStore.taken == 1 then none else s.atticStore.bank0 := rfl

theorem powerLost_bank1 : (powerLost s).atticStore.bank1 = if s.atticStore.writing && s.atticStore.taken == 0 then none else s.atticStore.bank1 := rfl

end

/-- Settles O35. -/
theorem atticWritesTakeTheOtherBank : Obligations.AtticWritesTakeTheOtherBank := by
  intro s hd
  refine ⟨fun hw hp hpast => ?_, fun hw hp hpast => ?_, fun b hlast hlt => ?_, fun b hw ht hb hseq hlt => ?_, fun b hw ht hb hseq hlt => ?_,
    ⟨_, execPowerLoss_loses hd, rfl, rfl, rfl, rfl, rfl, rfl, rfl, rfl, rfl, rfl, fun hw => ?_, fun hw ht => ?_, fun hw ht => ?_⟩⟩
  · exact whenDo_true _ _ _ (by simp [powered_of_ne_off hd, hw, hp, hpast])
  · exact whenDo_true _ _ _ (by simp [powered_of_ne_off hd, hw, hp, hpast])
  · have hpast : writePast s s.atticStore.lastWrite 60 = false := by
      unfold writePast
      simpa [hlast] using hlt
    exact whenDo_false _ _ _ (by simp [hpast])
  · refine ⟨_, execAtticWriteComplete_writes hd hw, rfl, ?_⟩
    rw [bankWritten_of_taken0 ht]
    exact ⟨hb, takenBank_of_next hb rfl (hseq ▸ hlt) (by rw [hseq]), rfl, rfl, rfl⟩
  · refine ⟨_, execAtticWriteComplete_writes hd hw, rfl, ?_⟩
    rw [bankWritten_of_taken1 ht]
    exact ⟨hb, takenBank_of_before rfl hb (hseq ▸ hlt) (by rw [hseq]), rfl, rfl, rfl⟩
  · rw [powerLost_bank0, powerLost_bank1, hw]
    exact ⟨rfl, rfl⟩
  · rw [powerLost_bank0, powerLost_bank1, hw, ht]
    exact ⟨rfl, rfl⟩
  · rw [powerLost_bank0, powerLost_bank1, hw, ht]
    exact ⟨rfl, rfl⟩

end Sys2Proof.Machine
end

section
/-!
PROOFS. Resets: a tile, a wing and the device (rules R479, R480, R482).
-/
open Sys2Proof Sys2Proof.Says

namespace Sys2Proof.Machine
section
variable {s : State} {t w e n level cause : Nat}

theorem answerUnits_only : EndOnly s (answerUnits s) := by
  unfold answerUnits
  refine foldl_ends _ (fun st p => foldl_ends _ (fun v w => ?_) _ st) _ s
  have hite : ∀ (c : Bool) (d : Nat) (b : Bytes), EndOnly v (if c then finish v (keySrc p.1) w.pkt.tag 0 d b else v) := by
    intro c d b
    cases c
    · exact EndOnly.refl v
    · exact finish_only ..
  exact hite ..

/-! A tile's reset. -/

theorem execTileResetComplete_ends (ht : t < 80) (hr : (getTile s t).health.inReset = true) :
    exec (.tileResetComplete t) s = .next (answerUnits (endTileReset s t)) :=
  whenDo_true _ _ _ (by simp [isTile, ht, hr])

/-- A tile after its reset: what it keeps is its place in its suite, its steps, its meter and its health. -/
def tileBlank (x : Tile) : Tile :=
  { suite := x.suite, vtile := x.vtile, fold := x.fold, saved := x.saved
    core := { f := blankStream x.core.f, b := blankStream x.core.b, u := blankStream x.core.u,
              tokens := List.replicate 11 .none }
    gov := { energyUj := x.gov.energyUj }
    health := { x.health with inReset := false, blank := true }, cdcHeld := true }

theorem getTile_endTileReset_same : getTile (endTileReset s t) t = tileBlank (getTile s t) :=
  getTile_updTile_same (dropLatches s (0x100 + t) 0x10000) t tileBlank

theorem getTile_endTileReset_other {i : Nat} (h : i ≠ t) : getTile (endTileReset s t) i = getTile s i :=
  getTile_updTile_other (dropLatches s (0x100 + t) 0x10000) t i tileBlank h

theorem endTileReset_only : endTileReset s t = { s with tiles := (endTileReset s t).tiles, bnd := (endTileReset s t).bnd
                                                        bringup := { s.bringup with tileResets := satInc 8 s.bringup.tileResets } } := rfl

theorem getTile_answerUnits (i : Nat) : getTile (answerUnits s) i = getTile s i := by
  unfold getTile
  rw [answerUnits_only (s := s)]

theorem step_tileBlank (x : Tile) (k : KStream) : ((tileBlank x).core.stream k).step = (x.core.stream k).step := by
  cases k <;> rfl

/-! A wing's reset. -/

theorem suiteView_setLanding (l : Nat) (x : Landing) : suiteView (setLanding s t l x) = suiteView s := by
  unfold setLanding
  refine suiteView_updTile ?_
  exact fun _ => rfl

theorem suiteView_consequentRecord (k : KStream) (word : Nat) : suiteView (consequentRecord s t k word) = suiteView s := by
  unfold consequentRecord
  dsimp only
  split
  · rfl
  · exact suiteView_of_stillView (stillView_recordFault _)

theorem suiteView_disableNow : suiteView (disableNow s e) = suiteView s := by
  unfold disableNow
  refine (suiteView_notifyPeer _).trans ?_
  refine Eq.trans (foldl_preserves suiteView (fun _ _ => suiteView_consequentRecord ..) _ _) ?_
  exact (suiteView_stopStreams ..).trans (suiteView_absorbEntry _)

theorem suiteView_finishTxn (txn : Txn) : suiteView (finishTxn s e txn) = suiteView s := by
  unfold finishTxn
  dsimp only
  split
  · exact suiteView_disableNow.trans ((suiteView_setLanding ..).trans (suiteView_setEntry _))
  · exact (suiteView_setLanding ..).trans (suiteView_setEntry _)

theorem suiteView_absorbTxn (txn : Txn) : suiteView (absorbTxn s e txn) = suiteView s := by
  unfold absorbTxn
  dsimp only
  generalize hv : updSuite _ _ _ = v
  have hcounted : suiteView v = suiteView s := by
    rw [← hv]
    refine Eq.trans (suiteView_updSuite ?_) (Eq.trans (suiteView_setEntry _) (suiteView_finishTxn _))
    exact fun _ => rfl
  split
  · exact hcounted
  · split
    · exact (suiteView_consequentRecord ..).trans ((suiteView_stopStream ..).trans hcounted)
    · exact hcounted

theorem suiteView_absorbReaching (f : Nat → Bool) : suiteView (absorbReaching s f) = suiteView s :=
  foldl_preserves suiteView (fun _ _ => foldl_preserves suiteView (fun _ _ => suiteView_absorbTxn _) _ _) _ s

/-- The wing with its drain over. -/
def wingDrained (s : State) (w : Nat) : State :=
  updWing (absorbReaching s (fun c => c / 64 == w)) w (fun x => { x with drained := true })

theorem getWing_wingDrained : getWing (wingDrained s w) w = { getWing s w with drained := true } := by
  have hwings : (absorbReaching s (fun c => c / 64 == w)).wings = s.wings := (congrArg State.wings (suiteView_frame (suiteView_absorbReaching _)) :)
  unfold wingDrained
  rw [getWing_updWing_same]
  unfold getWing
  rw [hwings]

/-- The tiles of a wing that are in reset, reset. -/
def wingTilesReset (s : State) (w : Nat) : State :=
  (List.range 10).foldl (fun st j => if (getTile st (w * 10 + j)).health.inReset then endTileReset st (w * 10 + j) else st) s

/-- A wing after its reset. -/
def wingBlank (x : Wing) : Wing :=
  { x with
    inReset := false, drained := false, lines := [], trained := true, cdcHeld := true, cdcPending := 0
    hits := 0, misses := 0, cacheCorrected := 0, cacheDirtyUe := 0, ce := [], ue := [], onlineRepairs := 0 }

/-- The wing reset, and the reset counted. -/
def wingClosed (s : State) (w : Nat) : State :=
  let v := updWing (dropLatches s (w + 1) 0x100000) w wingBlank
  { v with bringup := { v.bringup with wingResets := satInc 8 v.bringup.wingResets } }

theorem getWing_wingClosed : getWing (wingClosed s w) w = wingBlank (getWing s w) :=
  getWing_updWing_same (dropLatches s (w + 1) 0x100000) w wingBlank

theorem wingClosed_kept : (wingClosed s w).hbm = s.hbm ∧ (wingClosed s w).suites = s.suites
    ∧ (wingClosed s w).bringup.wingResets = satInc 8 s.bringup.wingResets := ⟨rfl, rfl, rfl⟩

/-- The wing and its tiles reset. -/
def wingReset (s : State) (w : Nat) : State := wingClosed (wingTilesReset s w) w

theorem execWingResetComplete_ends (hw : w < 8) (hr : (getWing s w).inReset = true) (hd : (getWing s w).drained = true) :
    exec (.wingResetComplete w) s = .next (answerUnits (wingReset s w)) := by
  show execWingResetComplete w s = _
  unfold execWingResetComplete wingReset wingClosed wingTilesReset wingBlank
  exact whenDo_true _ _ _ (by simp [hw, hr, hd])

/-- What resetting tiles leaves alone of what a wing's reset is said to keep. -/
def wingKept (s : State) : Memory × SMap Suite × Nat := (s.hbm, s.suites, s.bringup.wingResets)

theorem wingKept_endTileReset : wingKept (endTileReset s t) = wingKept s := by
  rw [endTileReset_only]
  rfl

theorem wingTilesReset_kept : (wingTilesReset s w).hbm = s.hbm ∧ (wingTilesReset s w).suites = s.suites
    ∧ (wingTilesReset s w).bringup.wingResets = s.bringup.wingResets := by
  have hfold : wingKept (wingTilesReset s w) = wingKept s := by
    refine foldl_preserves wingKept (fun st j => ?_) _ s
    split
    · exact wingKept_endTileReset
    · rfl
  simpa only [wingKept, Prod.mk.injEq] using hfold

theorem wingReset_kept : (wingReset s w).hbm = s.hbm ∧ (wingReset s w).suites = s.suites
    ∧ (wingReset s w).bringup.wingResets = satInc 8 s.bringup.wingResets := by
  obtain ⟨hhbm, hsuites, hresets⟩ := wingTilesReset_kept (s := s) (w := w)
  obtain ⟨hchbm, hcsuites, hcresets⟩ := wingClosed_kept (s := wingTilesReset s w) (w := w)
  exact ⟨hchbm.trans hhbm, hcsuites.trans hsuites, hcresets.trans (congrArg (satInc 8) hresets)⟩

theorem answerUnits_kept : (answerUnits s).hbm = s.hbm ∧ (answerUnits s).suites = s.suites ∧ (answerUnits s).wings = s.wings
    ∧ (answerUnits s).bringup = s.bringup := by
  rw [answerUnits_only (s := s)]
  exact ⟨rfl, rfl, rfl, rfl⟩

theorem getWing_answerUnits : getWing (answerUnits s) w = getWing s w := by
  obtain ⟨-, -, hwings, -⟩ := answerUnits_kept (s := s)
  unfold getWing
  rw [hwings]

/-! The device's reset. -/

/-- What a device reset does not touch, and what it clears. -/
def resetView (s : State) : SMap Suite × SMap StreamEntry × Memory × Fuses := (s.suites, s.streams, s.hbm, s.fuse)

theorem resetView_managementLane : resetView (managementLane s) = resetView s := by
  unfold managementLane
  dsimp only
  split
  · rfl
  · split
    · rfl
    · split <;> rfl

theorem resetView_strapRole : resetView (strapRole s) = resetView s := rfl

theorem resetView_stopBelfry : resetView (stopBelfry s) = resetView s := by
  unfold stopBelfry setBellState
  dsimp only
  split <;> rfl

/-- A reset of the blocks leaves no suite and no stream entry, keeps the fuses, and keeps the memory when it is warm. -/
theorem resetView_blocksReset (warm sleep : Bool) : resetView (blocksReset s warm sleep) = ([], [], if warm then s.hbm else [], s.fuse) := by
  unfold blocksReset
  extract_lets meters keepTile keepWing keepRing bringup bell faults fw bnd cleared retiring noted off strapped dark cup
  have hnoted : resetView noted = resetView cleared := by
    unfold noted
    split <;> rfl
  have hstrapped : resetView strapped = resetView cleared := resetView_strapRole.trans (resetView_stopBelfry.trans hnoted)
  have hdark : resetView dark = resetView cleared := by
    unfold dark
    split
    · exact hstrapped
    · exact hstrapped
  exact resetView_managementLane.trans hdark

theorem resetView_setDev (d : DevState) : resetView (setDev s d) = resetView s := by
  rw [setDev_only]
  rfl

theorem setDev_dev (d : DevState) : (setDev s d).dev = d := by rw [setDev_only]

theorem resetView_beginWaking (full warm : Bool) : resetView (beginWaking s full warm) = resetView s := by
  unfold beginWaking
  rw [resetView_setDev]
  refine Eq.trans (b := resetView (List.foldl _ s s.attic.tilesRetired)) rfl (foldl_preserves resetView ?_ _ s)
  exact fun _ _ => rfl

theorem beginWaking_dev (full warm : Bool) : (beginWaking s full warm).dev = .waking := setDev_dev _

theorem resetView_wakeDevice (full : Bool) : resetView (wakeDevice s full) = ([], [], [], s.fuse) :=
  (resetView_beginWaking ..).trans (resetView_blocksReset ..)

theorem resetView_parts {a : SMap Suite} {b : SMap StreamEntry} {c : Memory} {d : Fuses} (h : resetView s = (a, b, c, d)) :
    s.suites = a ∧ s.streams = b ∧ s.hbm = c ∧ s.fuse = d := by
  simpa only [resetView, Prod.mk.injEq] using h

/-- The device asleep after its drain. -/
def deviceAsleep (s : State) : State :=
  setDev { blocksReset s (s.bringup.warm && !s.bringup.sleeping) s.bringup.sleeping with bringup := { resetLevel := s.bringup.resetLevel } } .standby

theorem execDeviceDrainComplete_eq (hd : s.dev = .draining) : exec .deviceDrainComplete s
    = .next (if s.bringup.sleeping then if s.bringup.wakeHeld then wakeDevice (deviceAsleep s) false else deviceAsleep s
        else beginWaking (blocksReset s (s.bringup.warm && !s.bringup.sleeping) s.bringup.sleeping) (!s.bringup.warm) s.bringup.warm) :=
  whenDo_true _ _ _ (decide_eq_true hd)

theorem resetView_deviceAsleep (h : s.bringup.sleeping = true) : resetView (deviceAsleep s) = ([], [], [], s.fuse) := by
  unfold deviceAsleep
  rw [resetView_setDev]
  refine (resetView_blocksReset ..).trans ?_
  rw [h, Bool.not_true, Bool.and_false]
  rfl

theorem beginDeviceReset_only : beginDeviceReset s level cause
    = { s with dev := .draining, tiles := (beginDeviceReset s level cause).tiles, rings := (beginDeviceReset s level cause).rings
               mgr := { s.mgr with broadcasts := [], asked := [] }
               attic := { s.attic with
                 resetCause := cause, resetLevel := level
                 warmResets := if level == 3 then satInc 16 s.attic.warmResets else s.attic.warmResets
                 coldResets := if level == 3 then s.attic.coldResets else satInc 16 s.attic.coldResets }
               atticStore := { s.atticStore with pendingOther := true }
               bringup := { s.bringup with warm := level == 3, resetLevel := level, sleeping := false, drainTo := .waking } } := by
  have hfold : ∀ (l : SMap Suite) (v : State), ∃ ts, l.foldl (fun st p => haltSuiteTiles st p.1) v = { v with tiles := ts } := by
    intro l
    induction l with
    | nil => exact fun v => ⟨_, rfl⟩
    | cons p l ih =>
      intro v
      obtain ⟨ts, hts⟩ := ih (haltSuiteTiles v p.1)
      exact ⟨ts, hts⟩
  obtain ⟨ts, hts⟩ := hfold s.suites s
  unfold beginDeviceReset
  rw [setDev_only, hts]

end

/-- Settles O37. -/
theorem resetsKeepWhatTheirLevelKeeps : Obligations.ResetsKeepWhatTheirLevelKeeps := by
  intro s
  refine ⟨fun t ht hr => ?_, fun w hw hr => ?_, fun w hw hr hd => ?_, fun hd hs => ?_, fun hd hs hh => ?_, fun hd hs hh => ?_, fun hd => ?_⟩
  · have htile : getTile (answerUnits (endTileReset s t)) t = tileBlank (getTile s t) := by
      rw [getTile_answerUnits, getTile_endTileReset_same]
    obtain ⟨hhbm, hsuites, -, hbringup⟩ := answerUnits_kept (s := endTileReset s t)
    refine ⟨_, execTileResetComplete_ends ht hr, ?_⟩
    unfold getStream
    rw [htile, hhbm, hsuites, hbringup]
    refine ⟨rfl, rfl, rfl, rfl, rfl, rfl, rfl, rfl, step_tileBlank _, fun i hi => ?_, rfl, rfl, rfl⟩
    rw [getTile_answerUnits, getTile_endTileReset_other hi]
  · refine ⟨_, whenDo_true _ _ _ (by simp [hw, hr]), ?_⟩
    show (getWing (wingDrained s w) w).drained = true ∧ (getWing (wingDrained s w) w).inReset = true
    rw [getWing_wingDrained]
    exact ⟨rfl, hr⟩
  · have hwing : getWing (answerUnits (wingReset s w)) w = getWing (wingReset s w) w := getWing_answerUnits
    obtain ⟨hhbm, hsuites, -, hbringup⟩ := answerUnits_kept (s := wingReset s w)
    obtain ⟨hthbm, htsuites, htresets⟩ := wingReset_kept (s := s) (w := w)
    refine ⟨_, execWingResetComplete_ends hw hr hd, ?_⟩
    rw [hwing, hhbm, hsuites, hbringup, wingReset, getWing_wingClosed]
    exact ⟨rfl, rfl, rfl, rfl, hthbm, htsuites, htresets⟩
  · refine ⟨_, execDeviceDrainComplete_eq hd, ?_⟩
    rw [hs, if_neg Bool.false_ne_true, Bool.not_false, Bool.and_true]
    obtain ⟨hsuites, hstreams, hhbm, hfuse⟩ := resetView_parts ((resetView_beginWaking (s := blocksReset s s.bringup.warm false)
      (!s.bringup.warm) s.bringup.warm).trans (resetView_blocksReset ..))
    refine ⟨beginWaking_dev .., hsuites, hstreams, hfuse, fun hw => ?_, fun hw => ?_⟩
    · rw [hhbm, if_pos hw]
    · rw [hhbm, if_neg (by rw [hw]; decide)]
  · obtain ⟨hsuites, -, hhbm, -⟩ := resetView_parts (resetView_deviceAsleep hs)
    refine ⟨_, execDeviceDrainComplete_eq hd, ?_⟩
    rw [hs, if_pos rfl, hh, if_neg Bool.false_ne_true]
    exact ⟨setDev_dev _, hsuites, hhbm⟩
  · obtain ⟨hsuites, -, hhbm, -⟩ := resetView_parts (resetView_wakeDevice (s := deviceAsleep s) false)
    refine ⟨_, execDeviceDrainComplete_eq hd, ?_⟩
    rw [hs, if_pos rfl, hh, if_pos rfl]
    exact ⟨beginWaking_dev .., hsuites, hhbm⟩
  · refine ⟨beginDeviceReset s 3 2, whenDo_true _ _ _ ?_, ?_⟩
    · obtain hd | hd | hd := hd <;> simp [hd]
    · rw [beginDeviceReset_only]
      exact ⟨rfl, rfl, rfl, rfl, rfl, rfl⟩

end Sys2Proof.Machine
end

section
/-!
PROOFS. Power-on to READY (rules R470 to R476, R486, R504).
-/
open Sys2Proof Sys2Proof.Says

namespace Sys2Proof.Machine
section
variable {s u : State} {t wing w n mv held code slot pc row idx cls cause : Nat} {r : Resolution} {vals : List Nat}

/-! From OFF to WAKING. -/

/-- The state with the input's voltage and the Attic's bank read. -/
def supplyOn (s : State) (mv : Nat) : State :=
  let v := readAttic { s with cup := { s.cup with inputMv := mv, rawMv := mv, minMv := mv } }
  { v with attic := { v.attic with resetCause := 0, resetLevel := 0 } }

theorem managementLane_only : managementLane s = { s with ports := (managementLane s).ports } := by
  unfold managementLane
  dsimp only
  split
  · rfl
  · split
    · rfl
    · split <;> rfl

theorem supplyOn_only : supplyOn s mv = { s with attic := (supplyOn s mv).attic, atticStore := (supplyOn s mv).atticStore
                                                 cup := { s.cup with inputMv := mv, rawMv := mv, minMv := mv } } := by
  unfold supplyOn readAttic
  dsimp only
  split <;> rfl

theorem supplyOn_attic {b : Nat} {x : AtticBank} (h : takenBank s.atticStore = some (b, x)) :
    (supplyOn s mv).attic = { x.data with resetCause := 0, resetLevel := 0 } := by
  unfold supplyOn readAttic
  dsimp only
  rw [h]

theorem execPowerOn_powers (hd : s.dev = .off) (hlow : 44000 ≤ mv) (hhigh : mv ≤ 59500) :
    exec (.powerOn mv) s = .next { managementLane (supplyOn s mv) with dev := .standby } :=
  whenDo_true _ _ _ (by simp [hd, hlow, hhigh])

theorem failBringup_fails : (failBringup s code).dev = .faulted ∧ (failBringup s code).bringup.code = code
    ∧ (failBringup s code).attic.bringupCode = code := by
  unfold failBringup
  rw [setDev_only]
  exact ⟨rfl, rfl, rfl⟩

theorem execRailsInRegulation_eq (hd : s.dev = .waking) (hf : s.bringup.fusesRead = false) (good : Bool) :
    exec (.railsInRegulation good) s = .next (if !good then failBringup { s with cup := { s.cup with railsUp := true } } 2
      else if (takenBank s.atticStore).isNone then failBringup { s with cup := { s.cup with railsUp := true } } 3
      else { s with cup := { s.cup with railsUp := true }, bringup := { s.bringup with fusesRead := true } }) :=
  whenDo_true _ _ _ (by simp [hd, hf])

/-! Into TESTING. -/

theorem takeFeeds_fw : (takeFeeds s).fw = s.fw ∧ (takeFeeds s).dev = s.dev := by
  have hfold : (fun v : State => (v.fw, v.dev)) (takeFeeds s) = (s.fw, s.dev) := by
    unfold takeFeeds
    refine foldl_preserves (fun v : State => (v.fw, v.dev)) (fun q p => ?_) _ s
    dsimp only
    split
    · split <;> rfl
    · rfl
  exact Prod.ext_iff.mp hfold

theorem startBelfry_fw : (startBelfry s).fw = s.fw := by
  unfold startBelfry setBellState
  dsimp only
  split
  · split <;> rfl
  · split <;> rfl

theorem enterTesting_enters : (enterTesting s slot).dev = .testing ∧ (enterTesting s slot).fw.active = slot
    ∧ (enterTesting s slot).fw.serving = true ∧ (enterTesting s slot).fw.slotA = s.fw.slotA := by
  unfold enterTesting
  extract_lets full fw bringup v belfry
  obtain ⟨hfw, hdev⟩ := takeFeeds_fw (s := setDev { belfry with
    bringup := { belfry.bringup with fromBell := belfry.bell.count }, fw := { belfry.fw with servedBell := belfry.bell.count } } .testing)
  have hbelfry : belfry.fw = v.fw := startBelfry_fw
  rw [hfw, hdev, setDev_only]
  dsimp only
  rw [hbelfry]
  exact ⟨rfl, rfl, rfl, rfl⟩

/-- The state with slot A's image found bad. -/
def slotADropped (s : State) : State := { s with fw := { s.fw with slotA := { s.fw.slotA with valid := false } } }

theorem execFirmwareVerified_eq (hd : s.dev = .waking) (hf : s.bringup.fusesRead = true) (ha : s.attic.fwActive = 0) (okA okB : Bool) :
    exec (.firmwareVerified okA okB) s = .next (if okA && s.fw.slotA.valid then enterTesting s 0
      else if okB && s.fw.slotB.valid then enterTesting (slotADropped s) 1 else failBringup s 4) := by
  show execFirmwareVerified okA okB s = _
  unfold execFirmwareVerified
  dsimp only
  rw [ha]
  exact whenDo_true _ _ _ (by simp [hd, hf])

/-! The tests. -/

theorem applyRepairs_only : applyRepairs s wing = { s with wings := (applyRepairs s wing).wings } := by
  have hfold : ∀ (l : List (Nat × Nat)) (v : State), (l.foldl (fun st r =>
      updWing st wing (fun w => { w with spares := SMap.set w.spares (spareKey r.1 r.2) (sparesLeft st r.1 r.2 - 1) })) v)
      = { v with wings := (l.foldl (fun st r =>
        updWing st wing (fun w => { w with spares := SMap.set w.spares (spareKey r.1 r.2) (sparesLeft st r.1 r.2 - 1) })) v).wings } := by
    intro l
    induction l with
    | nil => exact fun v => rfl
    | cons r l ih =>
      intro v
      rw [List.foldl_cons]
      exact ih _
  unfold applyRepairs
  exact hfold _ _

/-- A stack trained: its repairs applied. -/
def stackTrained (s : State) (wing : Nat) : State :=
  { updWing (applyRepairs s wing) wing (fun w => { w with trained := true }) with
    bringup := { s.bringup with stacksTrained := s.bringup.stacksTrained ++ [wing] } }

theorem stackTrained_only : stackTrained s wing = { s with wings := (stackTrained s wing).wings, bringup := (stackTrained s wing).bringup } := by
  unfold stackTrained
  rw [applyRepairs_only]
  rfl

theorem getWing_stackTrained : (getWing (stackTrained s wing) wing).trained = true := by
  have hwing : getWing (stackTrained s wing) wing = { getWing (applyRepairs s wing) wing with trained := true } := by
    exact getWing_updWing_same (applyRepairs s wing) wing fun w => { w with trained := true }
  rw [hwing]

theorem execStackTrainingComplete_eq (hd : s.dev = .testing) (hp : wingPresent s wing = true) (hw : wing < 8)
    (ht : s.bringup.stacksTrained.contains wing = false) (passed : Bool) : exec (.stackTrainingComplete wing passed) s
    = .next (if passed then stackTrained s wing else if s.bringup.stackRetries.contains wing then failBringup s 5
       else { s with bringup := { s.bringup with stackRetries := s.bringup.stackRetries ++ [wing] } }) := by
  show execStackTrainingComplete wing passed s = _
  unfold execStackTrainingComplete stackTrained
  exact whenDo_true _ _ _ (by simp [hd, hp, hw]; simpa using ht)

/-! Becoming READY. -/

theorem signRecord_faults_only (stopped : Bool) : signRecord s idx stopped = { s with faults := (signRecord s idx stopped).faults } := by
  unfold signRecord
  extract_lets r a
  split <;> rfl

theorem recordDown_only : recordDown s = { s with faults := (recordDown s).faults, cup := (recordDown s).cup, free := (recordDown s).free
                                                  rings := (recordDown s).rings } := by
  unfold recordDown
  split
  · dsimp only
    rw [signRecord_faults_only]
    unfold updateFault
    rw [recordFault_only]
  · rfl

theorem sendTable_only : sendTable s = { s with ports := (sendTable s).ports, outbox := (sendTable s).outbox } := by
  unfold sendTable
  split
  · exact sendMgmt_only ..
  · rfl

/-- The tests that have come, the tiles, the suites and the memory, which becoming READY leaves as they are. -/
def testedView (s : State) : Memory × SMap Suite × SMap Tile × List Nat × List Nat × List Nat :=
  (s.hbm, s.suites, s.tiles, s.bringup.karDone, s.bringup.memTested, s.attic.tilesRetired)

/-- The state as the device becomes READY, before its records and its table are sent. -/
def readied (s : State) : State :=
  let b := s.bringup
  let s1 := atticFault { s with free := s.free + 1, atticStore := { s.atticStore with lostResult := false } } (fun a => { a with
      bringupCode := 0, bringupKind := b.kind, bringupMs := Config.freeNat 5 s.free % 2 ^ 32
      fullAt := if b.kind = 1 then some a.lifetimeS else a.fullAt
      fullSlot := if b.kind = 1 then s.fw.active else a.fullSlot
      stackSettings := b.stacksTrained })
  setDev { s1 with bringup := { s1.bringup with code := 0 } } .ready

theorem settleReady_of (hd : s.dev = .testing) (hm : (presentWings s).all s.bringup.memTested.contains = true)
    (hk : (presentTiles s).all (fun t => s.bringup.karDone.contains t || (getTile s t).health.retired) = true)
    (hp : (presentPorts s).all (fun p => (getPort s p).feed == 2 || (getPort s p).state != portTraining) = true) :
    settleReady s = sendTable (recordDown (readied s)) :=
  if_pos ⟨hd, hm, hk, hp⟩

theorem settleReady_cases : settleReady s = s ∨ settleReady s = sendTable (recordDown (readied s)) := by
  unfold settleReady
  dsimp only
  split
  · exact .inr rfl
  · exact .inl rfl

theorem testedView_readied : testedView (readied s) = testedView s := by
  unfold readied
  rw [setDev_only]
  rfl

theorem testedView_settleReady : testedView (settleReady s) = testedView s := by
  obtain h | h := settleReady_cases (s := s)
  · rw [h]
  · rw [h, sendTable_only, recordDown_only]
    exact testedView_readied

theorem sendTable_recordDown_kept : (sendTable (recordDown s)).dev = s.dev ∧ (sendTable (recordDown s)).attic = s.attic
    ∧ (sendTable (recordDown s)).hbm = s.hbm := by
  rw [sendTable_only, recordDown_only]
  exact ⟨rfl, rfl, rfl⟩

theorem readied_ready : (readied s).dev = .ready ∧ (readied s).attic.bringupCode = 0 ∧ (readied s).hbm = s.hbm := by
  unfold readied
  rw [setDev_only]
  exact ⟨rfl, rfl, rfl⟩

theorem testedView_parts {v w : State} (h : testedView v = testedView w) : v.hbm = w.hbm ∧ v.suites = w.suites ∧ v.tiles = w.tiles
    ∧ v.bringup.karDone = w.bringup.karDone ∧ v.bringup.memTested = w.bringup.memTested ∧ v.attic.tilesRetired = w.attic.tilesRetired := by
  simpa only [testedView, Prod.mk.injEq] using h

/-! The memory test. -/

theorem SMap.get_filter {α : Type} {d : α} {f : Nat × α → Bool} {b : Bool} {k : Nat} (hf : ∀ q : Nat × α, q.1 = k → f q = b) (m : SMap α) :
    SMap.get d (m.filter f) k = if b then SMap.get d m k else d := by
  induction m with
  | nil =>
    cases b <;> rfl
  | cons q m ih =>
    by_cases hk : q.1 = k
    · cases b with
      | true =>
        rw [List.filter_cons_of_pos (hf q hk)]
        unfold SMap.get
        rw [if_pos hk, if_pos hk, if_pos rfl]
      | false =>
        rw [List.filter_cons_of_neg (by rw [hf q hk]; decide)]
        exact ih
    · have hskip : SMap.get d (q :: m) k = SMap.get d m k := by
        rw [SMap.get, if_neg hk]
      cases hq : f q with
      | true =>
        rw [List.filter_cons_of_pos hq, hskip, ← ih, SMap.get, if_neg hk]
      | false => rw [List.filter_cons_of_neg (by rw [hq]; decide), hskip, ih]

theorem pcEvent_only (cause idx : Nat) : pcEvent s pc cause idx = { s with attic := (pcEvent s pc cause idx).attic
                                                                           atticStore := (pcEvent s pc cause idx).atticStore } := by
  unfold pcEvent
  dsimp only

/-- The memory, the suites and the bring-up. -/
def bootKept (s : State) : Memory × SMap Suite × Bringup := (s.hbm, s.suites, s.bringup)

theorem bootKept_pcEvent (cause idx : Nat) : bootKept (pcEvent s pc cause idx) = bootKept s := by
  rw [pcEvent_only]
  rfl

theorem bootKept_updWing (g : Wing → Wing) : bootKept (updWing s w g) = bootKept s := rfl

theorem bootKept_atticFault (g : Attic → Attic) : bootKept (atticFault s g) = bootKept s := rfl

theorem bootKept_recordFault (r : FaultRec) : bootKept (recordFault s r) = bootKept s := by
  rw [recordFault_only]
  rfl

theorem bootKept_signRecord (stopped : Bool) : bootKept (signRecord s idx stopped) = bootKept s := by
  rw [signRecord_faults_only]
  rfl

theorem bootKept_testRow : bootKept (testRow s pc row) = bootKept s := by
  unfold testRow
  dsimp only
  split
  · rw [bootKept_signRecord, bootKept_pcEvent, bootKept_recordFault]
  · rw [bootKept_atticFault, bootKept_updWing, bootKept_pcEvent]

/-- The bad rows of a wing put aside. -/
def rowsTested (s : State) (wing : Nat) (rows : List (Nat × Nat)) : State :=
  (rows.filter (fun r => r.1 / 64 == wing)).foldl (fun st r => testRow st r.1 r.2) s

/-- The wing's memory tested, and zero. -/
def memoryTested (s : State) (wing : Nat) : State :=
  { updWing s wing (fun w => { w with tested := true }) with
    hbm := s.hbm.filter (fun c => c.1 / 2 ^ 31 / 64 != wing)
    bringup := { s.bringup with memTested := s.bringup.memTested ++ [wing] } }

theorem rowsTested_kept (rows : List (Nat × Nat)) : (rowsTested s wing rows).hbm = s.hbm ∧ (rowsTested s wing rows).suites = s.suites
    ∧ (rowsTested s wing rows).bringup = s.bringup := by
  have hfold : bootKept (rowsTested s wing rows) = bootKept s := foldl_preserves bootKept (fun _ _ => bootKept_testRow) _ s
  simpa only [bootKept, Prod.mk.injEq] using hfold

theorem execMemoryTestComplete_eq (hd : s.dev = .testing) (ht : s.bringup.stacksTrained.contains wing = true)
    (hm : s.bringup.memTested.contains wing = false) (rows : List (Nat × Nat)) :
    exec (.memoryTestComplete wing rows) s = .next (settleReady (memoryTested (rowsTested s wing rows) wing)) := by
  show execMemoryTestComplete wing rows s = _
  unfold execMemoryTestComplete memoryTested rowsTested
  exact whenDo_true _ _ _ (by rw [hd, ht, hm]; rfl)

theorem read_memoryTested_same {a : Nat} (h : a / 2 ^ 31 / 64 = wing) : Memory.read (memoryTested s wing).hbm a = 0#8 := by
  refine (SMap.get_filter (b := false) (fun q hq => ?_) s.hbm).trans (if_neg Bool.false_ne_true)
  rw [hq, h]
  exact bne_self_eq_false wing

theorem read_memoryTested_other {a : Nat} (h : a / 2 ^ 31 / 64 ≠ wing) : Memory.read (memoryTested s wing).hbm a = Memory.read s.hbm a := by
  refine (SMap.get_filter (b := true) (fun q hq => ?_) s.hbm).trans (if_pos rfl)
  rw [hq]
  exact bne_iff_ne.mpr h

/-! The known-answer runs. -/

/-- The block and the tiles' health, but for the known-answer runs that are due. -/
def healthView (s : State) : State × (Nat → TileHealth) :=
  (faultFrame s, fun i => { (getTile s i).health with karDue := false })

theorem healthView_of_suiteView {v : State} (h : suiteView v = suiteView s) : healthView v = healthView s := by
  have hhealth : (fun i => ({ (getTile v i).health with karDue := false } : TileHealth)) = fun i => { (getTile s i).health with karDue := false } := by
    funext i
    obtain ⟨hi, -, -⟩ := tileSide_kept (suiteView_tile h i)
    rw [hi]
  unfold healthView
  rw [suiteView_frame h, hhealth]

theorem healthView_ite {c : Prop} [Decidable c] {v w : State} (hv : healthView v = healthView s) (hw : healthView w = healthView s) :
    healthView (if c then v else w) = healthView s := by
  split
  · exact hv
  · exact hw

theorem healthView_karWhenFree : healthView (karWhenFree s t) = healthView s := by
  unfold karWhenFree healthView
  refine congrArg (Prod.mk (faultFrame s)) (funext fun i => ?_)
  by_cases h : i = t
  · subst h
    rw [getTile_updTile_same]
  · rw [getTile_updTile_other _ _ _ _ h]

theorem healthView_settleCheckpoints : healthView (settleCheckpoints s n) = healthView s := by
  unfold settleCheckpoints
  refine healthView_ite rfl (Eq.trans (foldl_preserves healthView ?_ _ _) ?_)
  · exact fun _ _ => rfl
  · rfl

theorem healthView_settleAll : healthView (settleAll s) = healthView s :=
  foldl_preserves healthView (fun _ _ => healthView_settleCheckpoints) _ _

/-- An unresolved disagreement asks for a known-answer run and changes nothing else of the tiles' health. -/
theorem healthView_unresolved : healthView (finishResolution s r clsUnresolved vals) = healthView s := by
  have hrecalled : healthView (recallRecord s r.kept) = healthView s := by
    cases r.kept <;> rfl
  unfold finishResolution
  extract_lets recalled perm closed log counted confirmed told ended
  have hcounted : healthView counted = healthView s := hrecalled
  have hconfirmed : healthView confirmed = healthView s :=
    healthView_ite hcounted ((healthView_of_suiteView (suiteView_confirmFault _)).trans hcounted)
  have htold : told = confirmed := if_neg (by decide)
  have hended : ended = karWhenFree told r.tile := (if_neg (by decide)).trans ((if_neg (by decide)).trans (if_pos rfl))
  rw [healthView_settleAll, healthView_of_suiteView (suiteView_signRecord _), hended, healthView_karWhenFree, htold, hconfirmed]

theorem healthView_endThirdRuns : healthView (endThirdRuns s t) = healthView s :=
  foldl_preserves healthView (fun _ _ => healthView_unresolved) _ _

theorem getTile_health_of_view {v : State} (h : healthView v = healthView s) (i : Nat) :
    (getTile v i).health.retired = (getTile s i).health.retired ∧ (getTile v i).health.karFail = (getTile s i).health.karFail := by
  have hi := congrFun (congrArg Prod.snd h) i
  exact ⟨(congrArg TileHealth.retired hi :), (congrArg TileHealth.karFail hi :)⟩

theorem answerKar_only (passed : Bool) : EndOnly s (answerKar s t passed) := by
  unfold answerKar
  refine foldl_ends _ (fun st p => foldl_ends _ (fun v w => ?_) _ st) _ s
  dsimp only
  split
  · exact finish_only ..
  · rfl

/-- The state with a known-answer run's result noted on its tile. -/
def karNoted (s : State) (t : Nat) (pass : Bool) : State :=
  updTile s t (fun y => { y with health := { y.health with karDue := false, karFail := !pass } })

/-- The state after a known-answer run has failed: recorded, and the tile retired. -/
def karFailed (s : State) (t : Nat) : State :=
  atticFault (retireTile (recordFault (karNoted s t false) { unitClass := 0, unitIndex := t, cause := 0x0500, domain := 0, attic := true }) t) id

/-- The state with the run counted among those that have come. -/
def karCounted (s : State) (t : Nat) : State := { s with bringup := { s.bringup with karDone := s.bringup.karDone ++ [t] } }

theorem execKnownAnswerRunComplete_eq (hd : s.dev = .testing) (ht : t < 80) (hp : wingPresent s (t / 10) = true)
    (hr : (getTile s t).health.retired = false) (hk : s.bringup.karDone.contains t = false) (result : Bytes) (dis : Bool) :
    exec (.knownAnswerRunComplete t result dis) s = .next (settleReady (answerKar (karCounted
      (if decide (result = goldenResult s) && !dis then karNoted s t (decide (result = goldenResult s) && !dis)
       else endThirdRuns (signRecord (atticFault (retireTile (recordFault (karNoted s t (decide (result = goldenResult s) && !dis))
        { unitClass := 0, unitIndex := t, cause := 0x0500, domain := 0, attic := true }) t) id) s.faults.next false) t) t) t
      (decide (result = goldenResult s) && !dis))) := by
  have htesting : (decide (s.dev = .testing) && !(s.bringup.karDone.contains t)) = true := by rw [hd, hk]; rfl
  show execKnownAnswerRunComplete t result dis s = _
  unfold execKnownAnswerRunComplete karNoted karCounted
  dsimp only
  rw [htesting, if_pos rfl]
  exact whenDo_true _ _ _ (by simp [isTile, ht, hp, hr])

theorem execKnownAnswerRunComplete_passes (hd : s.dev = .testing) (ht : t < 80) (hp : wingPresent s (t / 10) = true)
    (hr : (getTile s t).health.retired = false) (hk : s.bringup.karDone.contains t = false) :
    exec (.knownAnswerRunComplete t (goldenResult s) false) s = .next (settleReady (answerKar (karCounted (karNoted s t true) t) t true)) := by
  have hpass : (decide (goldenResult s = goldenResult s) && !false) = true := by rw [decide_eq_true rfl]; rfl
  rw [execKnownAnswerRunComplete_eq hd ht hp hr hk, hpass, if_pos rfl]

theorem execKnownAnswerRunComplete_fails (hd : s.dev = .testing) (ht : t < 80) (hp : wingPresent s (t / 10) = true)
    (hr : (getTile s t).health.retired = false) (hk : s.bringup.karDone.contains t = false) {result : Bytes} {dis : Bool}
    (hf : result ≠ goldenResult s ∨ dis = true) : exec (.knownAnswerRunComplete t result dis) s
      = .next (settleReady (answerKar (karCounted (endThirdRuns (signRecord (karFailed s t) s.faults.next false) t) t) t false)) := by
  have hfail : (decide (result = goldenResult s) && !dis) = false := by
    obtain hf | hf := hf
    · rw [decide_eq_false hf, Bool.false_and]
    · rw [hf, Bool.not_true, Bool.and_false]
  rw [execKnownAnswerRunComplete_eq hd ht hp hr hk, hfail, if_neg Bool.false_ne_true]
  rfl

theorem testedView_answerKar (passed : Bool) : testedView (answerKar s t passed) = testedView s := by
  rw [answerKar_only (s := s) passed]
  rfl

/-- The state with a tile that no running suite holds retired. -/
def tileRetired (s : State) (t : Nat) : State :=
  let v := updTile s t (fun x => { unseat x with health := { x.health with retired := true, pendingRetire := false, inService := false } })
  { v with attic := { v.attic with tilesRetired := if v.attic.tilesRetired.contains t then v.attic.tilesRetired else v.attic.tilesRetired ++ [t] } }

theorem retireTile_free (hb : tileBusy s t = false) : retireTile s t = tileRetired s t := if_neg (by rw [hb]; decide)

theorem getTile_tileRetired : (getTile (tileRetired s t) t).health
    = { (getTile s t).health with retired := true, pendingRetire := false, inService := false } := by
  have htile : getTile (tileRetired s t) t
      = { unseat (getTile s t) with health := { (getTile s t).health with retired := true, pendingRetire := false, inService := false } } :=
    getTile_updTile_same s t fun x => { unseat x with health := { x.health with retired := true, pendingRetire := false, inService := false } }
  rw [htile]

theorem tileRetired_listed : (tileRetired s t).attic.tilesRetired.contains t = true := by
  have hlist : ∀ l : List Nat, (if l.contains t then l else l ++ [t]).contains t = true := fun l => by
    split
    · assumption
    · simp
  exact hlist s.attic.tilesRetired

theorem getTile_karFailed (hb : tileBusy s t = false) : (getTile (karFailed s t) t).health.retired = true
    ∧ (getTile (karFailed s t) t).health.karFail = true ∧ (karFailed s t).attic.tilesRetired.contains t = true
    ∧ (karFailed s t).bringup = s.bringup := by
  have hbusy : tileBusy (recordFault (karNoted s t false) { unitClass := 0, unitIndex := t, cause := 0x0500, domain := 0, attic := true }) t = false := by
    unfold tileBusy
    rw [recordFault_suites]
    exact hb
  have hfailed : (getTile (recordFault (karNoted s t false) { unitClass := 0, unitIndex := t, cause := 0x0500, domain := 0, attic := true }) t).health.karFail = true := by
    unfold getTile
    rw [recordFault_tiles]
    exact congrArg (fun x : Tile => x.health.karFail) (getTile_updTile_same ..)
  have hbringup := congrArg (fun v => v.2.2) (bootKept_recordFault (s := karNoted s t false)
    { unitClass := 0, unitIndex := t, cause := 0x0500, domain := 0, attic := true })
  unfold karFailed
  generalize recordFault _ _ = v at hbusy hfailed hbringup ⊢
  rw [retireTile_free hbusy]
  have hhealth : (getTile (atticFault (tileRetired v t) id) t).health = _ := getTile_tileRetired
  rw [hhealth]
  exact ⟨rfl, hfailed, tileRetired_listed, hbringup⟩

/-- The last of a known-answer run leaves the tiles, the retired tiles and the runs that have come. -/
theorem testedView_karEnds (passed : Bool) : testedView (settleReady (answerKar s t passed)) = testedView s :=
  testedView_settleReady.trans (testedView_answerKar passed)

end

/-- Settles O36. -/
theorem powerOnLeadsToReady : Obligations.PowerOnLeadsToReady := by
  refine ⟨fun s => ⟨fun mv hd hlow hhigh => ?_, fun held hd hh ht => ?_, fun held hd hs hh => ?_, fun held hd hc1 hc4 hh => ?_, fun hd hf => ⟨?_, fun hb => ?_, fun hb => ?_⟩,
      fun hd hr => ?_, fun hd hf ha => ⟨fun okB hv => ?_, fun hv => ?_, ?_⟩⟩,
    fun s hd => ⟨fun wing hp hw ht => ⟨?_, fun hr => ?_, fun hr => ?_⟩, fun wing rows ht hm => ?_, fun t ht hp hr hk => ⟨?_, fun result dis hf hb => ?_⟩,
      fun hm hk hp => ?_⟩⟩
  · refine ⟨_, execPowerOn_powers hd hlow hhigh, rfl, ?_, ?_, ?_, fun b x h => ?_⟩
    · rw [managementLane_only, supplyOn_only]
    · rw [managementLane_only, supplyOn_only]
    · rw [managementLane_only, supplyOn_only]
    · rw [managementLane_only]
      exact supplyOn_attic h
  · obtain ⟨hsuites, -, -, hfuse⟩ := resetView_parts (resetView_wakeDevice (s := s) false)
    refine ⟨wakeDevice s false, ?_, beginWaking_dev .., hfuse, hsuites⟩
    show execWakePin held s = _
    unfold execWakePin
    rw [if_pos hd]
    exact whenDo_true _ _ _ (by simp [hh, ht])
  · show execWakePin held s = _
    unfold execWakePin
    rw [if_neg (by rw [hd]; decide), if_pos ⟨hd, hs⟩]
    exact whenDo_true _ _ _ (decide_eq_true hh)
  · refine ⟨resetDevice s 4 1, ?_, ?_, ?_⟩
    · show execWakePin held s = _
      unfold execWakePin
      rw [if_neg (by rw [hd]; decide), if_neg (fun h => by rw [hd] at h; exact absurd h.1 (by decide))]
      exact whenDo_true _ _ _ (by simp [hd, hc1, hc4, hh])
    · unfold resetDevice
      rw [beginDeviceReset_only]
    · unfold resetDevice
      rw [beginDeviceReset_only]
  · obtain ⟨hfaulted, hcode, hattic⟩ := failBringup_fails (s := { s with cup := { s.cup with railsUp := true } }) (code := 2)
    exact ⟨_, execRailsInRegulation_eq hd hf false, hfaulted, hcode, hattic⟩
  · obtain ⟨hfaulted, hcode, -⟩ := failBringup_fails (s := { s with cup := { s.cup with railsUp := true } }) (code := 3)
    refine ⟨_, execRailsInRegulation_eq hd hf true, ?_⟩
    rw [hb]
    exact ⟨hfaulted, hcode⟩
  · rw [execRailsInRegulation_eq hd hf true, Bool.not_true, if_neg Bool.false_ne_true, if_neg (by simpa using hb)]
  · obtain ⟨hfaulted, hcode, -⟩ := failBringup_fails (s := s) (code := 1)
    exact ⟨failBringup s 1, whenDo_true _ _ _ (by simp [hd, hr]), hfaulted, hcode⟩
  · obtain ⟨hdev, hactive, hserving, -⟩ := enterTesting_enters (s := s) (slot := 0)
    refine ⟨_, execFirmwareVerified_eq hd hf ha true okB, ?_⟩
    rw [hv, Bool.and_self, if_pos rfl]
    exact ⟨hdev, hactive, hserving⟩
  · obtain ⟨hdev, hactive, -, hslot⟩ := enterTesting_enters (s := slotADropped s) (slot := 1)
    refine ⟨_, execFirmwareVerified_eq hd hf ha false true, ?_⟩
    rw [hv, Bool.false_and, if_neg Bool.false_ne_true, Bool.and_self, if_pos rfl, hslot]
    exact ⟨hdev, hactive, rfl⟩
  · obtain ⟨hfaulted, hcode, -⟩ := failBringup_fails (s := s) (code := 4)
    refine ⟨_, execFirmwareVerified_eq hd hf ha false false, ?_⟩
    rw [Bool.false_and, if_neg Bool.false_ne_true, Bool.false_and, if_neg Bool.false_ne_true]
    exact ⟨hfaulted, hcode⟩
  · exact ⟨_, execStackTrainingComplete_eq hd hp hw ht true, rfl, getWing_stackTrained, stackTrained_only⟩
  · rw [execStackTrainingComplete_eq hd hp hw ht false, if_neg Bool.false_ne_true, if_neg (by rw [hr]; decide)]
  · obtain ⟨hfaulted, hcode, -⟩ := failBringup_fails (s := s) (code := 5)
    refine ⟨_, execStackTrainingComplete_eq hd hp hw ht false, ?_⟩
    rw [if_neg Bool.false_ne_true, if_pos hr]
    exact ⟨hfaulted, hcode⟩
  · obtain ⟨hhbm, hsuites, -, -, hmem, -⟩ := testedView_parts (testedView_settleReady (s := memoryTested (rowsTested s wing rows) wing))
    obtain ⟨hrhbm, hrsuites, hrbringup⟩ := rowsTested_kept (s := s) (wing := wing) rows
    refine ⟨_, execMemoryTestComplete_eq hd ht hm rows, ?_⟩
    rw [hhbm, hsuites, hmem]
    refine ⟨congrArg (fun b : Bringup => b.memTested ++ [wing]) hrbringup, fun a => read_memoryTested_same, fun a h => ?_, hrsuites⟩
    rw [read_memoryTested_other h, hrhbm]
  · obtain ⟨-, -, htiles, hdone, -, -⟩ := testedView_parts (testedView_karEnds (s := karCounted (karNoted s t true) t) (t := t) true)
    have htile : getTile (karCounted (karNoted s t true) t) t
        = { getTile s t with health := { (getTile s t).health with karDue := false, karFail := !true } } :=
      getTile_updTile_same s t fun y => { y with health := { y.health with karDue := false, karFail := !true } }
    refine ⟨_, execKnownAnswerRunComplete_passes hd ht hp hr hk, ?_⟩
    rw [hdone]
    unfold getTile at htile ⊢
    rw [htiles, htile]
    exact ⟨rfl, rfl, hr⟩
  · obtain ⟨hretired, hfailed, hlisted, hbringup⟩ := getTile_karFailed hb
    have hview : healthView (endThirdRuns (signRecord (karFailed s t) s.faults.next false) t) = healthView (karFailed s t) :=
      healthView_endThirdRuns.trans (healthView_of_suiteView (suiteView_signRecord _))
    generalize hv : endThirdRuns (signRecord (karFailed s t) s.faults.next false) t = v at hview
    obtain ⟨hvretired, hvfailed⟩ := getTile_health_of_view hview t
    have hvbringup : v.bringup = (karFailed s t).bringup := (congrArg (fun x => x.1.bringup) hview :)
    have hvlisted : v.attic.tilesRetired = (karFailed s t).attic.tilesRetired := (congrArg (fun x => x.1.attic.tilesRetired) hview :)
    obtain ⟨-, -, htiles, hdone, -, hgone⟩ := testedView_parts (testedView_karEnds (s := karCounted v t) (t := t) false)
    refine ⟨_, execKnownAnswerRunComplete_fails hd ht hp hr hk hf, ?_⟩
    rw [hv, hdone, hgone]
    have htile : getTile (settleReady (answerKar (karCounted v t) t false)) t = getTile v t := by
      unfold getTile
      rw [htiles]
      rfl
    rw [htile, hvretired, hvfailed]
    exact ⟨congrArg (fun b : Bringup => b.karDone ++ [t]) (hvbringup.trans hbringup), hfailed, hretired, (congrArg _ hvlisted).trans hlisted⟩
  · obtain ⟨hdev, hattic, hhbm⟩ := sendTable_recordDown_kept (s := readied s)
    obtain ⟨hready, hcode, hrhbm⟩ := readied_ready (s := s)
    rw [settleReady_of hd hm hk hp, hdev, hattic, hhbm]
    exact ⟨hready, hcode, hrhbm⟩

end Sys2Proof.Machine
end

section
/-!
PROOFS. Firmware: activation, fallback and confirmation (rules R383, R486, R488, R523).
-/
open Sys2Proof Sys2Proof.Says

namespace Sys2Proof.Machine
section
variable {s : State}

/-- The state with the activation begun, and the values of the Hall's registers held. -/
def activating (s : State) : State :=
  { s with
    fw := { s.fw with actPending := false, actBell := 2 ^ 64 - 1, inActivation := true, fellBack := false, heldRegs := holdRegs s }
    bell := { s.bell with events := s.bell.events.filter (fun e => e.opcode != 0x0703) } }

theorem execFwActivation_begins (hp : s.fw.actPending = true) (hb : s.fw.actBell ≤ s.bell.count) (hs : s.bell.state ≠ .off)
    (hh : s.suites.any (fun p => p.2.job.haltBell == some s.fw.actBell && decide (p.2.state = .running)) = false) :
    exec .fwActivation s = .next (activating s) := by
  show execFwActivation s = _
  unfold execFwActivation activating
  dsimp only
  rw [hh]
  exact whenDo_true _ _ _ (by simp [hp, hb, hs])

/-- The state with the previous slot named to serve again. -/
def fallenBack (s : State) : State :=
  let v := atticFault s (fun a => { a with fwReverted := true })
  fwState { v with fw := { v.fw with fellBack := true, reverted := true, stage := 3 } } 3

theorem execFwActivationTimeout_falls_back (ha : s.fw.inActivation = true) (hf : s.fw.fellBack = false) :
    exec .fwActivationTimeout s = .next (fallenBack s) :=
  whenDo_true _ _ _ (by simp [ha, hf])

/-- The firmware as the Hall serves again. -/
def servingAgain (s : State) : Firmware :=
  let f := s.fw
  { f with
    active := if f.fellBack then f.active else 1 - f.active
    confirmed := if f.fellBack then f.confirmed else false
    reverted := f.fellBack
    stage := if f.fellBack then 3 else 0
    inActivation := false, fellBack := false, servedBell := s.bell.count, heldPackets := [], keptWrites := [], heldRegs := [] }

/-- The state as the Hall serves again, before what it kept is taken. -/
def hallServes (s : State) : State :=
  if s.fw.fellBack then { s with fw := servingAgain s } else fwState { s with fw := servingAgain s } (servingAgain s).stage

theorem hallServes_only : hallServes s = { s with fw := servingAgain s, rings := (hallServes s).rings } := by
  unfold hallServes
  split <;> rfl

theorem execHallServesAgain_serves (ha : s.fw.inActivation = true) :
    exec .hallServesAgain s = .next (s.fw.heldPackets.foldl (fun st p => takePacket st p.1 p.2) (s.fw.keptWrites.foldl applyKept (hallServes s))) :=
  whenDo_true _ _ _ ha

theorem servingAgain_activated (h : s.fw.fellBack = false) :
    (servingAgain s).active = 1 - s.fw.active ∧ (servingAgain s).confirmed = false ∧ (servingAgain s).reverted = false := by
  unfold servingAgain
  dsimp only
  rw [h]
  exact ⟨rfl, rfl, rfl⟩

theorem servingAgain_fellBack (h : s.fw.fellBack = true) : (servingAgain s).active = s.fw.active
    ∧ (servingAgain s).confirmed = s.fw.confirmed ∧ (servingAgain s).reverted = true ∧ (servingAgain s).stage = 3 := by
  unfold servingAgain
  dsimp only
  rw [h]
  exact ⟨rfl, rfl, rfl, rfl⟩

/-- The state with the serving slot confirmed. -/
def confirmed (s : State) : State :=
  let v := atticFault s (fun a => { a with fwActive := s.fw.active, fwConfirmed := true, fwReverted := s.fw.reverted })
  { v with fw := { v.fw with confirmed := true, fwMinSvn := max s.fw.fwMinSvn (slotOfFw s.fw s.fw.active).svn } }

theorem execFwConfirmation_confirms (hs : s.fw.serving = true) (ha : s.fw.inActivation = false) (hc : s.fw.confirmed = false)
    (hb : s.fw.servedBell + 600000000 ≤ s.bell.count) : exec .fwConfirmation s = .next (confirmed s) :=
  whenDo_true _ _ _ (by simp [hs, ha, hc, hb])

theorem minSvn_confirmed : minSvn s ≤ minSvn (confirmed s) := by
  show max s.fuse.minSvn s.fw.fwMinSvn ≤ max s.fuse.minSvn (max s.fw.fwMinSvn (slotOfFw s.fw s.fw.active).svn)
  omega

end

/-- Settles O38. -/
theorem firmwareActivatesAndConfirms : Obligations.FirmwareActivatesAndConfirms := by
  refine fun s => ⟨fun hp hb hs hh => ⟨_, execFwActivation_begins hp hb hs hh, rfl, rfl, rfl, rfl, rfl, rfl⟩,
    fun ha hf => ⟨_, execFwActivationTimeout_falls_back ha hf, rfl, rfl, rfl, rfl, rfl, rfl⟩,
    fun ha => ⟨hallServes s, execHallServesAgain_serves ha, ?_⟩,
    fun hs ha hc hb => ⟨_, execFwConfirmation_confirms hs ha hc hb, rfl, rfl, rfl, rfl, rfl, minSvn_confirmed⟩⟩
  rw [hallServes_only]
  exact ⟨rfl, rfl, rfl, rfl, servingAgain_activated, servingAgain_fellBack, rfl⟩

end Sys2Proof.Machine
end

section
/-!
PROOFS. Governors, telemetry and the mirror block (rules R496, R505 to R508, R515, R517).
-/
open Sys2Proof Sys2Proof.Says

namespace Sys2Proof.Machine
section
variable {s u : State} {t i k : Nat} {temp : Int} {g h : Governor → Governor}

/-! The governor. -/

theorem getTile_updGov : getTile (updGov s t g) t = { getTile s t with gov := g (getTile s t).gov } := getTile_updTile_same ..

theorem updGov_onlyTile : onlyTile s (updGov s t g) t := ⟨rfl, fun _ hx => getTile_updTile_other s _ _ _ hx⟩

/-- A change of the governor is what it makes of the tile's own governor. -/
theorem updGov_congr (h' : g (getTile s t).gov = h (getTile s t).gov) : updGov s t g = updGov s t h :=
  congrArg (fun x : Governor => setTile s t { getTile s t with gov := x }) h'

theorem clocked_updGov : clocked (updGov s t g) t = clocked s t := by
  have hhealth : (getTile (updGov s t g) t).health = (getTile s t).health := by rw [getTile_updGov]
  unfold clocked
  rw [hhealth]
  rfl

/-- A tile's clock in terms of its governor. -/
theorem tileMhz_of_clocked (hc : clocked s t = true) : tileMhz s t
    = max 800 (min (2300 - 25 * max (getTile s t).gov.currentSteps (getTile s t).gov.tempSteps)
        (min (if (getTile s t).gov.ceilingMhz = 0 then 2300 else (getTile s t).gov.ceilingMhz / 25 * 25)
          (if s.cup.warn then s.cup.warnClampMhz / 25 * 25 else 2300))) := if_pos hc

theorem tileMhz_bounds (hc : clocked s t = true) : 800 ≤ tileMhz s t ∧ tileMhz s t ≤ 2300 ∧ tileMhz s t % 25 = 0 := by
  rw [tileMhz_of_clocked hc]
  split <;> split <;> omega

theorem clamped_mono {lo m p q : Nat} (h : p ≤ q) : max lo (min p m) ≤ max lo (min q m) := by omega

/-- One current step more never makes a clock faster. -/
theorem tileMhz_currentStep (hc : clocked s t = true) :
    tileMhz (updGov s t (fun g => { g with currentSteps := g.currentSteps + 1, downSteps := satInc 16 g.downSteps })) t ≤ tileMhz s t := by
  rw [tileMhz_of_clocked hc, tileMhz_of_clocked (clocked_updGov.trans hc), getTile_updGov]
  refine clamped_mono ?_
  dsimp only
  omega

/-! A telemetry sample. -/

theorem readSensor_only (n : Nat) (x : Int) : readSensor s n x = { s with cup := { s.cup with
    temps := SMap.set s.cup.temps n x, maxSensor := (readSensor s n x).cup.maxSensor, maxTemp := (readSensor s n x).cup.maxTemp }
                                                                          attic := (readSensor s n x).attic } := by
  unfold readSensor
  dsimp only
  split <;> rfl

/-- Sensors read one after another, from the `k`-th on. -/
def sensorsRead (s : State) (l : List Int) (k : Nat) : State := (l.zipIdx k).foldl (fun st p => readSensor st p.2 p.1) s

theorem sensorsRead_only (l : List Int) : sensorsRead s l k = { s with cup := { s.cup with
    temps := (sensorsRead s l k).cup.temps, maxSensor := (sensorsRead s l k).cup.maxSensor, maxTemp := (sensorsRead s l k).cup.maxTemp }
                                                                       attic := (sensorsRead s l k).attic } := by
  induction l generalizing s k with
  | nil => rfl
  | cons x l ih =>
    have hstep : sensorsRead s (x :: l) k = sensorsRead (readSensor s k x) l (k + 1) := rfl
    rw [hstep, ih, readSensor_only]

theorem sensorsRead_below (l : List Int) (h : i < k) : SMap.get (-512) (sensorsRead s l k).cup.temps i = SMap.get (-512) s.cup.temps i := by
  induction l generalizing s k with
  | nil => rfl
  | cons x l ih =>
    have hstep : sensorsRead s (x :: l) k = sensorsRead (readSensor s k x) l (k + 1) := rfl
    rw [hstep, ih (by omega), readSensor_only]
    exact SMap.get_set_other _ _ _ _ _ (by omega)

theorem sensorsRead_at (l : List Int) (h : i < l.length) : SMap.get (-512) (sensorsRead s l k).cup.temps (k + i) = l.getD i (-512) := by
  induction l generalizing s k i with
  | nil => exact absurd h (Nat.not_lt_zero i)
  | cons x l ih =>
    have hstep : sensorsRead s (x :: l) k = sensorsRead (readSensor s k x) l (k + 1) := rfl
    cases i with
    | zero =>
      rw [hstep, sensorsRead_below l (by omega), readSensor_only]
      exact SMap.get_set_same ..
    | succ i =>
      rw [hstep, show k + (i + 1) = k + 1 + i by omega, ih (Nat.lt_of_succ_lt_succ h)]
      rfl

theorem get_zipIdx (l : List Nat) (h : i < l.length) : SMap.get 0 ((l.zipIdx k).map (fun p => (p.2, p.1))) (k + i) = l.getD i 0 := by
  induction l generalizing k i with
  | nil => exact absurd h (Nat.not_lt_zero i)
  | cons x l ih =>
    rw [List.zipIdx_cons, List.map_cons, SMap.get]
    cases i with
    | zero => exact if_pos rfl
    | succ i =>
      rw [if_neg (by dsimp only; omega), show k + (i + 1) = k + 1 + i by omega, ih (Nat.lt_of_succ_lt_succ h)]
      rfl

/-- The state with a sample's input and temperatures read. -/
def sampleRead (s : State) (x : Telemetry) : State := sensorsRead (sampleRaw (sampleInput s x.inputMv) x.lowMv) x.temps 0

/-- The state with a sample latched: the meters never fall. -/
def sampleTaken (s : State) (x : Telemetry) : State :=
  let s1 := sampleRead s x
  let s2 : State := { s1 with
    tiles := SMap.mapVals s1.tiles (fun t y => { y with gov := { y.gov with energyUj := max y.gov.energyUj (x.tileUj.getD t 0) } })
    wings := SMap.mapVals s1.wings (fun w y => { y with energyUj := max y.energyUj (x.wingUj.getD w 0) })
    portExtra := (presentPorts s1).foldl (fun m p => SMap.modify {} m p (fun y => { y with energyUj := max y.energyUj (x.portUj.getD p 0) })) s1.portExtra
    cup := { s1.cup with
      inputMa := x.inputMa, rails := (x.rails.zipIdx).map (fun p => (p.2, p.1))
      energyUj := max s1.cup.energyUj x.totalUj, commonUj := max s1.cup.commonUj x.commonUj } }
  { s2 with suites := SMap.mapVals s2.suites (fun n su => sampleSuite s s2 n su) }

theorem execTelemetrySample_takes {x : Telemetry} (hb : s.bell.state ≠ .off) : exec (.telemetrySample x) s = .next (sampleTaken s x) := by
  show execTelemetrySample x s = _
  unfold execTelemetrySample sampleTaken sampleRead sensorsRead
  exact whenDo_true _ _ _ (decide_eq_true hb)

theorem sampleRead_only (x : Telemetry) : sampleRead s x = { s with attic := (sampleRead s x).attic, cup := { s.cup with
    temps := (sampleRead s x).cup.temps, maxSensor := (sampleRead s x).cup.maxSensor, maxTemp := (sampleRead s x).cup.maxTemp
    inputMv := x.inputMv, rawMv := x.lowMv, minMv := min s.cup.minMv x.lowMv, readMin := min s.cup.readMin x.lowMv
    warnMin := if s.cup.warn then min s.cup.warnMin x.lowMv else s.cup.warnMin } } := by
  unfold sampleRead
  rw [sensorsRead_only]
  rfl

theorem sampleTaken_only (x : Telemetry) : sampleTaken s x = { s with
    cup := (sampleTaken s x).cup, attic := (sampleTaken s x).attic, tiles := (sampleTaken s x).tiles, wings := (sampleTaken s x).wings
    portExtra := (sampleTaken s x).portExtra, suites := (sampleTaken s x).suites } := by
  unfold sampleTaken
  rw [sampleRead_only]

theorem sampleTaken_cup (x : Telemetry) : (sampleTaken s x).cup = { (sampleRead s x).cup with
    inputMa := x.inputMa, rails := (x.rails.zipIdx).map (fun p => (p.2, p.1))
    energyUj := max (sampleRead s x).cup.energyUj x.totalUj, commonUj := max (sampleRead s x).cup.commonUj x.commonUj } := rfl

theorem getTile_sampleTaken (x : Telemetry) (t : Nat) : (getTile (sampleTaken s x) t).core = (getTile s t).core
    ∧ (getTile s t).gov.energyUj ≤ (getTile (sampleTaken s x) t).gov.energyUj := by
  have htiles : (sampleRead s x).tiles = s.tiles := by rw [sampleRead_only]
  have hmap : getTile (sampleTaken s x) t = SMap.get {} (SMap.mapVals s.tiles
      (fun t y => { y with gov := { y.gov with energyUj := max y.gov.energyUj (x.tileUj.getD t 0) } })) t := by
    rw [← htiles]
    rfl
  rw [hmap]
  refine SMap.get_map_of (P := fun y : Tile => y.core = (getTile s t).core ∧ (getTile s t).gov.energyUj ≤ y.gov.energyUj)
    (f := fun p => (p.1, { p.2 with gov := { p.2.gov with energyUj := max p.2.gov.energyUj (x.tileUj.getD p.1 0) } })) (fun _ => rfl) (fun q hq => ⟨hq.1, Nat.le_trans hq.2 (Nat.le_max_left ..)⟩) s.tiles ⟨rfl, Nat.le_refl _⟩

/-! The mirror block. -/

/-- What the Cupola and the Attic hold, as the mirror block shows it. -/
def mirrored (s : State) : State :=
  let c := s.cup
  { s with cup := { c with mirror := {
        wear := s.atticStore.wear, bank := s.atticStore.taken, overvolt := c.overvolt, coolantHot := c.coolantHot, throttle := c.throttle
        warn := c.warn, inputMv := c.inputMv, inputMa := c.inputMa, minMv := c.minMv, supplyLast := c.supplyLast, supplyDur := c.supplyDur
        maxSensor := c.maxSensor, maxTemp := c.maxTemp, lifetime := s.attic.lifetimeS, brownouts := s.attic.brownouts
        shutdowns := s.attic.shutdowns, seq := s.atticStore.seq, writes0 := s.atticStore.writes0, writes1 := s.atticStore.writes1
        energyUj := c.energyUj, commonUj := c.commonUj
        present := (List.range 4).foldl (fun m l => if (getLantern s l).state = 0 then m else m + 2 ^ l) 0
        temps := c.temps, rails := c.rails } } }

theorem execCupolaMirrorCopy_copies (h1 : s.dev ≠ .off) (h2 : s.dev ≠ .standby) (h3 : s.dev ≠ .waking) :
    exec .cupolaMirrorCopy s = .next (mirrored s) := by
  show execCupolaMirrorCopy s = _
  unfold execCupolaMirrorCopy mirrored
  exact whenDo_true _ _ _ (by simp [h1, h2, h3])

end

/-- Settles O40. -/
theorem governorsAndTelemetryFollowTheMeters : Obligations.GovernorsAndTelemetryFollowTheMeters := by
  refine ⟨fun s t hc => ⟨whenDo_true _ _ _ hc, whenDo_true _ _ _ hc, fun hs => ⟨whenDo_true _ _ _ (by simp [hc, hs]), tileMhz_currentStep hc⟩,
      fun temp htemp hs => whenDo_true _ _ _ (by simp [hc, htemp, hs]), fun temp htemp hs => ?_, fun temp htemp hs => ?_,
      fun temp htemp hm => whenDo_true _ _ _ (by simp [hc, htemp, hm]), fun temp htemp hp => ?_,
      fun f => ⟨updGov_onlyTile, ?_, ?_⟩, tileMhz_bounds hc⟩,
    fun s => ⟨fun x hb => ⟨_, execTelemetrySample_takes hb, sampleTaken_only x, ?_, ?_, ?_, ?_, ?_, getTile_sampleTaken x, fun i hi => ?_, fun i hi => ?_⟩,
      fun h1 h2 h3 => ⟨_, execCupolaMirrorCopy_copies h1 h2 h3, rfl, rfl, rfl, rfl, rfl, rfl, rfl, rfl, rfl, rfl, rfl, rfl, rfl⟩⟩⟩
  · exact (whenDo_true _ _ _ (by simp [hc, htemp])).trans (congrArg Host.Outcome.next (updGov_congr (if_pos hs)))
  · exact (whenDo_true _ _ _ (by simp [hc, htemp])).trans (congrArg Host.Outcome.next (updGov_congr (if_neg (by omega))))
  · have ht : isTile t = true := by
      unfold clocked at hc
      simp only [Bool.and_eq_true] at hc
      obtain ⟨⟨⟨ht, -⟩, -⟩, -⟩ := hc
      exact ht
    exact whenDo_true _ _ _ (by simp [ht, htemp, hp])
  · rw [getTile_updGov]
  · rw [getTile_updGov]
  · rw [sampleTaken_cup, sampleRead_only]
  · rw [sampleTaken_cup, sampleRead_only]
  · rw [sampleTaken_cup]
  · rw [sampleTaken_cup, sampleRead_only]
  · rw [sampleTaken_cup, sampleRead_only]
  · have htemp := sensorsRead_at (s := sampleRaw (sampleInput s x.inputMv) x.lowMv) (k := 0) x.temps hi
    rwa [Nat.zero_add] at htemp
  · have hrail := get_zipIdx (k := 0) x.rails hi
    rwa [Nat.zero_add] at hrail

end Sys2Proof.Machine
end

section
/-!
PROOFS. Rings: doorbells, control and events (rules R272, R371 to R375, R380, R385).
-/
open Sys2Proof Sys2Proof.Says

namespace Sys2Proof.Machine
section
variable {s u : State} {f v n addr : Nat} {e : Packet} {rest : List Packet}

theorem keepOr_activating (h : s.fw.inActivation = true) :
    keepOr s f addr v u = { s with fw := { s.fw with keptWrites := s.fw.keptWrites ++ [(f, addr, v)] } } := if_pos h

theorem keepOr_serving (h : s.fw.inActivation = false) : keepOr s f addr v u = u := if_neg (by rw [h]; decide)

theorem execSqTailDoorbell_eq (h : reachable s f = true) :
    exec (.sqTailDoorbell f v) s = .next (keepOr s f (ringAddr f 0x24) v (ringTail s f v)) := whenDo_true _ _ _ h

theorem execCqHeadDoorbell_eq (h : reachable s f = true) :
    exec (.cqHeadDoorbell f v) s = .next (keepOr s f (ringAddr f 0x2C) v (ringHead s f v)) := whenDo_true _ _ _ h

theorem execEventPost_eq (h : (getRing s f).held = e :: rest) : exec (.eventPost f) s
    = whenDo (reachable s f && (getRing s f).enable && !(getRing s f).stopped && bit (getRing s f).features 5 && hasRoom (getRing s f) false
        && !s.fw.inActivation) s (postSlot (updRing s f (fun x => { x with held := rest })) f (packetBytes e)) := by
  show execEventPost f s = _
  unfold execEventPost
  dsimp only
  rw [h]

theorem execEventPost_activating (h : s.fw.inActivation = true) : exec (.eventPost f) s = .next s := by
  cases hheld : (getRing s f).held with
  | nil =>
    show execEventPost f s = _
    unfold execEventPost
    dsimp only
    rw [hheld]
  | cons e rest =>
    rw [execEventPost_eq hheld]
    exact whenDo_false _ _ _ (by simp [h])

/-- The function's suite that a READY_STEP write names. -/
theorem execReadyStepWrite_eq (h : reachable s f = true) (hn : (if f = 0 then n else f - 1) < 8)
    (hs : (getSuite s (if f = 0 then n else f - 1)).state ≠ .absent) : exec (.readyStepWrite f n v) s
    = .next (keepOr s f (0x900C + 0x40 * (if f = 0 then n else f - 1)) v (writeReady s (if f = 0 then n else f - 1) v)) :=
  whenDo_true _ _ _ (by rw [h, decide_eq_true hn, decide_eq_true hs]; rfl)

/-! Doorbells. -/

theorem ringTail_open (he : (getRing s f).enable = true) (hs : (getRing s f).stopped = false) : ringTail s f v
    = if 2 ^ (getRing s f).sqLog2 ≤ v % 4096 ∨ 2 ^ (getRing s f).sqLog2
          ≤ ((getRing s f).sqTail + 2 ^ (getRing s f).sqLog2 - (getRing s f).sqHead) % 2 ^ (getRing s f).sqLog2
            + (v % 4096 + 2 ^ (getRing s f).sqLog2 - (getRing s f).sqTail) % 2 ^ (getRing s f).sqLog2 then stopRing s f 1
      else readSlots (updRing s f (fun x => { x with sqTail := v % 4096 })) f 4096 :=
  if_neg (by rw [he, hs]; decide)

theorem ringHead_open (he : (getRing s f).enable = true) (hs : (getRing s f).stopped = false) : ringHead s f v
    = if 2 ^ (getRing s f).cqLog2 ≤ v % 4096 ∨ ((getRing s f).cqTail + 2 ^ (getRing s f).cqLog2 - (getRing s f).cqHead) % 2 ^ (getRing s f).cqLog2
          < (v % 4096 + 2 ^ (getRing s f).cqLog2 - (getRing s f).cqHead) % 2 ^ (getRing s f).cqLog2 then stopRing s f 1
      else postWaiting (updRing s f (fun x => { x with cqHead := v % 4096 })) (.ring f) :=
  if_neg (by rw [he, hs]; decide)

theorem stopRing_only (code : Nat) : stopRing s f code = { s with rings := (stopRing s f code).rings } := rfl

theorem getRing_stopRing (code : Nat) : getRing (stopRing s f code) f = { getRing s f with stopped := true, error := code } :=
  getRing_updRing_same ..

/-- No slot is read where the tail is at the head. -/
theorem readSlots_empty (fuel : Nat) (h : (getRing s f).sqHead = (getRing s f).sqTail) : readSlots s f fuel = s := by
  cases fuel with
  | zero => rfl
  | succ fuel => exact if_pos (.inr h)

theorem ringTail_idle (he : (getRing s f).enable = true) (hs : (getRing s f).stopped = false) (hv : v % 4096 = (getRing s f).sqHead)
    (ht : (getRing s f).sqTail = (getRing s f).sqHead) (hlt : (getRing s f).sqHead < 2 ^ (getRing s f).sqLog2) :
    ringTail s f v = updRing s f (fun x => { x with sqTail := v % 4096 }) := by
  have hzero : ∀ a b : Nat, (a + b - a) % b = 0 := fun a b => by rw [Nat.add_sub_cancel_left, Nat.mod_self]
  rw [ringTail_open he hs, if_neg]
  · refine readSlots_empty _ ?_
    rw [getRing_updRing_same]
    exact hv.symm
  · rw [ht, hv, hzero]
    omega

/-! Ring control. -/

theorem ringControl_kept (r : Ring) : (ringControl r f v).queue = r.queue ∧ (ringControl r f v).irqEn = bit v 1 := ⟨rfl, rfl⟩

theorem getRing_ringOn (he : (getRing s f).enable = false) : getRing (ringOn s f v) f
    = { ringControl (getRing s f) f v with
        enable := true, sqHead := 0, sqTail := 0, cqHead := 0, cqTail := 0, eventTag := 0, stopped := false, error := 0 } := by
  unfold ringOn
  rw [getRing_updRing_same]
  exact if_neg (by rw [he]; decide)

theorem getRing_ringOff : getRing (ringOff s f v) f = { ringControl (getRing s f) f v with
    enable := false, session := false, features := 0, held := []
    queue := (getRing s f).queue.filter (fun w => w.executing && !(isRelayed w.pkt)) } := getRing_updRing_same ..

end

/-- Settles O41. -/
theorem ringsTakeDoorbellsAndEvents : Obligations.RingsTakeDoorbellsAndEvents := by
  refine fun s f hf => ⟨fun ha v n => ⟨?_, ?_, execEventPost_activating ha, fun hn hs => ?_⟩, fun ha => ⟨fun v he hs => ⟨fun hv => ?_, fun hv hu => ?_,
      fun hv ht hlt => ?_, fun hv => ?_, fun hv hu => ?_⟩, fun v hb he => ?_, fun v hb => ?_, fun e rest hheld he hs hfeat hroom => ?_,
    fun e rest hheld hroom => ?_, fun n v hn hs => ?_⟩⟩
  · rw [execSqTailDoorbell_eq hf, keepOr_activating ha]
  · rw [execCqHeadDoorbell_eq hf, keepOr_activating ha]
  · rw [execReadyStepWrite_eq hf hn hs, keepOr_activating ha]
  · rw [execSqTailDoorbell_eq hf, keepOr_serving ha, ringTail_open he hs, if_pos (.inl hv)]
    exact ⟨_, rfl, stopRing_only 1, getRing_stopRing 1⟩
  · rw [execSqTailDoorbell_eq hf, keepOr_serving ha, ringTail_open he hs, if_neg (by omega)]
  · rw [execSqTailDoorbell_eq hf, keepOr_serving ha, ringTail_idle he hs hv ht hlt]
    exact ⟨_, rfl, getRing_updRing_same .., rfl⟩
  · rw [execCqHeadDoorbell_eq hf, keepOr_serving ha, ringHead_open he hs, if_pos (.inl hv)]
    exact ⟨_, rfl, stopRing_only 1, getRing_stopRing 1⟩
  · rw [execCqHeadDoorbell_eq hf, keepOr_serving ha, ringHead_open he hs, if_neg (by omega)]
  · refine ⟨ringOn s f v, ?_, rfl, ?_⟩
    · exact (whenDo_true _ _ _ (by rw [hf, hb]; rfl)).trans (congrArg Host.Outcome.next (keepOr_serving ha))
    · obtain ⟨hqueue, hirq⟩ := ringControl_kept (f := f) (v := v) (getRing s f)
      rw [getRing_ringOn he]
      exact ⟨rfl, rfl, rfl, rfl, rfl, rfl, rfl, hirq, hqueue⟩
  · refine ⟨ringOff s f v, ?_, rfl, ?_⟩
    · exact (whenDo_true _ _ _ (by rw [hf, hb]; rfl)).trans (congrArg Host.Outcome.next (keepOr_serving ha))
    · rw [getRing_ringOff]
      exact ⟨rfl, rfl, rfl, rfl, fun i hi => getRing_updRing_other s f i _ hi⟩
  · have hroom : hasRoom (getRing s f) false = true := decide_eq_true hroom
    rw [execEventPost_eq hheld]
    exact whenDo_true _ _ _ (by rw [hf, he, hs, hfeat, hroom, ha]; rfl)
  · have hroom : hasRoom (getRing s f) false = false := decide_eq_false (Nat.not_lt.mpr hroom)
    rw [execEventPost_eq hheld]
    exact whenDo_false _ _ _ (by rw [hroom, Bool.and_false, Bool.false_and])
  · rw [execReadyStepWrite_eq hf hn hs, keepOr_serving ha]
    refine ⟨_, rfl, rfl, ?_⟩
    unfold writeReady
    rw [getSuite_updSuite_same]

end Sys2Proof.Machine
end

section
/-!
PROOFS. The PCIe boundary, the test port and the management interface (rules R385, R462, R477, R490, R507, R543 to R548).
-/
open Sys2Proof Sys2Proof.Says

namespace Sys2Proof.Machine

theorem SMap.get_mapVals {α : Type} {d : α} {f : Nat → α → α} {k : Nat} (h : f k d = d) (m : SMap α) :
    SMap.get d (SMap.mapVals m f) k = f k (SMap.get d m k) := by
  induction m with
  | nil => exact h.symm
  | cons q m ih =>
    show SMap.get d ((q.1, f q.1 q.2) :: SMap.mapVals m f) k = f k (SMap.get d (q :: m) k)
    rw [SMap.get, SMap.get]
    by_cases hk : q.1 = k
    · rw [if_pos hk, if_pos hk, hk]
    · rw [if_neg hk, if_neg hk, ih]

/-- A map listed for the numbers of a range. -/
theorem SMap.get_map_range' {α : Type} {d : α} (g : Nat → α) {a n i : Nat} (ha : a ≤ i) (hi : i < a + n) :
    SMap.get d ((List.range' a n).map (fun j => (j, g j))) i = g i := by
  induction n generalizing a with
  | zero => omega
  | succ n ih =>
    rw [List.range'_succ, List.map_cons, SMap.get]
    by_cases h : a = i
    · rw [if_pos h, h]
    · rw [if_neg h]
      exact ih (by omega) (by omega)

section
variable {s t : State} {k f stage next type : Nat} {msg body data : Bytes} {last : Bool}

/-! The PCIe boundary. -/

theorem getRing_endpointReset : getRing (endpointReset s) k = if k < 16 then { sessions := (getRing s k).sessions } else getRing s k := by
  refine SMap.get_mapVals (f := fun k (r : Ring) => if k < 16 then { sessions := r.sessions } else r) ?_ s.rings
  dsimp only
  split <;> rfl

/-- The endpoint reset, with PERST held. -/
def perstHeld (s : State) : State := { endpointReset s with bnd := { (endpointReset s).bnd with perst := true } }

theorem execPerstAssert_resets (hp : s.bnd.perst = false) (he : endpointOn s = true) : exec .perstAssert s = .next (perstHeld s) := by
  show execPerstAssert s = _
  unfold execPerstAssert
  dsimp only
  rw [if_pos he]
  exact whenDo_true _ _ _ (by rw [hp]; rfl)

theorem execPerstAssert_off (hp : s.bnd.perst = false) (he : endpointOn s = false) :
    exec .perstAssert s = .next { s with bnd := { s.bnd with perst := true } } := by
  show execPerstAssert s = _
  unfold execPerstAssert
  dsimp only
  rw [if_neg (by rw [he]; decide)]
  exact whenDo_true _ _ _ (by rw [hp]; rfl)

/-! The test port. -/

theorem execSamplePreload_eq (pins : List Nat) (hd : s.dev ≠ .off) : exec (.samplePreload pins) s = .next (if s.dev = .faulted then
      { s with bnd := { s.bnd with jtagInstr := 1, extest := false, bsr := (List.range boundaryCells).map (fun i => (i, pins.getD i 0 % 2)) } }
     else selectBypass s) := whenDo_true _ _ _ (decide_eq_true hd)

theorem execExtest_eq (hd : s.dev ≠ .off) : exec .extest s = .next (if s.dev = .faulted then
      send { s with bnd := { s.bnd with jtagInstr := 2, extest := true } } .pins .pin (s.bnd.bsr.map (fun p => BitVec.ofNat 8 p.2))
     else selectBypass s) := whenDo_true _ _ _ (decide_eq_true hd)

/-! The management interface. -/

/-- The state with a control message's endpoint id taken. -/
def controlTaken (s : State) (msg : Bytes) : State :=
  if fieldAt msg 1 1 = 1 then { s with free := s.free + 1, bnd := { s.bnd with mctpEid := fieldAt msg 3 1 } } else { s with free := s.free + 1 }

theorem execMctpControl_eq (hd : s.dev ≠ .off) :
    exec (.mctpControl msg) s = .next (answerMctp (controlTaken s msg) 0 (Config.answer 0x1000 s.free)) := whenDo_true _ _ _ (decide_eq_true hd)

theorem controlTaken_only : controlTaken s msg = { s with free := s.free + 1, bnd := (controlTaken s msg).bnd } := by
  unfold controlTaken
  split <;> rfl

theorem answerMctp_only : answerMctp s type body = { s with outbox := s.outbox ++ [⟨.sideband, .mctp, natLE type 1 ++ natLE 0 1 ++ body⟩] } := rfl

/-- The state with a firmware image's bytes written into slot A. -/
def slotAWritten (s : State) (offset : Nat) (data : Bytes) (last : Bool) : State :=
  let im := putBytes (if offset = 0 then [] else s.fw.slotA.image) offset data
  { s with
    fw := { s.fw with slotA := if last then updatedSlot s im else { image := im } }
    bnd := { s.bnd with pldmUpdate := if last then 2 else 1, pldmBytes := im.length } }

theorem execPldmFirmwareUpdate_writes {offset : Nat} (hd : s.dev ≠ .off) (hn : noFirmware s = true) (hl : offset + data.length ≤ 2 ^ 24) :
    exec (.pldmFirmwareUpdate offset data last) s = .next (answerMctp (slotAWritten s offset data last) 1 []) :=
  (whenDo_true _ _ _ (decide_eq_true hd)).trans (congrArg Host.Outcome.next (if_pos (by rw [hn, decide_eq_true hl]; rfl)))

theorem execPldmFirmwareUpdate_refuses {offset : Nat} (hd : s.dev ≠ .off) (hn : noFirmware s = false) :
    exec (.pldmFirmwareUpdate offset data last) s = .next (refuseMctp s 1) :=
  (whenDo_true _ _ _ (decide_eq_true hd)).trans (congrArg Host.Outcome.next (if_neg (by rw [hn, Bool.false_and]; decide)))

theorem updatedSlot_image (im : Bytes) : (updatedSlot s im).image = im := by
  unfold updatedSlot
  split <;> rfl

theorem imageVerifies_of_updatedSlot {im : Bytes} (h : (updatedSlot s im).valid = true) : imageVerifies s im = true := by
  unfold updatedSlot at h
  split at h
  · next hv => exact hv.2
  · exact nomatch h

theorem slotAWritten_image (offset : Nat) : (slotAWritten s offset data last).fw.slotA.image
    = putBytes (if offset = 0 then [] else s.fw.slotA.image) offset data := by
  cases last
  · rfl
  · exact updatedSlot_image _

theorem slotAWritten_valid {offset : Nat} (h : (slotAWritten s offset data last).fw.slotA.valid = true) :
    last = true ∧ imageVerifies s (slotAWritten s offset data last).fw.slotA.image = true := by
  rw [slotAWritten_image]
  cases last
  · exact nomatch h
  · exact ⟨rfl, imageVerifies_of_updatedSlot h⟩

theorem execActivateFirmware_eq (hd : s.dev ≠ .off) : exec .activateFirmware s = .next (if noFirmware s && s.bnd.pldmUpdate == 2 then
    resetDevice (answerMctp { s with bnd := { s.bnd with pldmUpdate := 0, pldmBytes := 0 } } mctpPldm []) 4 1 else refuseMctp s mctpPldm) :=
  whenDo_true _ _ _ (decide_eq_true hd)

theorem serveMctp_serves (hd : s.dev ≠ .off) (hh : hallAnswers s = true) (rom : Bool) : serveMctp s type rom t = .next t :=
  (whenDo_true _ _ _ (decide_eq_true hd)).trans (congrArg Host.Outcome.next (if_pos (by rw [hh, Bool.true_or])))

/-- The state with a message of the authentication exchange taken into its transcript. -/
def spdmTaken (s : State) (stage next : Nat) (msg body : Bytes) : State :=
  let b := s.bnd
  let old := if stage = 0 then [] else b.transcript
  { s with bnd := { b with spdmState := max next (if stage = 0 then 0 else b.spdmState), transcript := old ++ msg ++ body } }

theorem spdmAnswer_answers (hd : s.dev ≠ .off) (hh : hallAnswers s = true) (hs : stage ≤ s.bnd.spdmState) :
    spdmAnswer s stage next msg body = .next (answerMctp (spdmTaken s stage next msg body) 5 body) :=
  (serveMctp_serves hd hh true).trans (congrArg Host.Outcome.next (if_pos hs))

theorem spdmAnswer_refuses (hd : s.dev ≠ .off) (hh : hallAnswers s = true) (hs : s.bnd.spdmState < stage) :
    spdmAnswer s stage next msg body = .next (refuseMctp s mctpSpdm) :=
  (serveMctp_serves hd hh true).trans (congrArg Host.Outcome.next (if_neg (Nat.not_le.mpr hs)))

end

/-- Settles O44. -/
theorem theBoundaryAndManagementInterfaceAnswer : Obligations.TheBoundaryAndManagementInterfaceAnswer := by
  refine ⟨fun s => ⟨fun hp he => ?_, fun hp he => execPerstAssert_off hp he, fun hp => whenDo_true _ _ _ hp, fun hp he => ?_,
      fun f hp he hf hc => ?_, fun f hc => whenDo_true _ _ _ hc, fun hd => whenDo_true _ _ _ (decide_eq_true hd), fun pins hd hf => ?_,
      fun pins hd => ?_, fun hd => ?_⟩,
    fun s msg hd => ⟨?_, fun sensor => ⟨_, whenDo_true _ _ _ (decide_eq_true hd), ⟨_, rfl⟩, rfl⟩, ⟨_, whenDo_true _ _ _ (decide_eq_true hd), rfl, rfl⟩,
      fun offset data last hn hl => ?_, fun offset data last hn => ⟨_, execPldmFirmwareUpdate_refuses hd hn, rfl, rfl⟩, fun hn hu => ?_, fun hn => ?_,
      fun ack hh => ⟨_, serveMctp_serves hd hh false, ⟨_, rfl⟩, rfl⟩,
      fun hh => ⟨⟨_, spdmAnswer_answers hd hh (Nat.zero_le _), ⟨_, rfl⟩, rfl, rfl⟩,
        fun hs => ⟨_, spdmAnswer_answers hd hh hs, ⟨_, rfl⟩, Nat.le_max_left ..⟩, fun hs => ⟨_, spdmAnswer_answers hd hh hs, ⟨_, rfl⟩, Nat.le_max_left ..⟩,
        fun hs => ⟨⟨_, spdmAnswer_answers hd hh hs, rfl⟩, ⟨_, spdmAnswer_answers hd hh hs, rfl⟩, ⟨_, spdmAnswer_answers hd hh hs, ⟨_, rfl⟩, rfl⟩,
          ⟨_, spdmAnswer_answers hd hh hs, ⟨_, rfl⟩⟩⟩,
        fun hs => spdmAnswer_refuses hd hh hs⟩⟩⟩
  · refine ⟨_, execPerstAssert_resets hp he, rfl, rfl, rfl, fun k hk => ?_, fun k hk => ?_⟩
    · have hring : getRing (perstHeld s) k = { sessions := (getRing s k).sessions } := getRing_endpointReset.trans (if_pos hk)
      rw [hring]
      exact ⟨rfl, rfl, rfl⟩
    · exact getRing_endpointReset.trans (if_neg (Nat.not_lt.mpr hk))
  · exact ⟨whenDo_true _ _ _ (by rw [hp, he]; rfl), rfl, rfl, rfl⟩
  · exact whenDo_true _ _ _ (by rw [hp, he, hc, decide_eq_true hf]; rfl)
  · rw [execSamplePreload_eq pins hd, execExtest_eq hd, if_neg hf, if_neg hf]
    exact ⟨rfl, rfl⟩
  · refine ⟨_, execSamplePreload_eq pins (by rw [hd]; decide), ?_⟩
    rw [if_pos hd]
    refine ⟨rfl, rfl, fun i hi => ?_⟩
    rw [List.range_eq_range']
    exact SMap.get_map_range' (fun i => pins.getD i 0 % 2) (Nat.zero_le i) (by omega)
  · refine ⟨_, execExtest_eq (by rw [hd]; decide), ?_⟩
    rw [if_pos hd]
    exact ⟨rfl, rfl⟩
  · refine ⟨_, execMctpControl_eq hd, ⟨Config.answer 0x1000 s.free, ?_⟩, ?_, fun hm => ?_⟩
    · rw [answerMctp_only, controlTaken_only]
    · rw [answerMctp_only, controlTaken_only]
    · unfold controlTaken
      rw [if_pos hm]
      rfl
  · exact ⟨_, execPldmFirmwareUpdate_writes hd hn hl, ⟨_, rfl⟩, rfl, rfl, slotAWritten_image offset, slotAWritten_valid⟩
  · refine ⟨_, execActivateFirmware_eq hd, ?_⟩
    rw [if_pos (by rw [hn, hu]; rfl)]
    unfold resetDevice
    rw [beginDeviceReset_only]
    exact ⟨rfl, rfl⟩
  · rw [execActivateFirmware_eq hd, if_neg (by rw [hn, Bool.false_and]; decide)]

end Sys2Proof.Machine
end

section
/-!
PROOFS. Queries and HELLO (rules R264, R351, R379, R380, R393, R396, R398 to R400, R446, R449).
-/
open Sys2Proof Sys2Proof.Says

namespace Sys2Proof.Machine
section
variable {s u : State} {src : Src} {tag op n : Nat} {w : Waiting} {b f : Bytes}

/-- Byte strings of one length put one after another. -/
theorem length_flatten_map {α : Type} {g : α → Bytes} {c : Nat} (hg : ∀ x, (g x).length = c) (l : List α) :
    (l.map g).flatten.length = c * l.length := by
  induction l with
  | nil => rfl
  | cons x l ih =>
    rw [List.map_cons, List.flatten_cons, List.length_append, hg, ih, List.length_cons]
    exact (Nat.mul_succ c l.length).symm ▸ Nat.add_comm ..

theorem bytesAt_length (bs : Bytes) (o n : Nat) : (bytesAt bs o n).length = n := by
  unfold bytesAt
  rw [List.length_append, List.length_replicate, List.length_take]
  omega

theorem contextOf_length (i : Nat) : (contextOf s n i).length = 64 := by
  unfold contextOf contextBytes
  simp

/-- A fold that adds to a running sum adds to what it starts from. -/
theorem foldl_add_start {α : Type} (g : α → Nat) (l : List α) (m : Nat) : l.foldl (fun a i => a + g i) m = m + l.foldl (fun a i => a + g i) 0 := by
  induction l generalizing m with
  | nil => rfl
  | cons i l ih => rw [List.foldl_cons, List.foldl_cons, ih, ih (0 + g i)]; omega

/-- Six feature bits are below 64. -/
theorem commonFeatures_lt (x v : Nat) : commonFeatures x v < 2 ^ 6 := by
  have hsum : ∀ p : Nat → Bool, ((List.range 6).filter p).foldl (fun m i => m + 2 ^ i) 0 ≤ (List.range 6).foldl (fun m i => m + 2 ^ i) 0 := by
    intro p
    have hle : ∀ l : List Nat, (l.filter p).foldl (fun m i => m + 2 ^ i) 0 ≤ l.foldl (fun m i => m + 2 ^ i) 0 := by
      intro l
      induction l with
      | nil => exact Nat.le_refl _
      | cons i l ih =>
        rw [List.foldl_cons, foldl_add_start (fun i => 2 ^ i) l]
        by_cases hp : p i = true
        · rw [List.filter_cons_of_pos hp, List.foldl_cons, foldl_add_start (fun i => 2 ^ i) (l.filter p)]
          omega
        · rw [List.filter_cons_of_neg hp]
          exact Nat.le_trans ih (Nat.le_add_left ..)
    exact hle _
  exact Nat.lt_of_le_of_lt (hsum _) (by decide)

/-- A number's own bytes read back. -/
theorem fieldAt_natLE (v k : Nat) : fieldAt (natLE v k) 0 k = v % 256 ^ k := by
  rw [← List.append_nil (natLE v k), fieldAt_natLE_append]

theorem bellStateCode_lt (x : BellState) : bellStateCode x < 256 := by
  cases x <;> decide

/-- The reply of CHECKPOINT_LIST. -/
def checkpointListBytes (su : Suite) (im : Image) : Bytes :=
  let l := su.checkpoints.take 127
  natLE l.length 2 ++ natLE 0 2 ++ (l.map (fun c =>
    natLE c.step 4 ++ natLE (bnat c.vouched + 2 * bnat c.complete) 4 ++ bytesAt c.lineage 0 16 ++ natLE (checkpointSize im c) 8)).flatten

theorem checkpointListBytes_length (su : Suite) (im : Image) : (checkpointListBytes su im).length = 4 + 32 * min 127 su.checkpoints.length := by
  unfold checkpointListBytes
  rw [List.length_append, length_flatten_map (c := 32) (fun c => by simp [bytesAt_length])]
  simp

theorem checkpointListBytes_count (su : Suite) (im : Image) : fieldAt (checkpointListBytes su im) 0 2 = min 127 su.checkpoints.length := by
  have hlen : (su.checkpoints.take 127).length = min 127 su.checkpoints.length := List.length_take
  unfold checkpointListBytes
  rw [List.append_assoc, fieldAt_natLE_append]
  exact (Nat.mod_eq_of_lt (hlen ▸ Nat.lt_of_le_of_lt (Nat.min_le_left ..) (by decide))).trans hlen

/-! HELLO. -/

theorem highest_commonBits_lt (x y : Nat) : highest (commonBits x y) < 32 := by
  unfold highest
  cases h : (commonBits x y).getLast? with
  | none => exact Nat.zero_lt_succ _
  | some i =>
    have hmem := List.mem_of_getLast? h
    exact List.mem_range.mp (List.mem_filter.mp hmem).1

/-- The state with the session of a HELLO open. -/
def sessionOpen (s : State) (src : Src) (b : Bytes) : State := updRing s (ringKey src) (fun r => openSession r b)

theorem getRing_sessionOpen : getRing (sessionOpen s src b) (ringKey src) = openSession (getRing s (ringKey src)) b := getRing_updRing_same ..

theorem helloEffect_none (h : (commonVersions b).findIdx? (fun l => l.isEmpty) = none) : helloEffect s src b
    = done (sessionOpen s src b) (natLE (getRing (sessionOpen s src b) (ringKey src)).cmdVersion 1 ++ natLE (highest ((commonVersions b).getD 1 [])) 1
      ++ natLE (highest ((commonVersions b).getD 2 [])) 1 ++ natLE (highest ((commonVersions b).getD 3 [])) 1
      ++ natLE (getRing (sessionOpen s src b) (ringKey src)).features 8 ++ natLE (getRing (sessionOpen s src b) (ringKey src)).sessions 4 ++ natLE 0 4) := by
  unfold helloEffect
  dsimp only
  rw [h]
  rfl

theorem helloEffect_some {i : Nat} (h : (commonVersions b).findIdx? (fun l => l.isEmpty) = some i) : helloEffect s src b = deny s 0x0503 (i + 1) := by
  unfold helloEffect
  dsimp only
  rw [h]

end

/-- Settles O45. -/
theorem queriesReplyWithTheirFields : Obligations.QueriesReplyWithTheirFields := by
  refine fun s src tag n w b => ⟨fun h => ⟨fun i hi => ?_, fun hnone => ?_⟩, fun h => ?_, fun h => ?_, fun h => ?_, fun h => ?_, fun h => ?_,
    fun h => ?_, fun h => ?_, fun h => ?_, fun h => ⟨fun r hr => ?_, fun hr => ?_⟩, fun h => ⟨fun d hd => ?_, fun hd => ?_⟩,
    fun h => ⟨fun him => ?_, fun im him => ?_⟩, fun h => ⟨fun hlt => ?_, fun hle => ?_⟩⟩
  · show execHello src tag s = _
    exact runCommand_replies h rfl (by decide) (helloEffect_some hi)
  · refine ⟨sessionOpen (taken s src w) src b, ?_⟩
    constructor
    constructor
    · show execHello src tag s = _
      exact runCommand_replies h rfl (by decide) (helloEffect_none hnone)
    · have hcmd := highest_commonBits_lt 12 (fieldAt b 0 4)
      have hfeat := commonFeatures_lt (fieldAt b 16 8) (highest (commonBits 12 (fieldAt b 0 4)))
      rw [getRing_sessionOpen, getRing_updRing_same]
      refine ⟨rfl, rfl, rfl, rfl, rfl, ?_, ?_, ?_⟩
      · simp
      · simp only [List.append_assoc, fieldAt_natLE_append]
        exact Nat.mod_eq_of_lt (Nat.lt_trans hcmd (by decide))
      · simp only [List.append_assoc, fieldAt_natLE_append_of_le, Nat.reduceLeDiff, Nat.reduceSub, fieldAt_natLE_append]
        exact Nat.mod_eq_of_lt (Nat.lt_trans hfeat (by decide))
  · show execGetInfo src tag s = _
    unfold execGetInfo
    refine runCommand_replies h rfl (by decide) (congrArg (done (taken s src w)) ?_)
    generalize fieldAt b 0 1 = k
    match k with
    | 0 => rfl
    | 1 => rfl
    | k + 2 => rw [if_neg (by omega), if_neg (by omega)]; rfl
  · constructor
    constructor
    · show execBellGet src tag s = _
      exact runCommand_replies h rfl (by decide) rfl
    · simpa using bellStateCode_lt s.bell.state
  · refine ⟨((seenEvents (taken s src w) n).filter (fun e => decide (fieldAt b 0 4 ≤ e.id))).take 254, ?_⟩
    constructor
    constructor
    · show execEventList src tag s = _
      exact runCommand_replies h rfl (by decide) rfl
    · refine ⟨rfl, ?_, ?_⟩
      · rw [List.append_assoc, List.length_append, List.length_append, length_flatten_map (c := 16) (fun e => by simp)]
        simp only [natLE_length]
        omega
      · have hlen := List.length_take_le 254 ((seenEvents (taken s src w) n).filter (fun e => decide (fieldAt b 0 4 ≤ e.id)))
        rw [List.append_assoc, fieldAt_natLE_append]
        exact Nat.mod_eq_of_lt (Nat.lt_of_le_of_lt hlen (by decide))
  · constructor
    constructor
    · show execPowerInfo src tag s = _
      exact runCommand_replies h rfl (by decide) rfl
    · simp [fieldAt_natLE]
  · show execLanternInfo src tag s = _
    exact runCommand_replies h rfl (by decide) rfl
  · show execFwStatus src tag s = _
    exact runCommand_replies h rfl (by decide) rfl
  · show execFwMissing src tag s = _
    exact runCommand_replies h rfl (by decide) rfl
  · constructor
    constructor
    · show execFaultList src tag s = _
      exact runCommand_replies h rfl (by decide) rfl
    · have hv : visible (taken s src w) n = visible s n := rfl
      rw [hv]
      refine ⟨by simp, by simp, fun hnil => ?_, fun r rest hcons => ⟨?_, fun hle => ?_⟩⟩
      · simp [hnil, fieldAt_natLE]
      · simp [hcons, fieldAt_natLE]
      · simp [hcons, hle]
  · show execFaultRead src tag s = _
    unfold execFaultRead
    refine runCommand_replies h rfl (by decide) ?_
    have hv : visible (taken s src w) n = visible s n := rfl
    rw [hv, hr]
    rfl
  · show execFaultRead src tag s = _
    unfold execFaultRead
    refine runCommand_replies h rfl (by decide) ?_
    have hv : (visible (taken s src w) n).find? (fun r => r.index == fieldAt b 0 4) = none :=
      List.find?_eq_none.mpr fun r hmem => by simpa using hr r hmem
    rw [hv]
    rfl
  · show execSignatureRead src tag s = _
    unfold execSignatureRead
    refine runCommand_replies h rfl (by decide) ?_
    have hv : signatureAt (taken s src w) (fieldAt b 0 4) = some d := hd
    rw [hv]
    rfl
  · show execSignatureRead src tag s = _
    unfold execSignatureRead
    refine runCommand_replies h rfl (by decide) ?_
    have hv : signatureAt (taken s src w) (fieldAt b 0 4) = none := hd
    rw [hv]
    rfl
  · show execCheckpointList src tag s = _
    unfold execCheckpointList
    refine runCommand_replies h rfl (by decide) ?_
    have hv : (getSuite (taken s src w) n).image = none := him
    dsimp only
    rw [hv]
    rfl
  · have hv : (getSuite (taken s src w) n).image = some im := him
    refine ⟨checkpointListBytes (getSuite s n) im, ?_, checkpointListBytes_count .., checkpointListBytes_length ..⟩
    show execCheckpointList src tag s = _
    unfold execCheckpointList
    refine runCommand_replies h rfl (by decide) ?_
    dsimp only
    rw [hv]
    rfl
  · show execStreamRead src tag s = _
    unfold execStreamRead
    refine runCommand_replies h rfl (by decide) ?_
    exact if_pos hlt
  · refine ⟨((List.range (fieldAt b 2 2)).map (fun i => contextOf (taken s src w) n (entryOf (getSuite s n) (fieldAt b 0 2 + i)))).flatten, ?_, ?_⟩
    · show execStreamRead src tag s = _
      unfold execStreamRead
      refine runCommand_replies h rfl (by decide) ?_
      exact if_neg (Nat.not_lt.mpr hle)
    · rw [length_flatten_map (fun _ => contextOf_length _), List.length_range]

end Sys2Proof.Machine
end

section
/-!
PROOFS. Suite commands: creating, deleting, loading, binding and reading (rules R258, R394, R403, R409, R424 to R426).
-/
open Sys2Proof Sys2Proof.Says

namespace Sys2Proof.Machine
section
variable {s u : State} {src : Src} {tag op n m t : Nat} {w : Waiting} {b : Bytes} {r : SuiteRes}

/-- A command taken up changes its queue only. -/
theorem getSuite_taken : getSuite (taken s src w) n = getSuite s n := rfl

/-! CREATE_SUITE. -/

theorem settleSpares_none_only : settleSpares s none = { s with tiles := (settleSpares s none).tiles } := by
  have hfold : ∀ (l : List (Nat × Nat)) (v : State), ∃ ts, l.foldl (fun st p =>
      updTile st p.2 (fun x => { x with health := { x.health with inService := true } })) v = { v with tiles := ts } := by
    intro l
    induction l with
    | nil => exact fun v => ⟨_, rfl⟩
    | cons p l ih =>
      intro v
      obtain ⟨ts, hts⟩ := ih (updTile v p.2 (fun x => { x with health := { x.health with inService := true } }))
      exact ⟨ts, hts⟩
  obtain ⟨ts, hts⟩ := hfold ((s.fuse.wings.map (sparePairs s)).flatten) s
  have heq : settleSpares s none = { s with tiles := ts } := hts
  rw [heq]

/-- A suite whose resources are good has its block of entries. -/
theorem freeBlocks_of_good (h : resourceBad s r = none) : ∃ base, freeBlocks s r.blocks = some base := by
  unfold resourceBad at h
  dsimp only at h
  split at h
  · exact nomatch h
  · exact nomatch h
  · exact nomatch h
  · split at h
    · exact nomatch h
    · split at h
      · exact nomatch h
      · split at h
        · exact nomatch h
        · split at h
          · exact nomatch h
          · next hfree => exact Option.ne_none_iff_exists'.mp (by simpa using hfree)

theorem takeWays_only (ways : SMap Nat) : takeWays s n ways = { s with wings := (takeWays s n ways).wings } := by
  have hfold : ∀ (l : SMap Nat) (v : State), ∃ ws, takeWays v n l = { v with wings := ws } := by
    intro l
    induction l with
    | nil => exact fun v => ⟨_, rfl⟩
    | cons p l ih =>
      intro v
      obtain ⟨ws, hws⟩ := ih (updWing v p.1 (fun x => { x with
        wayOwner := ((List.range 16).filter (bit p.2)).foldl (fun m i => SMap.set m i n) x.wayOwner }))
      exact ⟨ws, hws⟩
  obtain ⟨ws, hws⟩ := hfold ways s
  rw [hws]

/-- The suite as CREATE_SUITE makes it. -/
def suiteMade (s : State) (r : SuiteRes) (base : Nat) : Suite :=
  { state := .empty, res := { r with baseBlock := base }, slice := { slice := sharedSlice s r } }

/-- The state with a suite created. -/
def suiteCreated (s : State) (n : Nat) (r : SuiteRes) (base : Nat) : State :=
  suiteEvent (takeWays (setSuite s n (suiteMade s r base)) n r.ways) n 0x0380 (natLE n 1 ++ natLE 0xFF 1 ++ natLE 0 1 ++ natLE 0 5)

theorem suiteCreated_suites (base : Nat) : (suiteCreated s n r base).suites = (setSuite s n (suiteMade s r base)).suites
    ∧ (suiteCreated s n r base).hbm = s.hbm := by
  unfold suiteCreated
  rw [takeWays_only]
  exact ⟨rfl, rfl⟩

theorem getSuite_suiteCreated (base : Nat) : getSuite (suiteCreated s n r base) n = suiteMade s r base
    ∧ ∀ m, m ≠ n → getSuite (suiteCreated s n r base) m = getSuite s m := by
  obtain ⟨hsuites, -⟩ := suiteCreated_suites (s := s) (n := n) (r := r) base
  unfold getSuite
  rw [hsuites]
  exact ⟨SMap.get_set_same .., fun m hm => SMap.get_set_other _ _ _ _ _ hm⟩

/-! DELETE_SUITE. -/

theorem settlePcs_only : settlePcs s n = { s with attic := (settlePcs s n).attic, wings := (settlePcs s n).wings } := by
  unfold settlePcs
  dsimp only
  split <;> rfl

theorem removeSuite_removes : getSuite (removeSuite s n) n = {} ∧ (∀ m, m ≠ n → getSuite (removeSuite s n) m = getSuite s m)
    ∧ (removeSuite s n).hbm = s.hbm ∧ (removeSuite s n).fuse = s.fuse ∧ ∀ e, e ∈ (removeSuite s n).bell.events → e.suite ≠ n := by
  have hsuites : (removeSuite s n).suites = SMap.erase s.suites n := by
    unfold removeSuite
    rw [settlePcs_only]
    rfl
  have hkept : (removeSuite s n).hbm = s.hbm ∧ (removeSuite s n).fuse = s.fuse
      ∧ (removeSuite s n).bell.events = s.bell.events.filter (fun e => e.suite != n) := by
    unfold removeSuite
    rw [settlePcs_only]
    exact ⟨rfl, rfl, rfl⟩
  obtain ⟨hhbm, hfuse, hevents⟩ := hkept
  refine ⟨?_, fun m hm => ?_, hhbm, hfuse, fun e he => ?_⟩
  · unfold getSuite
    rw [hsuites]
    exact SMap.get_erase_same ..
  · unfold getSuite
    rw [hsuites]
    exact SMap.get_erase_other _ _ _ _ hm
  · rw [hevents] at he
    simpa using (List.mem_filter.mp he).2

/-! LOAD_IMAGE. -/

/-- The state as a load begins: the suite's tiles are free and it has no image. -/
def loadBegun (s : State) (n : Nat) : State := updSuite (unseatAll s n) n (fun su => { su with image := none, routes := [] })

theorem getTile_unseatAll : getTile (unseatAll s n) t = if (getTile s t).suite = some n then unseat (getTile s t) else getTile s t := by
  have hmap : getTile (unseatAll s n) t = SMap.get {} (SMap.mapVals s.tiles (fun _ x => if x.suite = some n then unseat x else x)) t := by
    have htiles : (unseatAll s n).tiles = SMap.mapVals s.tiles (fun _ x => if x.suite = some n then unseat x else x) := by
      refine List.map_congr_left fun p _ => ?_
      dsimp only
      split <;> rfl
    unfold getTile
    rw [htiles]
  rw [hmap]
  exact SMap.get_mapVals (f := fun _ x => if x.suite = some n then unseat x else x) (if_neg fun h => nomatch (show (none : Option Nat) = some n from h)) s.tiles

theorem loadBegun_tile : getTile (loadBegun s n) t = if (getTile s t).suite = some n then unseat (getTile s t) else getTile s t :=
  getTile_unseatAll

/-! BIND_INPUTS. -/

/-- The state with a suite's bindings of one kind taken, and the last load's status good. -/
def bound (s : State) (n : Nat) (b : Bytes) (kept : List Binding) : State :=
  setLoad (setBindings s n (fieldAt b 48 1) (askedBindings b) kept (bytesAt b 0 48)) n 0 0 (2 ^ 64 - 1)

theorem bindRegions_only : bindRegions s n = { s with streams := (bindRegions s n).streams } := by
  have hfold : ∀ (g : State → Nat → State), (∀ v p, g v p = { v with streams := (g v p).streams }) → ∀ (ps : List Nat) (v : State),
      ps.foldl g v = { v with streams := (ps.foldl g v).streams } := by
    intro g hg ps
    induction ps with
    | nil => exact fun v => rfl
    | cons p ps ih =>
      intro v
      rw [List.foldl_cons, ih (g v p), hg v p]
  unfold bindRegions
  exact hfold _ (fun _ _ => rfl) _ _

theorem setBindings_only (kind : Nat) (bs kept : List Binding) (manifest : Bytes) : setBindings s n kind bs kept manifest
    = { s with suites := (setBindings s n kind bs kept manifest).suites, streams := (setBindings s n kind bs kept manifest).streams } := by
  unfold setBindings
  dsimp only
  split
  · rw [bindRegions_only]
    rfl
  · split <;> rfl

theorem getSuite_setBindings_run (bs kept : List Binding) (manifest : Bytes) : getSuite (setBindings s n 0 bs kept manifest) n
    = { getSuite s n with bindings := bs ++ kept, job := { (getSuite s n).job with rankManifest := manifest } } := by
  have hset : getSuite (setBindings s n 0 bs kept manifest) n = getSuite (bindRegions (setSuite s n
    { getSuite s n with bindings := bs ++ kept, job := { (getSuite s n).job with rankManifest := manifest } }) n) n := rfl
  rw [hset, bindRegions_only]
  exact getSuite_setSuite_same ..

theorem setBindings_eval (hw : (getSuite s n).window = none) (bs kept : List Binding) (manifest : Bytes) :
    setBindings s n 1 bs kept manifest = setSuite s n { getSuite s n with bindings := kept ++ bs } := by
  unfold setBindings
  dsimp only
  rw [if_neg (by decide), hw]
  rfl

theorem execBindInputs_open {im : Image} {kept : List Binding} (h : Runs s src tag 0x0203 w n b) (him : (getSuite s n).image = some im)
    (hs : (getSuite s n).state = .loaded ∨ (fieldAt b 48 1 = 1 ∧ ((getSuite s n).state = .running ∨ (getSuite s n).state = .preempted)))
    (hkept : kept = ((getSuite s n).evalNext.getD (getSuite s n).bindings).filter (fun x => x.kind != fieldAt b 48 1)) :
    exec (.bindInputs src tag) s = .next (if bindingsBad s n im (askedBindings b) kept
      then finish (setLoad (taken s src w) n 0x0120 0 (2 ^ 64 - 1)) src tag 0x0120 0 [] else finish (bound (taken s src w) n b kept) src tag 0 0 []) := by
  have hs' : (getSuite (taken s src w) n).state = .loaded
      ∨ (fieldAt b 48 1 = 1 ∧ ((getSuite (taken s src w) n).state = .running ∨ (getSuite (taken s src w) n).state = .preempted)) := hs
  have him' : (getSuite (taken s src w) n).image = some im := him
  have hbad : bindingsBad (taken s src w) n im (askedBindings b) kept = bindingsBad s n im (askedBindings b) kept := rfl
  have hkept' : ((getSuite (taken s src w) n).evalNext.getD (getSuite (taken s src w) n).bindings).filter (fun x => x.kind != fieldAt b 48 1) = kept :=
    hkept.symm
  show execBindInputs src tag s = _
  unfold execBindInputs
  rw [runCommand_runs h]
  dsimp only
  rw [if_pos hs', him']
  dsimp only
  rw [hkept', hbad]
  split
  · exact congrArg Host.Outcome.next (answered_loud (Runs.loud h rfl (by decide)))
  · exact congrArg Host.Outcome.next (answered_loud (Runs.loud h rfl (by decide)))

end

/-- Settles O47. -/
theorem suiteCommandsHaveTheirEffect : Obligations.SuiteCommandsHaveTheirEffect := by
  refine fun s src tag n w b => ⟨fun h => ⟨fun hs => ?_, fun hs => ⟨fun x d hbad => ?_, fun hgood => ?_⟩⟩,
    fun h => ⟨fun he hl obs => ?_, fun hj obs => ?_, fun hs hj obs => ?_, fun hs hj => ?_⟩, fun h => ⟨fun he hl => ?_, fun hs => ?_⟩,
    fun h => ⟨fun him => ?_, fun hl hk => ?_, fun im kept him hs hkept => ⟨fun hbad => ?_, fun hgood => ?_⟩⟩,
    fun h => ⟨fun hl hr hp => ?_, fun hs => ⟨fun hx => ?_, fun x hx => ⟨fun hlt => ?_, fun hle => ?_⟩⟩⟩,
    fun h => ⟨fun hs => ?_, fun im him hs => ⟨fun hhas hle => ?_, fun hbad => ?_⟩⟩,
    fun h => ⟨fun him => ?_, fun him => ⟨fun hc => ?_, fun hc => ?_⟩⟩,
    fun h => ⟨fun hs => ?_, fun im hs him => ⟨fun hslot => ?_, fun hslot => ?_⟩⟩,
    fun h => ⟨fun him => ?_, fun him => ?_⟩, fun h => ⟨fun hj => ?_, fun hj hn => ?_, fun hj hy => ?_⟩⟩
  · show execCreateSuite src tag s = _
    unfold execCreateSuite
    exact runCommand_replies h rfl (by decide) (if_pos hs)
  · show execCreateSuite src tag s = _
    unfold execCreateSuite
    refine runCommand_replies h rfl (by decide) ((if_neg (not_not_intro hs)).trans ?_)
    dsimp only
    rw [hbad]
    rfl
  · obtain ⟨base, hbase⟩ := freeBlocks_of_good hgood
    have hfree : freeBlocks s (fieldAt b 92 1) = some base := by
      rw [← hbase, settleSpares_none_only]
      rfl
    obtain ⟨hmade, hother⟩ := getSuite_suiteCreated (s := settleSpares (taken s src w) none) (n := n) (r := askedRes b) base
    obtain ⟨-, hhbm⟩ := suiteCreated_suites (s := settleSpares (taken s src w) none) (n := n) (r := askedRes b) base
    refine ⟨suiteCreated (settleSpares (taken s src w) none) n (askedRes b) base, base, ?_, hfree, ?_⟩
    · show execCreateSuite src tag s = _
      unfold execCreateSuite
      refine runCommand_replies h rfl (by decide) ((if_neg (not_not_intro hs)).trans ?_)
      dsimp only
      rw [hgood, hbase]
      rfl
    · rw [hmade, hhbm]
      refine ⟨rfl, rfl, rfl, rfl, ?_, ?_, fun m hm => ?_⟩
      · dsimp only [suiteMade, askedRes]
      · rw [settleSpares_none_only]
        rfl
      · rw [hother m hm, settleSpares_none_only]
        rfl
  · show execDeleteSuite src tag obs s = _
    unfold execDeleteSuite
    exact runCommand_replies h rfl (by decide) (if_neg fun hx => hx.1.elim he hl)
  · show execDeleteSuite src tag obs s = _
    unfold execDeleteSuite
    exact runCommand_replies h rfl (by decide) (if_neg fun hx => Bool.false_ne_true (hx.2.symm.trans hj))
  · refine ⟨lostWriteBacks (taken s src w) n obs (removeSuite (taken s src w) n), ?_⟩
    show execDeleteSuite src tag obs s = _
    unfold execDeleteSuite
    exact runCommand_replies h rfl (by decide) (if_pos ⟨hs, hj⟩)
  · obtain ⟨hgone, hother, hhbm, hfuse, hevents⟩ := removeSuite_removes (s := taken s src w) (n := n)
    refine ⟨removeSuite (taken s src w) n, ?_, ?_, hhbm, hfuse, hother, hevents⟩
    · show execDeleteSuite src tag [] s = _
      unfold execDeleteSuite
      exact runCommand_replies h rfl (by decide) (if_pos ⟨hs, hj⟩)
    · rw [hgone]
  · show execLoadImage src tag s = _
    unfold execLoadImage
    exact runCommand_replies h rfl (by decide) (if_neg fun hx => hx.elim he hl)
  · refine ⟨loadBegun (taken s src w) n, ?_, rfl, getSuite_updSuite_same .., fun t ht => ?_, fun t ht => ?_⟩
    · show execLoadImage src tag s = _
      unfold execLoadImage
      exact runCommand_goes_on h (if_pos hs)
    · exact congrArg Tile.suite (loadBegun_tile.trans (if_pos ht))
    · exact loadBegun_tile.trans (if_neg ht)
  · show execBindInputs src tag s = _
    unfold execBindInputs
    refine runCommand_replies h rfl (by decide) ?_
    rw [getSuite_taken]
    dsimp only
    rw [him, ite_self]
    rfl
  · show execBindInputs src tag s = _
    unfold execBindInputs
    refine runCommand_replies h rfl (by decide) ?_
    rw [getSuite_taken]
    dsimp only
    rw [if_neg (fun hx => hx.elim hl fun hy => absurd (hk.symm.trans hy.1) (by decide))]
    rfl
  · rw [execBindInputs_open h him hs hkept, if_pos hbad]
  · refine ⟨bound (taken s src w) n b kept, ?_, ?_⟩
    · rw [execBindInputs_open h him hs hkept, if_neg (by rw [hgood]; decide)]
    · have hbound : getSuite (bound (taken s src w) n b kept) n = _ := getSuite_updSuite_same ..
      rw [hbound]
      refine ⟨rfl, ?_, fun hk => ?_, fun hk hw => ?_⟩
      · unfold bound
        rw [setBindings_only]
        rfl
      · rw [hk, getSuite_setBindings_run]
        exact ⟨rfl, rfl⟩
      · have hset := setBindings_eval (s := taken s src w) (n := n) hw (askedBindings b) kept (bytesAt b 0 48)
        refine ⟨?_, ?_⟩
        · rw [hk, hset, getSuite_setSuite_same]
        · unfold bound
          rw [hk, hset]
          rfl
  · show execInputWrite src tag s = _
    unfold execInputWrite
    exact runCommand_replies h rfl (by decide) (if_pos fun hx => hx.elim hl fun hy => hy.elim hr hp)
  · have hx' : bindingOf (getSuite (taken s src w) n) (fieldAt b 0 3) (fieldAt b 3 1) = none := hx
    show execInputWrite src tag s = _
    unfold execInputWrite
    refine runCommand_replies h rfl (by decide) ((if_neg (not_not_intro hs)).trans ?_)
    rw [hx']
    rfl
  · have hx' : bindingOf (getSuite (taken s src w) n) (fieldAt b 0 3) (fieldAt b 3 1) = some x := hx
    show execInputWrite src tag s = _
    unfold execInputWrite
    refine runCommand_replies h rfl (by decide) ((if_neg (not_not_intro hs)).trans ?_)
    rw [hx']
    exact if_pos hlt
  · have hx' : bindingOf (getSuite (taken s src w) n) (fieldAt b 0 3) (fieldAt b 3 1) = some x := hx
    show execInputWrite src tag s = _
    unfold execInputWrite
    refine runCommand_goes_on h ((if_neg (not_not_intro hs)).trans ?_)
    rw [hx']
    exact if_neg (Nat.not_lt.mpr hle)
  · show execTensorRead src tag s = _
    unfold execTensorRead
    refine runCommand_replies h rfl (by decide) ?_
    have hnone : (if (getSuite s n).state = .loaded ∨ (getSuite s n).state = .preempted ∨ (getSuite s n).state = .faulted
        then (getSuite s n).image else none) = none := by
      obtain him | ⟨hl, hp, hf⟩ := hs
      · rw [him, ite_self]
      · exact if_neg fun hx => hx.elim hl fun hy => hy.elim hp hf
    rw [getSuite_taken]
    dsimp only
    rw [hnone]
    rfl
  · show execTensorRead src tag s = _
    unfold execTensorRead
    refine runCommand_goes_on h ?_
    rw [getSuite_taken]
    dsimp only
    rw [if_pos hs, him]
    exact if_pos ⟨hhas, hle⟩
  · show execTensorRead src tag s = _
    unfold execTensorRead
    refine runCommand_replies h rfl (by decide) ?_
    rw [getSuite_taken]
    dsimp only
    rw [if_pos hs, him]
    exact if_neg fun hx => hbad.elim (fun hn => Bool.false_ne_true (hn.symm.trans hx.1)) fun hlt => Nat.not_le.mpr hlt hx.2
  · show execCheckpointRead src tag s = _
    unfold execCheckpointRead
    exact runCommand_replies h rfl (by decide) (if_pos (Option.isNone_iff_eq_none.mpr him))
  · show execCheckpointRead src tag s = _
    unfold execCheckpointRead
    refine runCommand_replies h rfl (by decide) ?_
    rw [getSuite_taken]
    exact (if_neg (by simpa using him)).trans (if_neg (by simpa using hc))
  · show execCheckpointRead src tag s = _
    unfold execCheckpointRead
    refine runCommand_goes_on h ?_
    rw [getSuite_taken]
    exact (if_neg (by simpa using him)).trans (if_pos (by simpa using hc))
  · show execCheckpointWrite src tag s = _
    unfold execCheckpointWrite
    refine runCommand_replies h rfl (by decide) ?_
    rw [getSuite_taken]
    dsimp only
    rw [if_neg hs]
    rfl
  · show execCheckpointWrite src tag s = _
    unfold execCheckpointWrite
    refine runCommand_replies h rfl (by decide) ?_
    rw [getSuite_taken]
    dsimp only
    rw [if_pos hs, him]
    exact if_pos (Option.isNone_iff_eq_none.mpr hslot)
  · show execCheckpointWrite src tag s = _
    unfold execCheckpointWrite
    refine runCommand_goes_on h ?_
    rw [getSuite_taken]
    dsimp only
    rw [if_pos hs, him]
    exact if_neg fun hn => hslot (Option.isNone_iff_eq_none.mp hn)
  · show execDigestRead src tag s = _
    unfold execDigestRead
    exact runCommand_replies h rfl (by decide) (if_pos (Option.isNone_iff_eq_none.mpr him))
  · show execDigestRead src tag s = _
    unfold execDigestRead
    exact runCommand_goes_on h (if_neg fun hn => him (Option.isNone_iff_eq_none.mp hn))
  · have hj' : takesJobs (taken s src w) = false := hj
    show execRunRecordRead src tag s = _
    unfold execRunRecordRead
    exact runCommand_replies h rfl (by decide) (if_pos (by rw [hj']; rfl))
  · have hj' : takesJobs (taken s src w) = true := hj
    show execRunRecordRead src tag s = _
    unfold execRunRecordRead
    exact runCommand_replies h rfl (by decide) ((if_neg (by rw [hj']; decide)).trans (if_neg fun hx => Bool.false_ne_true (hn.symm.trans hx)))
  · have hj' : takesJobs (taken s src w) = true := hj
    show execRunRecordRead src tag s = _
    unfold execRunRecordRead
    exact runCommand_goes_on h ((if_neg (by rw [hj']; decide)).trans (if_pos hy))

end Sys2Proof.Machine
end

section
/-!
PROOFS. Execution commands: START, PREEMPT, RESUME and STOP (rules R321, R391, R395, R402, R422, R429, R433, R437 to R439).
-/
open Sys2Proof Sys2Proof.Says

namespace Sys2Proof.Machine
section
variable {s u : State} {src : Src} {tag op n m t no : Nat} {w : Waiting} {b : Bytes} {g : Broadcast}

theorem begins_tag (h : Begins s src tag op w) : w.pkt.tag = tag := by
  have hw := List.find?_some h.1
  simp only [Bool.and_eq_true, beq_iff_eq] at hw
  obtain ⟨⟨⟨htag, -⟩, -⟩, -⟩ := hw
  exact htag

theorem runs_tag (h : Runs s src tag op w n b) : w.pkt.tag = tag := begins_tag h.1

/-! START. -/

/-- No gather of a command's own is open. -/
theorem broadcasts_none {l : List Broadcast} {src : Src} {tag : Nat} (h : ∀ g, g ∈ l → g.src ≠ src ∨ g.tag ≠ tag) :
    l.any (fun b => decide (b.src = src) && b.tag == tag) = false := by
  rw [List.any_eq_false]
  intro g hg
  obtain h | h := h g hg <;> simp [h]

/-- The job as a START enters it. -/
def jobAsked (j : Job) (b : Bytes) : Job :=
  { j with
    nRanks := fieldAt b 4 4, levels := givenLevels b, seed := fieldAt b 16 8, snapshot := bit (fieldAt b 1 1) 0
    startAt := 1, cause := 0, old := [], image := [], manifests := [] }

theorem startEffect_ranksMissing {p : Packet} (hj : takesJobs s = true) (hs : (getJob s (fieldAt b 0 1)).started = false)
    (hg : ∀ g, g ∈ s.mgr.broadcasts → g.src ≠ src ∨ g.tag ≠ p.tag) (hr : (getJob s (fieldAt b 0 1)).ranks = []) :
    startEffect s src p n b = deny s 0x030B 0 := by
  unfold startEffect
  dsimp only
  rw [if_neg (by rw [hj]; decide), if_neg (by rw [hs, broadcasts_none hg]; decide), if_pos hr]

theorem startEffect_refused {p : Packet} {x d : Nat} (hj : takesJobs s = true) (hs : (getJob s (fieldAt b 0 1)).started = false)
    (hg : ∀ g, g ∈ s.mgr.broadcasts → g.src ≠ src ∨ g.tag ≠ p.tag) (hr : (getJob s (fieldAt b 0 1)).ranks ≠ [])
    (hx : jobRefusal s (getJob s (fieldAt b 0 1)) (fieldAt b 4 4) (some (givenLevels b)) = some (x, d)) : startEffect s src p n b = deny s x d := by
  unfold startEffect
  dsimp only
  rw [if_neg (by rw [hj]; decide), if_neg (by rw [hs, broadcasts_none hg]; decide), if_neg hr, hx]

theorem startEffect_begins {p : Packet} (hj : takesJobs s = true) (hs : (getJob s (fieldAt b 0 1)).started = false)
    (hg : ∀ g, g ∈ s.mgr.broadcasts → g.src ≠ src ∨ g.tag ≠ p.tag) (hr : (getJob s (fieldAt b 0 1)).ranks ≠ [])
    (hx : jobRefusal s (getJob s (fieldAt b 0 1)) (fieldAt b 4 4) (some (givenLevels b)) = none) : startEffect s src p n b
      = later (beginStart (setJob (actAsTop s) (fieldAt b 0 1) (jobAsked (getJob s (fieldAt b 0 1)) b)) src p.tag (fieldAt b 0 1) []) := by
  unfold startEffect
  dsimp only
  rw [if_neg (by rw [hj]; decide), if_neg (by rw [hs, broadcasts_none hg]; decide), if_neg hr, hx]
  rfl

theorem jobRefusal_taken (j : Job) (k : Nat) (l : Option (List Nat)) : jobRefusal (taken s src w) j k l = jobRefusal s j k l := rfl

theorem forwardedFor_taken (p : Packet) : forwardedFor (taken s src w) p = forwardedFor s p := rfl

/-! PREEMPT. -/

/-- The state with a suite marked to save at its boundary. -/
def preemptMarked (s : State) (n : Nat) : State :=
  updSuite (if (getSuite s n).slice.stopping then s else requestPreempt s n) n
    (fun x => { x with slice := { x.slice with waitingSlice := false, rotation := false } })

theorem getTile_stopBellwaits_other (h : (getTile s t).suite ≠ some n) : getTile (stopBellwaits s n) t = getTile s t := by
  have hmap : (stopBellwaits s n).tiles = SMap.mapVals s.tiles (fun _ x => if x.suite = some n then
      { x with core := { x.core with f := stopWaiting x.core.f, b := stopWaiting x.core.b, u := stopWaiting x.core.u } } else x) := by
    refine List.map_congr_left fun p _ => ?_
    dsimp only
    split <;> rfl
  unfold getTile at h ⊢
  rw [hmap]
  exact (SMap.get_mapVals (f := fun _ x => if x.suite = some n then
      { x with core := { x.core with f := stopWaiting x.core.f, b := stopWaiting x.core.b, u := stopWaiting x.core.u } } else x)
    (if_neg fun h => nomatch (show (none : Option Nat) = some n from h)) s.tiles).trans (if_neg h)

theorem preemptMarked_only : preemptMarked s n = { s with suites := (preemptMarked s n).suites, tiles := (preemptMarked s n).tiles } := by
  unfold preemptMarked
  split <;> rfl

theorem preemptMarked_tile (h : (getTile s t).suite ≠ some n) : getTile (preemptMarked s n) t = getTile s t := by
  unfold preemptMarked
  split
  · rfl
  · exact getTile_stopBellwaits_other h

theorem preemptMarked_suite : (getSuite (preemptMarked s n) n).slice.stopping = true ∧ (getSuite (preemptMarked s n) n).state = (getSuite s n).state
    ∧ (getSuite (preemptMarked s n) n).slice.waitingSlice = false ∧ (getSuite (preemptMarked s n) n).slice.rotation = false := by
  unfold preemptMarked
  rw [getSuite_updSuite_same]
  split
  · next h => exact ⟨h, rfl, rfl, rfl⟩
  · unfold requestPreempt
    rw [getSuite_updSuite_same]
    exact ⟨rfl, rfl, rfl, rfl⟩

theorem preemptMarked_other (h : m ≠ n) : getSuite (preemptMarked s n) m = getSuite s m := by
  unfold preemptMarked
  rw [getSuite_updSuite_other _ _ _ _ h]
  split
  · rfl
  · exact getSuite_updSuite_other _ _ _ _ h

/-- The state with a gang command asked of the parent. -/
def gangAsked (s : State) (src : Src) (tag n op : Nat) : State :=
  let u := sendCommand s s.mgr.parentPort 0 op n (8 + 2 * bnat (op == 0x0301)) (if op = 0x0302 then natLE 0 16 else [])
  { u with mgr := { u.mgr with asked := SMap.set u.mgr.asked s.mgr.nextTag [op, ringKey src, tag] } }

theorem gangForward_top {p : Packet} {action : Nat} (ht : isTop s = true) (hj : jobWithRank s (ownId s) n = some no) :
    gangForward s src p n op action = wait (gangJob s no action (s.bell.count + s.mgr.haltLead)) src p.tag [action] := by
  unfold gangForward
  rw [if_pos ht, hj]

theorem gangForward_below {p : Packet} {action : Nat} (ht : isTop s = false) :
    gangForward s src p n op action = wait (gangAsked s src p.tag n op) src p.tag [action] := if_neg (by rw [ht]; decide)

theorem gangAsked_kept : (gangAsked s src tag n op).suites = s.suites
    ∧ SMap.get [] (gangAsked s src tag n op).mgr.asked s.mgr.nextTag = [op, ringKey src, tag] := by
  refine ⟨?_, SMap.get_set_same ..⟩
  unfold gangAsked
  rw [sendCommand_only]

/-! RESUME. -/

/-- The state of a suite that resumes: asked for, or waiting for its slice, with the last load's status good. -/
def resumeAskedFor (s : State) (n : Nat) : State := setLoad (askResume s n) n 0 0 (2 ^ 64 - 1)

theorem askResume_only : askResume s n = { s with suites := (askResume s n).suites } := by
  unfold askResume
  split <;> rfl

theorem askResume_other (h : m ≠ n) : getSuite (askResume s n) m = getSuite s m := by
  unfold askResume
  split
  · exact getSuite_updSuite_other _ _ _ _ h
  · exact getSuite_updSuite_other _ _ _ _ h

theorem askResume_same : getSuite (askResume s n) n = if groupBusy s n then
      { getSuite s n with slice := { (getSuite s n).slice with waitingSlice := true, rotation := true, resumeBell := s.bell.count } }
    else { getSuite s n with slice := { (getSuite s n).slice with resumeAsked := true, resumeBell := s.bell.count } } := by
  unfold askResume
  split
  · exact getSuite_updSuite_same ..
  · exact getSuite_updSuite_same ..

theorem getSuite_resumeAskedFor : getSuite (resumeAskedFor s n) n
    = { getSuite (askResume s n) n with load := { (getSuite (askResume s n) n).load with status := 0, detail := 0, location := 2 ^ 64 - 1 } } :=
  getSuite_updSuite_same ..

theorem resumeAskedFor_state : (getSuite (resumeAskedFor s n) n).load.status = 0 ∧ (getSuite (resumeAskedFor s n) n).state = (getSuite s n).state := by
  rw [getSuite_resumeAskedFor, askResume_same]
  split <;> exact ⟨rfl, rfl⟩

theorem resumeAskedFor_busy (h : groupBusy s n = true) :
    (getSuite (resumeAskedFor s n) n).slice.waitingSlice = true ∧ (getSuite (resumeAskedFor s n) n).slice.rotation = true := by
  rw [getSuite_resumeAskedFor, askResume_same, if_pos h]
  exact ⟨rfl, rfl⟩

theorem resumeAskedFor_idle (h : groupBusy s n = false) : (getSuite (resumeAskedFor s n) n).slice.resumeAsked = true := by
  rw [getSuite_resumeAskedFor, askResume_same, if_neg (by rw [h]; decide)]

theorem resumeAskedFor_other (h : m ≠ n) : getSuite (resumeAskedFor s n) m = getSuite s m :=
  (getSuite_updSuite_other _ _ _ _ h).trans (askResume_other h)

theorem resumeAskedFor_only : resumeAskedFor s n = { s with suites := (resumeAskedFor s n).suites } := by
  unfold resumeAskedFor setLoad
  rw [askResume_only]
  rfl

theorem resumeSuite_single {p : Packet} (hs : (getSuite s n).state = .preempted) (hm : multiRank (getSuite s n) = false) : resumeSuite s src p n
    = match resumeFailure (updSuite s n (fun x => { x with excluded := [] })) n with
      | some e => deny (setLoad s n e 0 (2 ^ 64 - 1)) e 0
      | none => later (resumeAskedFor s n) :=
  (if_neg (not_not_intro hs)).trans (if_neg (by rw [hm]; decide))

/-- The suites here that hold ranks of a job. -/
def ownSuites (s : State) (j : Job) : List Nat := (j.ranks.filter (fun r => r.2.1 == ownId s)).map (fun r => r.2.2)

/-- The header of a job's checkpoint of a step here. -/
def resumeHeader (s : State) (j : Job) (step : Nat) : Option Bytes :=
  ((ownSuites s j).head?.bind (fun m => (getSuite s m).checkpoints.find? (fun c => c.step == step))).map (fun c => c.header)

/-- Why a job's resume breaks its lineage. -/
def resumeCause (s : State) (j : Job) (b : Bytes) : Nat :=
  breakCause ((resumeHeader s j (fieldAt b 4 4)).getD []) (fieldAt b 2 1) j.ranks.length

/-- The lineage that a job's resume must find. -/
def knownLineage (j : Job) (ls : List Bytes) : Bytes := if j.lineage = [] then ls.headD [] else bytesAt j.lineage 0 16

/-- A job as its resume starts it. -/
def jobResumed (s : State) (j : Job) (b : Bytes) (ls : List Bytes) : Job :=
  { j with
    nRanks := j.ranks.length
    levels := ((jobImage s j).map (fun im => im.plan.levels.map (fun c => countOf c j.ranks.length))).getD j.levels
    seed := if bit (resumeCause s j b) 2 then fieldAt b 8 8 else ((resumeHeader s j (fieldAt b 4 4)).map (fun h => fieldAt h 128 8)).getD j.seed
    startAt := fieldAt b 4 4 + 1, cause := resumeCause s j b
    old := if ls.headD [] = [] then knownLineage j ls else ls.headD [], image := [], manifests := [] }

theorem resumeJob_open {p : Packet} (hj : takesJobs s = true) (hg : ∀ g, g ∈ s.mgr.broadcasts → g.src ≠ src ∨ g.tag ≠ p.tag)
    (hx : jobRefusal s (getJob s (fieldAt b 1 1)) (getJob s (fieldAt b 1 1)).ranks.length none = none) : resumeJob s src p b
      = match resumeOwn s (ownSuites s (getJob s (fieldAt b 1 1))) (fieldAt b 4 4) with
        | (_, some (x, d), _) => deny s x d
        | (s1, none, ls) =>
          if decide (resumeCause s (getJob s (fieldAt b 1 1)) b = 0) && ls.any (fun y => decide (y ≠ knownLineage (getJob s (fieldAt b 1 1)) ls)) then
            deny s 0x030C 0
          else later (beginStart (setJob (actAsTop s1) (fieldAt b 1 1) (jobResumed s (getJob s (fieldAt b 1 1)) b ls)) src p.tag (fieldAt b 1 1)
            (bytesAt b 0 16)) := by
  unfold resumeJob
  dsimp only
  rw [if_neg (by rw [hj]; decide), if_neg (by rw [broadcasts_none hg]; decide), hx]
  rfl

/-- A job's resume whose job takes it. -/
theorem execResume_job (h : Runs s src tag 0x0302 w 0xFF b) (hf : forwardedFor s w.pkt = none) (hk : fieldAt b 0 1 = 1) (hj : takesJobs s = true)
    (hg : ∀ g, g ∈ s.mgr.broadcasts → g.src ≠ src ∨ g.tag ≠ tag)
    (hx : jobRefusal s (getJob s (fieldAt b 1 1)) (getJob s (fieldAt b 1 1)).ranks.length none = none) :
    exec (.resume src tag) s = .next (answered 0x0302 src tag w.pkt (
      match resumeOwn (taken s src w) (ownSuites s (getJob s (fieldAt b 1 1))) (fieldAt b 4 4) with
        | (_, some (x, d), _) => deny (taken s src w) x d
        | (s1, none, ls) =>
          if decide (resumeCause s (getJob s (fieldAt b 1 1)) b = 0) && ls.any (fun y => decide (y ≠ knownLineage (getJob s (fieldAt b 1 1)) ls)) then
            deny (taken s src w) 0x030C 0
          else later (beginStart (setJob (actAsTop s1) (fieldAt b 1 1) (jobResumed s (getJob s (fieldAt b 1 1)) b ls)) src tag (fieldAt b 1 1)
            (bytesAt b 0 16)))) := by
  show execResume src tag s = _
  unfold execResume
  refine (runCommand_runs h).trans ?_
  dsimp only
  rw [forwardedFor_taken, hf]
  refine congrArg (fun e => Host.Outcome.next (answered 0x0302 src tag w.pkt e)) ?_
  refine (if_pos rfl).trans ((if_pos hk).trans ((resumeJob_open (s := taken s src w) hj (runs_tag h ▸ hg) hx).trans ?_))
  rw [runs_tag h]
  rfl

/-- What a rank's resume at a manager's command adds: the seed, and the break of its lineage. -/
def resumedFrom (s s1 : State) (n step : Nat) (b l : Bytes) : State :=
  let h := (((getSuite s n).checkpoints.find? (fun c => c.step == step)).map (fun c => c.header)).getD []
  let cause := breakCause h (fieldAt b 2 1) (getSuite s n).job.nRanks
  updSuite s1 n (fun x => { x with job := { x.job with
    seed := if bit cause 2 then fieldAt b 8 8 else fieldAt h 128 8, broken := if cause = 0 then none else some (l, step, cause) } })

theorem resumeRemote_ok {s1 : State} {d : Nat} {l : Bytes} (h : resumeRank s n (fieldAt b 4 4) = (s1, some (0, d, l))) :
    resumeRemote s n b = (resumedFrom s s1 n (fieldAt b 4 4) b l, some (0, d, l)) := by
  unfold resumeRemote
  dsimp only
  rw [h]
  rfl

theorem resumeRemote_not_loaded (h : (getSuite s n).state ≠ .loaded) : resumeRemote s n b = denyState s n := by
  have hr : resumeRank s n (fieldAt b 4 4) = denyState s n := by
    unfold resumeRank
    dsimp only
    rw [if_neg h]
  unfold resumeRemote
  dsimp only
  rw [hr]
  rfl

/-! STOP. -/

theorem foldl_preserves_mem {α β γ : Type} (g : β → γ) (f : β → α → β) : ∀ (l : List α), (∀ v, ∀ a ∈ l, g (f v a) = g v) → ∀ v, g (l.foldl f v) = g v
  | [], _, _ => rfl
  | a :: l, h, v => (foldl_preserves_mem g f l (fun v x hx => h v x (List.mem_cons_of_mem _ hx)) (f v a)).trans (h v a List.mem_cons_self)

theorem finish_suites (st d : Nat) (f : Bytes) : (finish s src tag st d f).suites = s.suites := (congrArg State.suites (finish_only ..) :)

/-- Stopping the pre-emptions that a STOP ends leaves the suites. -/
theorem abortPreempts_suites : (abortWhere s op (fun sr w => w.pkt.opcode == 0x0301 && targetOf sr w.pkt == n)).suites = s.suites := by
  unfold abortWhere
  refine foldl_preserves State.suites (fun st p => ?_) _ s
  refine foldl_preserves_mem State.suites _ _ (fun v w hw => ?_) st
  have hop : w.pkt.opcode ≠ 0x0202 := by
    have := (List.mem_filter.mp hw).2
    simp only [Bool.and_eq_true, beq_iff_eq] at this
    rw [this.2.1]
    decide
  rw [finish_suites, if_neg hop]

theorem stopAtGate_stopping (h : (getSuite s n).slice.stopping = true) : getSuite (stopAtGate s n) n = { getSuite s n with
    slice := { (getSuite s n).slice with stopAfter := some (highestEntered s n) } } := by
  unfold stopAtGate
  dsimp only
  rw [if_pos h, getSuite_updSuite_same]

theorem toMembers_kept (s : State) (g : Broadcast) (ms : List (Nat × Nat)) (op flags : Nat) (payload : Bytes) (own : State → Nat → Effect) :
    (toMembers s g ms op flags payload own).2.src = g.src ∧ (toMembers s g ms op flags payload own).2.tag = g.tag := by
  have hadd : ∀ (x : Broadcast) m st d, (gatherAdd x m st d).src = x.src ∧ (gatherAdd x m st d).tag = x.tag := fun x m st d => by
    unfold gatherAdd
    split <;> exact ⟨rfl, rfl⟩
  have hfold : (fun a : State × Broadcast => (a.2.src, a.2.tag)) (toMembers s g ms op flags payload own) = (g.src, g.tag) := by
    unfold toMembers
    refine foldl_preserves (fun a : State × Broadcast => (a.2.src, a.2.tag)) (fun a m => ?_) ms (s, g)
    dsimp only
    split
    · split
      · rfl
      · next x d f _ =>
        obtain ⟨hsrc, htag⟩ := hadd a.2 m.1 x d
        exact Prod.ext hsrc htag
    · split
      · rfl
      · obtain ⟨hsrc, htag⟩ := hadd a.2 m.1 0x0302 0
        exact Prod.ext hsrc htag
  exact Prod.mk.inj hfold

/-- What a STOP of a suite comes to, where no start or load of it is under way. -/
theorem stopSuite_idle {p : Packet} {mode : Nat} (hw : startingWith s n = none)
    (hl : s.rings.any (fun q => q.2.queue.any (fun x => x.executing && x.pkt.opcode == 0x0202 && targetOf (keySrc q.1) x.pkt == n)) = false) :
    stopSuite s src p n mode = if (getSuite s n).state = .preempted then done (stopSaved s n) (natLE (lastCompleted s n) 4)
      else if (getSuite s n).state ≠ .running then denyState s n
      else if mode = 0 then wait (stopAtGate s n) src p.tag [highestEntered s n]
      else wait (stopNow (abortWhere s 0x0303 (fun sr w => w.pkt.opcode == 0x0301 && targetOf sr w.pkt == n)) n) src p.tag [lastCompleted s n] := by
  unfold stopSuite
  dsimp only
  rw [hw, hl]
  rfl

theorem stopSuite_starting {p : Packet} {mode : Nat} (hw : startingWith s n = some (no, g)) :
    stopSuite s src p n mode = done (failStart s no g 0x0309 0x0303) (natLE 0 4) := by
  unfold stopSuite
  dsimp only
  rw [hw]

theorem stopJobCommand_starting {p : Packet} (hw : startingOf s (fieldAt b 1 1) = some g) : stopJobCommand s src p b
    = done (failStart s (fieldAt b 1 1) g 0x0309 0x0303) (bytesAt (natLE 0 4) 0 32 ++ natLE (getJob s (fieldAt b 1 1)).ranks.length 4 ++ natLE 0 8) := by
  unfold stopJobCommand
  dsimp only
  rw [hw]

/-- The gather that a STOP of a job opens. -/
def stopGather (s : State) (src : Src) (tag mode no : Nat) : Broadcast :=
  { src := src, tag := tag, since := s.bell.count, head := (match stopSteps s no mode with
      | [] => []
      | y :: ys => natLE (ys.foldl min y) 4) }

/-- The state with a STOP of a job recorded, and the job no longer started. -/
def jobStopped (s : State) (no : Nat) : State := updJob (recordStop s no (haltStepNow s no)) no (fun x => { x with started := false })

/-- The state with a job's halt announced, and the job no longer started. -/
def jobHalted (s : State) (no : Nat) : State :=
  updJob (sendVerdict { recordStop s no (haltStepNow s no) with free := s.free + 1 } no (haltStepNow s no - 1) 3) no
    (fun x => { x with started := false })

/-- What a member of a job does that is told to halt at a bell. -/
def haltMember (bell step : Nat) (s : State) (n : Nat) : Effect :=
  if (getSuite s n).state = .running ∨ (getSuite s n).state = .preempted then later (nameHalt s n bell step) else denyState s n

theorem stopJobCommand_started {p : Packet} (hw : startingOf s (fieldAt b 1 1) = none) (hj : takesJobs s = true)
    (hh : SMap.has s.mgr.jobs (fieldAt b 1 1) = true) (hs : (getJob s (fieldAt b 1 1)).started = true) : stopJobCommand s src p b
      = if fieldAt b 0 1 = 0 then later (settleGather (toMembers (jobStopped s (fieldAt b 1 1)) (stopGather s src p.tag (fieldAt b 0 1) (fieldAt b 1 1))
          ((getJob s (fieldAt b 1 1)).ranks.map (fun r => r.2)) 0x0303 0x0A (bytesAt b 0 4) stopMember))
        else later (settleGather (toMembers (jobHalted s (fieldAt b 1 1)) (stopGather s src p.tag (fieldAt b 0 1) (fieldAt b 1 1))
          ((getJob s (fieldAt b 1 1)).ranks.map (fun r => r.2)) 0x0507 0x0A
          (bytesAt (getJob s (fieldAt b 1 1)).lineage 0 16 ++ natLE (haltStepNow s (fieldAt b 1 1)) 4 ++ natLE 0 4 ++ natLE (s.bell.count + s.mgr.haltLead) 8)
          (haltMember (s.bell.count + s.mgr.haltLead) (haltStepNow s (fieldAt b 1 1))))) := by
  unfold stopJobCommand
  dsimp only
  rw [hw]
  dsimp only
  rw [if_neg (by rw [hj]; decide), if_neg (by rw [hh]; decide), if_neg (by rw [hs]; decide)]
  rfl

end

/-- Settles O49. -/
theorem executionCommandsStartAndStop : Obligations.ExecutionCommandsStartAndStop := by
  refine fun s src tag n w b => ⟨fun h => ⟨fun hj => ?_, fun hj => ⟨fun hs => ?_, fun hs hg => ⟨fun hr => ?_, fun hr => ⟨fun x d hx => ?_, fun hx => ?_⟩⟩⟩⟩,
    fun h hf => ⟨fun hs => ?_, fun hs hm => ?_, fun hs hm => ⟨fun no ht hn => ?_, fun ht => ?_⟩⟩, fun no h hf => ?_, fun no h hf => ?_,
    fun h hf hn hk => ⟨fun hs => ?_, fun hs hm => ⟨fun e he => ?_, fun he => ?_⟩⟩,
    fun h hf hn hk hg => ⟨fun hj => ?_, fun hj => ⟨fun x d hx => ?_, fun own heads cause hx hown hheads hcause => ⟨fun s1 x d l hl => ?_,
      fun s1 l known hl hknown => ⟨fun hc hy => ?_, fun hc => ?_⟩⟩⟩⟩,
    fun h hf hn hk => ?_, fun f hsrc h hf hn hk => ?_, fun q hsrc h hf hn hk => ⟨fun hs => ?_, fun s1 d l hl => ?_⟩,
    fun h hn hw hl => ⟨fun hs => ?_, fun hp hr => ?_, fun hs hk => ?_, fun hs hk => ?_⟩,
    fun no g h hn hw => ?_, fun g h hn hw => ?_, fun h hn hw => ⟨fun hj => ?_, fun hj hy => ?_, fun hj hy hs => ?_, fun hj hy hs => ?_⟩⟩
  · show execStart src tag s = _
    exact runCommand_replies h rfl (by decide) (if_pos (by rw [show takesJobs (taken s src w) = takesJobs s from rfl, hj]; rfl))
  · show execStart src tag s = _
    refine runCommand_replies h rfl (by decide) ((if_neg ?_).trans (if_pos ?_))
    · rw [show takesJobs (taken s src w) = takesJobs s from rfl, hj]
      decide
    · exact Bool.or_eq_true_iff.mpr (.inl hs)
  · show execStart src tag s = _
    exact runCommand_replies h rfl (by decide) (startEffect_ranksMissing hj hs (runs_tag h ▸ hg) hr)
  · show execStart src tag s = _
    exact runCommand_replies h rfl (by decide) (startEffect_refused hj hs (runs_tag h ▸ hg) hr ((jobRefusal_taken ..).trans hx))
  · show execStart src tag s = _
    exact (runCommand_goes_on h (startEffect_begins hj hs (runs_tag h ▸ hg) hr ((jobRefusal_taken ..).trans hx))).trans (by rw [runs_tag h]; rfl)
  · show execPreempt src tag s = _
    unfold execPreempt
    refine runCommand_replies h rfl (by decide) ?_
    rw [forwardedFor_taken, hf, getSuite_taken]
    exact if_pos hs
  · obtain ⟨hstopping, hstate, hwaiting, hrotation⟩ := preemptMarked_suite (s := taken s src w) (n := n)
    rw [getSuite_taken, hs] at hstate
    refine ⟨preemptMarked (taken s src w) n, ?_, ?_, hstopping, hstate, fun t ht => preemptMarked_tile ht, hwaiting, hrotation, fun m hm => preemptMarked_other hm⟩
    · show execPreempt src tag s = _
      unfold execPreempt
      refine runCommand_goes_on h ?_
      rw [forwardedFor_taken, hf, getSuite_taken]
      exact (if_neg (not_not_intro hs)).trans (if_neg (by rw [hm]; decide))
    · rw [preemptMarked_only]
      rfl
  · show execPreempt src tag s = _
    unfold execPreempt
    refine runCommand_goes_on h ?_
    rw [forwardedFor_taken, hf, getSuite_taken]
    refine (if_neg (not_not_intro hs)).trans ((if_pos hm).trans ((gangForward_top (s := taken s src w) ht hn).trans ?_))
    rw [runs_tag h]
    rfl
  · obtain ⟨hsuites, hasked⟩ := gangAsked_kept (s := taken s src w) (src := src) (tag := tag) (n := n) (op := 0x0301)
    refine ⟨gangAsked (taken s src w) src tag n 0x0301, ?_, hsuites, hasked⟩
    show execPreempt src tag s = _
    unfold execPreempt
    refine runCommand_goes_on h ?_
    rw [forwardedFor_taken, hf, getSuite_taken]
    refine (if_neg (not_not_intro hs)).trans ((if_pos hm).trans ((gangForward_below (s := taken s src w) ht).trans ?_))
    rw [runs_tag h]
    rfl
  · show execPreempt src tag s = _
    unfold execPreempt
    refine runCommand_replies h rfl (by decide) ?_
    rw [forwardedFor_taken, hf]
    rfl
  · show execResume src tag s = _
    unfold execResume
    refine runCommand_replies h rfl (by decide) ?_
    dsimp only
    rw [forwardedFor_taken, hf]
    rfl
  · show execResume src tag s = _
    unfold execResume
    refine runCommand_replies h rfl (by decide) ?_
    dsimp only
    rw [forwardedFor_taken, hf]
    exact (if_neg hn).trans ((if_pos hk).trans (if_pos hs))
  · show execResume src tag s = _
    unfold execResume
    refine runCommand_replies h rfl (by decide) ?_
    dsimp only
    rw [forwardedFor_taken, hf]
    refine (if_neg hn).trans ((if_pos hk).trans ((resumeSuite_single (s := taken s src w) hs hm).trans ?_))
    rw [he]
    rfl
  · obtain ⟨hstatus, hstate⟩ := resumeAskedFor_state (s := taken s src w) (n := n)
    rw [getSuite_taken, hs] at hstate
    refine ⟨resumeAskedFor (taken s src w) n, ?_, ?_, hstatus, hstate, resumeAskedFor_busy (s := taken s src w), resumeAskedFor_idle (s := taken s src w),
      fun m hm => resumeAskedFor_other hm⟩
    · show execResume src tag s = _
      unfold execResume
      refine runCommand_goes_on h ?_
      dsimp only
      rw [forwardedFor_taken, hf]
      refine (if_neg hn).trans ((if_pos hk).trans ((resumeSuite_single (s := taken s src w) hs hm).trans ?_))
      rw [he]
      rfl
    · rw [resumeAskedFor_only]
      rfl
  · show execResume src tag s = _
    unfold execResume
    refine runCommand_replies h rfl (by decide) ?_
    dsimp only
    rw [forwardedFor_taken, hf]
    refine (if_pos hn).trans ((if_pos hk).trans (if_pos ?_))
    rw [show takesJobs (taken s src w) = takesJobs s from rfl, hj]
    rfl
  · have hj' : takesJobs (taken s src w) = true := hj
    show execResume src tag s = _
    unfold execResume
    refine runCommand_replies h rfl (by decide) ?_
    dsimp only
    rw [forwardedFor_taken, hf]
    refine (if_pos hn).trans ((if_pos hk).trans ((if_neg (by rw [hj']; decide)).trans ((if_neg ?_).trans ?_)))
    · rw [runs_tag h]
      exact fun hany => Bool.false_ne_true ((broadcasts_none hg).symm.trans hany)
    · have hx' : jobRefusal (taken s src w) (getJob (taken s src w) (fieldAt b 1 1)) (getJob (taken s src w) (fieldAt b 1 1)).ranks.length none
          = some (x, d) := hx
      rw [hx']
      rfl
  · subst hn
    have hown' : own = ownSuites s (getJob s (fieldAt b 1 1)) := hown
    rw [hown'] at hl
    rw [execResume_job h hf hk hj hg hx, hl]
    exact congrArg Host.Outcome.next (answered_loud (Runs.loud h rfl (by decide)))
  · subst hn
    have hown' : own = ownSuites s (getJob s (fieldAt b 1 1)) := hown
    rw [hown'] at hl
    have hc' : resumeCause s (getJob s (fieldAt b 1 1)) b = 0 := by
      rw [← hc, hcause, hheads, hown]
      rfl
    obtain ⟨y, hyl, hyk⟩ := hy
    have hany : l.any (fun y => decide (y ≠ knownLineage (getJob s (fieldAt b 1 1)) l)) = true :=
      List.any_eq_true.mpr ⟨y, hyl, decide_eq_true fun hy => hyk (hy.trans hknown.symm)⟩
    rw [execResume_job h hf hk hj hg hx, hl]
    dsimp only
    rw [if_pos (by rw [hany, hc']; rfl)]
    exact congrArg Host.Outcome.next (answered_loud (Runs.loud h rfl (by decide)))
  · subst hn
    have hown' : own = ownSuites s (getJob s (fieldAt b 1 1)) := hown
    rw [hown'] at hl
    have hc' : resumeCause s (getJob s (fieldAt b 1 1)) b = cause := by
      rw [hcause, hheads, hown]
      rfl
    refine ⟨jobResumed s (getJob s (fieldAt b 1 1)) b l, rfl, hc', rfl, fun hbit => if_pos (by rw [hc']; exact hbit), ?_⟩
    rw [execResume_job h hf hk hj hg hx, hl]
    dsimp only
    rw [if_neg]
    · rfl
    · rw [hc', Bool.and_eq_true, decide_eq_true_eq, List.any_eq_true]
      rintro ⟨h0, y, hyl, hyk⟩
      exact of_decide_eq_true hyk ((hc.resolve_left (not_not_intro h0) y hyl).trans hknown)
  · show execResume src tag s = _
    unfold execResume
    refine runCommand_replies h rfl (by decide) ?_
    dsimp only
    rw [forwardedFor_taken, hf]
    exact (if_pos hn).trans (if_neg hk)
  · subst hsrc
    show execResume (.ring f) tag s = _
    unfold execResume
    refine runCommand_replies h rfl (by decide) ?_
    dsimp only
    rw [forwardedFor_taken, hf]
    exact (if_neg hn).trans (if_neg hk)
  · subst hsrc
    show execResume (.link q) tag s = _
    unfold execResume
    refine runCommand_replies h rfl (by decide) ?_
    dsimp only
    rw [forwardedFor_taken, hf]
    exact (if_neg hn).trans ((if_neg hk).trans (resumeRemote_not_loaded hs))
  · subst hsrc
    refine ⟨resumedFrom (taken s (.link q) w) s1 n (fieldAt b 4 4) b l, ?_, rfl, ?_⟩
    · show execResume (.link q) tag s = _
      unfold execResume
      refine runCommand_replies h rfl (by decide) ?_
      dsimp only
      rw [forwardedFor_taken, hf]
      exact (if_neg hn).trans ((if_neg hk).trans (resumeRemote_ok hl))
    · unfold resumedFrom
      dsimp only
      rw [getSuite_updSuite_same]
  · show execStop src tag s = _
    unfold execStop
    exact runCommand_replies h rfl (by decide) ((if_neg hn).trans ((stopSuite_idle hw hl).trans (if_pos hs)))
  · show execStop src tag s = _
    unfold execStop
    exact runCommand_replies h rfl (by decide) ((if_neg hn).trans ((stopSuite_idle hw hl).trans ((if_neg hp).trans (if_pos hr))))
  · have hnot : (getSuite s n).state ≠ .preempted := fun hp => nomatch hs.symm.trans hp
    refine ⟨?_, ?_, fun hst => ?_, fun hst => ?_⟩
    · show execStop src tag s = _
      unfold execStop
      refine runCommand_goes_on h ((if_neg hn).trans ((stopSuite_idle hw hl).trans ((if_neg hnot).trans ((if_neg (not_not_intro hs)).trans
        ((if_pos hk).trans ?_)))))
      rw [runs_tag h]
      rfl
    · cases hst : (getSuite s n).slice.stopping with
      | false => rw [stopAtGate_same (s := taken s src w) hst]; rfl
      | true => rw [stopAtGate_stopping (s := taken s src w) hst]; rfl
    · rw [stopAtGate_same (s := taken s src w) hst]
    · rw [stopAtGate_stopping (s := taken s src w) hst]
      exact hs
  · have hnot : (getSuite s n).state ≠ .preempted := fun hp => nomatch hs.symm.trans hp
    refine ⟨abortWhere (taken s src w) 0x0303 (fun sr w => w.pkt.opcode == 0x0301 && targetOf sr w.pkt == n), ?_, abortPreempts_suites⟩
    show execStop src tag s = _
    unfold execStop
    refine runCommand_goes_on h ((if_neg hn).trans ((stopSuite_idle hw hl).trans ((if_neg hnot).trans ((if_neg (not_not_intro hs)).trans
      ((if_neg (by rw [hk]; decide)).trans ?_)))))
    rw [runs_tag h]
    rfl
  · show execStop src tag s = _
    unfold execStop
    exact runCommand_replies h rfl (by decide) ((if_neg hn).trans (stopSuite_starting hw))
  · have hzero : bytesAt (natLE 0 4) 0 32 = natLE 0 32 := by decide
    show execStop src tag s = _
    unfold execStop
    refine runCommand_replies h rfl (by decide) ((if_pos hn).trans ((stopJobCommand_starting hw).trans ?_))
    rw [hzero]
    rfl
  · have hj' : takesJobs (taken s src w) = false := hj
    show execStop src tag s = _
    unfold execStop
    refine runCommand_replies h rfl (by decide) ((if_pos hn).trans ?_)
    unfold stopJobCommand
    dsimp only
    rw [hw, hj']
    rfl
  · have hj' : takesJobs (taken s src w) = true := hj
    have hy' : SMap.has (taken s src w).mgr.jobs (fieldAt b 1 1) = false := hy
    show execStop src tag s = _
    unfold execStop
    refine runCommand_replies h rfl (by decide) ((if_pos hn).trans ?_)
    unfold stopJobCommand
    dsimp only
    rw [hw, hj', hy']
    rfl
  · have hj' : takesJobs (taken s src w) = true := hj
    have hy' : SMap.has (taken s src w).mgr.jobs (fieldAt b 1 1) = true := hy
    have hs' : (getJob (taken s src w) (fieldAt b 1 1)).started = false := hs
    show execStop src tag s = _
    unfold execStop
    refine runCommand_replies h rfl (by decide) ((if_pos hn).trans ?_)
    unfold stopJobCommand
    dsimp only
    rw [hw, hj', hy', hs']
    rfl
  · have hopen := stopJobCommand_started (s := taken s src w) (src := src) (p := w.pkt) hw hj hy hs
    by_cases hk : fieldAt b 0 1 = 0
    · rw [if_pos hk, runs_tag h] at hopen
      obtain ⟨hsrc, htag⟩ := toMembers_kept (jobStopped (taken s src w) (fieldAt b 1 1)) (stopGather (taken s src w) src tag (fieldAt b 0 1) (fieldAt b 1 1))
          ((getJob (taken s src w) (fieldAt b 1 1)).ranks.map (fun r => r.2)) 0x0303 0x0A (bytesAt b 0 4) stopMember
      refine ⟨_, ?_, hsrc, htag, fun _ => ?_⟩
      · show execStop src tag s = _
        unfold execStop
        exact runCommand_goes_on h ((if_pos hn).trans hopen)
      · rw [hk]
        rfl
    · rw [if_neg hk, runs_tag h] at hopen
      obtain ⟨hsrc, htag⟩ := toMembers_kept (jobHalted (taken s src w) (fieldAt b 1 1)) (stopGather (taken s src w) src tag (fieldAt b 0 1) (fieldAt b 1 1))
          ((getJob (taken s src w) (fieldAt b 1 1)).ranks.map (fun r => r.2)) 0x0507 0x0A
          (bytesAt (getJob (taken s src w) (fieldAt b 1 1)).lineage 0 16 ++ natLE (haltStepNow (taken s src w) (fieldAt b 1 1)) 4 ++ natLE 0 4
            ++ natLE ((taken s src w).bell.count + (taken s src w).mgr.haltLead) 8)
          (haltMember ((taken s src w).bell.count + (taken s src w).mgr.haltLead) (haltStepNow (taken s src w) (fieldAt b 1 1)))
      refine ⟨_, ?_, hsrc, htag, fun h0 => absurd h0 hk⟩
      show execStop src tag s = _
      unfold execStop
      exact runCommand_goes_on h ((if_pos hn).trans hopen)

end Sys2Proof.Machine
end

section
/-!
PROOFS. Scheduling commands: JOB_RANKS, EVAL_AT, CHECKPOINT_AT, BELL_SLOT_SET and SLICE_SET (rules R31, R354, R391, R395, R396, R423, R426,
R429, R438).
-/
open Sys2Proof Sys2Proof.Says

namespace Sys2Proof.Machine
section
variable {s u : State} {src : Src} {tag op n m no first k : Nat} {w : Waiting} {b : Bytes} {p : Packet} {own : State → Nat → Effect}

/-! JOB_RANKS. -/

/-- A map with the first `k` places from `first` set, place by place. -/
theorem SMap.get_foldl_set_range {α : Type} (d : α) (f : Nat → α) (m : SMap α) (first : Nat) : ∀ k r : Nat,
    SMap.get d ((List.range k).foldl (fun m i => SMap.set m (first + i) (f i)) m) r
      = if first ≤ r ∧ r < first + k then f (r - first) else SMap.get d m r := by
  intro k
  induction k with
  | zero => exact fun r => (if_neg (by omega)).symm
  | succ k ih =>
    intro r
    rw [List.range_succ, List.foldl_append]
    obtain rfl | hr := Decidable.em (r = first + k)
    · refine (SMap.get_set_same ..).trans ?_
      rw [if_pos (by omega), Nat.add_sub_cancel_left]
    · refine (SMap.get_set_other _ _ _ _ _ hr).trans ((ih r).trans ?_)
      by_cases h : first ≤ r ∧ r < first + k
      · rw [if_pos h, if_pos (by omega)]
      · rw [if_neg h, if_neg (by omega)]

/-- The ranks of a job with those of a JOB_RANKS entered. -/
def ranksEntered (j : Job) (b : Bytes) : SMap (Nat × Nat) :=
  (List.range (fieldAt b 2 2)).foldl (fun m i => SMap.set m (fieldAt b 4 4 + i) (memberAt b i)) (if bit (fieldAt b 1 1) 0 then [] else j.ranks)

theorem ranksEntered_inside {j : Job} {i : Nat} (h : i < fieldAt b 2 2) :
    SMap.get (0, 0) (ranksEntered j b) (fieldAt b 4 4 + i) = (fieldAt b (8 + 8 * i) 4, fieldAt b (12 + 8 * i) 1) := by
  refine (SMap.get_foldl_set_range ..).trans ((if_pos (by omega)).trans ?_)
  rw [Nat.add_sub_cancel_left]
  rfl

theorem ranksEntered_outside {j : Job} {r : Nat} (h : r < fieldAt b 4 4 ∨ fieldAt b 4 4 + fieldAt b 2 2 ≤ r) :
    SMap.get (0, 0) (ranksEntered j b) r = if bit (fieldAt b 1 1) 0 then (0, 0) else SMap.get (0, 0) j.ranks r := by
  refine (SMap.get_foldl_set_range ..).trans ((if_neg (by omega)).trans ?_)
  split <;> rfl

theorem actAsTop_only : actAsTop s = { s with mgr := (actAsTop s).mgr } := by
  unfold actAsTop
  split <;> rfl

theorem getJob_setJob {j : Job} : getJob (setJob s no j) no = j := SMap.get_set_same ..

/-! Scheduled events. -/

theorem scheduleAndReply_full {e : BellEvent} (h : 1024 ≤ (pendingEvents s).length) : scheduleAndReply s e = deny s 0x0308 1024 := by
  unfold scheduleAndReply scheduleEvent
  rw [if_pos h]

theorem scheduleAndReply_room {e : BellEvent} (h : (pendingEvents s).length < 1024) : scheduleAndReply s e
    = done (eventPending s e) (natLE (max e.bell s.bell.count) 8 ++ natLE s.bell.nextEvent 4) := by
  unfold scheduleAndReply scheduleEvent
  rw [if_neg (by omega)]
  rfl

theorem stepEvent_passed {step bell : Nat} (h : uPassed s n (step + 1) = true) : stepEvent s n op step bell = deny s 0x0307 0 := if_pos h

theorem stepEvent_ahead {step bell : Nat} (h : uPassed s n (step + 1) = false) :
    stepEvent s n op step bell = scheduleAndReply s { bell := bell, opcode := op, suite := n, step := step } := if_neg (by rw [h]; decide)

/-! A command told to every rank of a job. -/

theorem jobCommand_not_top {payload : Bytes} (h : takesJobs s = false) : jobCommand s src p no op payload own = deny s 0x030A s.mgr.role :=
  if_pos (by rw [h]; decide)

theorem jobCommand_unknown {payload : Bytes} (h : takesJobs s = true) (hn : SMap.has s.mgr.jobs no = false) :
    jobCommand s src p no op payload own = deny s 0x030F 0 :=
  (if_neg (by rw [h]; decide)).trans (if_pos (by rw [hn]; decide))

theorem jobCommand_told {payload : Bytes} (ht : p.tag = tag) (h : takesJobs s = true) (hn : SMap.has s.mgr.jobs no = true) :
    jobCommand s src p no op payload own = later (settleGather (toMembers (actAsTop s) { src := src, tag := tag, since := s.bell.count }
      ((getJob s no).ranks.map (fun r => r.2)) op (8 + 2 * bnat (bit p.flags 1)) payload own)) := by
  subst ht
  exact (if_neg (by rw [h]; decide)).trans (if_neg (by rw [hn]; decide))

/-- A command for every rank of a job: who may give it, the job it is for, and its telling. -/
theorem jobCommand_cases {x : Host.Outcome State Fault Refusal} {eff : State → Src → Packet → Nat → Bytes → Effect} {payload : Bytes} (h : Runs s src tag op w 0xFF b)
    (hx : x = runCommand op src tag s eff) (hop : opFlag op 3 = false) (hreset : op ≠ 0x0102)
    (he : eff (taken s src w) src w.pkt 0xFF b = jobCommand (taken s src w) src w.pkt no op payload own) :
    (takesJobs s = false → x = .next (finish (taken s src w) src tag 0x030A s.mgr.role []))
    ∧ (takesJobs s = true → SMap.has s.mgr.jobs no = false → x = .next (finish (taken s src w) src tag 0x030F 0 []))
    ∧ (takesJobs s = true → SMap.has s.mgr.jobs no = true → x = .next (jobTold s src tag w no op payload own)) :=
  ⟨fun hj => hx.trans <| runCommand_replies h hop hreset (he.trans (jobCommand_not_top hj)),
    fun hj hn => hx.trans <| runCommand_replies h hop hreset (he.trans (jobCommand_unknown hj hn)),
    fun hj hn => hx.trans <| runCommand_goes_on h (he.trans (jobCommand_told (runs_tag h) hj hn))⟩

/-- A command that schedules an event: refused where 1,024 are pending, else answered with the event's bell and number. -/
theorem scheduleAndReply_cases {x : Host.Outcome State Fault Refusal} {eff : State → Src → Packet → Nat → Bytes → Effect} {e : BellEvent} (h : Runs s src tag op w n b)
    (hx : x = runCommand op src tag s eff) (hop : opFlag op 3 = false) (hreset : op ≠ 0x0102) (he : eff (taken s src w) src w.pkt n b = scheduleAndReply (taken s src w) e) :
    (1024 ≤ (pendingEvents s).length → x = .next (finish (taken s src w) src tag 0x0308 1024 []))
    ∧ ((pendingEvents s).length < 1024 → x
      = .next (finish (eventPending (taken s src w) e) src tag 0 0 (natLE (max e.bell s.bell.count) 8 ++ natLE s.bell.nextEvent 4))) :=
  ⟨fun hp => hx.trans <| runCommand_replies h hop hreset (he.trans (scheduleAndReply_full hp)),
    fun hp => hx.trans <| runCommand_replies h hop hreset (he.trans (scheduleAndReply_room hp))⟩

/-! SLICE_SET. -/

/-- The grace that a SLICE_SET asks for. -/
def graceAsked (b : Bytes) : Nat := if fieldAt b 4 4 = 0 then 250000 else fieldAt b 4 4

/-- A suite's slice while one is in progress, or at once. -/
def sliceEntered (s : State) (n : Nat) (b : Bytes) : State :=
  let inProgress := decide ((getSuite s n).state = .running) && (getSuite s n).slice.slice != 0
  let s1 := updSuite s n (fun x => { x with slice := { x.slice with
    grace := graceAsked b, slice := if inProgress then x.slice.slice else fieldAt b 0 4, nextSlice := if inProgress then some (fieldAt b 0 4) else none } })
  if (getSuite s n).state = .running ∧ inProgress = false then beginSlice s1 n else s1

theorem beginSlice_other (h : m ≠ n) : getSuite (beginSlice s n) m = getSuite s m := getSuite_updSuite_other _ _ _ _ h

theorem beginSlice_same : (getSuite (beginSlice s n) n).slice.grace = (getSuite s n).slice.grace
    ∧ (getSuite (beginSlice s n) n).slice.slice = (getSuite s n).slice.nextSlice.getD (getSuite s n).slice.slice := by
  unfold beginSlice beginSliceAt
  rw [getSuite_updSuite_same]
  dsimp only
  split <;> exact ⟨rfl, rfl⟩

theorem sliceEntered_only : sliceEntered s n b = { s with suites := (sliceEntered s n b).suites } := by
  unfold sliceEntered
  dsimp only
  split <;> rfl

theorem sliceEntered_other (h : m ≠ n) : getSuite (sliceEntered s n b) m = getSuite s m := by
  unfold sliceEntered
  dsimp only
  split
  · exact (beginSlice_other h).trans (getSuite_updSuite_other _ _ _ _ h)
  · exact getSuite_updSuite_other _ _ _ _ h

theorem sliceEntered_running (hs : (getSuite s n).state = .running) (hz : (getSuite s n).slice.slice ≠ 0) :
    (getSuite (sliceEntered s n b) n).slice.grace = graceAsked b ∧ (getSuite (sliceEntered s n b) n).slice.slice = (getSuite s n).slice.slice
      ∧ (getSuite (sliceEntered s n b) n).slice.nextSlice = some (fieldAt b 0 4) := by
  have hp : (decide ((getSuite s n).state = .running) && (getSuite s n).slice.slice != 0) = true := by simp [hs, hz]
  unfold sliceEntered
  dsimp only
  rw [hp, if_neg (by simp), getSuite_updSuite_same]
  exact ⟨rfl, rfl, rfl⟩

theorem sliceEntered_idle (h : (getSuite s n).state ≠ .running ∨ (getSuite s n).slice.slice = 0) :
    (getSuite (sliceEntered s n b) n).slice.grace = graceAsked b ∧ (getSuite (sliceEntered s n b) n).slice.slice = fieldAt b 0 4 := by
  have hp : (decide ((getSuite s n).state = .running) && (getSuite s n).slice.slice != 0) = false := by
    obtain h | h := h <;> simp [h]
  unfold sliceEntered
  dsimp only
  rw [hp]
  split
  · obtain ⟨hgrace, hslice⟩ := beginSlice_same (n := n) (s := updSuite s n (fun x => { x with slice := { x.slice with
      grace := graceAsked b, slice := fieldAt b 0 4, nextSlice := none } }))
    rw [getSuite_updSuite_same] at hgrace hslice
    exact ⟨hgrace, hslice⟩
  · rw [getSuite_updSuite_same]
    exact ⟨rfl, rfl⟩

end

/-- Settles O50. -/
theorem schedulingCommandsReply : Obligations.SchedulingCommandsReply := by
  refine fun s src tag n w b => ⟨fun h => ⟨fun hj => ?_, fun hj hs => ?_, fun hj hs hn => ⟨fun hk => ?_, fun hk => ?_⟩⟩,
    fun h => ⟨fun hn => ⟨fun hs => ?_, fun hs hu => ?_, fun hs hu => ?_⟩, fun hn => ?_⟩,
    fun h => ⟨fun hn => ⟨fun hs hl => ?_, fun hs hu => ?_, fun hs hu => ?_⟩, fun hn => ?_⟩,
    fun h => ⟨fun hn => ?_, fun hn => ?_⟩,
    fun h => ⟨fun hz ht => ?_, fun hz hm => ?_, fun ht hm => ⟨fun im hi hd => ?_, fun hd => ?_⟩⟩⟩
  · show execJobRanks src tag s = _
    exact runCommand_replies h rfl (by decide) (if_pos (by rw [show takesJobs (taken s src w) = takesJobs s from rfl, hj]; rfl))
  · show execJobRanks src tag s = _
    refine runCommand_replies h rfl (by decide) ((if_neg ?_).trans (if_pos (Bool.or_eq_true_iff.mpr (.inl hs))))
    rw [show takesJobs (taken s src w) = takesJobs s from rfl, hj]
    decide
  · show execJobRanks src tag s = _
    refine runCommand_replies h rfl (by decide) ((if_neg ?_).trans ((if_neg ?_).trans (if_pos hk)))
    · rw [show takesJobs (taken s src w) = takesJobs s from rfl, hj]
      decide
    · rw [show getJob (taken s src w) (fieldAt b 0 1) = getJob s (fieldAt b 0 1) from rfl, hs, hn]
      decide
  · refine ⟨setJob (actAsTop (taken s src w)) (fieldAt b 0 1) { getJob s (fieldAt b 0 1) with ranks := ranksEntered (getJob s (fieldAt b 0 1)) b },
      ranksEntered (getJob s (fieldAt b 0 1)) b, ?_, ?_, getJob_setJob, fun i hi => ranksEntered_inside hi, fun r hr => ranksEntered_outside hr⟩
    · show execJobRanks src tag s = _
      refine runCommand_replies h rfl (by decide) ((if_neg ?_).trans ((if_neg ?_).trans (if_neg (Nat.not_lt.mpr hk))))
      · rw [show takesJobs (taken s src w) = takesJobs s from rfl, hj]
        decide
      · rw [show getJob (taken s src w) (fieldAt b 0 1) = getJob s (fieldAt b 0 1) from rfl, hs, hn]
        decide
    · rw [actAsTop_only]
      rfl
  · show execEvalAt src tag s = _
    exact runCommand_replies h rfl (by decide) ((if_neg hn).trans (if_neg hs))
  · show execEvalAt src tag s = _
    exact runCommand_replies h rfl (by decide) ((if_neg hn).trans ((if_pos hs).trans (stepEvent_passed hu)))
  · refine scheduleAndReply_cases (x := execEvalAt src tag s) h rfl rfl (by decide) ?_
    exact (if_neg hn).trans ((if_pos hs).trans (stepEvent_ahead hu))
  · subst hn
    refine jobCommand_cases (x := execEvalAt src tag s) h rfl rfl (by decide) ?_
    exact if_pos rfl
  · show execCheckpointAt src tag s = _
    exact runCommand_replies h rfl (by decide) ((if_neg hn).trans (if_neg (not_or.mpr ⟨hs, hl⟩)))
  · show execCheckpointAt src tag s = _
    exact runCommand_replies h rfl (by decide) ((if_neg hn).trans ((if_pos hs).trans (stepEvent_passed hu)))
  · refine scheduleAndReply_cases (x := execCheckpointAt src tag s) h rfl rfl (by decide) ?_
    exact (if_neg hn).trans ((if_pos hs).trans (stepEvent_ahead hu))
  · subst hn
    refine jobCommand_cases (x := execCheckpointAt src tag s) h rfl rfl (by decide) ?_
    exact if_pos rfl
  · refine scheduleAndReply_cases (x := execBellSlotSet src tag s) h rfl rfl (by decide) ?_
    exact if_neg hn
  · subst hn
    refine jobCommand_cases (x := execBellSlotSet src tag s) h rfl rfl (by decide) ?_
    exact if_pos rfl
  · show execSliceSet src tag s = _
    exact runCommand_replies h rfl (by decide) (if_pos ⟨hz, ht⟩)
  · show execSliceSet src tag s = _
    exact runCommand_replies h rfl (by decide) ((if_neg fun hc => hz hc.1).trans (if_pos ⟨hz, hm⟩))
  · show execSliceSet src tag s = _
    refine runCommand_replies h rfl (by decide) ((if_neg fun hc => ?_).trans ((if_neg fun hc => ?_).trans (if_pos ?_)))
    · exact absurd (ht hc.1) (Nat.not_le.mpr hc.2)
    · exact absurd (hc.2.symm.trans (hm hc.1)) (by decide)
    · rw [getSuite_taken, hi]
      exact decide_eq_true hd
  · refine ⟨sliceEntered (taken s src w) n b, ?_, ?_, ?_, fun hs hz => ?_, fun hs => ?_, fun m hm => sliceEntered_other hm⟩
    · show execSliceSet src tag s = _
      refine runCommand_replies h rfl (by decide) ((if_neg fun hc => ?_).trans ((if_neg fun hc => ?_).trans ((if_neg ?_).trans rfl)))
      · exact absurd (ht hc.1) (Nat.not_le.mpr hc.2)
      · exact absurd (hc.2.symm.trans (hm hc.1)) (by decide)
      · rw [getSuite_taken]
        cases hi : (getSuite s n).image with
        | none => exact Bool.false_ne_true
        | some im => exact fun hc => absurd (hd im hi) (Nat.not_le.mpr (of_decide_eq_true hc))
    · rw [sliceEntered_only]
      rfl
    · by_cases hs : (getSuite s n).state = .running ∧ (getSuite s n).slice.slice ≠ 0
      · obtain ⟨hgrace, -⟩ := sliceEntered_running (s := taken s src w) (b := b) hs.1 hs.2
        exact hgrace
      · obtain ⟨hgrace, -⟩ := sliceEntered_idle (s := taken s src w) (n := n) (b := b) ((Decidable.not_and_iff_not_or_not.mp hs).imp id Decidable.not_not.mp)
        exact hgrace
    · obtain ⟨-, hslice⟩ := sliceEntered_running (s := taken s src w) (b := b) hs hz
      exact hslice
    · obtain ⟨-, hslice⟩ := sliceEntered_idle (s := taken s src w) (b := b) hs
      exact hslice

end Sys2Proof.Machine
end

section
/-!
PROOFS. Commands of managers: roles, workers, spares, expulsion, takeover, gangs, halts and signatures (rules R314 to R317, R331, R335, R340,
R391, R392, R398, R399, R439, R462).
-/
open Sys2Proof Sys2Proof.Says

namespace Sys2Proof.Machine
section
variable {s u : State} {src : Src} {tag op n m no port step : Nat} {w : Waiting} {b : Bytes} {p : Packet} {x : WorkerInfo}

/-! MANAGER_ROLE. -/

theorem managerRole_refused {take : Nat} (h : s.mgr.role = 1 ∨ s.mgr.role = 3 ∨ holdsRank s = true
    ∨ (take ≠ 1 ∧ s.mgr.role = 2 ∧ (s.mgr.workers ≠ [] ∨ s.mgr.jobs ≠ []))) : managerRole s take = deny s 0x030A s.mgr.role := by
  unfold managerRole
  dsimp only
  refine if_pos ?_
  obtain h | h | h | ⟨ht, hr, hw | hj⟩ := h
  · simp [h]
  · simp [h]
  · simp [h]
  · simp [ht, hr, hw]
  · simp [ht, hr, hj]

theorem managerRole_taken {take : Nat} (hh : holdsRank s = false) (hr : s.mgr.role = 0 ∨ s.mgr.role = 2) (ht : take = 1) :
    managerRole s take = done { s with mgr := { s.mgr with role := 2, depth := 0, moduleId := 0 } } (natLE 0 4) := by
  subst ht
  have href : (s.mgr.role == 1 || s.mgr.role == 3 || holdsRank s
      || ((1 : Nat) != 1 && s.mgr.role == 2 && (!s.mgr.workers.isEmpty || !s.mgr.jobs.isEmpty))) = false := by
    obtain hr | hr := hr <;> simp [hh, hr]
  unfold managerRole
  rw [href]
  rfl

theorem managerRole_given_up {take : Nat} (hh : holdsRank s = false) (hr : s.mgr.role = 2) (ht : take ≠ 1) (hw : s.mgr.workers = [])
    (hj : s.mgr.jobs = []) : managerRole s take = done { s with mgr := { s.mgr with role := 0, moduleId := 0xFFFFFFFF } } (natLE 0xFFFFFFFF 4) := by
  unfold managerRole
  dsimp only
  rw [if_neg (by simp [hh, hr, hw, hj]), if_neg ht, if_pos hr]

theorem managerRole_idle {take : Nat} (hh : holdsRank s = false) (hr : s.mgr.role = 0) (ht : take ≠ 1) :
    managerRole s take = done s (natLE s.mgr.moduleId 4) := by
  unfold managerRole
  dsimp only
  rw [if_neg (by simp [hh, hr]), if_neg ht, if_neg (by rw [hr]; decide)]

/-! WORKER_ATTACH. -/

/-- The state with a worker's HELLO asked of a port. -/
def attachAsked (s : State) (src : Src) (tag port : Nat) : State :=
  sendHello (askNext (openGather s { src := src, tag := tag, waiting := [s.mgr.nextTag], since := s.bell.count }) [0x0000, ringKey src, tag]) port

theorem sendHello_only : sendHello s port = { s with
    ports := (sendHello s port).ports, outbox := (sendHello s port).outbox
    mgr := { s.mgr with nextTag := (s.mgr.nextTag + 1) % 2 ^ 32 } } := by
  unfold sendHello
  dsimp only
  rw [sendMgmt_only s port _]

theorem attachAsked_kept : (attachAsked s src tag port).suites = s.suites ∧ (attachAsked s src tag port).mgr.workers = s.mgr.workers
    ∧ SMap.get [] (attachAsked s src tag port).mgr.asked s.mgr.nextTag = [0, ringKey src, tag]
    ∧ (attachAsked s src tag port).mgr.nextTag = (s.mgr.nextTag + 1) % 2 ^ 32
    ∧ ({ src := src, tag := tag, waiting := [s.mgr.nextTag], since := s.bell.count } : Broadcast) ∈ (attachAsked s src tag port).mgr.broadcasts := by
  unfold attachAsked
  rw [sendHello_only]
  exact ⟨rfl, rfl, SMap.get_set_same .., rfl, List.mem_append_right _ (List.mem_singleton.mpr rfl)⟩

theorem beginAttach_not_manager (h : manages s = false) : beginAttach s src tag b = deny s 0x030A s.mgr.role :=
  if_pos (by rw [h]; decide)

theorem beginAttach_too_deep (h : manages s = true) (hd : 2 < s.mgr.depth) : beginAttach s src tag b = deny s 0x0308 3 :=
  (if_neg (by rw [h]; decide)).trans (if_pos hd)

theorem beginAttach_too_many (h : manages s = true) (hd : s.mgr.depth ≤ 2) (hw : 1024 ≤ s.mgr.workers.length) :
    beginAttach s src tag b = deny s 0x0308 1024 :=
  (if_neg (by rw [h]; decide)).trans ((if_neg (Nat.not_lt.mpr hd)).trans (if_pos hw))

theorem beginAttach_no_port (h : manages s = true) (hd : s.mgr.depth ≤ 2) (hw : s.mgr.workers.length < 1024)
    (hp : portPresent s (fieldAt b 1 1) = false) : beginAttach s src tag b = deny s 0x0405 0 :=
  (if_neg (by rw [h]; decide)).trans ((if_neg (Nat.not_lt.mpr hd)).trans ((if_neg (Nat.not_le.mpr hw)).trans (if_pos (by rw [hp]; rfl))))

theorem beginAttach_asks (h : manages s = true) (hd : s.mgr.depth ≤ 2) (hw : s.mgr.workers.length < 1024)
    (hp : portPresent s (fieldAt b 1 1) = true) (hu : (getPort s (fieldAt b 1 1)).state = portUp ∨ (getPort s (fieldAt b 1 1)).state = portMgmtOnly) :
    beginAttach s src tag b = later (attachAsked s src tag (fieldAt b 1 1)) := by
  refine (if_neg (by rw [h]; decide)).trans ((if_neg (Nat.not_lt.mpr hd)).trans ((if_neg (Nat.not_le.mpr hw)).trans (if_neg ?_)))
  rw [hp]
  obtain hu | hu := hu <;> simp [hu]

/-- A WORKER_ATTACH that is not for the far end of its path begins an attachment of this module's own. -/
theorem execWorkerAttach_begins (h : Runs s src tag 0x0501 w n b)
    (hown : (∀ q, src ≠ .link q) ∨ isRelayed w.pkt = false ∨ fieldAt w.pkt.payload 0 4 = ownId s) :
    exec (.workerAttach src tag) s = .next (answered 0x0501 src tag w.pkt (beginAttach (taken s src w) src tag b)) := by
  show execWorkerAttach src tag s = _
  unfold execWorkerAttach
  refine (runCommand_runs h).trans (congrArg (fun e => Host.Outcome.next (answered 0x0501 src tag w.pkt e)) ?_)
  cases src with
  | ring f => rfl
  | link q => exact if_pos (hown.resolve_left fun hq => hq q rfl)

theorem holdEvent_only (s : State) (f op suite : Nat) (b : Bytes) : holdEvent s f op suite b = { s with rings := (holdEvent s f op suite b).rings } := rfl

theorem setBellState_only (v : BellState) : setBellState s v = { s with rings := (setBellState s v).rings, bell := (setBellState s v).bell } := by
  unfold setBellState
  split
  · rfl
  · exact holdEvent_only ..

theorem startBelfry_only : startBelfry s = { s with rings := (startBelfry s).rings, bell := (startBelfry s).bell } := by
  unfold startBelfry
  split <;> rw [setBellState_only]

/-- The state that has answered an attachment: the capacity table goes out on its port. -/
def attachAnswered (s : State) (port : Nat) : State := sendMgmt s port (capacityBytes s)

theorem attachAnswered_only : attachAnswered s port
    = { s with ports := (attachAnswered s port).ports, outbox := (attachAnswered s port).outbox } := sendMgmt_only ..

/-- The state attached again on a port. -/
def attachedAgain (s : State) (port : Nat) : State :=
  { s with mgr := { s.mgr with parentPort := port }, bell := { s.bell with port := if s.bell.source = 3 then port else s.bell.port } }

/-- The manager's state of a module that becomes a worker. -/
def joinedManager (s : State) (port : Nat) (p : Packet) : Manager :=
  { s.mgr with
      role := if s.mgr.role = 2 then 3 else 1, moduleId := fieldAt p.payload 0 4, parent := fieldAt p.payload 4 4, parentPort := port
      depth := if fieldAt p.payload 4 4 = 0 then 1 else 2 + Config.freeNat 6 (draw s).1 % 2, jobs := [], heard := some s.bell.count }

/-- The state of a module that becomes a worker. -/
def attachedFirst (s : State) (port : Nat) (p : Packet) : State :=
  startBelfry { (if fieldAt p.payload 4 4 = 0 then s else (draw s).2) with mgr := joinedManager s port p }

theorem attachedFirst_only : attachedFirst s port p = { s with
    rings := (attachedFirst s port p).rings, bell := (attachedFirst s port p).bell, free := (attachedFirst s port p).free
    mgr := joinedManager s port p } := by
  unfold attachedFirst
  rw [startBelfry_only]
  split <;> rfl

theorem acceptAttach_again (hd : s.dev = .ready ∨ s.dev = .running) (hr : s.mgr.role = 1 ∨ s.mgr.role = 3) (hp : s.mgr.parent = fieldAt p.payload 4 4) :
    acceptAttach s port p = done (attachAnswered (attachedAgain s port) port) (natLE s.mgr.moduleId 4 ++ identityBytes s) := by
  unfold acceptAttach
  dsimp only
  rw [if_neg (fun hc => hd.elim hc.1 hc.2), if_pos (by obtain hr | hr := hr <;> simp [hr]), if_pos hp]
  rfl

theorem acceptAttach_other_parent (hd : s.dev = .ready ∨ s.dev = .running) (hr : s.mgr.role = 1 ∨ s.mgr.role = 3)
    (hp : s.mgr.parent ≠ fieldAt p.payload 4 4) : acceptAttach s port p = deny s 0x030A s.mgr.role := by
  unfold acceptAttach
  dsimp only
  rw [if_neg (fun hc => hd.elim hc.1 hc.2), if_pos (by obtain hr | hr := hr <;> simp [hr]), if_neg hp]

theorem acceptAttach_has_workers (hd : s.dev = .ready ∨ s.dev = .running) (hr : s.mgr.role = 2) (hw : s.mgr.workers ≠ []) :
    acceptAttach s port p = deny s 0x030A s.mgr.role := by
  unfold acceptAttach
  dsimp only
  rw [if_neg (fun hc => hd.elim hc.1 hc.2), if_neg (by simp [hr]), if_pos ⟨hr, hw⟩]

theorem acceptAttach_free (hd : s.dev = .ready ∨ s.dev = .running) (hr : s.mgr.role = 0 ∨ (s.mgr.role = 2 ∧ s.mgr.workers = [])) :
    acceptAttach s port p = if holdsRank s then denyState s 0xFF
      else done (attachAnswered (attachedFirst s port p) port) (natLE (attachedFirst s port p).mgr.moduleId 4 ++ identityBytes (attachedFirst s port p)) := by
  unfold acceptAttach
  dsimp only
  rw [if_neg (fun hc => hd.elim hc.1 hc.2), if_neg (by obtain hr | ⟨hr, -⟩ := hr <;> simp [hr]), if_neg ?_]
  · rfl
  · rintro ⟨h2, hw⟩
    obtain hr | ⟨-, hr⟩ := hr
    · exact absurd (hr.symm.trans h2) (by decide)
    · exact hw hr

/-! WORKER_DETACH. -/

/-- The state with a worker's detach sent, and the worker forgotten. -/
def workerForgotten (s : State) (m port : Nat) : State := forgetWorker (sendCommand s port m 0x0502 0xFF 8 (natLE m 4)) m port

/-- The state with a worker's detach sent, its answer awaited. -/
def detachAsked (s : State) (src : Src) (tag m port : Nat) : State :=
  openGather (sendCommand (askNext s [0x0502, ringKey src, tag, m, port]) port m 0x0502 0xFF 8 (natLE m 4))
    { src := src, tag := tag, waiting := [s.mgr.nextTag], since := s.bell.count }

theorem workerForgotten_kept : (workerForgotten s m port).suites = s.suites
    ∧ (workerForgotten s m port).mgr.workers = s.mgr.workers.filter (fun y => y.module != m)
    ∧ (getRing (workerForgotten s m port) (16 + port)).session = false := by
  refine ⟨?_, ?_, ?_⟩
  · unfold workerForgotten forgetWorker
    rw [sendCommand_only]
    rfl
  · unfold workerForgotten forgetWorker
    rw [sendCommand_only]
    rfl
  · exact (congrArg Ring.session (getRing_updRing_same ..) :)

theorem detachAsked_kept : (detachAsked s src tag m port).mgr.workers = s.mgr.workers ∧ (detachAsked s src tag m port).suites = s.suites
    ∧ ({ src := src, tag := tag, waiting := [s.mgr.nextTag], since := s.bell.count } : Broadcast) ∈ (detachAsked s src tag m port).mgr.broadcasts := by
  unfold detachAsked
  rw [sendCommand_only]
  exact ⟨rfl, rfl, List.mem_append_right _ (List.mem_singleton.mpr rfl)⟩

theorem detachEffect_not_manager (h : manages s = false) : detachEffect s src tag m = deny s 0x030A s.mgr.role :=
  if_pos (by rw [h]; decide)

theorem detachEffect_unknown (h : manages s = true) (hw : ∀ x, x ∈ s.mgr.workers → x.module ≠ m) : detachEffect s src tag m = deny s 0x030F 0 := by
  have hfind : s.mgr.workers.find? (fun w => w.module == m) = none := List.find?_eq_none.mpr fun x hx => by simp [hw x hx]
  refine (if_neg (by rw [h]; decide)).trans ?_
  rw [hfind]

theorem detachEffect_known (h : manages s = true) (hw : s.mgr.workers.find? (fun w => w.module == m) = some x) : detachEffect s src tag m
    = if s.mgr.jobs.any (fun q => q.2.ranks.any (fun r => r.2.1 == m)) then deny s 0x030A s.mgr.role
      else if s.mgr.role = 2 ∨ x.lost = true then done (workerForgotten s m x.port) [] else later (detachAsked s src tag m x.port) := by
  refine (if_neg (by rw [h]; decide)).trans ?_
  rw [hw]
  rfl

/-- The state of a worker that has left its manager. -/
def detachedFrom (s : State) : State := updRing (leaveManager s) (16 + s.mgr.parentPort) (fun r => { r with session := false })

theorem leaveManager_mgr : (leaveManager s).suites = s.suites ∧ (leaveManager s).mgr = { s.mgr with
    role := if s.mgr.role = 3 then 2 else 0, depth := 0, moduleId := if s.mgr.role = 3 then 0 else 0xFFFFFFFF, parent := 0xFFFFFFFF, parentPort := 0
    heard := none } := by
  unfold leaveManager
  rw [startBelfry_only]
  exact ⟨rfl, rfl⟩

/-- A WORKER_DETACH of a worker by its own manager. -/
theorem execWorkerDetach_own (h : Runs s src tag 0x0502 w n b) (hr : s.mgr.role = 1 ∨ s.mgr.role = 3) (hs : src = .link s.mgr.parentPort)
    (hm : fieldAt b 0 4 = ownId s) : exec (.workerDetach src tag) s = .next (answered 0x0502 src tag w.pkt
      (if holdsRank s then deny (taken s src w) 0x030A s.mgr.role else done (detachedFrom (taken s src w)) [])) := by
  show execWorkerDetach src tag s = _
  unfold execWorkerDetach
  refine (runCommand_runs h).trans ?_
  exact congrArg (fun e => Host.Outcome.next (answered 0x0502 src tag w.pkt e)) (if_pos ⟨hr, hs, hm⟩)

/-- A WORKER_DETACH of another module's. -/
theorem execWorkerDetach_other (h : Runs s src tag 0x0502 w n b) (hr : ¬((s.mgr.role = 1 ∨ s.mgr.role = 3) ∧ src = .link s.mgr.parentPort
    ∧ fieldAt b 0 4 = ownId s)) : exec (.workerDetach src tag) s = .next (answered 0x0502 src tag w.pkt
      (detachEffect (taken s src w) src tag (fieldAt b 0 4))) := by
  show execWorkerDetach src tag s = _
  unfold execWorkerDetach
  refine (runCommand_runs h).trans ?_
  exact congrArg (fun e => Host.Outcome.next (answered 0x0502 src tag w.pkt e)) (if_neg hr)

/-! SPARE_ASSIGN. -/

/-- The spares of a job with those of a SPARE_ASSIGN. -/
def sparesGiven (j : Job) (b : Bytes) : List (Nat × Nat) :=
  ((if bit (fieldAt b 1 1) 0 then [] else j.spares) ++ (List.range (fieldAt b 2 2)).map (memberAt b)).eraseDups

theorem spareEffect_known (hj : takesJobs s = true) (hn : SMap.has s.mgr.jobs (fieldAt b 0 1) = true)
    (hk : ∀ i, i < fieldAt b 2 2 → knownModule s (fieldAt b (8 + 8 * i) 4) = true) : spareEffect s src p b
      = if 1024 < (sparesGiven (getJob s (fieldAt b 0 1)) b).length then deny s 0x0308 1024
        else later (settleGather (toMembers
          (setJob (actAsTop s) (fieldAt b 0 1) { getJob s (fieldAt b 0 1) with spares := sparesGiven (getJob s (fieldAt b 0 1)) b })
          { src := src, tag := p.tag, since := s.bell.count, head := natLE (sparesGiven (getJob s (fieldAt b 0 1)) b).length 4 }
          (sparesGiven (getJob s (fieldAt b 0 1)) b) 0x0503 8 b
          (fun st _ => (st, some (0, 0, natLE (sparesGiven (getJob s (fieldAt b 0 1)) b).length 4))))) := by
  have hall : ((List.range (fieldAt b 2 2)).map (memberAt b)).all (fun m => knownModule s m.1) = true := by
    rw [List.all_eq_true]
    intro m hm
    obtain ⟨i, hi, rfl⟩ := List.mem_map.mp hm
    exact hk i (List.mem_range.mp hi)
  refine (if_neg (by rw [hj]; decide)).trans ((if_neg ?_).trans rfl)
  rw [hn, hall]
  decide

theorem spareEffect_unknown (hj : takesJobs s = true) (hn : SMap.has s.mgr.jobs (fieldAt b 0 1) = false) :
    spareEffect s src p b = deny s 0x030F 0 :=
  (if_neg (by rw [hj]; decide)).trans (if_pos (by rw [hn]; rfl))

theorem spareEffect_not_top (hj : takesJobs s = false) : spareEffect s src p b = deny s 0x030A s.mgr.role := if_pos (by rw [hj]; decide)

/-! EXPEL. -/

theorem expelEffect_not_top (hj : takesJobs s = false) : expelEffect s src p b = deny s 0x030A s.mgr.role := if_pos (by rw [hj]; decide)

theorem expelEffect_unknown (hj : takesJobs s = true) (h : SMap.has s.mgr.jobs (fieldAt b 0 1) = false
    ∨ ∃ r, r ∈ expelledRanks b ∧ SMap.has (getJob s (fieldAt b 0 1)).ranks r = false) : expelEffect s src p b = deny s 0x030F 0 := by
  refine (if_neg (by rw [hj]; decide)).trans (if_pos ?_)
  obtain h | ⟨r, hr, h⟩ := h
  · rw [h]
    rfl
  · have hall : (expelledRanks b).all (SMap.has (getJob s (fieldAt b 0 1)).ranks) = false := List.all_eq_false.mpr ⟨r, hr, by rw [h]; decide⟩
    rw [hall]
    exact Bool.or_true _

/-- The gather that an expulsion opens. -/
def expelGather (s : State) (src : Src) (tag : Nat) (b : Bytes) : Broadcast :=
  let j := getJob s (fieldAt b 0 1)
  let away := (j.ranks.filter (fun r => r.2.1 != ownId s)).length
  { src := src, tag := tag, waiting := nextTags (haltInPlace s (fieldAt b 0 1) (fieldAt b 4 4)) away, okCount := j.ranks.length - away
    since := s.bell.count }

/-- The state with the ranks of an expulsion given to spares. -/
def expelledState (s : State) (b : Bytes) : State :=
  (expelledRanks b).foldl (fun st r => assignSpare st (fieldAt b 0 1) r (fieldAt b 4 4) 0 (replicaOf s (getJob s (fieldAt b 0 1)) (expelledRanks b) r))
    (sendExpels (haltInPlace s (fieldAt b 0 1) (fieldAt b 4 4)) (fieldAt b 0 1) (fieldAt b 4 4) (expelledRanks b))

theorem expelEffect_known (hj : takesJobs s = true) (hn : SMap.has s.mgr.jobs (fieldAt b 0 1) = true)
    (hr : ∀ r, r ∈ expelledRanks b → SMap.has (getJob s (fieldAt b 0 1)).ranks r = true) : expelEffect s src p b
      = if !(getJob s (fieldAt b 0 1)).started then denyState s 0xFF
        else if (getJob s (fieldAt b 0 1)).spares.length < (expelledRanks b).length then
          deny (stopJob s (fieldAt b 0 1) (fieldAt b 4 4 + 1) 0x0600) 0x0308 (min (getJob s (fieldAt b 0 1)).spares.length 0xFFFF)
        else later (settleGather (expelledState s b, expelGather s src p.tag b)) := by
  have hall : (expelledRanks b).all (SMap.has (getJob s (fieldAt b 0 1)).ranks) = true := List.all_eq_true.mpr hr
  refine (if_neg (by rw [hj]; decide)).trans ((if_neg ?_).trans rfl)
  rw [hn, hall]
  decide

/-! GANG_AT_BELL. -/

/-- The gather that a gang command for a job opens. -/
def gangGather (s : State) (src : Src) (tag : Nat) (b : Bytes) : Broadcast :=
  { src := src, tag := tag, since := max (fieldAt b 8 8) s.bell.count
    head := if ((getJob s (fieldAt b 0 1)).ranks.map (fun r => r.2)).any (fun r => r.1 == ownId s) then
        eventReply { bell := max (fieldAt b 8 8) s.bell.count, id := s.bell.nextEvent }
      else [] }

/-! HALT_AT_BELL. -/

/-- The state of a HALT_AT_BELL that is taken. -/
def haltTaken (s : State) (src : Src) (tag n : Nat) (b : Bytes) : State :=
  setNote (nameHalt s n (fieldAt b 24 8) (fieldAt b 16 4)) src tag [(getSuite s n).counts.absorbed]

theorem nameHalt_first {h : Nat} (hn : haltNamed (getSuite s n).job = false) : (getSuite (nameHalt s n h step) n).job.haltBell = some h
    ∧ (getSuite (nameHalt s n h step) n).job.haltStep = step := by
  unfold nameHalt
  dsimp only
  rw [if_neg (by rw [hn]; decide)]
  have hsuite := getSuite_updSuite_same s n (fun x => { x with job := if haltNamed x.job then { x.job with haltStep := min x.job.haltStep step }
    else { x.job with haltBell := some h, haltStep := step, haltEvent := s.bell.nextEvent } })
  rw [if_neg (by rw [hn]; decide)] at hsuite
  exact ⟨congrArg (fun x : Suite => x.job.haltBell) hsuite, congrArg (fun x : Suite => x.job.haltStep) hsuite⟩

theorem nameHalt_again {h : Nat} (hn : haltNamed (getSuite s n).job = true) :
    (getSuite (nameHalt s n h step) n).job.haltBell = (getSuite s n).job.haltBell
    ∧ (getSuite (nameHalt s n h step) n).job.haltStep = min (getSuite s n).job.haltStep step := by
  unfold nameHalt
  dsimp only
  rw [if_pos hn, getSuite_updSuite_same, if_pos hn]
  exact ⟨rfl, rfl⟩

theorem nameHalt_only {h : Nat} : nameHalt s n h step = { s with suites := (nameHalt s n h step).suites, bell := (nameHalt s n h step).bell } := by
  unfold nameHalt
  dsimp only
  split <;> rfl

end

/-- Settles O51. -/
theorem managerCommandsHaveTheirEffect : Obligations.ManagerCommandsHaveTheirEffect := by
  refine fun s src tag n w b => ⟨fun h => ⟨fun hr => ?_, fun hh => ?_, fun hh hr ht => ?_, fun hh hr ht => ⟨fun hw => ?_, fun hw hj => ?_⟩,
      fun hh hr ht => ?_⟩,
    fun h hown => ⟨fun hm => ?_, fun hm hd => ?_, fun hm hd hl => ?_, fun hm hd hl => ⟨fun hp => ?_, fun hp hu => ?_⟩⟩,
    fun p hsrc h hrel hown hdev => ⟨fun hr hp => ?_, fun hr hp => ?_, fun hr hw => ?_, fun hr hh => ?_, fun hr hh => ?_⟩,
    fun h hr => ⟨fun h0 => ?_, fun h2 hw => ?_, fun x h2 hw hj => ?_, fun x h2 hw hj => ?_⟩,
    fun h hr hsrc hown => ⟨fun hh => ?_, fun hh => ?_⟩,
    fun h hr hown => ⟨fun hw => ?_, fun x hw hl hj => ?_⟩,
    fun h => ⟨fun hn => ?_, fun hn hj => ?_, fun hn hj hk => ?_, fun l hn hj hk hm hl => ⟨fun hlen => ?_, fun hlen => ?_⟩⟩,
    fun h => ⟨fun hn hj => ?_, fun hn hj hk => ?_, fun hn hj hk => ?_, fun hn hj hk hr hs => ?_, fun hn hj hk hr hs => ⟨fun hlen => ?_, fun hlen => ?_⟩,
      fun r hn hr hmem => ?_, fun hn hr => ?_⟩,
    fun h => ⟨fun hl => ?_, fun hl => ⟨fun hs => ?_, fun hs hr ht => ⟨fun hready => ?_, fun hready => ?_⟩⟩⟩,
    fun h => ⟨fun hn hr => ?_, fun hn hr hp => ?_, fun hn hr hp => ?_, fun hn hj => ?_, fun hn hj hk => ?_, fun hn hj hk => ?_⟩,
    fun h => ⟨fun hl => ?_, fun hl => ⟨fun hr => ?_, fun hr hs => ?_⟩⟩,
    fun h => ⟨fun hb => ?_, fun hb h2 h3 => ?_, fun hb hr hw => ?_, fun hb hr hw => ?_⟩⟩
  · show execManagerRole src tag s = _
    exact runCommand_replies h rfl (by decide) (managerRole_refused (hr.elim .inl fun hr => .inr (.inl hr)))
  · show execManagerRole src tag s = _
    exact runCommand_replies h rfl (by decide) (managerRole_refused (.inr (.inr (.inl hh))))
  · show execManagerRole src tag s = _
    exact runCommand_replies h rfl (by decide) (managerRole_taken (s := taken s src w) hh hr ht)
  · show execManagerRole src tag s = _
    refine runCommand_replies h rfl (by decide) ((managerRole_refused (s := taken s src w) (.inr (.inr (.inr ⟨ht, hr, hw⟩)))).trans ?_)
    rw [show (taken s src w).mgr.role = 2 from hr]
    rfl
  · show execManagerRole src tag s = _
    exact runCommand_replies h rfl (by decide) (managerRole_given_up (s := taken s src w) hh hr ht hw hj)
  · show execManagerRole src tag s = _
    exact runCommand_replies h rfl (by decide) (managerRole_idle (s := taken s src w) hh hr ht)
  · rw [execWorkerAttach_begins h hown, beginAttach_not_manager (s := taken s src w) hm, deny, answered_loud (Runs.loud h rfl (by decide))]
    rfl
  · rw [execWorkerAttach_begins h hown, beginAttach_too_deep (s := taken s src w) hm hd, deny, answered_loud (Runs.loud h rfl (by decide))]
  · rw [execWorkerAttach_begins h hown, beginAttach_too_many (s := taken s src w) hm hd hl, deny, answered_loud (Runs.loud h rfl (by decide))]
  · rw [execWorkerAttach_begins h hown, beginAttach_no_port (s := taken s src w) hm hd hl hp, deny, answered_loud (Runs.loud h rfl (by decide))]
  · refine ⟨attachAsked (taken s src w) src tag (fieldAt b 1 1), ?_, attachAsked_kept (s := taken s src w)⟩
    rw [execWorkerAttach_begins h hown, beginAttach_asks (s := taken s src w) hm hd hl hp hu, later, answered_none]
  · subst hsrc
    show execWorkerAttach (.link p) tag s = _
    exact runCommand_replies h rfl (by decide) ((if_neg (by rw [hrel]; exact not_or.mpr ⟨by decide, hown⟩)).trans
      (acceptAttach_other_parent (s := taken s (.link p) w) hdev hr hp))
  · subst hsrc
    refine ⟨attachAnswered (attachedAgain (taken s (.link p) w) p) p, ?_, ?_, ?_⟩
    · show execWorkerAttach (.link p) tag s = _
      exact runCommand_replies h rfl (by decide) ((if_neg (by rw [hrel]; exact not_or.mpr ⟨by decide, hown⟩)).trans
        (acceptAttach_again (s := taken s (.link p) w) hdev hr hp))
    · rw [attachAnswered_only]
      rfl
    · rw [attachAnswered_only]
      rfl
  · subst hsrc
    show execWorkerAttach (.link p) tag s = _
    exact runCommand_replies h rfl (by decide) ((if_neg (by rw [hrel]; exact not_or.mpr ⟨by decide, hown⟩)).trans
      (acceptAttach_has_workers (s := taken s (.link p) w) hdev hr hw))
  · subst hsrc
    show execWorkerAttach (.link p) tag s = _
    exact runCommand_replies h rfl (by decide) ((if_neg (by rw [hrel]; exact not_or.mpr ⟨by decide, hown⟩)).trans
      ((acceptAttach_free (s := taken s (.link p) w) hdev hr).trans (if_pos hh)))
  · subst hsrc
    have honly := attachedFirst_only (s := taken s (.link p) w) (port := p) (p := w.pkt)
    refine ⟨attachAnswered (attachedFirst (taken s (.link p) w) p w.pkt) p, ?_, ?_⟩
    · show execWorkerAttach (.link p) tag s = _
      refine runCommand_replies h rfl (by decide) ((if_neg (by rw [hrel]; exact not_or.mpr ⟨by decide, hown⟩)).trans
        ((acceptAttach_free (s := taken s (.link p) w) hdev hr).trans ((if_neg (by rw [show holdsRank (taken s (.link p) w) = holdsRank s from rfl, hh]; decide)).trans
        ?_)))
      rw [show (attachedFirst (taken s (.link p) w) p w.pkt).mgr.moduleId = fieldAt w.pkt.payload 0 4 by rw [honly]; rfl,
        show identityBytes (attachedFirst (taken s (.link p) w) p w.pkt) = identityBytes s by rw [honly]; rfl]
      rfl
    · rw [attachAnswered_only, honly]
      exact ⟨rfl, rfl, rfl, rfl, rfl, rfl⟩
  · refine (execWorkerDetach_other h fun hc => ?_).trans ?_
    · rw [h0] at hc
      exact absurd hc.1 (by decide)
    · rw [detachEffect_not_manager (s := taken s src w) (by rw [show manages (taken s src w) = manages s from rfl, manages, h0]; decide),
        deny, answered_loud (Runs.loud h rfl (by decide)), show (taken s src w).mgr.role = 0 from h0]
  · have hm : manages (taken s src w) = true := by
      rw [show manages (taken s src w) = manages s from rfl, manages, h2]
      decide
    refine (execWorkerDetach_other h fun hc => ?_).trans ?_
    · rw [h2] at hc
      exact absurd hc.1 (by decide)
    · rw [detachEffect_unknown (s := taken s src w) hm hw, deny, answered_loud (Runs.loud h rfl (by decide))]
  · have hm : manages (taken s src w) = true := by
      rw [show manages (taken s src w) = manages s from rfl, manages, h2]
      decide
    obtain ⟨hsuites, hworkers, hring⟩ := workerForgotten_kept (s := taken s src w) (m := fieldAt b 0 4) (port := x.port)
    refine ⟨workerForgotten (taken s src w) (fieldAt b 0 4) x.port, (execWorkerDetach_other h fun hc => ?_).trans ?_, hworkers, hring, hsuites⟩
    · rw [h2] at hc
      exact absurd hc.1 (by decide)
    · rw [detachEffect_known (s := taken s src w) hm hw, if_neg (by rw [show (taken s src w).mgr.jobs = s.mgr.jobs from rfl, hj]; decide), if_pos (.inl h2),
        done, answered_loud (Runs.loud h rfl (by decide))]
  · have hm : manages (taken s src w) = true := by
      rw [show manages (taken s src w) = manages s from rfl, manages, h2]
      decide
    refine (execWorkerDetach_other h fun hc => ?_).trans ?_
    · rw [h2] at hc
      exact absurd hc.1 (by decide)
    · rw [detachEffect_known (s := taken s src w) hm hw, show (taken s src w).mgr.jobs = s.mgr.jobs from rfl, if_pos hj, deny, answered_loud (Runs.loud h rfl (by decide)),
        show (taken s src w).mgr.role = 2 from h2]
  · rw [execWorkerDetach_own h hr hsrc hown, if_pos hh, deny, answered_loud (Runs.loud h rfl (by decide))]
  · obtain ⟨hsuites, hmgr⟩ := leaveManager_mgr (s := taken s src w)
    have hstate : (detachedFrom (taken s src w)).mgr = (leaveManager (taken s src w)).mgr := rfl
    refine ⟨detachedFrom (taken s src w), ?_, ?_, ?_, ?_, (congrArg Ring.session (getRing_updRing_same ..) :), hsuites⟩
    · rw [execWorkerDetach_own h hr hsrc hown, if_neg (by rw [hh]; decide), done, answered_loud (Runs.loud h rfl (by decide))]
    · exact congrArg Manager.role (hstate.trans hmgr)
    · exact congrArg Manager.parent (hstate.trans hmgr)
    · exact congrArg Manager.heard (hstate.trans hmgr)
  · have hm : manages (taken s src w) = true := by
      rw [show manages (taken s src w) = manages s from rfl, manages, hr]
      decide
    refine (execWorkerDetach_other h fun hc => hown.elim (fun h => h hc.2.1) fun h => h hc.2.2).trans ?_
    rw [detachEffect_unknown (s := taken s src w) hm hw, deny, answered_loud (Runs.loud h rfl (by decide))]
  · have hm : manages (taken s src w) = true := by
      rw [show manages (taken s src w) = manages s from rfl, manages, hr]
      decide
    refine ⟨detachAsked (taken s src w) src tag (fieldAt b 0 4) x.port, ?_, detachAsked_kept (s := taken s src w)⟩
    refine (execWorkerDetach_other h fun hc => hown.elim (fun h => h hc.2.1) fun h => h hc.2.2).trans ?_
    rw [detachEffect_known (s := taken s src w) hm hw, if_neg (by rw [show (taken s src w).mgr.jobs = s.mgr.jobs from rfl, hj]; decide),
      if_neg (by rw [show (taken s src w).mgr.role = 3 from hr, hl]; decide), later, answered_none]
  · show execSpareAssign src tag s = _
    exact runCommand_replies h rfl (by decide) (if_pos hn)
  · show execSpareAssign src tag s = _
    exact runCommand_replies h rfl (by decide) ((if_neg (not_not_intro hn)).trans (spareEffect_not_top (s := taken s src w) hj))
  · show execSpareAssign src tag s = _
    exact runCommand_replies h rfl (by decide) ((if_neg (not_not_intro hn)).trans (spareEffect_unknown (s := taken s src w) hj hk))
  · show execSpareAssign src tag s = _
    subst hl
    exact runCommand_replies h rfl (by decide) ((if_neg (not_not_intro hn)).trans
      ((spareEffect_known (s := taken s src w) hj hk hm).trans (if_pos hlen)))
  · show execSpareAssign src tag s = _
    subst hl
    refine runCommand_goes_on h ((if_neg (not_not_intro hn)).trans
      ((spareEffect_known (s := taken s src w) hj hk hm).trans ((if_neg (Nat.not_lt.mpr hlen)).trans ?_)))
    rw [runs_tag h]
    rfl
  · show execExpel src tag s = _
    exact runCommand_replies h rfl (by decide) ((if_pos hn).trans (expelEffect_not_top (s := taken s src w) hj))
  · show execExpel src tag s = _
    exact runCommand_replies h rfl (by decide) ((if_pos hn).trans (expelEffect_unknown (s := taken s src w) hj (.inl hk)))
  · show execExpel src tag s = _
    exact runCommand_replies h rfl (by decide) ((if_pos hn).trans (expelEffect_unknown (s := taken s src w) hj (.inr hk)))
  · show execExpel src tag s = _
    exact runCommand_replies h rfl (by decide) ((if_pos hn).trans ((expelEffect_known (s := taken s src w) hj hk hr).trans
      (if_pos (by rw [show getJob (taken s src w) (fieldAt b 0 1) = getJob s (fieldAt b 0 1) from rfl, hs]; rfl))))
  · show execExpel src tag s = _
    exact runCommand_replies h rfl (by decide) ((if_pos hn).trans ((expelEffect_known (s := taken s src w) hj hk hr).trans
      ((if_neg (by rw [show getJob (taken s src w) (fieldAt b 0 1) = getJob s (fieldAt b 0 1) from rfl, hs]; decide)).trans (if_pos hlen))))
  · refine ⟨expelGather (taken s src w) src tag b, expelledState (taken s src w) b, ?_, rfl, rfl, rfl⟩
    show execExpel src tag s = _
    refine runCommand_goes_on h ((if_pos hn).trans ((expelEffect_known (s := taken s src w) hj hk hr).trans
      ((if_neg (by rw [show getJob (taken s src w) (fieldAt b 0 1) = getJob s (fieldAt b 0 1) from rfl, hs]; decide)).trans
        ((if_neg (Nat.not_lt.mpr hlen)).trans ?_))))
    rw [runs_tag h]
    rfl
  · show execExpel src tag s = _
    refine runCommand_replies h rfl (by decide) ((if_neg hn).trans ?_)
    rw [getSuite_taken, hr]
    dsimp only
    rw [if_pos (List.contains_iff_mem.mpr hmem)]
    rfl
  · show execExpel src tag s = _
    refine runCommand_replies h rfl (by decide) ((if_neg hn).trans ?_)
    rw [getSuite_taken]
    cases hrank : (getSuite s n).job.rank with
    | none => rfl
    | some r =>
      dsimp only
      rw [if_neg fun hc => hr r hrank (List.contains_iff_mem.mp hc)]
      rfl
  · show execTakeover src tag s = _
    exact runCommand_replies h rfl (by decide) (if_pos hl)
  · show execTakeover src tag s = _
    refine runCommand_replies h rfl (by decide) ((if_neg (by rw [getSuite_taken, hl]; decide)).trans (if_pos ?_))
    rw [getSuite_taken, Option.isSome_iff_ne_none, Option.isSome_iff_ne_none]
    exact hs
  · show execTakeover src tag s = _
    refine runCommand_replies h rfl (by decide) ((if_neg (by rw [getSuite_taken, hl]; decide)).trans ((if_neg ?_).trans (if_pos ?_)))
    · rw [getSuite_taken, hs, hr, ht]
      decide
    · rw [getSuite_taken, hready]
      rfl
  · refine ⟨setNote (beginTakeover (taken s src w) n (bytesAt b 0 36)) src tag [], ?_, rfl, ?_⟩
    · show execTakeover src tag s = _
      refine runCommand_goes_on h ((if_neg (by rw [getSuite_taken, hl]; decide)).trans ((if_neg ?_).trans ((if_neg ?_).trans rfl)))
      · rw [getSuite_taken, hs, hr, ht]
        decide
      · rw [getSuite_taken, hready]
        decide
    · exact congrArg (fun x : Suite => x.job.takeover) (getSuite_updSuite_same (taken s src w) n
        (fun x => { x with job := { x.job with takeover := some (bytesAt b 0 36) } }))
  · show execGangAtBell src tag s = _
    exact runCommand_replies h rfl (by decide) ((if_neg hn).trans (if_pos (by rw [getSuite_taken, hr]; rfl)))
  · show execGangAtBell src tag s = _
    refine runCommand_replies h rfl (by decide) ((if_neg hn).trans ((if_neg (by rw [getSuite_taken, Option.isNone_iff_eq_none]; exact hr)).trans ?_))
    rw [show gangEvent (taken s src w) n (fieldAt b 1 1) (fieldAt b 8 8) = none from if_pos hp]
    rfl
  · refine ⟨setNote (eventPending (taken s src w) { bell := fieldAt b 8 8, opcode := 0x0506, suite := n, arg := fieldAt b 1 1 }) src tag
      [fieldAt b 1 1, max (fieldAt b 8 8) s.bell.count, s.bell.nextEvent], ?_, rfl, rfl⟩
    show execGangAtBell src tag s = _
    refine runCommand_goes_on h ((if_neg hn).trans ((if_neg (by rw [getSuite_taken, Option.isNone_iff_eq_none]; exact hr)).trans ?_))
    rw [show gangEvent (taken s src w) n (fieldAt b 1 1) (fieldAt b 8 8) = some (eventPending (taken s src w)
        { bell := fieldAt b 8 8, opcode := 0x0506, suite := n, arg := fieldAt b 1 1 },
      { bell := max (fieldAt b 8 8) s.bell.count, id := s.bell.nextEvent, opcode := 0x0506, suite := n, arg := fieldAt b 1 1 })
      from if_neg (Nat.not_le.mpr hp)]
    rfl
  · show execGangAtBell src tag s = _
    exact runCommand_replies h rfl (by decide) ((if_pos hn).trans (if_pos (by rw [show takesJobs (taken s src w) = takesJobs s from rfl, hj]; rfl)))
  · show execGangAtBell src tag s = _
    exact runCommand_replies h rfl (by decide) ((if_pos hn).trans ((if_neg (by rw [show takesJobs (taken s src w) = takesJobs s from rfl, hj]; decide)).trans
      (if_pos (by rw [show (taken s src w).mgr.jobs = s.mgr.jobs from rfl, hk]; rfl))))
  · refine ⟨gangGather s src tag b, rfl, rfl, rfl, rfl, ?_⟩
    show execGangAtBell src tag s = _
    refine runCommand_goes_on h ((if_pos hn).trans ((if_neg (by rw [show takesJobs (taken s src w) = takesJobs s from rfl, hj]; decide)).trans
      ((if_neg (by rw [show (taken s src w).mgr.jobs = s.mgr.jobs from rfl, hk]; decide)).trans ?_)))
    rw [runs_tag h]
    rfl
  · show execHaltAtBell src tag s = _
    exact runCommand_replies h rfl (by decide) (if_pos hl)
  · show execHaltAtBell src tag s = _
    exact runCommand_replies h rfl (by decide) ((if_neg (by rw [getSuite_taken, hl]; decide)).trans
      (if_pos (.inl (by rw [getSuite_taken, hr]; rfl))))
  · refine ⟨haltTaken (taken s src w) src tag n b, ?_, ?_, fun hn => ?_, fun hn => ?_⟩
    · show execHaltAtBell src tag s = _
      refine runCommand_goes_on h ((if_neg (by rw [getSuite_taken, hl]; decide)).trans ((if_neg ?_).trans rfl))
      rw [getSuite_taken, Option.isNone_iff_eq_none]
      exact not_or.mpr ⟨hr, fun hc => hs.elim hc.1 fun hs => hs.elim hc.2.1 hc.2.2⟩
    · unfold haltTaken
      rw [nameHalt_only]
      rfl
    · exact nameHalt_first (s := taken s src w) hn
    · exact nameHalt_again (s := taken s src w) hn
  · show execSignatureCollect src tag s = _
    exact runCommand_replies h rfl (by decide) (if_pos hb)
  · show execSignatureCollect src tag s = _
    exact runCommand_replies h rfl (by decide) ((if_neg (by rw [hb]; decide)).trans (if_pos ⟨h2, h3⟩))
  · have hnone : s.mgr.workers.filter (fun x => !x.lost) = [] := List.filter_eq_nil_iff.mpr fun x hx => by simp [hw x hx]
    show execSignatureCollect src tag s = _
    exact runCommand_replies h rfl (by decide) ((if_neg (by rw [hb]; decide)).trans ((if_neg fun hc => hr.elim hc.1 hc.2).trans (if_pos hnone)))
  · have hsome : s.mgr.workers.filter (fun x => !x.lost) ≠ [] := by
      obtain ⟨x, hx, hl⟩ := hw
      exact List.ne_nil_of_mem (List.mem_filter.mpr ⟨hx, by rw [hl]; rfl⟩)
    refine ⟨{ src := src, tag := tag, waiting := nextTags (sendSignatures (taken s src w) (fieldAt b 0 8)) (s.mgr.workers.filter (fun x => !x.lost)).length
              since := s.bell.count }, ?_, rfl, rfl, ?_⟩
    · show execSignatureCollect src tag s = _
      refine runCommand_goes_on h ((if_neg (by rw [hb]; decide)).trans ((if_neg fun hc => hr.elim hc.1 hc.2).trans ((if_neg hsome).trans ?_)))
      rw [runs_tag h]
      rfl
    · unfold nextTags
      rw [List.length_map, List.length_range]

end Sys2Proof.Machine
end

section
/-!
PROOFS. Commands between managers and ranks: POISON_NOTICE, VOTE_RECORD, VERDICT, JOB_MAP and RECORDS (rules R321, R327, R329, R330, R334,
R382, R392, R398).
-/
open Sys2Proof Sys2Proof.Says

namespace Sys2Proof.Machine
section
variable {s u : State} {src : Src} {tag op n m st d : Nat} {w : Waiting} {b f : Bytes} {eff : State → Src → Packet → Nat → Bytes → Effect}

/-- Whether a command goes unanswered is said by its opcode. -/
theorem Runs.silent (h : Runs s src tag op w n b) (hop : opFlag op 3 = true) : isSilent w.pkt (bodyOf w.pkt) = true := by
  simp [isSilent, Begins.opcode h.1, hop]

/-- A command that runs and is not answered leaves its queue, counted where it is refused. -/
theorem runCommand_drops (h : Runs s src tag op w n b) (hop : opFlag op 3 = true)
    (he : eff (taken s src w) src w.pkt n b = (u, some (st, d, f))) : runCommand op src tag s eff = .next (dropSilent u src tag (decide (st ≠ 0))) := by
  obtain ⟨-, hp, -⟩ := id h
  rw [runCommand_runs h, he, answered_silent (Runs.silent h hop) hp]

theorem manages_top (h : s.mgr.role = 2) : manages s = true ∧ isTop s = true := by simp [manages, isTop, h]

theorem manages_below (h : s.mgr.role = 3) : manages s = true ∧ isTop s = false := by simp [manages, isTop, h]

/-- The three answers of a command that goes up to the top manager: refused elsewhere, acted on there, and passed on below. -/
theorem upward_cases {x : Host.Outcome State Fault Refusal} {fin : State → Nat → State} {acted passed : State}
    (hx : ∀ u st, (if !(manages (taken s src w)) then deny (taken s src w) 0x030A (taken s src w).mgr.role
      else if isTop (taken s src w) then done acted [] else done passed []) = (u, some (st, (if st = 0 then 0 else s.mgr.role), [])) → x = .next (fin u st)) :
    (manages s = false → x = .next (fin (taken s src w) 0x030A)) ∧ (s.mgr.role = 2 → x = .next (fin acted 0)) ∧ (s.mgr.role = 3 → x = .next (fin passed 0)) := by
  refine ⟨fun h => hx _ _ (if_pos (by rw [show manages (taken s src w) = manages s from rfl, h]; rfl)), fun h => hx _ _ ?_, fun h => hx _ _ ?_⟩
  · obtain ⟨hm, ht⟩ := manages_top (s := taken s src w) h
    rw [hm, ht]
    rfl
  · obtain ⟨hm, ht⟩ := manages_below (s := taken s src w) h
    rw [hm, ht]
    rfl

/-! VERDICT. -/

theorem getSuite_takeVerdict {v : Nat} : getSuite (takeVerdict s n m v) n = { getSuite s n with
    checkpoints := if v = 0 then (getSuite s n).checkpoints.map (fun c => if c.step = m then { c with vouched := true } else c)
      else (getSuite s n).checkpoints
    job := (getSuite (takeVerdict s n m v) n).job } := by
  unfold takeVerdict
  rw [getSuite_updSuite_same]

theorem takeVerdict_job {v : Nat} : (v = 0 → (getSuite (takeVerdict s n m v) n).job.voted = max (getSuite s n).job.voted m)
    ∧ (v = 1 → (getSuite (takeVerdict s n m v) n).job.inPlace = true) ∧ (v = 2 → (getSuite (takeVerdict s n m v) n).job.toCheckpoint = true)
    ∧ (v = 3 → (getSuite (takeVerdict s n m v) n).job.stopHalt = true) := by
  unfold takeVerdict
  rw [getSuite_updSuite_same]
  exact ⟨fun hv => if_pos hv, fun hv => if_pos hv, fun hv => if_pos hv, fun hv => if_pos hv⟩

/-- An accepted step's checkpoint is vouched for. -/
theorem takeVerdict_vouched {v : Nat} (hv : v = 0) {c : Checkpoint} (hc : c ∈ (getSuite (takeVerdict s n m v) n).checkpoints) (hm : c.step = m) :
    c.vouched = true := by
  rw [getSuite_takeVerdict, if_pos hv] at hc
  obtain ⟨c', -, rfl⟩ := List.mem_map.mp hc
  by_cases h : c'.step = m
  · rw [if_pos h]
  · rw [if_neg h] at hm
    exact absurd hm h

/-! JOB_MAP. -/

theorem takeJobMap_other (h : m ≠ n) : getSuite (takeJobMap s n b) m = getSuite s m := getSuite_updSuite_other _ _ _ _ h

theorem takeJobMap_ranks : (getSuite (takeJobMap s n b) n).job.nRanks = fieldAt b 20 4
    ∧ (getSuite (takeJobMap s n b) n).job.rank = (if fieldAt b 16 4 = 0xFFFFFFFF then none else some (fieldAt b 16 4))
    ∧ (getSuite (takeJobMap s n b) n).job.rankManifest = (getSuite s n).job.rankManifest := by
  unfold takeJobMap
  rw [getSuite_updSuite_same]
  dsimp only
  split
  · exact ⟨rfl, rfl, rfl⟩
  · split <;> exact ⟨rfl, rfl, rfl⟩

/-- A run of places of a map, as it is entered, reads back. -/
theorem SMap.get_foldl_set_range_inside {α : Type} (d : α) (f : Nat → α) (m : SMap α) {first k i : Nat} (h : i < k) :
    SMap.get d ((List.range k).foldl (fun m i => SMap.set m (first + i) (f i)) m) (first + i) = f i := by
  rw [SMap.get_foldl_set_range, if_pos (by omega), Nat.add_sub_cancel_left]

theorem takeJobMap_map {i : Nat} (hk : fieldAt b 30 1 = 0) (hi : i < fieldAt b 28 2) :
    SMap.get 0 (getSuite (takeJobMap s n b) n).job.map (fieldAt b 24 4 + i) = fieldAt b (32 + 4 * i) 4 := by
  unfold takeJobMap
  rw [getSuite_updSuite_same]
  dsimp only
  rw [if_pos hk]
  exact SMap.get_foldl_set_range_inside (f := fun i => fieldAt b (32 + 4 * i) 4) _ _ hi

theorem takeJobMap_routes {i : Nat} (hk : fieldAt b 30 1 = 1) (hi : i < fieldAt b 28 2) :
    SMap.get [] (getSuite (takeJobMap s n b) n).job.routes (fieldAt b 24 4 + i) = bytesAt b (32 + 8 * i) 8 := by
  unfold takeJobMap
  rw [getSuite_updSuite_same]
  dsimp only
  rw [if_neg (by rw [hk]; decide), if_pos hk]
  exact SMap.get_foldl_set_range_inside (f := fun i => bytesAt b (32 + 8 * i) 8) _ _ hi

/-- The state with a part of the ranks' map taken; the first part starts the suite over. -/
def ranksMapped (s : State) (n : Nat) (b : Bytes) : State :=
  if fieldAt b 24 4 = 0 then updSuite (takeJobMap s n b) n (fun x => { x with startAt := 1 }) else takeJobMap s n b

theorem ranksMapped_only : ranksMapped s n b = { s with suites := (ranksMapped s n b).suites } := by
  unfold ranksMapped
  split <;> rfl

theorem ranksMapped_job : (getSuite (ranksMapped s n b) n).job = (getSuite (takeJobMap s n b) n).job := by
  unfold ranksMapped
  split
  · rw [getSuite_updSuite_same]
  · rfl

theorem ranksMapped_other (h : m ≠ n) : getSuite (ranksMapped s n b) m = getSuite s m := by
  unfold ranksMapped
  split
  · exact (getSuite_updSuite_other _ _ _ _ h).trans (takeJobMap_other h)
  · exact takeJobMap_other h

/-- The answer to the last part of a suite's routes: the code of the check that fails, or the manifest of the rank. -/
def routesAnswer (s2 : State) (n : Nat) (b : Bytes) : Option Nat → Effect
  | some c => deny s2 c 0
  | none => done s2 (if fieldAt b 16 4 == 0xFFFFFFFF then List.replicate 48 0#8 else bytesAt (getSuite s2 n).job.rankManifest 0 48)

/-- A JOB_MAP that a LOADED suite with an image takes. -/
theorem mapEffect_loaded (hi : (getSuite s n).image ≠ none) (hs : (getSuite s n).state = .loaded) : mapEffect s n b
    = if fieldAt b 30 1 = 2 then
        if !(getSuite s n).job.mapReceived then denyState s n
        else done (if fieldAt b 16 4 == 0xFFFFFFFF then takeJobMap s n b else commitRank s n b) []
      else
        let s2 := if fieldAt b 30 1 = 0 ∧ fieldAt b 24 4 = 0 then updSuite (takeJobMap s n b) n (fun x => { x with startAt := 1 }) else takeJobMap s n b
        if !(fieldAt b 30 1 == 1 && bit (fieldAt b 31 1) 0) then done s2 []
        else routesAnswer s2 n b (if !((getSuite s n).image.all (fun im => planAdmits im.plan (fieldAt b 20 4))) then some 0x0121
          else if !(transitFits s2 n ((getSuite s2 n).job.routes.map (fun r => r.2))) then some 0x0122 else mapFailure s2 n) := by
  have hin : (getSuite s n).image.isNone = false := by rwa [Option.isNone_eq_false_iff, Option.isSome_iff_ne_none]
  unfold mapEffect
  dsimp only
  rw [hin, hs]
  simp only [ne_eq, not_true_eq_false, decide_false, Bool.and_false, Bool.false_eq_true, if_false, and_true, if_true]
  rfl

theorem mapEffect_other_lineage (hi : (getSuite s n).image ≠ none) (hs : (getSuite s n).state ≠ .loaded) (hl : (getSuite s n).job.lineage ≠ [])
    (hd : bytesAt (getSuite s n).job.lineage 0 16 ≠ bytesAt b 0 16) : mapEffect s n b = deny s 0x030C 0 := by
  unfold mapEffect
  dsimp only
  rw [if_neg (by rwa [Option.isNone_iff_eq_none]), if_pos (by simp [hd, hs]), if_neg hl]

theorem mapEffect_ranks (hi : (getSuite s n).image ≠ none) (hs : (getSuite s n).state = .loaded) (hk : fieldAt b 30 1 = 0) :
    mapEffect s n b = done (ranksMapped s n b) [] := by
  rw [mapEffect_loaded hi hs, if_neg (by rw [hk]; decide)]
  dsimp only
  rw [if_pos (by rw [hk]; rfl)]
  unfold ranksMapped
  by_cases hz : fieldAt b 24 4 = 0
  · rw [if_pos ⟨hk, hz⟩, if_pos hz]
  · rw [if_neg (fun hc => hz hc.2), if_neg hz]

theorem mapEffect_routes (hi : (getSuite s n).image ≠ none) (hs : (getSuite s n).state = .loaded) (hk : fieldAt b 30 1 = 1)
    (hl : bit (fieldAt b 31 1) 0 = false) : mapEffect s n b = done (takeJobMap s n b) [] := by
  rw [mapEffect_loaded hi hs, if_neg (by rw [hk]; decide)]
  dsimp only
  rw [hk, hl, if_neg (fun hc : 1 = 0 ∧ _ => absurd hc.1 (by decide))]
  rfl

/-- The last part of a suite's routes is checked against its plan, its transit and its mapping. -/
theorem mapEffect_last {im : Image} (hi : (getSuite s n).image = some im) (hs : (getSuite s n).state = .loaded) (hk : fieldAt b 30 1 = 1)
    (hl : bit (fieldAt b 31 1) 0 = true) : mapEffect s n b
      = routesAnswer (takeJobMap s n b) n b (if !(planAdmits im.plan (fieldAt b 20 4)) then some 0x0121
          else if !(transitFits (takeJobMap s n b) n ((getSuite (takeJobMap s n b) n).job.routes.map (fun r => r.2))) then some 0x0122
          else mapFailure (takeJobMap s n b) n) := by
  rw [mapEffect_loaded (by rw [hi]; exact Option.some_ne_none im) hs, if_neg (by rw [hk]; decide)]
  dsimp only
  rw [hk, hl, if_neg (fun hc : 1 = 0 ∧ _ => absurd hc.1 (by decide)), hi]
  rfl

end

/-- Settles O52. -/
theorem jobTrafficReachesItsRank : Obligations.JobTrafficReachesItsRank := by
  refine fun s src tag n w b => ⟨fun h => ?_, fun h => ?_,
    fun h => ⟨fun hl => ?_, fun hl => ⟨fun hr => ?_, fun hr => ?_⟩⟩,
    fun h => ⟨fun hi => ?_, fun hi hs hl hd => ?_, fun hi hs hk => ?_, fun hi hs hk hl => ?_, fun hi hs hk => ⟨fun hm => ?_, fun hm hf => ?_, fun hm hf => ?_⟩,
      fun im hi hs hk hl => ⟨fun hp => ?_, fun hp ht hm => ?_⟩⟩,
    fun h => ?_⟩
  · exact upward_cases (s := s) (src := src) (w := w) (x := execPoisonNotice src tag s) (fin := fun u st => finish u src tag st (if st = 0 then 0 else s.mgr.role) [])
      (fun u st he => runCommand_replies h rfl (by decide) he)
  · exact upward_cases (s := s) (src := src) (w := w) (x := execVoteRecord src tag s) (fin := fun u st => dropSilent u src tag (decide (st ≠ 0)))
      (fun u st he => runCommand_drops h rfl he)
  · show execVerdict src tag s = _
    exact runCommand_replies h rfl (by decide) (if_pos hl)
  · show execVerdict src tag s = _
    exact runCommand_replies h rfl (by decide) ((if_neg (by rw [getSuite_taken, hl]; decide)).trans (if_pos (by rw [getSuite_taken, hr]; rfl)))
  · obtain ⟨hvoted, hplace, hcheckpoint, hstop⟩ := takeVerdict_job (s := taken s src w) (n := n) (m := fieldAt b 16 4) (v := fieldAt b 20 1)
    refine ⟨takeVerdict (taken s src w) n (fieldAt b 16 4) (fieldAt b 20 1), ?_, rfl,
      fun hv => ⟨hvoted hv, fun c hc hm => takeVerdict_vouched hv hc hm⟩, hplace, hcheckpoint, hstop, fun m hm => getSuite_updSuite_other _ _ _ _ hm⟩
    · show execVerdict src tag s = _
      exact runCommand_replies h rfl (by decide) ((if_neg (by rw [getSuite_taken, hl]; decide)).trans
        (if_neg (by rw [getSuite_taken, Option.isNone_iff_eq_none]; exact hr)))
  · show execJobMap src tag s = _
    exact runCommand_replies h rfl (by decide) (if_pos (by rw [getSuite_taken, hi]; rfl))
  · show execJobMap src tag s = _
    exact runCommand_replies h rfl (by decide) (mapEffect_other_lineage (s := taken s src w) hi hs hl hd)
  · have hjob := ranksMapped_job (s := taken s src w) (n := n) (b := b)
    obtain ⟨hranks, hrank, -⟩ := takeJobMap_ranks (s := taken s src w) (n := n) (b := b)
    refine ⟨ranksMapped (taken s src w) n b, ?_, ?_, ?_, ?_, fun i hlt => ?_, fun m hm => ranksMapped_other hm⟩
    · show execJobMap src tag s = _
      exact runCommand_replies h rfl (by decide) (mapEffect_ranks (s := taken s src w) hi hs hk)
    · rw [ranksMapped_only]
      rfl
    · rw [hjob, hranks]
    · rw [hjob, hrank]
    · rw [hjob]
      exact takeJobMap_map hk hlt
  · refine ⟨takeJobMap (taken s src w) n b, ?_, rfl, fun i hlt => takeJobMap_routes hk hlt⟩
    show execJobMap src tag s = _
    exact runCommand_replies h rfl (by decide) (mapEffect_routes (s := taken s src w) hi hs hk hl)
  · show execJobMap src tag s = _
    exact runCommand_replies h rfl (by decide) ((mapEffect_loaded (s := taken s src w) hi hs).trans ((if_pos hk).trans
      (if_pos (by rw [getSuite_taken, hm]; rfl))))
  · show execJobMap src tag s = _
    refine runCommand_replies h rfl (by decide) ((mapEffect_loaded (s := taken s src w) hi hs).trans ((if_pos hk).trans
      ((if_neg (by rw [getSuite_taken, hm]; decide)).trans ?_)))
    rw [beq_false_of_ne hf]
    rfl
  · show execJobMap src tag s = _
    refine runCommand_replies h rfl (by decide) ((mapEffect_loaded (s := taken s src w) hi hs).trans ((if_pos hk).trans
      ((if_neg (by rw [getSuite_taken, hm]; decide)).trans ?_)))
    rw [hf]
    rfl
  · show execJobMap src tag s = _
    refine runCommand_replies h rfl (by decide) ((mapEffect_last (s := taken s src w) hi hs hk hl).trans ?_)
    rw [hp]
    rfl
  · obtain ⟨-, -, hmanifest⟩ := takeJobMap_ranks (s := taken s src w) (n := n) (b := b)
    show execJobMap src tag s = _
    refine runCommand_replies h rfl (by decide) ((mapEffect_last (s := taken s src w) hi hs hk hl).trans ?_)
    rw [hp, ht, hm]
    show done _ (if fieldAt b 16 4 == 0xFFFFFFFF then _ else bytesAt (getSuite (takeJobMap (taken s src w) n b) n).job.rankManifest 0 48) = _
    rw [hmanifest]
    by_cases hf : fieldAt b 16 4 = 0xFFFFFFFF
    · rw [if_pos hf, hf]
      rfl
    · rw [if_neg hf, beq_false_of_ne hf]
      rfl
  · have hup := fun hn : n = 0xFF => upward_cases (s := s) (src := src) (w := w) (x := execRecords src tag s)
      (fin := fun u st => dropSilent u src tag (decide (st ≠ 0))) (acted := mergeAtTop (taken s src w) b)
      (passed := sendToManager (taken s src w) 0x050C 0xFF false b) (fun u st he => runCommand_drops h rfl ((if_pos hn).trans he))
    refine ⟨fun hn => (hup hn).1, fun hn => (hup hn).2.1, fun hn => (hup hn).2.2, fun hn hr => ?_, fun hn hr hl => ?_⟩
    · show execRecords src tag s = _
      by_cases hrank : (getSuite s n).job.rank = none
      · refine runCommand_drops (st := 0x0301) h rfl ((if_neg hn).trans (if_pos ?_))
        rw [getSuite_taken, hrank]
        rfl
      · refine runCommand_drops (st := 0x030C) h rfl ((if_neg hn).trans ((if_neg ?_).trans (if_pos (hr.resolve_left hrank))))
        rwa [getSuite_taken, Option.isNone_iff_eq_none]
    · show execRecords src tag s = _
      refine runCommand_drops (st := 0) h rfl ((if_neg hn).trans ((if_neg ?_).trans (if_neg ?_)))
      · rwa [getSuite_taken, Option.isNone_iff_eq_none]
      · rw [getSuite_taken, hl]
        decide

end Sys2Proof.Machine
end

section
/-!
PROOFS. The end of a slice, and gang commands at the common bell (rules R429, R430, R439).
-/
open Sys2Proof Sys2Proof.Says

namespace Sys2Proof.Machine
section
variable {s : State} {n m bell event : Nat} {e : BellEvent}

/-- A slice that begins takes the slice that was set last, from its bell, less what was charged too much before. -/
theorem beginSliceAt_same (hs : (getSuite (beginSliceAt s n bell) n).slice.slice ≠ 0) :
    (getSuite (beginSliceAt s n bell) n).slice.sliceStart = bell
    ∧ (getSuite (beginSliceAt s n bell) n).slice.charged
      = max 1000 ((getSuite (beginSliceAt s n bell) n).slice.slice - (getSuite s n).slice.carry) := by
  unfold beginSliceAt at hs ⊢
  rw [getSuite_updSuite_same] at hs ⊢
  dsimp only at hs ⊢
  by_cases hz : (getSuite s n).slice.nextSlice.getD (getSuite s n).slice.slice = 0
  · rw [if_pos hz] at hs
    exact absurd hz hs
  · rw [if_neg hz]
    refine ⟨rfl, ?_⟩
    dsimp only
    split <;> omega

theorem beginSliceAt_slice : (getSuite (beginSliceAt s n bell) n).slice.slice = (getSuite s n).slice.nextSlice.getD (getSuite s n).slice.slice := by
  unfold beginSliceAt
  rw [getSuite_updSuite_same]
  dsimp only
  split <;> rfl

/-- A suite with its pre-emption asked for, and its stop noted. -/
theorem requestPreempt_same : getSuite (requestPreempt s n) n = { getSuite s n with
    slice := { (getSuite s n).slice with stopping := true, preemptBell := s.bell.count, boundary := s.bell.count } } :=
  getSuite_updSuite_same ..

theorem gangSettled_acts {action : Nat} (h : (getSuite s n).state = if action = 0 then .running else .preempted) : gangSettled s n action event = s :=
  if_pos h

theorem execGangBell_due (h : dueEvent s event 0x0506 = some e) : exec (.gangBell event) s = .next
    (let s1 := gangSettled (popEvent s event) e.suite e.arg event
     if e.arg = 0 then
        (if (getSuite s e.suite).state = .running then
          updSuite (requestPreempt s1 e.suite) e.suite (fun x => { x with slice := { x.slice with waitingSlice := false, rotation := false } })
         else s1)
      else if (getSuite s e.suite).state = .preempted then requestResume s1 e.suite else s1) := by
  show execGangBell event s = _
  unfold execGangBell
  rw [h]

end

/-- Settles O30. -/
theorem slicesAndGangsMoveSuites : Obligations.SlicesAndGangsMoveSuites := by
  refine fun s n => ⟨fun hs hz hp hb => ?_, fun event e hdue he => ⟨fun ha hs => ?_, fun ha hs => ?_⟩⟩
  · have hdue : (decide ((getSuite s n).state = .running) && decide (0 < (getSuite s n).slice.slice) && !(getSuite s n).slice.stopping
        && decide ((getSuite s n).slice.sliceStart + (getSuite s n).slice.charged ≤ s.bell.count)) = true := by simp [hs, hz, hp, hb]
    refine ⟨fun hn => ?_, fun m hm => ?_⟩
    · refine ⟨beginSliceAt s n ((getSuite s n).slice.sliceStart + (getSuite s n).slice.charged), ?_, rfl, beginSliceAt_slice, beginSliceAt_same⟩
      show execSliceBoundary n s = _
      unfold execSliceBoundary
      rw [hn]
      exact whenDo_true _ _ _ hdue
    · have hsuite := getSuite_updSuite_same (requestPreempt s n) n (fun x => { x with slice := { x.slice with
        waitingSlice := true, rotation := true, preemptBell := (getSuite s n).slice.sliceStart + (getSuite s n).slice.charged } })
      rw [requestPreempt_same] at hsuite
      refine ⟨_, ?_, rfl, congrArg (fun x : Suite => x.slice.stopping) hsuite, congrArg (fun x : Suite => x.slice.waitingSlice) hsuite,
        congrArg (fun x : Suite => x.slice.preemptBell) hsuite, (congrArg Suite.state hsuite).trans hs⟩
      show execSliceBoundary n s = _
      unfold execSliceBoundary
      rw [hm]
      exact whenDo_true _ _ _ hdue
  · subst he
    have hsettled : gangSettled (popEvent s event) e.suite e.arg event = popEvent s event := gangSettled_acts (by rw [ha]; exact hs)
    have hsuite := getSuite_updSuite_same (requestPreempt (popEvent s event) e.suite) e.suite
      (fun x => { x with slice := { x.slice with waitingSlice := false, rotation := false } })
    rw [requestPreempt_same] at hsuite
    refine ⟨_, (execGangBell_due hdue).trans ?_, ?_, congrArg (fun x : Suite => x.slice.stopping) hsuite,
      congrArg (fun x : Suite => x.slice.waitingSlice) hsuite, congrArg (fun x : Suite => x.slice.rotation) hsuite⟩
    · rw [hsettled]
      exact congrArg _ ((if_pos ha).trans (if_pos hs))
    · rfl
  · subst he
    have hsettled : gangSettled (popEvent s event) e.suite e.arg event = popEvent s event := gangSettled_acts (by rw [if_neg ha]; exact hs)
    have hsuite := getSuite_updSuite_same (popEvent s event) e.suite
      (fun x => { x with slice := { x.slice with resumeAsked := true, resumeBell := (popEvent s event).bell.count } })
    refine ⟨requestResume (popEvent s event) e.suite, (execGangBell_due hdue).trans ?_, rfl, congrArg (fun x : Suite => x.slice.resumeAsked) hsuite,
      congrArg (fun x : Suite => x.slice.resumeBell) hsuite⟩
    rw [hsettled]
    exact congrArg _ ((if_neg ha).trans (if_pos hs))

end Sys2Proof.Machine
end

section
/-!
PROOFS. A pre-emption: streams that others wait for are released, each tile is saved, and the last save frees the tiles (rules R433 to R436).
-/
open Sys2Proof Sys2Proof.Says

namespace Sys2Proof.Machine
section
variable {s : State} {t n i : Nat} {k : KStream} {im : Image}

/-! The release of a stream. -/

/-- A stream of a suite that stops, released: the suite counts it. -/
def released (s : State) (t n : Nat) (k : KStream) : State :=
  updSuite (release s t k n) n (fun y => { y with counts := { y.counts with releases := satInc 16 y.counts.releases } })

theorem execStreamRelease_due (hn : (getTile s t).suite = some n) (hs : (getSuite s n).state = .running) (hp : (getSuite s n).slice.stopping = true)
    (hk : (getStream s t k).stopped = true ∨ (getStream s t k).phase = .atGate) (hh : (getStream s t k).halted = false) (hd : releaseDue s t k = true)
    (ho : (getStream s t k).phase = .atGate → ∀ v, v ∈ suiteSteps s n → (getStream s t k).step ≤ v + 1) :
    exec (.streamRelease t k) s = .next (released s t n k) := by
  have hopen : (decide ((getStream s t k).phase ≠ .atGate) || (suiteSteps s n).all (fun v => decide ((getStream s t k).step ≤ v + 1))) = true := by
    by_cases hg : (getStream s t k).phase = .atGate
    · rw [Bool.or_eq_true, List.all_eq_true]
      exact .inr fun v hv => decide_eq_true (ho hg v hv)
    · rw [decide_eq_true hg]
      rfl
  show execStreamRelease t k s = _
  unfold execStreamRelease
  rw [hn]
  dsimp only
  refine whenDo_true _ _ _ ?_
  rw [hopen, hh, hd, hs, hp]
  obtain hk | hk := hk <;> simp [hk]

theorem release_ready (h : (getStream s t k).phase = .ready) : release s t k n = setStream s t k { getStream s t k with stopped := false } := by
  unfold release
  dsimp only
  rw [h]

/-! The save of a tile. -/

/-- The state with a tile saved into its suite's slots. -/
def savedTile (s : State) (t n : Nat) (im : Image) : State :=
  updTile (setSuite s n { getSuite s n with saves := SMap.set (getSuite s n).saves (getTile s t).vtile (slotOf im (getTile s t).core) }) t
    (fun y => { y with saved := true })

/-- What the save of a tile comes to, in its suite's own slots or in its window's. -/
def saveOutcome (s : State) (t n : Nat) (im : Image) : Host.Outcome State Fault Refusal :=
  let su := getSuite s n
  let x := getTile s t
  let slot := slotOf im x.core
  let su1 := if x.evalMode then { su with window := su.window.map (fun w => { w with saves := SMap.set w.saves x.vtile slot }) }
    else { su with saves := SMap.set su.saves x.vtile slot }
  let s1 := updTile (setSuite s n su1) t (fun y => { y with saved := true })
  whenDo (decide (su.state = .running) && su.slice.stopping && !x.saved && saveReady s t) s
    (if (residents s1 n).all (fun p => (getTile s1 p.1).saved) then finishPreempt s1 n else s1)

theorem execTileSaveComplete_image (hn : (getTile s t).suite = some n) (hi : (getSuite s n).image = some im) :
    exec (.tileSaveComplete t) s = saveOutcome s t n im := by
  show execTileSaveComplete t s = _
  unfold execTileSaveComplete
  dsimp only
  rw [hn]
  show (match (getSuite s n).image with
    | none => ok s
    | some im => saveOutcome s t n im) = _
  rw [hi]

theorem execTileSaveComplete_ready (hn : (getTile s t).suite = some n) (hi : (getSuite s n).image = some im) (he : (getTile s t).evalMode = false)
    (hs : (getSuite s n).state = .running) (hp : (getSuite s n).slice.stopping = true) (hv : (getTile s t).saved = false) (hr : saveReady s t = true) :
    exec (.tileSaveComplete t) s = .next (if (residents (savedTile s t n im) n).all (fun p => (getTile (savedTile s t n im) p.1).saved)
      then finishPreempt (savedTile s t n im) n else savedTile s t n im) := by
  rw [execTileSaveComplete_image hn hi]
  unfold saveOutcome savedTile
  dsimp only
  rw [he]
  exact whenDo_true _ _ _ (by rw [hs, hp, hv, hr]; rfl)

theorem savedTile_tile : getTile (savedTile s t n im) t = { getTile s t with saved := true } := getTile_updTile_same ..

theorem savedTile_suite : getSuite (savedTile s t n im) n
    = { getSuite s n with saves := SMap.set (getSuite s n).saves (getTile s t).vtile (slotOf im (getTile s t).core) } := getSuite_setSuite_same ..

/-- Another tile of the suite that is not saved yet. -/
theorem residents_unsaved (hi : i ≠ t) (hn : (getTile s i).suite = some n) (hv : (getTile s i).saved = false) :
    (residents (savedTile s t n im) n).all (fun p => (getTile (savedTile s t n im) p.1).saved) = false := by
  have htile : getTile (savedTile s t n im) i = getTile s i := getTile_updTile_other _ _ _ _ hi
  have hmem : (i, getTile s i) ∈ (savedTile s t n im).tiles := by
    rw [← htile]
    refine SMap.mem_of_get_ne (d := ({} : Tile)) fun hc => ?_
    rw [← htile, getTile, hc] at hn
    cases hn
  rw [List.all_eq_false]
  refine ⟨(i, (getTile s i).vtile), ?_, ?_⟩
  · exact List.mem_map.mpr ⟨(i, getTile s i), List.mem_filter.mpr ⟨hmem, decide_eq_true hn⟩, rfl⟩
  · rw [htile, hv]
    decide

/-- The last tile of the suite to be saved. -/
theorem residents_saved (h : ∀ p, p ∈ s.tiles → p.2.suite = some n → p.1 = t) :
    (residents (savedTile s t n im) n).all (fun p => (getTile (savedTile s t n im) p.1).saved) = true := by
  rw [List.all_eq_true]
  intro q hq
  obtain ⟨p, hp, rfl⟩ := List.mem_map.mp hq
  obtain ⟨hp, hsuite⟩ := List.mem_filter.mp hp
  have hkey : p.1 = t := by
    obtain rfl | hp := SMap.mem_set hp
    · rfl
    · exact h p hp (of_decide_eq_true hsuite)
  rw [hkey, savedTile_tile]

/-! The end of a pre-emption. -/

/-- Retiring the suite's tiles that wait for it touches tiles and the Attic alone, and seats no tile. -/
theorem retireTile_only : retireTile s t = { s with tiles := (retireTile s t).tiles, attic := (retireTile s t).attic } := by
  unfold retireTile
  split <;> rfl

/-- What holds of a tile whatever its health, and of every unseated tile, holds of it after a retirement. -/
theorem getTile_retireTile_of {P : Tile → Prop} (hh : ∀ x h, P x → P { x with health := h }) (hu : ∀ x h, P { unseat x with health := h })
    (hi : P (getTile s i)) : P (getTile (retireTile s t) i) := by
  cases hb : tileBusy s t with
  | true =>
    rw [show retireTile s t = updTile s t (fun x => { x with health := { x.health with pendingRetire := true } }) from if_pos hb]
    obtain rfl | hne := Decidable.em (i = t)
    · rw [getTile_updTile_same]
      exact hh _ _ hi
    · rw [getTile_updTile_other _ _ _ _ hne]
      exact hi
  | false =>
    rw [retireTile_free hb]
    obtain rfl | hne := Decidable.em (i = t)
    · exact (congrArg P (getTile_updTile_same s i
        fun x => { unseat x with health := { x.health with retired := true, pendingRetire := false, inService := false } })).mpr (hu _ _)
    · exact (congrArg P (getTile_updTile_other s t i
        (fun x => { unseat x with health := { x.health with retired := true, pendingRetire := false, inService := false } }) hne)).mpr hi

theorem settleRetirement_only : settleRetirement s n = { s with tiles := (settleRetirement s n).tiles, attic := (settleRetirement s n).attic } := by
  unfold settleRetirement
  refine List.foldlRecOn (motive := fun u : State => u = { s with tiles := u.tiles, attic := u.attic }) _ _ rfl fun u hu t _ => ?_
  dsimp only
  split
  · rw [retireTile_only, hu]
  · exact hu

theorem getTile_settleRetirement_of {P : Tile → Prop} (hh : ∀ x h, P x → P { x with health := h }) (hu : ∀ x h, P { unseat x with health := h })
    (hi : P (getTile s i)) : P (getTile (settleRetirement s n) i) := by
  unfold settleRetirement
  refine List.foldlRecOn (motive := fun u : State => P (getTile u i)) _ _ hi fun u hu' t _ => ?_
  dsimp only
  split
  · exact getTile_retireTile_of hh hu hu'
  · exact hu'

theorem getTile_settleRetirement_free (h : (getTile s i).suite = none) : (getTile (settleRetirement s n) i).suite = none :=
  getTile_settleRetirement_of (P := fun x => x.suite = none) (fun _ _ h => h) (fun _ _ => rfl) h

/-- The suite as its pre-emption is counted. -/
def preemptCounted (s : State) (n : Nat) : State :=
  let su := getSuite s n
  setSuite s n { su with
    slice := { su.slice with stopping := false, carry := su.slice.carry + (if su.slice.waitingSlice then su.slice.boundary - su.slice.preemptBell else 0) }
    counts := { su.counts with preempts := satInc 16 su.counts.preempts, saveBells := min 0xFFFF (s.bell.count - su.slice.boundary) } }

/-- The state with the suite PREEMPTED, and its tiles free. -/
def preemptedState (s : State) (n : Nat) : State := settleRetirement (unseatAll (setSuiteState (preemptCounted s n) n .preempted) n) n

/-- A pre-emption that ends without a stop: one that waits for the tiles resumes. -/
theorem finishPreempt_whole (h : (getSuite s n).slice.stopAfter = none) :
    finishPreempt s n = preemptedState s n ∨ ∃ m, finishPreempt s n = requestResume (preemptedState s n) m := by
  have hstate : (if (getSuite s n).slice.stopAfter.isSome then stopSaved (noteStops (preemptedState s n) n) n else preemptedState s n)
      = preemptedState s n := if_neg (by rw [h]; decide)
  rw [show finishPreempt s n = (match nextInRotation
        (if (getSuite s n).slice.stopAfter.isSome then stopSaved (noteStops (preemptedState s n) n) n else preemptedState s n) n with
    | some m => requestResume (if (getSuite s n).slice.stopAfter.isSome then stopSaved (noteStops (preemptedState s n) n) n else preemptedState s n) m
    | none => if (getSuite s n).slice.stopAfter.isSome then stopSaved (noteStops (preemptedState s n) n) n else preemptedState s n) from rfl, hstate]
  split
  · next m _ => exact .inr ⟨m, rfl⟩
  · exact .inl rfl

theorem preemptedState_kept : (getSuite (preemptedState s n) n).state = .preempted ∧ (getSuite (preemptedState s n) n).saves = (getSuite s n).saves
    ∧ (getSuite (preemptedState s n) n).counts.preempts = satInc 16 (getSuite s n).counts.preempts ∧ (preemptedState s n).hbm = s.hbm
    ∧ (preemptedState s n).tiles = (settleRetirement (unseatAll (setSuiteState (preemptCounted s n) n .preempted) n) n).tiles := by
  obtain ⟨hsuite, -, honly⟩ := setSuiteState_only (preemptCounted s n) n .preempted
  have hstate : getSuite (preemptedState s n) n = getSuite (setSuiteState (preemptCounted s n) n .preempted) n := by
    unfold preemptedState
    rw [settleRetirement_only]
    rfl
  have hcounted : getSuite (preemptCounted s n) n = _ := getSuite_setSuite_same ..
  rw [hstate, hsuite, hcounted]
  refine ⟨rfl, rfl, rfl, ?_, rfl⟩
  unfold preemptedState
  rw [settleRetirement_only, honly]
  rfl

theorem preemptedState_tile (h : (getTile s t).suite = some n) : (getTile (preemptedState s n) t).suite = none := by
  obtain ⟨-, -, honly⟩ := setSuiteState_only (preemptCounted s n) n .preempted
  refine getTile_settleRetirement_free ?_
  have htile : getTile (setSuiteState (preemptCounted s n) n .preempted) t = getTile s t := by
    rw [honly]
    rfl
  rw [getTile_unseatAll, htile, if_pos h]
  rfl

theorem requestResume_kept {m : Nat} : (getSuite (requestResume s m) n).state = (getSuite s n).state
    ∧ (getSuite (requestResume s m) n).saves = (getSuite s n).saves ∧ (getSuite (requestResume s m) n).counts = (getSuite s n).counts := by
  unfold requestResume
  obtain rfl | h := Decidable.em (n = m)
  · rw [getSuite_updSuite_same]
    exact ⟨rfl, rfl, rfl⟩
  · rw [getSuite_updSuite_other _ _ _ _ h]
    exact ⟨rfl, rfl, rfl⟩

/-- What the end of a pre-emption leaves: the suite PREEMPTED with its saves, one more counted, and its tiles free. -/
theorem finishPreempt_whole_kept (h : (getSuite s n).slice.stopAfter = none) (ht : (getTile s t).suite = some n) :
    (getSuite (finishPreempt s n) n).state = .preempted ∧ (getTile (finishPreempt s n) t).suite = none
    ∧ (getSuite (finishPreempt s n) n).saves = (getSuite s n).saves
    ∧ (getSuite (finishPreempt s n) n).counts.preempts = satInc 16 (getSuite s n).counts.preempts ∧ (finishPreempt s n).hbm = s.hbm := by
  obtain ⟨hstate, hsaves, hpreempts, hhbm, -⟩ := preemptedState_kept (s := s) (n := n)
  have htile := preemptedState_tile ht
  obtain heq | ⟨m, heq⟩ := finishPreempt_whole h
  · rw [heq]
    exact ⟨hstate, htile, hsaves, hpreempts, hhbm⟩
  · obtain ⟨hs, hv, hc⟩ := requestResume_kept (s := preemptedState s n) (n := n) (m := m)
    rw [heq]
    exact ⟨hs.trans hstate, htile, hv.trans hsaves, (congrArg SuiteCounts.preempts hc).trans hpreempts, hhbm⟩

end

/-- Settles O31. -/
theorem preemptionSavesEveryTile : Obligations.PreemptionSavesEveryTile := by
  refine fun s t n hn hs hp => ⟨fun k hk hh hd ho => execStreamRelease_due hn hs hp hk hh hd ho, fun k hk hready hh hd => ?_,
    fun im hi hv he hr => ⟨fun i hit hin hiv => ?_, fun hstop hlast => ?_⟩⟩
  · have hrelease : released s t n k = updSuite (setStream s t k { getStream s t k with stopped := false }) n
        (fun y => { y with counts := { y.counts with releases := satInc 16 y.counts.releases } }) := by
      unfold released
      rw [release_ready hready]
    refine ⟨released s t n k, execStreamRelease_due hn hs hp (.inl hk) hh hd fun hg => ?_, ?_, ?_, ?_, fun i hi => ?_⟩
    · rw [hready] at hg
      cases hg
    · rw [hrelease]
      rfl
    · rw [hrelease]
      exact getStream_setStream_same ..
    · rw [hrelease]
      exact (congrArg (fun x : Suite => x.counts.releases) (getSuite_updSuite_same ..) :)
    · rw [hrelease]
      exact getTile_updTile_other s t i (fun y => { y with core := y.core.setStream k { getStream s t k with stopped := false } }) hi
  · refine ⟨savedTile s t n im, ?_, rfl, savedTile_tile, savedTile_suite⟩
    rw [execTileSaveComplete_ready hn hi he hs hp hv hr, residents_unsaved hit hin hiv]
    rfl
  · have hstop' : (getSuite (savedTile s t n im) n).slice.stopAfter = none := by rw [savedTile_suite]; exact hstop
    have htile : (getTile (savedTile s t n im) t).suite = some n := by rw [savedTile_tile]; exact hn
    obtain ⟨hstate, hfree, hsaves, hpreempts, hhbm⟩ := finishPreempt_whole_kept hstop' htile
    rw [savedTile_suite] at hsaves hpreempts
    refine ⟨finishPreempt (savedTile s t n im) n, ?_, hstate, hfree, ?_, hpreempts, hhbm⟩
    · rw [execTileSaveComplete_ready hn hi he hs hp hv hr, if_pos (residents_saved hlast)]
    · rw [hsaves]
      exact SMap.get_set_same ..

end Sys2Proof.Machine
end

section
/-!
PROOFS. A suite that resumes, a folded tile that changes its virtual tile, and a drain that ends (rules R416, R428, R437, R481).
-/
open Sys2Proof Sys2Proof.Says

namespace Sys2Proof.Machine
section
variable {s : State} {t n m next : Nat} {k : KStream} {im : Image} {obs : List MemObs}

/-! What a retirement and a change of state leave alone. -/

theorem getSuite_settleRetirement : getSuite (settleRetirement s n) m = getSuite s m := by
  rw [settleRetirement_only]
  rfl

theorem settleRetirement_frame : (settleRetirement s n).hbm = s.hbm ∧ (settleRetirement s n).bringup = s.bringup := by
  rw [settleRetirement_only]
  exact ⟨rfl, rfl⟩

theorem getTile_setSuiteState (x : SuiteState) : getTile (setSuiteState s n x) t = getTile s t := by
  rw [(setSuiteState_only s n x).2.2]
  rfl

theorem setSuiteState_frame (x : SuiteState) : (setSuiteState s n x).hbm = s.hbm ∧ (setSuiteState s n x).bringup = s.bringup := by
  rw [(setSuiteState_only s n x).2.2]
  exact ⟨rfl, rfl⟩

/-! The restore of a suite. -/

theorem replan_image : (getSuite (replan s n) n).image = (getSuite s n).image := by
  have hsettled : getSuite (settlePcs s n) n = getSuite s n := by
    rw [settlePcs_only]
    rfl
  unfold replan
  dsimp only
  split
  · rw [hsettled]
  · refine List.foldlRecOn (motive := fun u : State => (getSuite u n).image = (getSuite s n).image) _ _ ?_ fun u hu c _ => ?_
    · rw [getSuite_updSuite_same]
      exact (congrArg Suite.image hsettled :)
    · refine Eq.trans ?_ hu
      unfold suiteSetByte
      split <;> rfl

theorem resumeInMark_only : resumeInMark s t k = { s with tiles := (resumeInMark s t k).tiles } := by
  unfold resumeInMark
  dsimp only
  split
  · split
    · split <;> rfl
    · rfl
  · rfl

theorem wakeStream_only : wakeStream s t k = { s with tiles := (wakeStream s t k).tiles } := by
  unfold wakeStream
  dsimp only
  split
  · rfl
  · split
    · exact resumeInMark_only
    · rfl
    · rfl

/-- The state with a suite's streams awake. -/
def streamsAwake (s : State) (res : List (Nat × Nat)) : State :=
  res.foldl (fun st p => [KStream.f, .b, .u].foldl (fun q k => wakeStream q p.1 k) st) s

theorem streamsAwake_suites (res : List (Nat × Nat)) : (streamsAwake s res).suites = s.suites := by
  refine foldl_preserves State.suites (fun v p => ?_) res s
  refine foldl_preserves State.suites (fun v k => ?_) _ v
  rw [wakeStream_only]

/-- The suite as it runs again, its request answered. -/
def resumedSuite (s : State) (n : Nat) (b : Nat) : State :=
  updSuite s n (fun x => { x with
    excluded := []
    slice := { x.slice with resumeAsked := false, waitingSlice := false }
    counts := { x.counts with restoreBells := min 0xFFFF (b - x.slice.resumeBell) } })

theorem restoreSuite_image (h : (getSuite s n).image.isSome = true) : ∃ (s3 : State) (res : List (Nat × Nat)) (b : Nat), restoreSuite s n
    = addRunRecord (beginSlice (resumedSuite (streamsAwake (setSuiteState s3 n .running) res) n b) n) n
        (mapRecord (resumedSuite (streamsAwake (setSuiteState s3 n .running) res) n b) n (openStep (resumedSuite (streamsAwake (setSuiteState s3 n .running) res) n b) n)) := by
  obtain ⟨im, him⟩ := Option.isSome_iff_exists.mp ((congrArg Option.isSome replan_image).trans h)
  unfold restoreSuite
  dsimp only
  rw [him]
  exact ⟨_, _, _, rfl⟩

/-- What a restored suite's state, exclusions and request are. -/
def resumeSide (s : State) (n : Nat) : SuiteState × List Nat × Bool :=
  ((getSuite s n).state, (getSuite s n).excluded, (getSuite s n).slice.resumeAsked)

theorem resumeSide_addRunRecord (b : Bytes) : resumeSide (addRunRecord s n b) n = resumeSide s n := by
  have hsuite := getSuite_updSuite_same s n (fun su => { su with runRecord := su.runRecord ++ b })
  have hsame : getSuite (addRunRecord s n b) n = { getSuite s n with runRecord := (getSuite s n).runRecord ++ b } := by
    unfold addRunRecord
    dsimp only
    split <;> exact hsuite
  unfold resumeSide
  rw [hsame]

theorem resumeSide_beginSlice : resumeSide (beginSlice s n) n = resumeSide s n := by
  unfold resumeSide beginSlice beginSliceAt
  rw [getSuite_updSuite_same]
  dsimp only
  split <;> rfl

theorem restoreSuite_resumes (h : (getSuite s n).image.isSome = true) : resumeSide (restoreSuite s n) n = (.running, [], false) := by
  obtain ⟨s3, res, b, heq⟩ := restoreSuite_image h
  obtain ⟨hrunning, -, -⟩ := setSuiteState_only s3 n .running
  rw [heq, resumeSide_addRunRecord, resumeSide_beginSlice]
  have hawake : getSuite (streamsAwake (setSuiteState s3 n .running) res) n = getSuite (setSuiteState s3 n .running) n := by
    unfold getSuite
    rw [streamsAwake_suites]
  unfold resumeSide resumedSuite
  rw [getSuite_updSuite_same, hawake, hrunning]

/-! The change of a folded tile. -/

/-- The streams that wait in a mark go on. -/
def marksResumed (s : State) (t : Nat) : State :=
  [KStream.f, .b, .u].foldl (fun q k => if (getStream q t k).cutWait then resumeInMark q t k else q) s

theorem marksResumed_none (h : ∀ k, (getStream s t k).cutWait = false) : marksResumed s t = s := by
  simp [marksResumed, h]

/-- The window as a virtual tile's program has ended. -/
def programEnded (w : EvalWindow) (v : Nat) : EvalWindow :=
  { w with programsDone := if w.programsDone.contains v then w.programsDone else w.programsDone ++ [v] }

/-- The state with the next evaluation program seated. -/
def evalSwapped (s : State) (n t next : Nat) (im : Image) (w : EvalWindow) : State :=
  seatEval (setSuite s n { getSuite s n with window := some w }) n t next im w

/-- What a swap in an evaluation window comes to, the window as its program has ended. -/
def evalEffect (s : State) (n t next : Nat) (im : Image) (w : EvalWindow) : State :=
  if evalTurn { getSuite s n with window := some w } { w with saves := [] } t next ≠ next ∨ w.programsDone.contains next then s
  else evalSwapped s n t next im w

/-- What a swap comes to, in an evaluation window or in the step. -/
def swapEffect (s : State) (n t next : Nat) (im : Image) : State :=
  if (getTile s t).evalMode then
    match (getSuite s n).window with
    | none => s
    | some w => evalEffect s n t next im (programEnded w (getTile s t).vtile)
  else if foldNext s n t im ≠ some next then s
  else if next = (getTile s t).vtile then marksResumed s t
  else
    let saves := SMap.set (getSuite s n).saves (getTile s t).vtile (slotOf im (getTile s t).core)
    marksResumed (setTile (setSuite s n { getSuite s n with saves := SMap.erase saves next }) t
      (seat (getTile s t) n next (getTile s t).fold (SMap.get {} saves next))) t

/-- Whether a folded tile may change its virtual tile for another. -/
def swapReady (s : State) (n t next : Nat) : Bool :=
  executing (getSuite s n) && decide (1 < (getTile s t).fold) && !(getSuite s n).slice.stopping
    && (SMap.get 0xFF (getSuite s n).vmap next == t && SMap.has (getSuite s n).vmap next) && segmentEnd s t && (getTile s t).verdicts.isEmpty
    && (getTile s t).passes.isEmpty && (resolutionOf s t).isNone

theorem execFoldSwap_image (hn : (getTile s t).suite = some n) (hi : (getSuite s n).image = some im) :
    exec (.foldSwap t next obs) s = whenDo (swapReady s n t next) s (readObs (swapEffect s n t next im) n obs) := by
  show execFoldSwap t next obs s = _
  unfold execFoldSwap
  dsimp only
  rw [hn]
  show (match (getSuite s n).image with
    | none => ok s
    | some im => whenDo (swapReady s n t next) s (readObs (swapEffect s n t next im) n obs)) = _
  rw [hi]

theorem swapReady_of (hs : (getSuite s n).state = .running) (hf : 1 < (getTile s t).fold) (hp : (getSuite s n).slice.stopping = false)
    (hm : SMap.has (getSuite s n).vmap next = true) (hg : SMap.get 0xFF (getSuite s n).vmap next = t) (he : segmentEnd s t = true)
    (hv : (getTile s t).verdicts = []) (hq : (getTile s t).passes = []) (hr : resolutionOf s t = none) : swapReady s n t next = true := by
  simp [swapReady, executing, hs, hf, hp, hm, hg, he, hv, hq, hr]

/-- The state with a tile's virtual tile swapped for another of its fold. -/
def swapped (s : State) (n t next : Nat) (im : Image) : State :=
  setTile (setSuite s n { getSuite s n with
      saves := SMap.erase (SMap.set (getSuite s n).saves (getTile s t).vtile (slotOf im (getTile s t).core)) next }) t
    (seat (getTile s t) n next (getTile s t).fold (SMap.get {} (getSuite s n).saves next))

theorem swapEffect_swaps (he : (getTile s t).evalMode = false) (hf : foldNext s n t im = some next) (hv : next ≠ (getTile s t).vtile)
    (hc : ∀ k, ((SMap.get {} (getSuite s n).saves next : TileCore).stream k).cutWait = false) : swapEffect s n t next im = swapped s n t next im := by
  unfold swapEffect
  rw [if_neg (by rw [he]; decide), if_neg (not_not_intro hf), if_neg hv]
  dsimp only
  rw [SMap.get_set_other _ _ _ _ _ hv]
  refine marksResumed_none (s := swapped s n t next im) fun k => ?_
  unfold getStream swapped
  rw [getTile_setTile_same]
  exact hc k

theorem swapEffect_same (he : (getTile s t).evalMode = false) (hf : foldNext s n t im = some next) (hv : next = (getTile s t).vtile)
    (hc : ∀ k, (getStream s t k).cutWait = false) : swapEffect s n t next im = s := by
  unfold swapEffect
  rw [if_neg (by rw [he]; decide), if_neg (not_not_intro hf), if_pos hv, marksResumed_none hc]

theorem swapEffect_other (he : (getTile s t).evalMode = false) (hf : foldNext s n t im ≠ some next) : swapEffect s n t next im = s := by
  unfold swapEffect
  rw [if_neg (by rw [he]; decide), if_pos hf]

theorem seatEval_tile {w : EvalWindow} : (getTile (seatEval s n t next im w) t).vtile = next ∧ (getTile (seatEval s n t next im w) t).evalMode = true := by
  unfold seatEval
  rw [getTile_setTile_same]
  exact ⟨rfl, rfl⟩

theorem swapEffect_eval {w w1 : EvalWindow} (he : (getTile s t).evalMode = true) (hw : (getSuite s n).window = some w)
    (h1 : w1 = { w with programsDone := if w.programsDone.contains (getTile s t).vtile then w.programsDone
                                        else w.programsDone ++ [(getTile s t).vtile] })
    (hd : w1.programsDone.contains next = false)
    (ht : evalTurn { getSuite s n with window := some w1 } { w1 with saves := [] } t next = next) :
    swapEffect s n t next im = evalSwapped s n t next im w1 := by
  subst h1
  unfold swapEffect
  rw [if_pos he, hw]
  refine if_neg ?_
  show ¬(evalTurn _ _ t next ≠ next ∨ (programEnded w (getTile s t).vtile).programsDone.contains next = true)
  rw [show (programEnded w (getTile s t).vtile).programsDone.contains next = false from hd]
  rintro (h | h)
  · exact h ht
  · cases h

/-! The end of a drain. -/

theorem buildRoutes_only : buildRoutes s n = { s with suites := (buildRoutes s n).suites } := by
  unfold buildRoutes
  dsimp only
  split <;> rfl

theorem getSuite_buildRoutes : ∃ r, getSuite (buildRoutes s n) n = { getSuite s n with routes := r } := by
  unfold buildRoutes
  dsimp only
  split
  · exact ⟨_, rfl⟩
  · exact ⟨_, getSuite_setSuite_same ..⟩

/-- Binding a suite's entries anew, none kept, touches the entries and the suite's routes alone. -/
theorem bindEntries_only {how : BindAs} (hk : how.keep = false) :
    bindEntries s n how = { buildRoutes s n with streams := (bindEntries s n how).streams } := by
  unfold bindEntries
  dsimp only
  split
  · rfl
  · rw [hk]
    refine List.foldlRecOn (motive := fun u : State => u = { buildRoutes s n with streams := u.streams }) _ _ rfl fun u hu i _ => ?_
    dsimp only
    split
    · exact hu
    · rw [hu]
      rfl

theorem holdEvents_only {α : Type} (f : State → α → State) (hf : ∀ v a, f v a = { v with rings := (f v a).rings }) (l : List α) :
    ∀ s : State, l.foldl f s = { s with rings := (l.foldl f s).rings } := by
  intro s
  refine List.foldlRecOn (motive := fun u : State => u = { s with rings := u.rings }) _ _ rfl fun u hu a _ => ?_
  rw [hf, hu]

theorem suiteEvent_only (op : Nat) (b : Bytes) : suiteEvent s n op b = { s with rings := (suiteEvent s n op b).rings } := rfl

/-- The suite as it discards what it recorded of a step and later. -/
def suiteDiscarded (su : Suite) (u : Nat) : Suite :=
  { su with
    steps := su.steps.filter (fun p => decide (p.1 < u))
    ring := su.ring.filter (fun p => decide (p.2.step < u))
    scale := su.scale.map (fun p => (p.1, { p.2 with ring := p.2.ring.filter (fun r => decide (r.2.step < u)) }))
    snapshots := su.snapshots.filter (fun p => decide (p.2.step < u))
    checkpoints := su.checkpoints.filter (fun c => c.complete || decide (c.step < u))
    counts := { su.counts with satStep := min su.counts.satStep (u - 1) } }

theorem discardFrom_only {u : Nat} :
    discardFrom s n u = { setSuite s n (suiteDiscarded (getSuite s n) u) with rings := (discardFrom s n u).rings } := by
  unfold discardFrom
  exact holdEvents_only _ (fun v c => suiteEvent_only ..) _ _

theorem getTile_zeroSuiteTiles : getTile (zeroSuiteTiles s n) t = if (getTile s t).suite = some n then zeroTile (getTile s t) else getTile s t := by
  have htiles : (zeroSuiteTiles s n).tiles = SMap.mapVals s.tiles (fun _ x => if x.suite = some n then zeroTile x else x) := by
    refine List.map_congr_left fun p _ => ?_
    dsimp only
    split <;> rfl
  unfold getTile
  rw [htiles]
  exact SMap.get_mapVals (f := fun _ x => if x.suite = some n then zeroTile x else x)
    (if_neg fun h => nomatch (show (none : Option Nat) = some n from h)) s.tiles

/-- The state with a suite's tiles zeroed and what it recorded of its open step discarded. -/
def resetDiscarded (s : State) (n : Nat) : State :=
  let v := discardFrom (zeroSuiteTiles (holdStep s n) n) n (openStep s n)
  setSuite v n { getSuite v n with slots := [], saves := [], vmap := (getSuite s n).vmap }

/-- The state with a suite reset, and the reset counted. -/
def resetCounted (s : State) (n : Nat) : State :=
  let v := resetDiscarded s n
  { v with bringup := { v.bringup with suiteResets := satInc 16 v.bringup.suiteResets } }

theorem finishReset_draining (hs : (getSuite s n).state ≠ .loaded) :
    finishReset s n = settleRetirement (bindEntries (resetCounted s n) n {}) n := by
  unfold finishReset
  dsimp only
  rw [if_neg hs]
  rfl

theorem resetDiscarded_kept : (getSuite (resetDiscarded s n) n).state = (getSuite s n).state ∧ (getSuite (resetDiscarded s n) n).job = (getSuite s n).job
    ∧ (getSuite (resetDiscarded s n) n).slots = [] ∧ (getSuite (resetDiscarded s n) n).saves = [] := by
  have hdiscarded : getSuite (discardFrom (zeroSuiteTiles (holdStep s n) n) n (openStep s n)) n
      = suiteDiscarded (getSuite (holdStep s n) n) (openStep s n) := by
    rw [discardFrom_only]
    exact getSuite_setSuite_same ..
  have hheld : getSuite (holdStep s n) n = { getSuite s n with heldStep := uEntered s n } := getSuite_updSuite_same ..
  unfold resetDiscarded
  dsimp only
  rw [getSuite_setSuite_same, hdiscarded, hheld]
  exact ⟨rfl, rfl, rfl, rfl⟩

theorem resetDiscarded_only : resetDiscarded s n = { s with
    tiles := (zeroSuiteTiles (holdStep s n) n).tiles, suites := (resetDiscarded s n).suites, rings := (resetDiscarded s n).rings } := by
  unfold resetDiscarded
  dsimp only
  rw [discardFrom_only]
  rfl

/-- What the reset of a suite leaves: its state and its job, its slots empty, one reset more, and its tiles free and empty. -/
theorem finishReset_kept (hs : (getSuite s n).state ≠ .loaded) : (getSuite (finishReset s n) n).state = (getSuite s n).state
    ∧ (getSuite (finishReset s n) n).job = (getSuite s n).job ∧ (getSuite (finishReset s n) n).slots = [] ∧ (getSuite (finishReset s n) n).saves = []
    ∧ (finishReset s n).bringup.suiteResets = satInc 16 s.bringup.suiteResets ∧ (finishReset s n).hbm = s.hbm := by
  have hsuite : getSuite (finishReset s n) n = getSuite (buildRoutes (resetCounted s n) n) n := by
    rw [finishReset_draining hs, settleRetirement_only, bindEntries_only rfl]
    rfl
  obtain ⟨r, hroutes⟩ := getSuite_buildRoutes (s := resetCounted s n) (n := n)
  obtain ⟨hstate, hjob, hslots, hsaves⟩ := resetDiscarded_kept (s := s) (n := n)
  rw [hsuite, hroutes]
  refine ⟨hstate, hjob, hslots, hsaves, ?_, ?_⟩
  · rw [finishReset_draining hs, settleRetirement_only, bindEntries_only rfl, buildRoutes_only]
    unfold resetCounted
    rw [resetDiscarded_only]
  · rw [finishReset_draining hs, settleRetirement_only, bindEntries_only rfl, buildRoutes_only]
    unfold resetCounted
    rw [resetDiscarded_only]

/-- A tile that is seated nowhere and holds nothing. -/
def emptied (x : Tile) : Prop := x.suite = none ∧ x.core = {}

theorem finishReset_tile (hs : (getSuite s n).state ≠ .loaded) (ht : (getTile s t).suite = some n) : emptied (getTile (finishReset s n) t) := by
  rw [finishReset_draining hs]
  refine getTile_settleRetirement_of (P := emptied) (fun _ _ h => h) (fun _ _ => ⟨rfl, rfl⟩) ?_
  have htile : getTile (bindEntries (resetCounted s n) n {}) t = getTile (zeroSuiteTiles (holdStep s n) n) t := by
    rw [bindEntries_only rfl, buildRoutes_only]
    unfold resetCounted
    rw [resetDiscarded_only]
    rfl
  rw [htile, getTile_zeroSuiteTiles, show getTile (holdStep s n) t = getTile s t from rfl, if_pos ht]
  exact ⟨rfl, rfl⟩

/-! The end of a stop. -/

theorem dropWindows_only {u status : Nat} : dropWindows s n u status
    = { s with suites := (dropWindows s n u status).suites, rings := (dropWindows s n u status).rings } := by
  unfold dropWindows
  dsimp only
  rw [holdEvents_only (fun st w => windowEvent st n w status) (fun v w => suiteEvent_only ..)]
  rfl

/-- The state with a suite's windows put back and dropped, and its tiles free. -/
def stopFreed (s : State) (n : Nat) : State := unseatAll (dropWindows (holdStep (restoreWindow s n) n) n 0 0x0301) n

/-- The suite stopped: its stop is over, and nothing of it is saved. -/
def stopEnded (s : State) (n : Nat) : State :=
  updSuite (bindEntries (stopFreed s n) n { stay := true }) n (fun x => { x with slice := { x.slice with stopAfter := none }, saves := [] })

theorem finishStop_eq : finishStop s n = settleRetirement (setSuiteState (stopEnded s n) n .loaded) n := rfl

theorem stopEnded_frame : (stopEnded s n).hbm = s.hbm ∧ (stopEnded s n).tiles = (stopFreed s n).tiles := by
  have hbound : (stopEnded s n).hbm = (stopFreed s n).hbm ∧ (stopEnded s n).tiles = (stopFreed s n).tiles := by
    unfold stopEnded
    rw [bindEntries_only rfl, buildRoutes_only]
    exact ⟨rfl, rfl⟩
  obtain ⟨hhbm, htiles⟩ := hbound
  refine ⟨hhbm.trans ?_, htiles⟩
  have hhbm : (stopFreed s n).hbm = (restoreWindow s n).hbm := by
    unfold stopFreed
    rw [dropWindows_only]
    rfl
  exact hhbm.trans (suiteView_hbm suiteView_restoreWindow)

theorem stopEnded_suite : (getSuite (stopEnded s n) n).saves = [] ∧ (getSuite (stopEnded s n) n).slice.stopAfter = none := by
  unfold stopEnded
  rw [getSuite_updSuite_same]
  exact ⟨rfl, rfl⟩

theorem stopFreed_tile (ht : (getTile s t).suite = some n) : (getTile (stopFreed s n) t).suite = none := by
  have hsuite : (getTile (restoreWindow s n) t).suite = some n :=
    (congrArg Tile.suite (suiteView_tile (suiteView_restoreWindow (s := s) (n := n)) t) :).trans ht
  have hdropped : getTile (dropWindows (holdStep (restoreWindow s n) n) n 0 0x0301) t = getTile (restoreWindow s n) t := by
    rw [dropWindows_only]
    rfl
  unfold stopFreed
  rw [getTile_unseatAll, hdropped, if_pos hsuite]
  rfl

/-- What the end of a stop leaves: the suite LOADED with nothing saved, and its tiles free. -/
theorem finishStop_kept : (getSuite (finishStop s n) n).state = .loaded ∧ (getSuite (finishStop s n) n).saves = []
    ∧ (getSuite (finishStop s n) n).slice.stopAfter = none ∧ (finishStop s n).hbm = s.hbm := by
  obtain ⟨hloaded, -, -⟩ := setSuiteState_only (stopEnded s n) n .loaded
  obtain ⟨hhbm, -⟩ := stopEnded_frame (s := s) (n := n)
  obtain ⟨hsaves, hafter⟩ := stopEnded_suite (s := s) (n := n)
  rw [finishStop_eq, getSuite_settleRetirement, hloaded]
  exact ⟨rfl, hsaves, hafter, settleRetirement_frame.1.trans ((setSuiteState_frame .loaded).1.trans hhbm)⟩

theorem finishStop_tile (ht : (getTile s t).suite = some n) : (getTile (finishStop s n) t).suite = none := by
  obtain ⟨-, htiles⟩ := stopEnded_frame (s := s) (n := n)
  rw [finishStop_eq]
  refine getTile_settleRetirement_free ?_
  rw [getTile_setSuiteState]
  exact (congrArg (fun m => (SMap.get ({} : Tile) m t).suite) htiles).trans (stopFreed_tile ht)

/-- A suite whose reset is over. -/
def resetLoaded (s : State) (n : Nat) : State := settleRetirement (setSuiteState (finishReset s n) n .loaded) n

theorem resetLoaded_kept : getSuite (resetLoaded s n) n = { getSuite (finishReset s n) n with state := .loaded }
    ∧ (resetLoaded s n).bringup = (finishReset s n).bringup ∧ (resetLoaded s n).hbm = (finishReset s n).hbm := by
  obtain ⟨hloaded, -, -⟩ := setSuiteState_only (finishReset s n) n .loaded
  exact ⟨getSuite_settleRetirement.trans hloaded, settleRetirement_frame.2.trans (setSuiteState_frame .loaded).2,
    settleRetirement_frame.1.trans (setSuiteState_frame .loaded).1⟩

theorem resetLoaded_tile (h : emptied (getTile (finishReset s n) t)) : emptied (getTile (resetLoaded s n) t) := by
  refine getTile_settleRetirement_of (P := emptied) (fun _ _ h => h) (fun _ _ => ⟨rfl, rfl⟩) ?_
  rw [getTile_setSuiteState]
  exact h

end

/-- Settles O32. -/
theorem suitesResumeSwapAndDrain : Obligations.SuitesResumeSwapAndDrain := by
  refine fun s n => ⟨fun hs hd hb hi hf => ?_, fun t next im hn hi hs hfold hp hm hg he hv hq hr => ?_, fun step hs hstop hsteps hgates hd => ?_,
    fun hs hstop hd hr => ?_, fun hs hstop hd hr hne => ?_⟩
  · have himage : (getSuite (updSuite s n (fun x => { x with excluded := [] })) n).image.isSome = true := by
      rw [getSuite_updSuite_same]
      exact hi
    have hside := restoreSuite_resumes himage
    refine ⟨restoreSuite (updSuite s n (fun x => { x with excluded := [] })) n, ?_, congrArg Prod.fst hside, congrArg (fun v => v.2.1) hside,
      congrArg (fun v => v.2.2) hside⟩
    show execResumeRestoreComplete n [] s = _
    unfold execResumeRestoreComplete
    refine whenDo_true _ _ _ ?_
    rw [hs, hd, hb, hf]
    rfl
  · have hready := swapReady_of hs hfold hp hm hg he hv hq hr
    have hexec : exec (.foldSwap t next []) s = .next (swapEffect s n t next im) := (execFoldSwap_image hn hi).trans (whenDo_true _ _ _ hready)
    refine ⟨fun hev hf hne hc => ?_, fun hev hf heq hc => ?_, fun hev hf => ?_, fun w w1 hev hw h1 hdone hturn => ?_⟩
    · refine ⟨swapped s n t next im, ?_, rfl, getTile_setTile_same .., getSuite_setSuite_same ..⟩
      rw [hexec, swapEffect_swaps hev hf hne hc]
    · rw [hexec, swapEffect_same hev hf heq hc]
    · rw [hexec, swapEffect_other hev hf]
    · obtain ⟨hvtile, hmode⟩ := seatEval_tile (s := setSuite s n { getSuite s n with window := some w1 }) (t := t) (n := n) (next := next) (im := im) (w := w1)
      refine ⟨evalSwapped s n t next im w1, ?_, rfl, hvtile, hmode, ?_⟩
      · rw [hexec, swapEffect_eval hev hw h1 hdone hturn]
      · exact congrArg Suite.window (getSuite_setSuite_same s n { getSuite s n with window := some w1 })
  · obtain ⟨hstate, hsaves, hafter, hhbm⟩ := finishStop_kept (s := s) (n := n)
    refine ⟨finishStop s n, ?_, hstate, hsaves, hafter, hhbm, fun t ht => finishStop_tile ht⟩
    show execSuiteDrainComplete n s = _
    unfold execSuiteDrainComplete
    dsimp only
    rw [if_pos ⟨hs, by rw [hstop]; rfl⟩, hstop, hd]
    refine whenDo_true _ _ _ ?_
    rw [Bool.and_true, Bool.and_eq_true, List.all_eq_true, List.all_eq_true]
    exact ⟨fun v hv => decide_eq_true (hsteps v hv), fun p hp => decide_eq_true (hgates p hp)⟩
  · have hl : (getSuite s n).state ≠ .loaded := by rw [hs]; decide
    obtain ⟨-, -, hslots, hsaves, hresets, hhbm⟩ := finishReset_kept hl
    obtain ⟨hsuite, hbringup, hmem⟩ := resetLoaded_kept (s := s) (n := n)
    refine ⟨resetLoaded s n, ?_, ?_, ?_, ?_, (congrArg Bringup.suiteResets hbringup).trans hresets, hmem.trans hhbm,
      fun t ht => resetLoaded_tile (finishReset_tile hl ht)⟩
    · show execSuiteDrainComplete n s = _
      unfold execSuiteDrainComplete
      dsimp only
      rw [if_neg (by rw [hstop]; exact fun hc => absurd hc.2 (by decide)), hr, hd, hs]
      exact whenDo_true _ _ _ rfl
    · rw [hsuite]
    · rw [hsuite]
      exact hslots
    · rw [hsuite]
      exact hsaves
  · have hl : (getSuite s n).state ≠ .loaded := by rw [hs]; decide
    obtain ⟨hstate, hjob, -, -, -, hhbm⟩ := finishReset_kept hl
    refine ⟨finishReset s n, ?_, hstate.trans hs, hjob, hhbm, fun t ht => (finishReset_tile hl ht).1⟩
    show execSuiteDrainComplete n s = _
    unfold execSuiteDrainComplete
    dsimp only
    rw [if_neg (by rw [hstop]; exact fun hc => absurd hc.2 (by decide)), hr, hd, hs]
    refine (whenDo_true _ _ _ ?_).trans (congrArg _ (if_pos rfl))
    simp [hne]

end Sys2Proof.Machine
end

section
/-!
PROOFS. Checkpoints: the hold at the gate, and the copy of the state (rules R31, R340, R396, R440, R441).
-/
open Sys2Proof Sys2Proof.Says

namespace Sys2Proof.Machine
section
variable {s : State} {n event : Nat} {e : BellEvent} {im : Image} {obs : List MemObs} {su : Suite}

theorem ckptsOf_setCkpts (l : List BellEvent) : ckptsOf (setCkpts su l) = l := by
  cases l <;> rfl

/-- The first checkpoint of a suite holds U at its gate alone. -/
theorem setCkpts_first (h : ckptsOf su = []) : setCkpts su [e] = { su with holdU := some (e.step + 1), ckptEvent := some e } := by
  have hlater : su.laterCkpts = [] := (List.append_eq_nil_iff.mp h).2
  unfold setCkpts
  rw [show ([e] : List BellEvent).drop 1 = su.laterCkpts from hlater.symm]
  rfl

/-- The state with a checkpoint entered in the order of its step. -/
def checkpointHeld (s : State) (n event : Nat) (e : BellEvent) : State :=
  updSuite (popEvent s event) n (fun su => setCkpts su (enterCkpt e (ckptsOf su)))

theorem execCheckpointBell_due (h : dueEvent s event 0x0400 = some e) : exec (.checkpointBell event) s
    = .next (if stepStatus s e.suite e.step = 0 then checkpointHeld s e.suite event e
      else ckptEvent (popEvent s event) e.suite e (stepStatus s e.suite e.step)) := by
  show execCheckpointBell event s = _
  unfold execCheckpointBell
  rw [h]
  rfl

theorem getSuite_checkpointHeld : getSuite (checkpointHeld s n event e) n = setCkpts (getSuite s n) (enterCkpt e (ckptsOf (getSuite s n))) :=
  getSuite_updSuite_same ..

/-! The settling of checkpoints. -/

/-- A checkpoint of a step that is settled is complete. -/
def settledCkpt (s : State) (n : Nat) (c : Checkpoint) : Checkpoint :=
  if !c.complete && decide (c.header ≠ []) && stepSettled s n c.step then { c with complete := true } else c

theorem settledCkpt_keeps (c : Checkpoint) : (settledCkpt s n c).step = c.step ∧ (settledCkpt s n c).slot = c.slot
    ∧ (settledCkpt s n c).scale = c.scale ∧ (settledCkpt s n c).state = c.state := by
  unfold settledCkpt
  split <;> exact ⟨rfl, rfl, rfl, rfl⟩

theorem settleCheckpoints_only : settleCheckpoints s n = { s with
    suites := (settleCheckpoints s n).suites, rings := (settleCheckpoints s n).rings } := by
  unfold settleCheckpoints
  dsimp only
  split
  · rfl
  · rw [holdEvents_only _ (fun v c => suiteEvent_only ..)]
    rfl

/-- Settling completes checkpoints of settled steps, and changes nothing else of the suite but the job's break. -/
theorem getSuite_settleCheckpoints : ∃ j, getSuite (settleCheckpoints s n) n = { getSuite s n with
    checkpoints := (getSuite s n).checkpoints.map (settledCkpt s n), job := j } := by
  unfold settleCheckpoints
  dsimp only
  split
  · next h =>
    have hmap : (getSuite s n).checkpoints.map (settledCkpt s n) = (getSuite s n).checkpoints := by
      refine (List.map_congr_left fun c hc => ?_).trans (List.map_id _)
      exact if_neg fun hr => List.not_mem_nil (h ▸ List.mem_filter.mpr ⟨hc, hr⟩)
    rw [hmap]
    exact ⟨_, rfl⟩
  · rw [holdEvents_only _ (fun v c => suiteEvent_only ..)]
    exact ⟨_, getSuite_setSuite_same ..⟩

/-! The copy. -/

/-- The state with a checkpoint copied into a slot, and the next one held. -/
def checkpointCopied (s : State) (n : Nat) (e : BellEvent) (im : Image) (slot : Nat) (rest : List Checkpoint) : State :=
  setSuite s n { (setCkpts (getSuite s n) (getSuite s n).laterCkpts) with checkpoints := rest ++ [{ (copyCheckpoint s n e.step e.id slot im) with
    vouched := voteStep (getSuite s n) e.step && decide (e.step ≤ (getSuite s n).job.voted) }] }

/-- What the copy of a checkpoint comes to. -/
def copyOutcome (s : State) (n : Nat) (e : BellEvent) (im : Image) : State :=
  match checkpointSlot (getSuite s n) im with
  | none => ckptEvent (setSuite s n (setCkpts (getSuite s n) (getSuite s n).laterCkpts)) n e 0x0308
  | some (slot, rest) => settleCheckpoints (checkpointCopied s n e im slot rest) n

theorem execCheckpointCopyComplete_held (he : (getSuite s n).ckptEvent = some e) (hi : (getSuite s n).image = some im)
    (hobs : obs.filter (obsOfSuite s n) = []) :
    exec (.checkpointCopyComplete n obs) s = whenDo (copyReady s n e.step && !(obs.any losesData)) s (copyOutcome s n e im) := by
  have hread : readObs s n obs = s := by
    unfold readObs
    dsimp only
    rw [hobs]
    rfl
  show execCheckpointCopyComplete n obs s = _
  unfold execCheckpointCopyComplete
  dsimp only
  rw [hread, ite_self]
  show (match (getSuite s n).ckptEvent, (getSuite s n).image with
    | some e, some im => whenDo (copyReady s n e.step && !(obs.any losesData)) s (copyOutcome s n e im)
    | _, _ => ok s) = _
  rw [he, hi]

theorem copyOutcome_slot {slot : Nat} {rest : List Checkpoint} (h : checkpointSlot (getSuite s n) im = some (slot, rest)) :
    copyOutcome s n e im = settleCheckpoints (checkpointCopied s n e im slot rest) n := by
  unfold copyOutcome
  rw [h]

theorem copyOutcome_full (h : checkpointSlot (getSuite s n) im = none) :
    copyOutcome s n e im = ckptEvent (setSuite s n (setCkpts (getSuite s n) (getSuite s n).laterCkpts)) n e 0x0308 := by
  unfold copyOutcome
  rw [h]

end

/-- Settles O29. -/
theorem checkpointsCopyTheState : Obligations.CheckpointsCopyTheState := by
  refine fun s n => ⟨fun event e hdue he => ⟨fun hst => ?_, fun hst => ?_⟩, fun e im he hi hr => ⟨fun slot rest hslot => ?_, fun hslot => ?_,
    fun obs hl ho => ?_⟩⟩
  · subst he
    refine ⟨checkpointHeld s e.suite event e, ?_, rfl, ?_, ?_, fun h => ?_⟩
    · rw [execCheckpointBell_due hdue, if_pos hst]
    · rw [getSuite_checkpointHeld, ckptsOf_setCkpts]
    · rw [getSuite_checkpointHeld, ckptsOf_setCkpts]
      rfl
    · rw [getSuite_checkpointHeld, h]
      exact setCkpts_first h
  · subst he
    refine ⟨ckptEvent (popEvent s event) e.suite e (stepStatus s e.suite e.step), ?_, rfl⟩
    rw [execCheckpointBell_due hdue, if_neg hst]
  · obtain ⟨j, hsuite⟩ := getSuite_settleCheckpoints (s := checkpointCopied s n e im slot rest) (n := n)
    have hcopied : getSuite (checkpointCopied s n e im slot rest) n = _ := getSuite_setSuite_same ..
    rw [hcopied] at hsuite
    obtain ⟨hstep, hplace, hscale, hstate⟩ := settledCkpt_keeps (s := checkpointCopied s n e im slot rest) (n := n) { (copyCheckpoint s n e.step e.id slot im) with
      vouched := voteStep (getSuite s n) e.step && decide (e.step ≤ (getSuite s n).job.voted) }
    refine ⟨settleCheckpoints (checkpointCopied s n e im slot rest) n, settledCkpt (checkpointCopied s n e im slot rest) n
      { (copyCheckpoint s n e.step e.id slot im) with vouched := voteStep (getSuite s n) e.step && decide (e.step ≤ (getSuite s n).job.voted) },
      ?_, ?_, ?_, ?_, ?_, hstep, hplace, hscale, hstate, ?_⟩
    · rw [execCheckpointCopyComplete_held he hi rfl, copyOutcome_slot hslot]
      exact whenDo_true _ _ _ (by rw [hr]; rfl)
    · rw [settleCheckpoints_only]
      rfl
    · rw [hsuite]
      rfl
    · rw [hsuite]
      rfl
    · rw [hsuite]
      exact List.mem_map.mpr ⟨_, List.mem_append_right _ (List.mem_singleton.mpr rfl), rfl⟩
    · rw [hsuite]
      rfl
  · have hsuite := getSuite_setSuite_same s n (setCkpts (getSuite s n) (getSuite s n).laterCkpts)
    refine ⟨ckptEvent (setSuite s n (setCkpts (getSuite s n) (getSuite s n).laterCkpts)) n e 0x0308, ?_, rfl, congrArg Suite.ckptEvent hsuite,
      congrArg Suite.holdU hsuite, (congrArg Suite.checkpoints hsuite :)⟩
    rw [execCheckpointCopyComplete_held he hi rfl, copyOutcome_full hslot]
    exact whenDo_true _ _ _ (by rw [hr]; rfl)
  · rw [execCheckpointCopyComplete_held he hi ho]
    exact whenDo_false _ _ _ (by rw [hl]; exact Bool.and_false _)

end Sys2Proof.Machine
end

section
/-!
PROOFS. Evaluation windows: the gates they close, their start and their end (rules R31, R232 to R234, R340).
-/
open Sys2Proof Sys2Proof.Says

namespace Sys2Proof.Machine
section
variable {s : State} {n t event : Nat} {e : BellEvent} {im : Image} {w w1 : EvalWindow} {su : Suite}

theorem windowsOf_setWindows (l : List EvalWindow) : windowsOf (setWindows su l) = l := by
  cases l <;> rfl

/-- The first window of a suite closes its gate alone. -/
theorem setWindows_first (h : windowsOf su = []) : setWindows su [w] = { su with closedGate := some (w.step + 1), window := some w } := by
  have hlater : su.laterWindows = [] := (List.append_eq_nil_iff.mp h).2
  unfold setWindows
  rw [show ([w] : List EvalWindow).drop 1 = su.laterWindows from hlater.symm]
  rfl

/-- The state with a window entered in the order of its step. -/
def windowHeld (s : State) (n event : Nat) (e : BellEvent) : State :=
  updSuite (popEvent s event) n (fun su => setWindows su (enterWindow { step := e.step, eventId := e.id } (windowsOf su)))

theorem execEvalWindowBell_due (h : dueEvent s event 0x0305 = some e) : exec (.evalWindowBell event) s
    = .next (if stepStatus s e.suite e.step = 0 then windowHeld s e.suite event e
      else windowEvent (popEvent s event) e.suite { step := e.step, eventId := e.id } (stepStatus s e.suite e.step)) := by
  show execEvalWindowBell event s = _
  unfold execEvalWindowBell
  rw [h]
  rfl

theorem getSuite_windowHeld : getSuite (windowHeld s n event e) n
    = setWindows (getSuite s n) (enterWindow { step := e.step, eventId := e.id } (windowsOf (getSuite s n))) := getSuite_updSuite_same ..

/-! The start. -/

theorem postSlots_frame (x : StreamEntry) (tag c : Nat) : (postSlots s x tag c).suites = s.suites ∧ (postSlots s x tag c).hbm = s.hbm := by
  unfold postSlots
  split
  · exact ⟨rfl, rfl⟩
  · rw [sendControl_only s _ _]
    exact ⟨rfl, rfl⟩

/-- Posting the folding entries' slots leaves the suites and the memory. -/
theorem postFold_frame (eval : Bool) : (postFold s n eval).suites = s.suites ∧ (postFold s n eval).hbm = s.hbm := by
  have hpost : ∀ (v : State) (x : StreamEntry) (tag c : Nat), ((postSlots v x tag c).suites, (postSlots v x tag c).hbm) = (v.suites, v.hbm) := fun v x tag c => by
    obtain ⟨hsuites, hhbm⟩ := postSlots_frame (s := v) x tag c
    rw [hsuites, hhbm]
  refine Prod.mk.inj (?_ : ((postFold s n eval).suites, (postFold s n eval).hbm) = (s.suites, s.hbm))
  unfold postFold
  dsimp only
  split
  · rfl
  · refine foldl_preserves (fun v : State => (v.suites, v.hbm)) (fun st i => ?_) _ s
    refine (apply_ite (fun v : State => (v.suites, v.hbm)) ..).trans ?_
    rw [apply_ite (fun v : State => (v.suites, v.hbm)), foldl_preserves (fun v : State => (v.suites, v.hbm)) (fun q j => hpost ..), hpost]
    simp [setEntry]

/-- The state with the resident tiles' evaluation programs seated. -/
def evalSeated (s : State) (n : Nat) (res : List (Nat × Nat)) (im : Image) (w : EvalWindow) : State :=
  res.foldl (fun st p => seatEval st n p.1 p.2 im w) s

theorem seatEval_only {v : Nat} : seatEval s n t v im w = { s with tiles := (seatEval s n t v im w).tiles } := rfl

theorem evalSeated_only {res : List (Nat × Nat)} : evalSeated s n res im w = { s with tiles := (evalSeated s n res im w).tiles } := by
  unfold evalSeated
  refine List.foldlRecOn (motive := fun u : State => u = { s with tiles := u.tiles }) _ _ rfl fun u hu p _ => ?_
  rw [seatEval_only, hu]

/-- Whether a tile runs an evaluation program of a suite. -/
def inEval (s : State) (n t : Nat) : Prop := (getTile s t).evalMode = true ∧ (getTile s t).suite = some n

theorem inEval_seatEval_same {v : Nat} : inEval (seatEval s n t v im w) n t := by
  unfold inEval seatEval
  rw [getTile_setTile_same]
  exact ⟨rfl, rfl⟩

theorem inEval_seatEval {i v : Nat} (h : inEval s n i) : inEval (seatEval s n t v im w) n i := by
  obtain rfl | hi := Decidable.em (i = t)
  · exact inEval_seatEval_same
  · unfold inEval seatEval
    rw [getTile_setTile_other _ _ _ _ hi]
    exact h

theorem inEval_evalSeated {res : List (Nat × Nat)} {p : Nat × Nat} (hp : p ∈ res) : inEval (evalSeated s n res im w) n p.1 := by
  obtain ⟨a, b, rfl⟩ := List.append_of_mem hp
  unfold evalSeated
  rw [List.foldl_append, List.foldl_cons]
  exact List.foldlRecOn (motive := fun u : State => inEval u n p.1) _ _ inEval_seatEval_same fun u hu q _ => inEval_seatEval hu

/-- The window as it starts. -/
def startedWindow (s : State) (n : Nat) (w : EvalWindow) : EvalWindow :=
  { w with started := true, resident := residents s n, entries := s.streams.filter (fun q => q.2.suite == n) }

/-- The state with every resident tile saved and the window started. -/
def windowSaved (s : State) (n : Nat) (im : Image) (w : EvalWindow) : State :=
  setSuite s n { getSuite s n with
    saves := (residents s n).foldl (fun m p => SMap.set m p.2 (slotOf im (getTile s p.1).core)) (getSuite s n).saves
    window := some (startedWindow s n w) }

/-- The state with a window started. -/
def windowStarted (s : State) (n : Nat) (im : Image) (w : EvalWindow) : State :=
  postFold (evalSeated (windowSaved s n im w) n (residents s n) im (startedWindow s n w)) n true

theorem execEvalWindowStart_image (hw : (getSuite s n).window = some w) (hi : (getSuite s n).image = some im) :
    exec (.evalWindowStart n) s = whenDo (decide ((getSuite s n).state = .running) && !w.started && !(getSuite s n).slice.stopping
        && !((ckptsOf (getSuite s n)).any (fun e => e.step == w.step)) && allAtGate s n (w.step + 1) && (residents s n).all (fun p => windowReady s p.1)) s
      (windowStarted s n im w) := by
  show execEvalWindowStart n s = _
  unfold execEvalWindowStart
  dsimp only
  show (match (getSuite s n).window, (getSuite s n).image with
    | some w, some im => whenDo (decide ((getSuite s n).state = SuiteState.running) && !w.started && !(getSuite s n).slice.stopping
        && !((ckptsOf (getSuite s n)).any (fun e => e.step == w.step)) && allAtGate s n (w.step + 1) && (residents s n).all (fun p => windowReady s p.1)) s
      (windowStarted s n im w)
    | _, _ => ok s) = _
  rw [hw, hi]

theorem windowStarted_kept : (windowStarted s n im w).hbm = s.hbm ∧ (getSuite (windowStarted s n im w) n).window = some (startedWindow s n w)
    ∧ ∀ p, p ∈ residents s n → inEval (windowStarted s n im w) n p.1 := by
  obtain ⟨hsuites, hhbm⟩ := postFold_frame (s := evalSeated (windowSaved s n im w) n (residents s n) im (startedWindow s n w)) (n := n) true
  refine ⟨hhbm.trans ?_, ?_, fun p hp => ?_⟩
  · rw [evalSeated_only]
    rfl
  · have hsuite : getSuite (windowStarted s n im w) n = getSuite (windowSaved s n im w) n := by
      refine (congrArg (fun m => SMap.get ({} : Suite) m n) hsuites).trans ?_
      rw [evalSeated_only]
      rfl
    rw [hsuite]
    exact congrArg Suite.window (getSuite_setSuite_same s n _)
  · have htiles : getTile (windowStarted s n im w) p.1 = getTile (evalSeated (windowSaved s n im w) n (residents s n) im (startedWindow s n w)) p.1 :=
      congrArg (fun m => SMap.get ({} : Tile) m p.1) (postFold_tiles true)
    unfold inEval
    rw [htiles]
    exact inEval_evalSeated hp

/-! The end. -/

/-- One tile gets back its virtual tile as it was saved. -/
def tileRestored (s : State) (n : Nat) (p : Nat × Nat) : State :=
  updTile (setSuite s n { getSuite s n with saves := SMap.erase (getSuite s n).saves p.2 }) p.1 (fun x =>
    { x with core := SMap.get {} (getSuite s n).saves p.2, vtile := p.2, evalMode := false, vregs := [], masks := [], units := [] })

theorem restoreWindow_started (hw : (getSuite s n).window = some w) (hs : w.started = true) :
    restoreWindow s n = w.resident.foldl (fun st p => tileRestored st n p) s := by
  unfold restoreWindow
  rw [hw]
  exact if_pos hs

theorem getSuite_tileRestored {p : Nat × Nat} : getSuite (tileRestored s n p) n
    = { getSuite s n with saves := SMap.erase (getSuite s n).saves p.2 } := getSuite_setSuite_same ..

/-- Tiles that get back their virtual tiles change no more of the suite than its saves. -/
theorem foldl_tileRestored_suite (res : List (Nat × Nat)) : ∃ m, getSuite (res.foldl (fun st p => tileRestored st n p) s) n
    = { getSuite s n with saves := m } := by
  refine List.foldlRecOn (motive := fun u : State => ∃ m, getSuite u n = { getSuite s n with saves := m }) _ _ ⟨_, rfl⟩ fun u hu p _ => ?_
  obtain ⟨m, hm⟩ := hu
  rw [getSuite_tileRestored, hm]
  exact ⟨_, rfl⟩

/-- Whether a tile holds a virtual tile in the step. -/
def inStep (s : State) (p : Nat × Nat) : Prop := (getTile s p.1).evalMode = false ∧ (getTile s p.1).vtile = p.2

theorem inStep_tileRestored_same {p : Nat × Nat} : inStep (tileRestored s n p) p := by
  unfold inStep tileRestored
  rw [getTile_updTile_same]
  exact ⟨rfl, rfl⟩

theorem inStep_tileRestored_other {p q : Nat × Nat} (hq : p.1 ≠ q.1) (h : inStep s p) : inStep (tileRestored s n q) p := by
  unfold inStep tileRestored
  rw [getTile_updTile_other _ _ _ _ hq]
  exact h

theorem inStep_foldl_tileRestored {res : List (Nat × Nat)} (hn : (res.map (fun p => p.1)).Nodup) {p : Nat × Nat} (hp : p ∈ res) :
    inStep (res.foldl (fun st q => tileRestored st n q) s) p := by
  obtain ⟨a, b, rfl⟩ := List.append_of_mem hp
  rw [List.map_append, List.map_cons] at hn
  obtain ⟨hlater, -⟩ := List.nodup_cons.mp (List.nodup_append.mp hn).2.1
  rw [List.foldl_append, List.foldl_cons]
  refine List.foldlRecOn (motive := fun u : State => inStep u p) _ _ inStep_tileRestored_same fun u hu q hq => inStep_tileRestored_other (fun heq => ?_) hu
  exact hlater (List.mem_map.mpr ⟨q, hq, heq.symm⟩)

/-- The state with the window's results in the suite's ring. -/
def windowNoted (s : State) (n : Nat) (im : Image) (w : EvalWindow) : State :=
  setSuite s n { getSuite s n with
    ring := SMap.set (getSuite s n).ring (w.step % im.digestPlan.ringDepth) (windowSlot (getSuite s n) im w)
    evals := if (getSuite s n).evals.contains w.step then (getSuite s n).evals else (getSuite s n).evals ++ [w.step] }

theorem execEvalProgramsComplete_image (hw : (getSuite s n).window = some w) (hi : (getSuite s n).image = some im) :
    exec (.evalProgramsComplete n) s = whenDo (executing (getSuite s n) && w.started
      && im.vtiles.all (fun v => w.programsDone.contains v.1 || (residents s n).any (fun p => p.2 == v.1 && evalDone s p.1))) s
      (endWindow (windowNoted s n im w) n 0) := by
  show execEvalProgramsComplete n s = _
  unfold execEvalProgramsComplete
  dsimp only
  show (match (getSuite s n).window, (getSuite s n).image with
    | some w, some im => whenDo (executing (getSuite s n) && w.started
      && im.vtiles.all (fun v => w.programsDone.contains v.1 || (residents s n).any (fun p => p.2 == v.1 && evalDone s p.1))) s
      (endWindow (windowNoted s n im w) n 0)
    | _, _ => ok s) = _
  rw [hw, hi]

/-- The end of a window whose programs have all ended. -/
theorem endWindow_good (hw : (getSuite s n).window = some w) : endWindow s n 0 = windowEvent (updSuite (restoreWindow s n) n
    (fun su => { (setWindows su su.laterWindows) with bindings := su.evalNext.getD su.bindings, evalNext := none })) n w 0 := by
  unfold endWindow
  rw [hw]
  rfl

theorem endWindow_suite (hw : (getSuite s n).window = some w) (hs : w.started = true) :
    (getSuite (endWindow s n 0) n).window = (getSuite s n).laterWindows.head?
    ∧ (getSuite (endWindow s n 0) n).closedGate = lowestGate ((getSuite s n).laterWindows.map (fun x => x.step))
    ∧ (getSuite (endWindow s n 0) n).ring = (getSuite s n).ring ∧ (getSuite (endWindow s n 0) n).evals = (getSuite s n).evals := by
  obtain ⟨m, hm⟩ := foldl_tileRestored_suite (s := s) (n := n) w.resident
  rw [← restoreWindow_started hw hs] at hm
  have hsuite := getSuite_updSuite_same (restoreWindow s n) n
    (fun su => { (setWindows su su.laterWindows) with bindings := su.evalNext.getD su.bindings, evalNext := none })
  rw [hm] at hsuite
  rw [endWindow_good hw]
  exact ⟨(congrArg Suite.window hsuite :), (congrArg Suite.closedGate hsuite :), (congrArg Suite.ring hsuite :), (congrArg Suite.evals hsuite :)⟩

theorem endWindow_tile (hw : (getSuite s n).window = some w) (hs : w.started = true) (hn : (w.resident.map (fun p => p.1)).Nodup) {p : Nat × Nat}
    (hp : p ∈ w.resident) : inStep (endWindow s n 0) p := by
  rw [endWindow_good hw, restoreWindow_started hw hs]
  exact inStep_foldl_tileRestored hn hp

theorem windowNoted_suite : getSuite (windowNoted s n im w) n = { getSuite s n with
    ring := SMap.set (getSuite s n).ring (w.step % im.digestPlan.ringDepth) (windowSlot (getSuite s n) im w)
    evals := if (getSuite s n).evals.contains w.step then (getSuite s n).evals else (getSuite s n).evals ++ [w.step] } := getSuite_setSuite_same ..

end

/-- Settles O28. -/
theorem evaluationWindowsRunBetweenSteps : Obligations.EvaluationWindowsRunBetweenSteps := by
  refine fun s n => ⟨fun event e hdue he => ⟨fun hst => ?_, fun hst => ?_⟩, fun w im hw hi hs hstart hp hb hg hr => ?_, fun w im hw hi hs hstart hall => ?_⟩
  · subst he
    refine ⟨windowHeld s e.suite event e, ?_, rfl, ?_, ?_, fun h => ?_⟩
    · rw [execEvalWindowBell_due hdue, if_pos hst]
    · rw [getSuite_windowHeld, windowsOf_setWindows]
    · rw [getSuite_windowHeld, windowsOf_setWindows]
      rfl
    · rw [getSuite_windowHeld, h]
      exact setWindows_first h
  · subst he
    refine ⟨windowEvent (popEvent s event) e.suite { step := e.step, eventId := e.id } (stepStatus s e.suite e.step), ?_, rfl⟩
    rw [execEvalWindowBell_due hdue, if_neg hst]
  · obtain ⟨hhbm, hwindow, htiles⟩ := windowStarted_kept (s := s) (n := n) (im := im) (w := w)
    refine ⟨windowStarted s n im w, ?_, hhbm, ⟨startedWindow s n w, hwindow, rfl, rfl, rfl⟩, htiles⟩
    rw [execEvalWindowStart_image hw hi]
    refine whenDo_true _ _ _ ?_
    rw [hs, hstart, hp, hb, hg, List.all_eq_true.mpr hr]
    rfl
  · have hw' : (getSuite (windowNoted s n im w) n).window = some w := by rw [windowNoted_suite]; exact hw
    obtain ⟨hwindow, hgate, hring, hevals⟩ := endWindow_suite hw' hstart
    rw [windowNoted_suite] at hwindow hgate hring hevals
    refine ⟨endWindow (windowNoted s n im w) n 0, ?_, (suiteView_hbm (suiteView_endWindow (s := windowNoted s n im w) 0) :), hwindow, hgate, fun hl => ?_, ?_, ?_,
      fun hn p hp => endWindow_tile hw' hstart hn hp⟩
    · rw [execEvalProgramsComplete_image hw hi]
      refine whenDo_true _ _ _ ?_
      rw [hstart, hall]
      simp [executing, hs]
    · rw [hwindow, hgate, hl]
      exact ⟨rfl, rfl⟩
    · rw [hring]
      exact SMap.get_set_same ..
    · rw [hevals]
      dsimp only
      split
      · assumption
      · simp

end Sys2Proof.Machine
end

section
/-!
PROOFS. Ranks that halt, restore and are taken over (rules R331, R335 to R338, R340, R431, R432).
-/
open Sys2Proof Sys2Proof.Says

namespace Sys2Proof.Machine
section
variable {s : State} {n m t e u step first : Nat} {q : Bool} {im : Image}

/-! What a halt leaves alone: the memory, the fuses, and of a suite its job and its steps. -/

/-- The memory, the fuses, and each suite's job and steps. -/
def haltSide (s : State) : Memory × Fuses × (Nat → JobState × SMap StepAcc) :=
  (s.hbm, s.fuse, fun m => ((getSuite s m).job, (getSuite s m).steps))

theorem haltSide_eq {v : State} (h : haltSide v = haltSide s) (m : Nat) :
    v.hbm = s.hbm ∧ v.fuse = s.fuse ∧ (getSuite v m).job = (getSuite s m).job ∧ (getSuite v m).steps = (getSuite s m).steps :=
  ⟨congrArg Prod.fst h, congrArg (fun v => v.2.1) h, congrArg (fun v => (v.2.2 m).1) h, congrArg (fun v => (v.2.2 m).2) h⟩

theorem haltSide_updSuite {g : Suite → Suite} (hg : ∀ x, (g x).job = x.job ∧ (g x).steps = x.steps) : haltSide (updSuite s n g) = haltSide s := by
  have hsuites : (fun m => ((getSuite (updSuite s n g) m).job, (getSuite (updSuite s n g) m).steps))
      = fun m => ((getSuite s m).job, (getSuite s m).steps) := by
    funext m
    obtain rfl | hm := Decidable.em (m = n)
    · obtain ⟨hjob, hsteps⟩ := hg (getSuite s m)
      rw [getSuite_updSuite_same, hjob, hsteps]
    · rw [getSuite_updSuite_other _ _ _ _ hm]
  unfold haltSide
  rw [hsuites]
  rfl

theorem haltSide_restoreWindow : haltSide (restoreWindow s n) = haltSide s := by
  unfold restoreWindow
  split
  · rfl
  · split
    · refine foldl_preserves haltSide (fun st p => ?_) _ _
      exact haltSide_updSuite (s := st) (g := fun su => { su with saves := SMap.erase su.saves p.2 }) fun _ => ⟨rfl, rfl⟩
    · rfl

theorem haltSide_dropWindows {status : Nat} : haltSide (dropWindows s n u status) = haltSide s := by
  unfold dropWindows
  dsimp only
  refine Eq.trans (foldl_preserves haltSide ?_ _ _) ?_
  · exact fun _ _ => rfl
  · exact haltSide_updSuite (g := fun su => setWindows su _) fun _ => ⟨rfl, rfl⟩

theorem haltSide_dropPending {status : Nat} : haltSide (dropPending s n u status) = haltSide s := by
  unfold dropPending
  dsimp only
  refine Eq.trans (foldl_preserves haltSide ?_ _ _) ?_
  · exact fun _ _ => rfl
  · exact (haltSide_updSuite (g := fun su => setCkpts su _) fun _ => ⟨rfl, rfl⟩).trans haltSide_dropWindows

theorem haltSide_absorbEntry {st : EntryState} {spare : Nat} : haltSide (absorbEntry s e st spare q) = haltSide s := by
  unfold absorbEntry
  exact haltSide_updSuite (g := fun su => { su with counts := { su.counts with absorbed := su.counts.absorbed + _ } }) fun _ => ⟨rfl, rfl⟩

theorem haltSide_ite {c : Prop} [Decidable c] {a b : State} (ha : haltSide a = haltSide s) (hb : haltSide b = haltSide s) :
    haltSide (if c then a else b) = haltSide s := by
  split
  · exact ha
  · exact hb

theorem haltSide_sendControl {port : Nat} {b : Bytes} : haltSide (sendControl s port b) = haltSide s := by
  rw [sendControl_only s port b]
  rfl

/-- The state with an entry's transfers absorbed or dropped. -/
def entryStopped (s : State) (e : Nat) : State :=
  if (getEntry s e).type = typeInput ∨ (!(getEntry s e).outbound ∧ (getEntry s e).type ≠ typeMemory) then absorbAll s e
  else updSuite (updEntry (dropQueued s e) e (fun y => { y with absorbed := satAdd 32 y.absorbed (unstarted s e) })) (getEntry s e).suite
    (fun su => { su with counts := { su.counts with absorbed := su.counts.absorbed + unstarted s e } })

theorem haltSide_dropQueued : haltSide (updEntry (dropQueued s e) e (fun y => { y with absorbed := satAdd 32 y.absorbed u })) = haltSide s := rfl

theorem haltSide_entryStopped : haltSide (entryStopped s e) = haltSide s := by
  unfold entryStopped
  refine haltSide_ite haltSide_absorbEntry (Eq.trans (haltSide_updSuite ?_) haltSide_dropQueued)
  exact fun _ => ⟨rfl, rfl⟩

theorem haltSide_stopEntry : haltSide (stopEntry s e) = haltSide s := by
  have hstopped := haltSide_entryStopped (s := s) (e := e)
  unfold stopEntry
  dsimp only
  show haltSide (if _ then sendControl (entryStopped s e) _ _ else entryStopped s e) = _
  generalize entryStopped s e = v at hstopped ⊢
  exact haltSide_ite (haltSide_sendControl.trans hstopped) hstopped

theorem haltSide_setSuiteState (x : SuiteState) : haltSide (setSuiteState s n x) = haltSide s := by
  obtain ⟨hsame, hother, honly⟩ := setSuiteState_only s n x
  have hsuites : (fun m => ((getSuite (setSuiteState s n x) m).job, (getSuite (setSuiteState s n x) m).steps))
      = fun m => ((getSuite s m).job, (getSuite s m).steps) := by
    funext m
    obtain rfl | hm := Decidable.em (m = n)
    · rw [hsame]
    · rw [hother m hm]
  unfold haltSide
  rw [hsuites, honly]

/-- The state with a suite's slice ended. -/
def sliceStopped (s : State) (n : Nat) : State :=
  updSuite s n (fun x => { x with slice := { x.slice with stopping := false, waitingSlice := false, stopAfter := none, resumeAsked := false } })

theorem haltSide_sliceStopped : haltSide (sliceStopped s n) = haltSide s := haltSide_updSuite
  (g := fun x => { x with slice := { x.slice with stopping := false, waitingSlice := false, stopAfter := none, resumeAsked := false } }) fun _ => ⟨rfl, rfl⟩

theorem haltSide_haltSuiteTiles : haltSide (haltSuiteTiles s n) = haltSide s := rfl

theorem haltSide_beginReset : haltSide (beginReset s n) = haltSide s := by
  have hhalted : haltSide (if (getSuite s n).state = .loaded then s else haltSuiteTiles s n) = haltSide s := haltSide_ite rfl haltSide_haltSuiteTiles
  show haltSide (if (getSuite s n).state = .running ∨ (getSuite s n).state = .faulted then _ else _) = _
  generalize (if (getSuite s n).state = .loaded then s else haltSuiteTiles s n) = v at hhalted
  have hstopped : haltSide (sliceStopped (dropPending (restoreWindow ((suiteEntries v n).foldl stopEntry v) n) n 0 0x0401) n) = haltSide s :=
    haltSide_sliceStopped.trans (haltSide_dropPending.trans (haltSide_restoreWindow.trans
      ((foldl_preserves haltSide (fun _ _ => haltSide_stopEntry) _ _).trans hhalted)))
  exact haltSide_ite ((haltSide_setSuiteState _).trans hstopped) hstopped

theorem haltSide_setHeld (l : List EvalWindow) (k : List BellEvent) :
    haltSide (updSuite s n (fun x => setCkpts (setWindows x l) k)) = haltSide s := haltSide_updSuite fun _ => ⟨rfl, rfl⟩

/-! The halt. -/

/-- The state in which a rank halts, its windows and checkpoints set aside and its entries absorbed. -/
def haltAbsorbed (s : State) (n u : Nat) : State :=
  let none1 := updSuite (dropPending (restoreWindow s n) n u 0x0301) n (fun su => setCkpts (setWindows su []) [])
  (suiteEntries none1 n).foldl absorbAll (haltSuiteTiles none1 n)

/-- The state of a rank that halts, but for what it notes of the halt itself. -/
def haltHeld (s : State) (n u : Nat) : State :=
  let keep := getSuite (dropPending (restoreWindow s n) n u 0x0301) n
  updSuite (beginReset (discardFrom (haltAbsorbed s n u) n u) n) n (fun x => setCkpts (setWindows x (windowsOf keep)) (ckptsOf keep))

theorem haltForRollback_running (h : (getSuite s n).state = .running) : haltForRollback s n u
    = updSuite (haltHeld s n u) n (fun x => { x with job := { x.job with rollback := !x.job.stopHalt, haltStep := u, haltBell := none } }) := by
  unfold haltForRollback
  dsimp only
  rw [h]
  rfl

theorem discardFrom_suite : getSuite (discardFrom s n u) n = suiteDiscarded (getSuite s n) u := by
  rw [discardFrom_only]
  exact getSuite_setSuite_same ..

theorem discardFrom_frame : (discardFrom s n u).hbm = s.hbm ∧ (discardFrom s n u).fuse = s.fuse := by
  rw [discardFrom_only]
  exact ⟨rfl, rfl⟩

theorem haltSide_haltAbsorbed : haltSide (haltAbsorbed s n u) = haltSide s :=
  (foldl_preserves haltSide (fun _ _ => haltSide_absorbEntry) _ _).trans
    (haltSide_haltSuiteTiles.trans ((haltSide_setHeld [] []).trans (haltSide_dropPending.trans haltSide_restoreWindow)))

theorem haltSide_haltHeld : haltSide (haltHeld s n u) = haltSide (discardFrom (haltAbsorbed s n u) n u) := (haltSide_setHeld ..).trans haltSide_beginReset

/-- The suite's job as its rank halts is the job it had, and of its steps those below the halt stand. -/
theorem haltHeld_kept : (getSuite (haltHeld s n u) n).job = (getSuite s n).job
    ∧ (getSuite (haltHeld s n u) n).steps = (getSuite s n).steps.filter (fun p => decide (p.1 < u))
    ∧ (haltHeld s n u).hbm = s.hbm ∧ (haltHeld s n u).fuse = s.fuse := by
  obtain ⟨hhbm, hfuse, hjob, hsteps⟩ := haltSide_eq (haltSide_haltHeld (s := s) (n := n) (u := u)) n
  obtain ⟨hhbm', hfuse', hjob', hsteps'⟩ := haltSide_eq (haltSide_haltAbsorbed (s := s) (n := n) (u := u)) n
  obtain ⟨hhbm'', hfuse''⟩ := discardFrom_frame (s := haltAbsorbed s n u) (n := n) (u := u)
  rw [discardFrom_suite] at hjob hsteps
  refine ⟨hjob.trans hjob', hsteps.trans ?_, hhbm.trans (hhbm''.trans hhbm'), hfuse.trans (hfuse''.trans hfuse')⟩
  rw [← hsteps']
  rfl

/-- A rank that halts at its bell. -/
theorem execHaltBell_below (ht : isTop s = false) (hb : (getSuite s n).job.haltBell = some t) (hr : (getSuite s n).job.rank.isSome = true) :
    exec (.haltBell n) s = whenDo (decide (t ≤ s.bell.count) && (decide ((getSuite s n).state = .running) || decide ((getSuite s n).state = .preempted)
      || decide ((getSuite s n).state = .draining))) s (haltForRollback s n (getSuite s n).job.haltStep) := by
  show execHaltBell n s = _
  unfold execHaltBell
  dsimp only
  rw [hb, ht]
  dsimp only
  rw [if_neg Bool.false_ne_true]
  dsimp only
  rw [if_pos hr]

/-! The restore. -/

/-- The state but for the stacks' memory. -/
def memoryless (s : State) : State := { s with hbm := [] }

theorem memoryless_suiteRestore {a len off : Nat} {x : Memory} : memoryless (suiteRestore s n a len off x) = memoryless s := by
  unfold suiteRestore
  refine foldl_preserves memoryless (fun st c => ?_) _ _
  split
  · unfold suiteSetByte
    split <;> rfl
  · rfl

/-- Restoring tensors writes the stacks' memory alone. -/
theorem memoryless_restoreTensors {x : Memory} {others : Bool} : memoryless (restoreTensors s n x others) = memoryless s := by
  unfold restoreTensors
  split
  · rfl
  · refine foldl_preserves memoryless (fun st p => ?_) _ _
    dsimp only
    split
    · exact memoryless_suiteRestore
    · split <;> rfl

theorem getSuite_restoreTensors {x : Memory} {others : Bool} : getSuite (restoreTensors s n x others) m = getSuite s m :=
  (congrArg (fun v => getSuite v m) memoryless_restoreTensors :)

theorem getSuite_restoreCheckpoint {c : Checkpoint} : getSuite (restoreCheckpoint s n c) n
    = { getSuite s n with scale := c.scale, readyStep := c.step, slots := [], heldStep := c.step } := by
  unfold restoreCheckpoint
  rw [getSuite_updSuite_same, getSuite_restoreTensors]

/-- Wherever a suite restores from, its image stays. -/
theorem restorePoint_image {v : State} (h : restorePoint s n = some (v, step)) : (getSuite v n).image = (getSuite s n).image := by
  unfold restorePoint at h
  dsimp only at h
  split at h
  · cases h
    rfl
  · split at h
    · cases h
      rw [getSuite_updSuite_same, getSuite_restoreTensors]
    · obtain ⟨c, -, hc⟩ := Option.map_eq_some_iff.mp h
      cases hc
      rw [getSuite_restoreCheckpoint]
      exact replan_image

theorem getSuite_addRunRecord {b : Bytes} : getSuite (addRunRecord s n b) n = { getSuite s n with runRecord := (getSuite s n).runRecord ++ b } := by
  have hsuite := getSuite_updSuite_same s n (fun su => { su with runRecord := su.runRecord ++ b })
  unfold addRunRecord
  dsimp only
  split <;> exact hsuite

theorem beginSlice_firstStep : (getSuite (beginSlice s n) n).firstStep = (getSuite s n).firstStep := by
  unfold beginSlice beginSliceAt
  rw [getSuite_updSuite_same]
  dsimp only
  split <;> rfl

theorem setSuiteState_firstStep (x : SuiteState) : (getSuite (setSuiteState s n x) n).firstStep = (getSuite s n).firstStep := by
  rw [(setSuiteState_only s n x).1]

/-- The suite as it is launched from a step. -/
def launchSet (s : State) (n first : Nat) (busy : Bool) : State :=
  updSuite s n (fun su => { su with
      firstStep := first, foldStep := first - 1
      slice := { su.slice with waitingSlice := busy, rotation := busy, stopping := false, stopAfter := none, resumeAsked := false }
      job := { su.job with voted := min su.job.voted (first - 1), votePending := none, voteBell := 0, poisonedStep := none, haltBell := none,
                           owner := (0xFFFFFFFF, 0xFFFFFFFF), rollback := false, inPlace := false, toCheckpoint := false, anyCheckpoint := none, stopHalt := false,
                           takeover := none } })

theorem launchSet_firstStep {busy : Bool} : (getSuite (launchSet s n first busy) n).firstStep = first := by
  unfold launchSet
  rw [getSuite_updSuite_same]

theorem launch_image {fresh : Bool} (h : (getSuite s n).image.isSome = true) : ∃ (v : State) (b : Bytes), launch s n first fresh
    = if groupBusy s n then setSuiteState (setSuiteState (foldResolutions (addRunRecord (launchSet v n first (groupBusy s n)) n b) n) n .running) n .preempted
      else beginSlice (setSuiteState (foldResolutions (addRunRecord (launchSet v n first (groupBusy s n)) n b) n) n .running) n := by
  obtain ⟨im, him⟩ := Option.isSome_iff_exists.mp h
  unfold launch
  rw [him]
  exact ⟨_, _, rfl⟩

/-- A suite that is launched starts at its first step. -/
theorem launch_firstStep {fresh : Bool} (h : (getSuite s n).image.isSome = true) : (getSuite (launch s n first fresh) n).firstStep = first := by
  obtain ⟨v, b, heq⟩ := launch_image (first := first) (fresh := fresh) h
  have hrecorded : (getSuite (foldResolutions (addRunRecord (launchSet v n first (groupBusy s n)) n b) n) n).firstStep = first := by
    show (getSuite (addRunRecord (launchSet v n first (groupBusy s n)) n b) n).firstStep = first
    rw [getSuite_addRunRecord]
    exact launchSet_firstStep
  rw [heq]
  split
  · rw [setSuiteState_firstStep, setSuiteState_firstStep, hrecorded]
  · rw [beginSlice_firstStep, setSuiteState_firstStep, hrecorded]

/-- The state of a rank restored to a step, running from the one after. -/
def rankRestored (s s1 : State) (n step : Nat) : State :=
  let su := getSuite s n
  updSuite (addRunRecord (launch (discardFrom s1 n (step + 1)) n (step + 1) true) n
    (cborMap [(0, some (cborUint 5)), (1, some (cborBytes (bytesAt su.job.lineage 0 16))), (2, some (cborUint su.job.haltStep)),
      (3, some (cborUint s.bell.count)), (8, some (cborUint step)), (9, some (cborArray [cborUint su.job.owner.1, cborUint su.job.owner.2]))])) n
    (fun x => { x with job := { x.job with restore := step, rollbacks := satInc 8 x.job.rollbacks } })

theorem rankRestored_from {s1 : State} (h : (getSuite s1 n).image.isSome = true) : (getSuite (rankRestored s s1 n step) n).job.restore = step
    ∧ (getSuite (rankRestored s s1 n step) n).firstStep = step + 1 := by
  have himage : (getSuite (discardFrom s1 n (step + 1)) n).image.isSome = true := by
    rw [discardFrom_suite]
    exact h
  unfold rankRestored
  dsimp only
  rw [getSuite_updSuite_same, getSuite_addRunRecord]
  exact ⟨rfl, launch_firstStep himage⟩

/-- What the restore of a rank comes to. -/
def restoreOutcome (s : State) (n : Nat) : State :=
  match restorePoint s n with
  | none => faultSuite s n
  | some (s1, u) => if (mapFailure s1 n).isSome || smallMemory s1 n then faultSuite s1 n else rankRestored s s1 n u

theorem execJobRestoreComplete_ready (hs : (getSuite s n).state = .draining ∨ (getSuite s n).state = .loaded) (hr : (getSuite s n).job.rollback = true)
    (hb : (getSuite s n).job.haltBell = none) (hd : drained s n = true) (he : suiteStreams s n = []) :
    exec (.jobRestoreComplete n []) s = .next (restoreOutcome s n) := by
  show execJobRestoreComplete n [] s = _
  unfold execJobRestoreComplete
  refine (whenDo_true _ _ _ ?_).trans rfl
  rw [hr, hb, hd, he]
  obtain hs | hs := hs <;> rw [hs] <;> rfl

theorem restoreOutcome_nowhere (h : restorePoint s n = none) : restoreOutcome s n = faultSuite s n := by
  unfold restoreOutcome
  rw [h]

theorem restoreOutcome_from {s1 : State} (h : restorePoint s n = some (s1, step)) : restoreOutcome s n
    = if (mapFailure s1 n).isSome || smallMemory s1 n then faultSuite s1 n else rankRestored s s1 n step := by
  unfold restoreOutcome
  rw [h]

/-! The takeover. -/

theorem writeTensors_only {data : List (Nat × Bytes)} : writeTensors s n im data = { s with hbm := (writeTensors s n im data).hbm } := by
  unfold writeTensors
  refine List.foldlRecOn (motive := fun v : State => v = { s with hbm := v.hbm }) _ _ rfl fun v hv d _ => ?_
  dsimp only
  split
  · rw [suiteSetBytes_hbm_only, hv]
  · exact hv

theorem answerTakeover_only {status : Nat} : EndOnly s (answerTakeover s n status) :=
  foldl_ends _ (fun _ _ => foldl_ends _ (fun _ _ => finish_only ..) _ _) _ _

theorem answerTakeover_kept {status : Nat} : (answerTakeover s n status).suites = s.suites ∧ (answerTakeover s n status).tiles = s.tiles
    ∧ (answerTakeover s n status).hbm = s.hbm := by
  have honly := answerTakeover_only (s := s) (n := n) (status := status)
  exact ⟨(congrArg State.suites honly :), (congrArg State.tiles honly :), (congrArg State.hbm honly :)⟩

/-- The state of a spare that takes no rank over. -/
def takeoverDropped (s : State) (n : Nat) : State := updSuite s n (fun x => { x with job := { x.job with takeover := none } })

/-- What a takeover's transfer comes to at a module that is not the top. -/
def transferOutcome (s : State) (n : Nat) (ok : Bool) (p : Bytes) (im : Image) (data : List (Nat × Bytes)) (scale : Bytes) : State :=
  let good := ok && takeoverReady (getSuite s n) p && decide ((getSuite s n).state = .loaded)
  answerTakeover (if good then finishTakeover s n im p data scale
      else takeoverDropped s n) n
    (if good then 0 else if takeoverReady (getSuite s n) p then 0x0403 else 0x030F)

theorem transferOutcome_done {p : Bytes} {data : List (Nat × Bytes)} {scale : Bytes} (hs : (getSuite s n).state = .loaded)
    (hready : takeoverReady (getSuite s n) p = true) :
    transferOutcome s n true p im data scale = answerTakeover (finishTakeover s n im p data scale) n 0 := by
  have hgood : (true && takeoverReady (getSuite s n) p && decide ((getSuite s n).state = .loaded)) = true := by rw [hready, hs]; rfl
  unfold transferOutcome
  dsimp only
  rw [if_pos hgood, if_pos hgood]

theorem transferOutcome_failed {p : Bytes} {data : List (Nat × Bytes)} {scale : Bytes} :
    transferOutcome s n false p im data scale
      = answerTakeover (takeoverDropped s n) n (if takeoverReady (getSuite s n) p then 0x0403 else 0x030F) := by
  have hbad : ¬((false && takeoverReady (getSuite s n) p && decide ((getSuite s n).state = .loaded)) = true) := Bool.false_ne_true
  unfold transferOutcome
  dsimp only
  rw [if_neg hbad, if_neg hbad]

theorem execTakeoverTransferComplete_below {ok : Bool} {p : Bytes} {data : List (Nat × Bytes)} {scale : Bytes} (hp : (getSuite s n).job.takeover = some p)
    (hi : (getSuite s n).image = some im) (hs : (getSuite s n).state = .loaded) (ht : isTop s = false) :
    exec (.takeoverTransferComplete n ok data scale) s = .next (transferOutcome s n ok p im data scale) := by
  have hbody : ∀ (c : Bool), c = false → ∀ a b : Option (Nat × Job), (if c = true then a else b) = b := fun c hc a b => if_neg (by rw [hc]; decide)
  show execTakeoverTransferComplete n ok data scale s = _
  unfold execTakeoverTransferComplete
  dsimp only
  split
  · next p' im' hp' hi' =>
    cases hp.symm.trans hp'
    cases hi.symm.trans hi'
    rw [hbody _ ht]
    exact whenDo_true _ _ _ (by rw [hs]; rfl)
  · next hno => exact absurd hi (fun h => hno p im hp h)

theorem restoreCheckpoint_tiles {c : Checkpoint} : (restoreCheckpoint s n c).tiles = s.tiles := by
  unfold restoreCheckpoint
  exact (congrArg State.tiles memoryless_restoreTensors :)

/-- A takeover that completes gives the spare its rank, to restore in place. -/
theorem finishTakeover_kept {p : Bytes} {data : List (Nat × Bytes)} {scale : Bytes} :
    (getSuite (finishTakeover s n im p data scale) n).job.rank = some (fieldAt p 16 4)
    ∧ (getSuite (finishTakeover s n im p data scale) n).job.lineage = bytesAt p 0 16
    ∧ (getSuite (finishTakeover s n im p data scale) n).job.takeover = none
    ∧ (getSuite (finishTakeover s n im p data scale) n).job.haltStep = fieldAt p 20 4 + 1
    ∧ (getSuite (finishTakeover s n im p data scale) n).job.rollback = true
    ∧ (finishTakeover s n im p data scale).tiles = s.tiles := by
  unfold finishTakeover
  dsimp only
  rw [getSuite_updSuite_same]
  refine ⟨rfl, rfl, rfl, rfl, rfl, ?_⟩
  show (match _ with | some c => restoreCheckpoint s n c | none => _ : State).tiles = _
  split
  · exact restoreCheckpoint_tiles
  · show (writeTensors s n im data).tiles = s.tiles
    rw [writeTensors_only]

end

/-- Settles O26. -/
theorem ranksHaltAndRestore : Obligations.RanksHaltAndRestore := by
  refine ⟨fun s n h ht hb hr => ⟨fun hbell hs => ?_, fun hbell => ?_⟩, fun s n => ⟨fun hs hrb hb hd he => ⟨fun hp => ?_, fun t step hp hf => ?_,
    fun t step hp hm hsm hi => ?_, fun hin => ?_⟩, fun p im data scale hp hi hs ht => ⟨fun hready => ?_, ?_⟩⟩⟩
  · obtain ⟨hjob, hsteps, hhbm, hfuse⟩ := haltHeld_kept (s := s) (n := n) (u := (getSuite s n).job.haltStep)
    refine ⟨haltForRollback s n (getSuite s n).job.haltStep, ?_, rfl, ?_⟩
    · rw [execHaltBell_below ht hb hr]
      refine whenDo_true _ _ _ ?_
      rw [hs, decide_eq_true hbell]
      rfl
    · rw [haltForRollback_running hs]
      generalize haltHeld s n (getSuite s n).job.haltStep = v at hjob hsteps hhbm hfuse ⊢
      rw [getSuite_updSuite_same]
      refine ⟨rfl, rfl, congrArg (fun j : JobState => !j.stopHalt) hjob, fun q hq => ?_, hhbm, hfuse⟩
      have hq' : q ∈ (getSuite v n).steps := hq
      rw [hsteps] at hq'
      exact of_decide_eq_true (List.mem_filter.mp hq').2
  · rw [execHaltBell_below ht hb hr]
    refine whenDo_false _ _ _ ?_
    rw [decide_eq_false (Nat.not_le.mpr hbell)]
    rfl
  · obtain ⟨hsuite, -, honly⟩ := setSuiteState_only s n .faulted
    refine ⟨faultSuite s n, ?_, congrArg Suite.state hsuite, (setSuiteState_frame .faulted).1, (congrArg State.tiles honly :)⟩
    rw [execJobRestoreComplete_ready hs hrb hb hd he, restoreOutcome_nowhere hp]
  · refine ⟨faultSuite t n, ?_, congrArg Suite.state (setSuiteState_only t n .faulted).1⟩
    rw [execJobRestoreComplete_ready hs hrb hb hd he, restoreOutcome_from hp, if_pos (Bool.or_eq_true_iff.mpr hf)]
  · refine ⟨rankRestored s t n step, ?_, rankRestored_from ((congrArg Option.isSome (restorePoint_image hp)).trans hi)⟩
    rw [execJobRestoreComplete_ready hs hrb hb hd he, restoreOutcome_from hp, hm, hsm]
    rfl
  · exact if_pos hin
  · obtain ⟨hrank, hlineage, htakeover, hstep, hrollback, htiles⟩ := finishTakeover_kept (s := s) (n := n) (im := im) (p := p) (data := data) (scale := scale)
    obtain ⟨hsuites, hkept, -⟩ := answerTakeover_kept (s := finishTakeover s n im p data scale) (n := n) (status := 0)
    have hsuite : getSuite (answerTakeover (finishTakeover s n im p data scale) n 0) n = getSuite (finishTakeover s n im p data scale) n :=
      congrArg (fun v => SMap.get ({} : Suite) v n) hsuites
    refine ⟨answerTakeover (finishTakeover s n im p data scale) n 0, ?_, ?_⟩
    · rw [execTakeoverTransferComplete_below hp hi hs ht, transferOutcome_done hs hready]
    · rw [hsuite]
      exact ⟨hrank, hlineage, htakeover, hstep, hrollback, hkept.trans htiles⟩
  · obtain ⟨hsuites, htiles, hhbm⟩ := answerTakeover_kept (s := takeoverDropped s n) (n := n)
      (status := if takeoverReady (getSuite s n) p then 0x0403 else 0x030F)
    have hsuite : getSuite (answerTakeover (takeoverDropped s n) n (if takeoverReady (getSuite s n) p then 0x0403 else 0x030F)) n
        = getSuite (takeoverDropped s n) n := congrArg (fun v => SMap.get ({} : Suite) v n) hsuites
    refine ⟨answerTakeover (takeoverDropped s n) n (if takeoverReady (getSuite s n) p then 0x0403 else 0x030F), ?_, ?_, ?_, hhbm, htiles⟩
    · rw [execTakeoverTransferComplete_below hp hi hs ht, transferOutcome_failed]
    · rw [hsuite, takeoverDropped, getSuite_updSuite_same]
    · rw [hsuite, takeoverDropped, getSuite_updSuite_same]

end Sys2Proof.Machine
end

section
/-!
PROOFS. Management packets: what arrives on a port, what is relayed, and what gets no answer (rules R296, R298, R369, R376 to R378, R383, R385, R389).
-/
open Sys2Proof Sys2Proof.Says

namespace Sys2Proof.Machine
section
variable {s : State} {port tag : Nat} {raw e : Bytes} {src : Src} {w : Waiting} {b : Broadcast} {p : Packet}

/-! A packet on a port. -/

/-- The state with a packet's buffers freed. -/
def buffersFreed (s : State) (port : Nat) (raw : Bytes) : State := sendControl s port (mgmtCredit raw)

theorem buffersFreed_only : buffersFreed s port raw
    = { s with ports := (buffersFreed s port raw).ports, outbox := (buffersFreed s port raw).outbox } := sendControl_only ..

theorem buffersFreed_fw : (buffersFreed s port raw).fw = s.fw := by rw [buffersFreed_only]

theorem execMgmtPacket_up (hd : s.dev ≠ .off) (hp : portPresent s port = true) (hu : (getPort s port).state = portUp)
    (hs : s.fw.serving = true ∨ s.fw.inActivation = true) : exec (.mgmtPacket port raw) s = .next (takePacket (buffersFreed s port raw) port raw) := by
  show execMgmtPacket port raw s = _
  unfold execMgmtPacket
  refine whenDo_true _ _ _ ?_
  rw [hp, hu, decide_eq_true hd]
  obtain hs | hs := hs <;> simp [hs]

theorem takePacket_activation (h : s.fw.inActivation = true) :
    takePacket s port raw = { s with fw := { s.fw with heldPackets := s.fw.heldPackets ++ [(port, raw)] } } := by
  unfold takePacket
  exact if_pos h

/-- Whether a packet is whole, and its check is right. -/
def goodPacket (raw : Bytes) : Bool := decide (16 ≤ raw.length) && decide (fieldAt raw 12 4 = crc32 (raw.take 12 ++ (parsePacket raw).payload))

theorem takePacket_serving (h : s.fw.inActivation = false) : takePacket s port raw
    = if bit (parsePacket raw).flags 0 then
        (if goodPacket raw then takeReply (hearFrom s port (parsePacket raw)) port (parsePacket raw) else s)
      else receivePacket (if goodPacket raw then hearFrom s port (parsePacket raw) else s) (.link port) raw := by
  unfold takePacket
  exact if_neg (by rw [h]; decide)

/-- The state with a reply counted that nothing awaits. -/
def replyUnawaited (s : State) : State := { s with mgr := { s.mgr with lateReplies := satInc 16 s.mgr.lateReplies } }

theorem takeReply_unawaited (ha : SMap.has s.mgr.asked p.tag = false) (hb : s.mgr.broadcasts = []) (hr : s.rings = []) (hp : p.opcode ≠ 0x0602)
    (hu : unheeded p.opcode = false) : takeReply s port p = replyUnawaited s := by
  have hgather : s.mgr.broadcasts.find? (fun b => b.waiting.contains p.tag) = none := by rw [hb]; rfl
  have hrelayed : s.rings.findSome? (fun q => (q.2.queue.find? (fun w => w.executing && decide (w.note = [p.tag]) && !(isHere s (keySrc q.1) w.pkt))).map
      (fun w => (keySrc q.1, w))) = none := by
    rw [hr]
    rfl
  unfold takeReply
  dsimp only
  rw [if_neg (by rw [ha]; decide), hgather]
  dsimp only
  rw [hrelayed]
  exact (if_neg hp).trans (if_neg (by rw [hu]; decide))

/-! A relayed packet. -/

theorem sendRelay_only : sendRelay s p port = { s with
    ports := (sendRelay s p port).ports, outbox := (sendRelay s p port).outbox
    mgr := { s.mgr with nextTag := (s.mgr.nextTag + 1) % 2 ^ 32, relayed := satInc 16 s.mgr.relayed } } := by
  unfold sendRelay
  dsimp only
  rw [sendMgmt_only s port _]

theorem dropWaiting_only : dropWaiting s src w = { s with rings := (dropWaiting s src w).rings } := rfl

theorem relayOn_only : relayOn s src w port = { s with
    rings := (relayOn s src w port).rings, ports := (sendRelay s w.pkt port).ports, outbox := (relayOn s src w port).outbox
    mgr := { s.mgr with nextTag := (s.mgr.nextTag + 1) % 2 ^ 32, relayed := satInc 16 s.mgr.relayed } } := by
  unfold relayOn
  dsimp only
  split
  · rw [dropWaiting_only, sendRelay_only]
  · rw [sendRelay_only]
    rfl

/-- A relayed command that wants an answer waits for the one under its next tag. -/
theorem relayOn_waits (hw : w ∈ (getRing s (ringKey src)).queue) (hs : isSilent w.pkt (bodyOf w.pkt) = false) :
    ∃ x, x ∈ (getRing (relayOn s src w port) (ringKey src)).queue ∧ x.executing = true ∧ x.pkt = w.pkt ∧ x.note = [s.mgr.nextTag] := by
  refine ⟨{ w with executing := true, note := [s.mgr.nextTag] }, ?_, rfl, rfl, rfl⟩
  have hring : getRing (sendRelay s w.pkt port) (ringKey src) = getRing s (ringKey src) := by
    rw [sendRelay_only]
    rfl
  unfold relayOn
  dsimp only
  rw [if_neg (by rw [hs]; decide), editWaiting, getRing_updRing_same, hring]
  exact List.mem_map.mpr ⟨w, hw, if_pos rfl⟩

theorem execRelayedPacket_away (hw : (getRing s (ringKey src)).queue.find? (fun w => w.pkt.tag == tag && isRelayed w.pkt && !w.executing && w.reply.isNone) = some w)
    (hst : startable s src w = true) (hs : s.fw.serving = true) (hh : isHere s src w.pkt = false) :
    exec (.relayedPacket src tag) s = .next (relayPacket s src w) := by
  show execRelayedPacket src tag s = _
  unfold execRelayedPacket
  rw [hw]
  dsimp only
  rw [hh]
  exact whenDo_true _ _ _ (by rw [hst, hs]; rfl)

theorem relayPacket_on (hn : fieldAt w.pkt.payload 12 1 < 6) (hp : nextPort s src w.pkt = some port) (ha : isAttaching s w.pkt = false) :
    relayPacket s src w = relayOn s src w port := by
  unfold relayPacket
  rw [if_pos hn, hp]
  exact if_neg (by rw [ha]; exact Bool.false_ne_true)

theorem relayPacket_nowhere (h : 6 ≤ fieldAt w.pkt.payload 12 1 ∨ nextPort s src w.pkt = none) (hs : isSilent w.pkt (bodyOf w.pkt) = false) :
    relayPacket s src w = finish (editWaiting s src w (fun x => { x with executing := true })) src w.pkt.tag 0x0302 0 [] := by
  have hnone : (if fieldAt w.pkt.payload 12 1 < 6 then nextPort s src w.pkt else none) = none := by
    split
    · next hlt => exact h.resolve_left (Nat.not_le.mpr hlt)
    · rfl
  unfold relayPacket
  rw [hnone]
  exact if_neg (by rw [hs]; decide)

/-- The envelope that goes on counts one hop more. -/
theorem relayEnvelope_hops (h : fieldAt e 12 1 < 6) : fieldAt (relayEnvelope e) 12 1 = fieldAt e 12 1 + 1 := by
  unfold relayEnvelope
  rw [List.append_assoc, fieldAt, bytesAt_append_right (Nat.le_of_eq (bytesAt_length e 0 12)), bytesAt_length]
  exact (fieldAt_natLE_append (fieldAt e 12 1 + 1) 1 (natLE 0 3)).trans (Nat.mod_eq_of_lt (by omega))

theorem relayEnvelope_front : (relayEnvelope e).take 12 = bytesAt e 0 12 := by
  unfold relayEnvelope
  rw [List.append_assoc]
  exact List.take_left' (bytesAt_length e 0 12)

/-! A gather whose wait ends. -/

/-- A gather whose missing answers are counted as silent. -/
def gatherSilent (b : Broadcast) : Broadcast := { b with waiting := [], silent := b.silent + b.waiting.length }

theorem execBroadcastReplyTimeout_due (hb : s.mgr.broadcasts.find? (fun x => x.tag == tag) = some b) (hw : executingOf s b.src tag = some w)
    (ht : b.since + gatherWait s w ≤ s.bell.count) : ∃ no, exec (.broadcastReplyTimeout tag) s
    = .next (if w.pkt.opcode = 0x0501 ∨ w.pkt.opcode = 0x0502 then endAsk s b.src tag 0x0405 0 []
        else if w.pkt.opcode = 0x0300 ∨ w.pkt.opcode = 0x0302 then failStart s no b 0x0405 0
        else closeGather { s with mgr := { s.mgr with asked := s.mgr.asked.filter (fun q => !(b.waiting.contains q.1)) } } (gatherSilent b)) := by
  show ∃ no, execBroadcastReplyTimeout tag s = _
  unfold execBroadcastReplyTimeout
  rw [hb]
  dsimp only
  rw [hw]
  exact ⟨_, whenDo_true _ _ _ (decide_eq_true ht)⟩

theorem gatherBody_counts : (gatherBody b).take 12 = natLE b.okCount 4 ++ natLE b.failCount 4 ++ natLE b.silent 4 := by
  unfold gatherBody
  exact List.take_left' (by simp only [List.length_append, natLE_length])

end

/-- Settles O27. -/
theorem managementPacketsArriveAndAreRelayed : Obligations.ManagementPacketsArriveAndAreRelayed := by
  refine ⟨fun s port raw hd hp hu => ⟨fun ha => ?_, fun ha hs hf hl hc => ?_, fun ha hs hf hc => ?_, fun ha hs hf hl hc hask hb hr hop hun => ?_⟩,
    fun s src tag w hw hst hs hh => ⟨fun port hn hp ha => ?_, fun hn hsil => ?_, fun e he => ⟨relayEnvelope_hops he, relayEnvelope_front⟩⟩,
    fun s tag b w hb hw ht => ⟨fun h1 h2 h3 h4 => ?_, fun hop => ?_, gatherBody_counts⟩⟩
  · rw [execMgmtPacket_up hd hp hu (.inr ha), takePacket_activation (by rw [buffersFreed_fw]; exact ha), buffersFreed_fw]
    rfl
  · have hgood : goodPacket raw = true := by rw [goodPacket, decide_eq_true hl, decide_eq_true hc]; rfl
    rw [execMgmtPacket_up hd hp hu (.inl hs), takePacket_serving (by rw [buffersFreed_fw]; exact ha), hf, hgood]
    rfl
  · have hbad : goodPacket raw = false := by rw [goodPacket, decide_eq_false hc]; exact Bool.and_false _
    rw [execMgmtPacket_up hd hp hu (.inl hs), takePacket_serving (by rw [buffersFreed_fw]; exact ha), hf, hbad]
    rfl
  · have hgood : goodPacket raw = true := by rw [goodPacket, decide_eq_true hl, decide_eq_true hc]; rfl
    have honly := buffersFreed_only (s := s) (port := port) (raw := raw)
    refine ⟨replyUnawaited (hearFrom (buffersFreed s port raw) port (parsePacket raw)), ?_, rfl, ?_, ?_, ?_⟩
    · rw [execMgmtPacket_up hd hp hu (.inl hs), takePacket_serving (by rw [buffersFreed_fw]; exact ha), hf, hgood, if_pos rfl, if_pos rfl]
      refine congrArg _ (takeReply_unawaited ?_ ?_ ?_ hop hun)
      · rw [honly]
        exact hask
      · rw [honly]
        exact hb
      · rw [honly]
        exact hr
    · rw [honly]
      rfl
    · rw [honly]
      rfl
    · rw [honly]
      rfl
  · have hmem := List.mem_of_find?_eq_some hw
    refine ⟨relayOn s src w port, ?_, ?_, fun hsil => relayOn_waits hmem hsil, ?_⟩
    · rw [execRelayedPacket_away hw hst hs hh, relayPacket_on hn hp ha]
    · rw [relayOn_only]
    · rw [relayOn_only]
  · have htag : w.pkt.tag = tag := by
      have hfound := List.find?_some hw
      simp only [Bool.and_eq_true, beq_iff_eq] at hfound
      exact hfound.1.1.1
    rw [execRelayedPacket_away hw hst hs hh, relayPacket_nowhere hn hsil, htag]
  · obtain ⟨no, hexec⟩ := execBroadcastReplyTimeout_due hb hw ht
    rw [hexec, if_neg (not_or.mpr ⟨h1, h2⟩), if_neg (not_or.mpr ⟨h3, h4⟩)]
    rfl
  · obtain ⟨no, hexec⟩ := execBroadcastReplyTimeout_due hb hw ht
    rw [hexec, if_pos hop]

end Sys2Proof.Machine
end
